-- ==== Sys2Proof/Word.lean ====
section
/-! DEFINITION. The widths of the machine: bytes, halfwords, 4-byte words and 64-bit words (R7), and the
field names of R181. Bit 0 is the least significant bit and the machine is little-endian (R7). -/

namespace Sys2Proof

/-- A byte of storage. -/
abbrev Byte := BitVec 8
/-- A halfword: the unit in which an instruction line is divided (R174). -/
abbrev Half := BitVec 16
/-- A 4-byte word: the unit of coherence (R132) and of single-copy atomicity (R157). -/
abbrev Word32 := BitVec 32
/-- A scalar register's width (R42). -/
abbrev Word := BitVec 64
/-- A scalar register field (R181). -/
abbrev SReg := BitVec 6
/-- A vector register field (R181). -/
abbrev VNum := BitVec 5
/-- A mask register field (R181). -/
abbrev MNum := BitVec 4
/-- A tile register field (R181). -/
abbrev TNum := BitVec 3
/-- A timeline number (R178). -/
abbrev TL := BitVec 4
/-- A scope code (R149). -/
abbrev Scope := BitVec 3
/-- A 6-bit format tag: bit 5 is "scaled", bits 4:0 the format (R56). -/
abbrev Tag := BitVec 6
/-- A cause code (R12). -/
abbrev Code := BitVec 8

end Sys2Proof
end

