-- ==== Sys2Proof/Syntax.lean ====
section
/-! DEFINITION. The instructions and operations of the machine as data: the operand forms of R181, the gates of
R178, the payloads of the device's own operations and events (95_what_each_step_holds.md), and Instr, with one
constructor for each row of spec/opcode_table.json. -/

namespace Sys2Proof

/-- A wait gate: hold the instruction until T(tl) reaches the register's value, then acquire (R178). -/
structure WaitGate where
  tl : TL
  thr : SReg
  scp : Scope
  deriving DecidableEq, Repr

/-- A post gate: take the next number of tl at issue and post at completion (R178). -/
structure PostGate where
  tl : TL
  scp : Scope
  deriving DecidableEq, Repr

/-- The gates of an instruction, wait first (R178). -/
structure Gates where
  wait : Option WaitGate
  post : Option PostGate
  deriving DecidableEq, Repr

/-- Form C (R181). -/
structure FormC where
  code : BitVec 8
  sx : SReg
  deriving DecidableEq, Repr

/-- Form A (R181). -/
structure FormA where
  sy : SReg
  sx : SReg
  deriving DecidableEq, Repr

/-- Form H (R181). -/
structure FormH where
  sx : SReg
  type : BitVec 10
  deriving DecidableEq, Repr

/-- Form K (R181). -/
structure FormK where
  mz : MNum
  my : MNum
  mx : MNum
  deriving DecidableEq, Repr

/-- Form B (R181). -/
structure FormB where
  sz : SReg
  sy : SReg
  sx : SReg
  deriving DecidableEq, Repr

/-- Form I (R181). -/
structure FormI where
  imm : BitVec 20
  sy : SReg
  sx : SReg
  deriving DecidableEq, Repr

/-- Form J (R181): a signed target offset in halfwords. -/
structure FormJ where
  off : BitVec 20
  sy : SReg
  sx : SReg
  deriving DecidableEq, Repr

/-- Form L (R181): a signed target offset in halfwords. -/
structure FormL where
  off : BitVec 26
  sx : SReg
  deriving DecidableEq, Repr

/-- Form F (R181). -/
structure FormF where
  satm : BitVec 2
  rnd : BitVec 3
  fmt : BitVec 5
  sz : SReg
  sy : SReg
  sx : SReg
  deriving DecidableEq, Repr

/-- Form E (R181). -/
structure FormE where
  sw : SReg
  sz : SReg
  sy : SReg
  sx : SReg
  deriving DecidableEq, Repr

/-- Form Y (R181). -/
structure FormY where
  stn : BitVec 4
  sb : SReg
  sa : SReg
  va : VNum
  vd : VNum
  deriving DecidableEq, Repr

/-- Form W (R181). -/
structure FormW where
  imm : BitVec 48
  sx : SReg
  deriving DecidableEq, Repr

/-- Form V (R181). -/
structure FormV where
  im : BitVec 1
  fv : BitVec 1
  vc : VNum
  sc : BitVec 1
  satm : BitVec 2
  rnd : BitVec 3
  fmt : BitVec 5
  msk : BitVec 1
  mreg : MNum
  sb : SReg
  bs : BitVec 1
  vb : VNum
  va : VNum
  vd : VNum
  deriving DecidableEq, Repr

/-- Form M (R181). -/
structure FormM where
  sc : BitVec 1
  fv : BitVec 1
  fmt : BitVec 5
  scp : Scope
  ord : BitVec 2
  pol : BitVec 2
  or : BitVec 1
  msk : BitVec 1
  mreg : MNum
  vi : VNum
  sb : SReg
  sa : SReg
  vd : VNum
  deriving DecidableEq, Repr

/-- Form S (R181). -/
structure FormS where
  scp : Scope
  ord : BitVec 2
  pol : BitVec 2
  off : BitVec 16
  sy : SReg
  sx : SReg
  deriving DecidableEq, Repr

/-- Form X (R181). -/
structure FormX where
  or : BitVec 1
  vi : VNum
  msk : BitVec 1
  mreg : MNum
  w64 : BitVec 1
  scp : Scope
  ord : BitVec 2
  pol : BitVec 2
  sw : SReg
  sz : SReg
  sy : SReg
  sx : SReg
  deriving DecidableEq, Repr

/-- Form T (R181). -/
structure FormT where
  satm : BitVec 2
  rnd : BitVec 3
  sc : BitVec 1
  fmt : BitVec 5
  pol : BitVec 2
  or : BitVec 1
  sb : SReg
  sa : SReg
  va : VNum
  ty : TNum
  tx : TNum
  deriving DecidableEq, Repr

/-- The common fields of a Lortar word: WAIT, SIGE and SIG (R352). -/
structure LBar where
  wait : BitVec 8
  sige : BitVec 1
  sig : BitVec 3
  deriving DecidableEq, Repr

/-- Lortar form S (R353). -/
structure LFormS where
  bar : LBar
  kd : BitVec 5
  ka : BitVec 5
  kb : BitVec 5
  imm : BitVec 30
  deriving DecidableEq, Repr

/-- Lortar form X (R353). -/
structure LFormX where
  bar : LBar
  xd : BitVec 4
  xa : BitVec 4
  xb : BitVec 4
  ka : BitVec 5
  kb : BitVec 5
  fmt : BitVec 5
  or : BitVec 1
  pol : BitVec 2
  ord : BitVec 2
  scp : Scope
  rnd : BitVec 3
  satm : BitVec 2
  deriving DecidableEq, Repr

/-- Where an instruction executes: the control thread, the strip with a given STRIPB, or the wayfarer thread of
one position of that strip (R15, R30). -/
inductive Place where
  | ctl
  | strip (stripb : Nat)
  | lane (stripb : Nat) (pos : Nat)
  deriving DecidableEq, Repr

/-- A party that issues instructions: a context, by its number within the device (R14), and the place. -/
structure Party where
  ctx : Nat
  place : Place
  deriving DecidableEq, Repr

/-- A line of storage: its base in the 56-bit domain physical space, and, for a column line of an oriented
square, the column number and the element width in bytes (R96, R100). For a column line the base is the
square's. -/
structure LineKey where
  base : Nat
  col : Option (Nat × Nat)
  deriving DecidableEq, Repr

/-- The six requests of R134. -/
inductive HomeReq where
  | trackedLoad (own : Bool)
  | untrackedLoad
  | ownStore
  | throughStore
  | sisStore
  | atomic
  deriving DecidableEq, Repr

/-- A coherence message of R398 with its data part when DATA is 1. -/
structure Msg where
  src : Nat
  dst : Nat
  tag : BitVec 16
  scp : Scope
  pol : BitVec 2
  grant : BitVec 2
  aux : BitVec 8
  addr : BitVec 64
  colLine : Bool
  fp : Bool
  w64 : Bool
  data : Bool
  mask : BitVec 128
  line : BitVec 1024
  check : BitVec 32
  poison : Bool
  deriving DecidableEq, Repr

/-- A Turnpike flit as the link layer sees it (R397): the header fields, whether the LCRC is correct, and the
messages of the BODY, each as its type and contents. -/
structure Flit where
  seq : BitVec 16
  ack : BitVec 16
  cred : BitVec 16
  lcrcOk : Bool
  msgs : List (BitVec 8 × Msg)
  deriving DecidableEq, Repr

/-- The TRAIN record of R396. -/
structure TrainRec where
  majlo : BitVec 8
  majhi : BitVec 8
  minor : BitVec 8
  dev : BitVec 8
  link : BitVec 8
  serial : BitVec 64
  credit : List (BitVec 8)
  deriving DecidableEq, Repr

/-- A request on a Concierge channel: the header of R404 and the payload. -/
structure Req where
  chan : Nat
  magic : BitVec 16
  vmaj : Byte
  vmin : Byte
  op : BitVec 16
  status : BitVec 16
  tag : Word
  job : Word
  len : BitVec 32
  zero : BitVec 32
  payload : List Byte
  deriving DecidableEq, Repr

/-- Who made a system call: a native context (scall, R224) or the control program of a job (ecall, R381). -/
inductive Caller where
  | native (ctx : Nat)
  | control (job : Nat)
  deriving DecidableEq, Repr

/-- A barrier event that reaches a home atomic unit (R306): the party, whether it drops, and its result register. -/
structure BarrierEvent where
  ctx : Nat
  drop : Bool
  sx : SReg
  deriving DecidableEq, Repr

/-- A RISC-V exception of the control program (R434). -/
inductive CpException where
  | illegal
  | misaligned
  | accessFault
  | pageFault
  | breakpoint
  deriving DecidableEq, Repr

/-- What a REGISTER_WRITE writes: a bind record of the slot table or a key-rack entry (R426, R295). -/
inductive StewardReg where
  | slot (ctx : Nat) (value : BitVec 512)
  | key (entry : Nat) (job : Nat) (value : BitVec 128)
  deriving DecidableEq, Repr

/-- What arrives on a network receive queue (R284). -/
inductive QueueTraffic where
  | bytes (bs : List Byte)
  | close
  deriving DecidableEq, Repr

/-- Where a soft error is found (R461). -/
inductive ErrorSite where
  | line (base : Nat)
  | scalarReg (ctx : Nat) (r : SReg)
  | vectorWord (ctx : Nat) (v : VNum) (word : Nat)
  deriving DecidableEq, Repr

/-- One member's contribution to a collective: its rank, which of its collectives on the group this is, the fields in which all
members agree (R293), and its source bytes as they were read at that member (R292). -/
structure Contribution where
  rank : Nat
  k : Nat
  op : Nat
  ftag : Nat
  count : Nat
  root : Nat
  bytes : List Byte
  deriving DecidableEq, Repr

/-- Every row of spec/opcode_table.json: native instructions (R184), Lortar instructions (R354), and the
operations and events of the device (95_what_each_step_holds.md), whose arguments are what comes in. -/
inductive Instr where
  /-- NOP: Changes no state; a wait gate holds it and a post gate posts at issue (R219). -/
  | nop (g : Gates)
  /-- HALT: Ends the control thread; issued operations continue and the unit completes when they have completed (R221). -/
  | halt (g : Gates)
  /-- VSYNC: Stalls until every dispatched block of the context has passed its commit point, then acquires at scope 0 (R216). -/
  | vsync (g : Gates)
  /-- FENCE_NEAR: Costs nothing and lies wholly before or after any far-fence serialisation point (R220). -/
  | fenceNear (g : Gates)
  /-- TLWAIT: Waits until T of the named timeline reaches the threshold, then acquires at the gate scope (R218). -/
  | tlwait (g : Gates)
  /-- WEXIT: Ends the wayfarer thread that executes it; its flags join the strip's (R222). -/
  | wexit (g : Gates)
  /-- ADD: Writes the 64-bit sum of two scalar registers (R199). -/
  | add (g : Gates) (o : FormB)
  /-- SUB: Writes the 64-bit difference of two scalar registers (R199). -/
  | sub (g : Gates) (o : FormB)
  /-- AND: Writes the bitwise and of two scalar registers (R199). -/
  | and (g : Gates) (o : FormB)
  /-- OR: Writes the bitwise or of two scalar registers (R199). -/
  | or (g : Gates) (o : FormB)
  /-- XOR: Writes the bitwise exclusive-or of two scalar registers (R199). -/
  | xor (g : Gates) (o : FormB)
  /-- SLL: Shifts left by the low 6 bits of the second operand (R199). -/
  | sll (g : Gates) (o : FormB)
  /-- SRL: Shifts right logically by the low 6 bits of the second operand (R199). -/
  | srl (g : Gates) (o : FormB)
  /-- SRA: Shifts right arithmetically by the low 6 bits of the second operand (R199). -/
  | sra (g : Gates) (o : FormB)
  /-- SLT: Writes 1 when the first operand is signed-less than the second (R199). -/
  | slt (g : Gates) (o : FormB)
  /-- SLTU: Writes 1 when the first operand is unsigned-less than the second (R199). -/
  | sltu (g : Gates) (o : FormB)
  /-- MUL: Writes the low 64 bits of the product (R199). -/
  | mul (g : Gates) (o : FormB)
  /-- DIV: Signed division truncating toward zero, with fixed results for zero divisor and overflow (R199). -/
  | div (g : Gates) (o : FormB)
  /-- DIVU: Unsigned division, all ones on a zero divisor (R199). -/
  | divu (g : Gates) (o : FormB)
  /-- REM: Signed remainder taking the dividend's sign (R199). -/
  | rem (g : Gates) (o : FormB)
  /-- REMU: Unsigned remainder, the dividend on a zero divisor (R199). -/
  | remu (g : Gates) (o : FormB)
  /-- ADDI: Adds a sign-extended 20-bit immediate (R200). -/
  | addi (g : Gates) (o : FormI)
  /-- ANDI: Ands with a sign-extended immediate (R200). -/
  | andi (g : Gates) (o : FormI)
  /-- ORI: Ors with a sign-extended immediate (R200). -/
  | ori (g : Gates) (o : FormI)
  /-- XORI: Exclusive-ors with a sign-extended immediate (R200). -/
  | xori (g : Gates) (o : FormI)
  /-- SLLI: Shifts left by an immediate 0 to 63 (R200). -/
  | slli (g : Gates) (o : FormI)
  /-- SRLI: Shifts right logically by an immediate 0 to 63 (R200). -/
  | srli (g : Gates) (o : FormI)
  /-- SRAI: Shifts right arithmetically by an immediate 0 to 63 (R200). -/
  | srai (g : Gates) (o : FormI)
  /-- MOV: Copies one scalar register to another (R201). -/
  | mov (g : Gates) (o : FormA)
  /-- NOT: Writes the bitwise complement (R201). -/
  | not (g : Gates) (o : FormA)
  /-- CLZ: Writes the count of leading zero bits (R201). -/
  | clz (g : Gates) (o : FormA)
  /-- CPOP: Writes the count of one bits (R201). -/
  | cpop (g : Gates) (o : FormA)
  /-- BEQ: Branches when two registers are equal (R203). -/
  | beq (g : Gates) (o : FormJ)
  /-- BNE: Branches when two registers differ (R203). -/
  | bne (g : Gates) (o : FormJ)
  /-- BLT: Branches on signed less-than (R203). -/
  | blt (g : Gates) (o : FormJ)
  /-- BGE: Branches on signed greater-or-equal (R203). -/
  | bge (g : Gates) (o : FormJ)
  /-- BLTU: Branches on unsigned less-than (R203). -/
  | bltu (g : Gates) (o : FormJ)
  /-- BGEU: Branches on unsigned greater-or-equal (R203). -/
  | bgeu (g : Gates) (o : FormJ)
  /-- JMP: Transfers to a checked PC-relative target (R204). -/
  | jmp (g : Gates) (o : FormL)
  /-- CALL: Writes the next address to s1 and transfers to a PC-relative target (R204). -/
  | call (g : Gates) (o : FormL)
  /-- JR: Transfers to the address in a register (R204). -/
  | jr (g : Gates) (o : FormA)
  /-- CALLR: Calls the address in a register, writing the return address to s1 (R204). -/
  | callr (g : Gates) (o : FormA)
  /-- CALLT: Loads a function-table entry, checks its signature and calls its target (R205). -/
  | callt (g : Gates) (o : FormA)
  /-- VBLK: Places a dispatch entry with snapshot, SEED and FCTL in the block queue (R215). -/
  | vblk (g : Gates) (o : FormA)
  /-- LI: Writes a sign-extended 48-bit immediate (R202). -/
  | li (g : Gates) (o : FormW)
  /-- LEA: Writes the instruction address plus a signed byte offset (R202). -/
  | lea (g : Gates) (o : FormW)
  /-- FADD: Scalar floating-point addition rounded once (R208). -/
  | fadd (g : Gates) (o : FormF)
  /-- FSUB: Scalar floating-point subtraction rounded once (R208). -/
  | fsub (g : Gates) (o : FormF)
  /-- FMUL: Scalar floating-point multiplication rounded once (R208). -/
  | fmul (g : Gates) (o : FormF)
  /-- FDIV: Scalar floating-point division rounded once (R208). -/
  | fdiv (g : Gates) (o : FormF)
  /-- FEQ: Writes 1 when two floating-point values compare equal (R209). -/
  | feq (g : Gates) (o : FormF)
  /-- FLT: Writes 1 when the first value is less than the second (R209). -/
  | flt (g : Gates) (o : FormF)
  /-- FLE: Writes 1 when the first value is less than or equal to the second (R209). -/
  | fle (g : Gates) (o : FormF)
  /-- FCVT: Converts a scalar value between two named formats (R210). -/
  | fcvt (g : Gates) (o : FormF)
  /-- CRD: Reads a control register into a scalar register (R212). -/
  | crd (g : Gates) (o : FormC)
  /-- CWR: Writes a scalar value into a writable control register after ordered checks (R213). -/
  | cwr (g : Gates) (o : FormC)
  /-- RQGET: Pops the oldest reply-queue entry, stalling or raising 0x84 on an empty queue (R217). -/
  | rqget (g : Gates) (o : FormC)
  /-- SETVL: Strip head that sets VTYPE and VL for each strip at dispatch (R243). -/
  | setvl (g : Gates) (o : FormH)
  /-- SETVL_W: Strip head that also limits VL by a watermark word read with acquire (R169). -/
  | setvlW (g : Gates) (o : FormH)
  /-- VEND: Ends the strip after older instructions complete, checking detached lanes and queue sequence (R244). -/
  | vend (g : Gates)
  /-- VREJOIN: Completes when every detached lane has executed wexit (R245). -/
  | vrejoin (g : Gates)
  /-- VLSET: Loads a strip-local loop counter (R246). -/
  | vlset (g : Gates) (o : FormA)
  /-- VLOOP: Decrements a loop counter and branches while it was at least 2 (R247). -/
  | vloop (g : Gates) (o : FormL)
  /-- VBANY: Branches when some mask bit below VL is set (R248). -/
  | vbany (g : Gates) (o : FormL)
  /-- VBNONE: Branches when no mask bit below VL is set (R248). -/
  | vbnone (g : Gates) (o : FormL)
  /-- VADD: Elementwise integer addition modulo 2^w (R249). -/
  | vadd (g : Gates) (o : FormV)
  /-- VSUB: Elementwise integer subtraction (R249). -/
  | vsub (g : Gates) (o : FormV)
  /-- VMUL: Elementwise low product (R249). -/
  | vmul (g : Gates) (o : FormV)
  /-- VMULH: Elementwise high product (R249). -/
  | vmulh (g : Gates) (o : FormV)
  /-- VMIN: Elementwise integer minimum (R249). -/
  | vmin (g : Gates) (o : FormV)
  /-- VMAX: Elementwise integer maximum (R249). -/
  | vmax (g : Gates) (o : FormV)
  /-- VAND: Elementwise bitwise and (R249). -/
  | vand (g : Gates) (o : FormV)
  /-- VOR: Elementwise bitwise or (R249). -/
  | vor (g : Gates) (o : FormV)
  /-- VXOR: Elementwise bitwise exclusive-or (R249). -/
  | vxor (g : Gates) (o : FormV)
  /-- VSLL: Elementwise left shift (R249). -/
  | vsll (g : Gates) (o : FormV)
  /-- VSRL: Elementwise logical right shift (R249). -/
  | vsrl (g : Gates) (o : FormV)
  /-- VSRA: Elementwise arithmetic right shift (R249). -/
  | vsra (g : Gates) (o : FormV)
  /-- VSADD: Elementwise saturating addition (R249). -/
  | vsadd (g : Gates) (o : FormV)
  /-- VSSUB: Elementwise saturating subtraction (R249). -/
  | vssub (g : Gates) (o : FormV)
  /-- VDIV: Elementwise integer division (R249). -/
  | vdiv (g : Gates) (o : FormV)
  /-- VREM: Elementwise integer remainder (R249). -/
  | vrem (g : Gates) (o : FormV)
  /-- VFADD: Elementwise floating-point addition (R250). -/
  | vfadd (g : Gates) (o : FormV)
  /-- VFSUB: Elementwise floating-point subtraction (R250). -/
  | vfsub (g : Gates) (o : FormV)
  /-- VFMUL: Elementwise floating-point multiplication (R250). -/
  | vfmul (g : Gates) (o : FormV)
  /-- VFDIV: Elementwise floating-point division (R250). -/
  | vfdiv (g : Gates) (o : FormV)
  /-- VFMA: Elementwise fused multiply-add rounded once (R250). -/
  | vfma (g : Gates) (o : FormV)
  /-- VFMS: Elementwise fused multiply-subtract rounded once (R250). -/
  | vfms (g : Gates) (o : FormV)
  /-- VFMIN: Elementwise floating-point minimum (R251). -/
  | vfmin (g : Gates) (o : FormV)
  /-- VFMAX: Elementwise floating-point maximum (R251). -/
  | vfmax (g : Gates) (o : FormV)
  /-- VFSQRT: Elementwise square root rounded once (R250). -/
  | vfsqrt (g : Gates) (o : FormV)
  /-- VFABS: Clears the sign bit of each active element (R251). -/
  | vfabs (g : Gates) (o : FormV)
  /-- VFNEG: Inverts the sign bit of each active element (R251). -/
  | vfneg (g : Gates) (o : FormV)
  /-- VMSEQ: Sets mask bits where elements are equal (R253). -/
  | vmseq (g : Gates) (o : FormV)
  /-- VMSNE: Sets mask bits where elements differ (R253). -/
  | vmsne (g : Gates) (o : FormV)
  /-- VMSLT: Sets mask bits on less-than under the format's signedness (R253). -/
  | vmslt (g : Gates) (o : FormV)
  /-- VMSLE: Sets mask bits on less-or-equal under the format's signedness (R253). -/
  | vmsle (g : Gates) (o : FormV)
  /-- VMSLTU: Sets mask bits on unsigned less-than (R253). -/
  | vmsltu (g : Gates) (o : FormV)
  /-- VMSLEU: Sets mask bits on unsigned less-or-equal (R253). -/
  | vmsleu (g : Gates) (o : FormV)
  /-- VMFEQ: Sets mask bits on floating-point equality (R253). -/
  | vmfeq (g : Gates) (o : FormV)
  /-- VMFLT: Sets mask bits on floating-point less-than (R253). -/
  | vmflt (g : Gates) (o : FormV)
  /-- VMFLE: Sets mask bits on floating-point less-or-equal (R253). -/
  | vmfle (g : Gates) (o : FormV)
  /-- MAND: Ands two mask registers below VL (R254). -/
  | mand (g : Gates) (o : FormK)
  /-- MOR: Ors two mask registers below VL (R254). -/
  | mor (g : Gates) (o : FormK)
  /-- MXOR: Exclusive-ors two mask registers below VL (R254). -/
  | mxor (g : Gates) (o : FormK)
  /-- MNOT: Complements a mask register below VL (R254). -/
  | mnot (g : Gates) (o : FormK)
  /-- MMV: Copies a mask register below VL (R254). -/
  | mmv (g : Gates) (o : FormK)
  /-- MSBF: Sets mask bits before the first set bit (R254). -/
  | msbf (g : Gates) (o : FormK)
  /-- MSIF: Sets mask bits up to and including the first set bit (R254). -/
  | msif (g : Gates) (o : FormK)
  /-- MSOF: Sets only the first set bit (R254). -/
  | msof (g : Gates) (o : FormK)
  /-- MCNT: Pushes the count of set mask bits below VL to the reply queue (R255). -/
  | mcnt (g : Gates) (o : FormK)
  /-- MANY: Pushes whether any mask bit below VL is set (R255). -/
  | many (g : Gates) (o : FormK)
  /-- MFIRST: Pushes the virtual lane of the first set mask bit, or all ones (R255). -/
  | mfirst (g : Gates) (o : FormK)
  /-- VMV: Copies a source into active positions, optionally naming a format tag (R256). -/
  | vmv (g : Gates) (o : FormV)
  /-- VID: Writes each position's virtual lane index (R257). -/
  | vid (g : Gates) (o : FormV)
  /-- VCOMPRESS: Packs selected elements from position 0 (R258). -/
  | vcompress (g : Gates) (o : FormV)
  /-- VEXPAND: Scatters consecutive elements to selected positions (R258). -/
  | vexpand (g : Gates) (o : FormV)
  /-- VSLIDEUP: Moves elements up by an offset within the strip (R259). -/
  | vslideup (g : Gates) (o : FormV)
  /-- VSLIDEDN: Moves elements down by an offset within the strip (R259). -/
  | vslidedn (g : Gates) (o : FormV)
  /-- VGATHER: Reads elements at indices given by a vector (R260). -/
  | vgather (g : Gates) (o : FormV)
  /-- VMERGE: Selects between two sources under a mask (R261). -/
  | vmerge (g : Gates) (o : FormV)
  /-- VREDSUM: Integer sum reduction into position 0 (R263). -/
  | vredsum (g : Gates) (o : FormV)
  /-- VFREDO: Ordered floating-point sum reduction (R263). -/
  | vfredo (g : Gates) (o : FormV)
  /-- VFREDT: Tree floating-point sum reduction (R263). -/
  | vfredt (g : Gates) (o : FormV)
  /-- VREDMIN: Minimum reduction into position 0 (R263). -/
  | vredmin (g : Gates) (o : FormV)
  /-- VREDMAX: Maximum reduction into position 0 (R263). -/
  | vredmax (g : Gates) (o : FormV)
  /-- VCVT: Converts each active element into a named format (R264). -/
  | vcvt (g : Gates) (o : FormV)
  /-- VUNPK: Splits e2m1 pairs into a wider format (R265). -/
  | vunpk (g : Gates) (o : FormV)
  /-- VPILGRIM: Writes Pilgrim counter-based random bits per virtual lane (R266). -/
  | vpilgrim (g : Gates) (o : FormV)
  /-- VQPUSH: Sends each lane's value to the next lane through the cross-lane queue (R267). -/
  | vqpush (g : Gates) (o : FormV)
  /-- VQPOP: Receives the previous lane's value, opening a serial region (R267). -/
  | vqpop (g : Gates) (o : FormV)
  /-- VDETACH: Detaches active lanes into wayfarer threads (R271). -/
  | vdetach (g : Gates) (o : FormV)
  /-- VLD: Unit-stride vector load, optionally scaled (R279). -/
  | vld (g : Gates) (o : FormM)
  /-- VST: Unit-stride vector store (R279). -/
  | vst (g : Gates) (o : FormM)
  /-- VLDS: Strided vector load (R279). -/
  | vlds (g : Gates) (o : FormM)
  /-- VSTS: Strided vector store (R279). -/
  | vsts (g : Gates) (o : FormM)
  /-- VLDX: Indexed vector load (R279). -/
  | vldx (g : Gates) (o : FormM)
  /-- VSTX: Indexed vector store (R279). -/
  | vstx (g : Gates) (o : FormM)
  /-- VLDFF: Unit-stride load that faults only at its first position and reports loaded positions in a mask (R280). -/
  | vldff (g : Gates) (o : FormM)
  /-- VTLD: Loads a tensor view row through a shape record (R281). -/
  | vtld (g : Gates) (o : FormM)
  /-- VTST: Stores a tensor view row through a shape record (R281). -/
  | vtst (g : Gates) (o : FormM)
  /-- LB: Scalar signed byte load (R283). -/
  | lb (g : Gates) (o : FormS)
  /-- LBU: Scalar unsigned byte load (R283). -/
  | lbu (g : Gates) (o : FormS)
  /-- LW: Scalar signed 32-bit load (R283). -/
  | lw (g : Gates) (o : FormS)
  /-- LWU: Scalar unsigned 32-bit load (R283). -/
  | lwu (g : Gates) (o : FormS)
  /-- LD: Scalar 64-bit load (R283). -/
  | ld (g : Gates) (o : FormS)
  /-- SB: Scalar byte store (R283). -/
  | sb (g : Gates) (o : FormS)
  /-- SW: Scalar 32-bit store (R283). -/
  | sw (g : Gates) (o : FormS)
  /-- SD: Scalar 64-bit store (R283). -/
  | sd (g : Gates) (o : FormS)
  /-- VBIND: Binds a register to a memory-walk stream (R284). -/
  | vbind (g : Gates) (o : FormV)
  /-- VBINDZ: Binds a register to the context's Satchel channel (R284). -/
  | vbindz (g : Gates) (o : FormV)
  /-- VBINDN: Binds a register to a network receive queue (R284). -/
  | vbindn (g : Gates) (o : FormV)
  /-- VUNBIND: Unbinds a stream so it parks at the commit point, optionally writing a validity mask (R287). -/
  | vunbind (g : Gates) (o : FormV)
  /-- PCOPY: Starts an asynchronous porter copy with a token register (R288). -/
  | pcopy (g : Gates) (o : FormE)
  /-- PCOPYZ: Queues Satchel blocks into the context's decompression channel (R289). -/
  | pcopyz (g : Gates) (o : FormE)
  /-- COLL: Starts the collective described by a 64-byte descriptor (R291). -/
  | coll (g : Gates) (o : FormE)
  /-- RACQ: Acquires a key-rack region key, invalidating the region in L1 (R296). -/
  | racq (g : Gates) (o : FormA)
  /-- RREL: Writes back the region, releases and grants the key to the next waiter (R297). -/
  | rrel (g : Gates) (o : FormA)
  /-- FENCE_FAR: Acquire and release plus serialisation points in every context of the scope (R299). -/
  | fenceFar (g : Gates) (o : FormC)
  /-- AADD: Atomic add returning the old value (R300). -/
  | aadd (g : Gates) (o : FormX)
  /-- AAND: Atomic and (R300). -/
  | aand (g : Gates) (o : FormX)
  /-- AOR: Atomic or (R300). -/
  | aor (g : Gates) (o : FormX)
  /-- AXOR: Atomic exclusive-or (R300). -/
  | axor (g : Gates) (o : FormX)
  /-- AMIN: Atomic signed minimum (R300). -/
  | amin (g : Gates) (o : FormX)
  /-- AMAX: Atomic signed maximum (R300). -/
  | amax (g : Gates) (o : FormX)
  /-- AMINU: Atomic unsigned minimum (R300). -/
  | aminu (g : Gates) (o : FormX)
  /-- AMAXU: Atomic unsigned maximum (R300). -/
  | amaxu (g : Gates) (o : FormX)
  /-- ASWAP: Atomic swap (R300). -/
  | aswap (g : Gates) (o : FormX)
  /-- ACAS: Atomic compare-and-swap (R300). -/
  | acas (g : Gates) (o : FormX)
  /-- AFADD: Atomic f32 addition rounded to nearest even (R300). -/
  | afadd (g : Gates) (o : FormX)
  /-- AFMIN: Atomic f32 minimum (R301). -/
  | afmin (g : Gates) (o : FormX)
  /-- AFMAX: Atomic f32 maximum (R301). -/
  | afmax (g : Gates) (o : FormX)
  /-- VAADD: Per-position atomic integer add returning old values (R303). -/
  | vaadd (g : Gates) (o : FormX)
  /-- VAFADD: Per-position atomic f32 add (R303). -/
  | vafadd (g : Gates) (o : FormX)
  /-- VAMIN: Per-position atomic integer minimum (R303). -/
  | vamin (g : Gates) (o : FormX)
  /-- VAMAX: Per-position atomic integer maximum (R303). -/
  | vamax (g : Gates) (o : FormX)
  /-- VAFMIN: Per-position atomic f32 minimum (R303). -/
  | vafmin (g : Gates) (o : FormX)
  /-- VAFMAX: Per-position atomic f32 maximum (R303). -/
  | vafmax (g : Gates) (o : FormX)
  /-- VRSADD: Unordered integer reduction store per position (R304). -/
  | vrsadd (g : Gates) (o : FormX)
  /-- VRSFADD: Unordered f32 reduction store per position (R304). -/
  | vrsfadd (g : Gates) (o : FormX)
  /-- BARARV: Arrives at a barrier with release, returning the phase (R306). -/
  | bararv (g : Gates) (o : FormS)
  /-- BARDROP: Arrives and drops out of a barrier (R306). -/
  | bardrop (g : Gates) (o : FormS)
  /-- BARWAIT: Waits until the barrier phase passes a value, then acquires (R306). -/
  | barwait (g : Gates) (o : FormS)
  /-- WCARR: Arrives on an arrival counter, subtracting with release (R309). -/
  | wcarr (g : Gates) (o : FormS)
  /-- WCWAIT: Waits until a counter is no longer running, then acquires (R310). -/
  | wcwait (g : Gates) (o : FormS)
  /-- WCCANCEL: Cancels a counter's level or arrival counter (R310). -/
  | wccancel (g : Gates) (o : FormS)
  /-- TLD: Loads a tile through a shape record (R319). -/
  | tld (g : Gates) (o : FormT)
  /-- TST: Stores a tile through a shape record (R319). -/
  | tst (g : Gates) (o : FormT)
  /-- TMMA: Multiplies two tiles into granted accumulator rows (R322). -/
  | tmma (g : Gates) (o : FormT)
  /-- TMMA_S: Sparse gathered multiply using packed indices into B rows in memory (R323). -/
  | tmmaS (g : Gates) (o : FormT)
  /-- TDRAIN: Sends touched accumulator values to memory as reduction stores (R325). -/
  | tdrain (g : Gates) (o : FormT)
  /-- TCVT: Converts accumulator values into a tile (R326). -/
  | tcvt (g : Gates) (o : FormT)
  /-- TZERO: Zeroes the rows of a tile and sets its tag (R320). -/
  | tzero (g : Gates) (o : FormT)
  /-- MATTACH: Claims accumulator bands and sets MGRANT (R315). -/
  | mattach (g : Gates) (o : FormA)
  /-- MDETACH: Waits for matrix work and frees the context's claim (R316). -/
  | mdetach (g : Gates)
  /-- RRUN: Passes one record per strip position through the Relay (R333). -/
  | rrun (g : Gates) (o : FormY)
  /-- RTW: Writes a station table image into the shadow bank (R336). -/
  | rtw (g : Gates) (o : FormY)
  /-- RCOMMIT: Flips the active Relay bank and copies it back to the shadow (R337). -/
  | rcommit (g : Gates) (o : FormY)
  /-- RCLASS: Writes a record-class image into a shadow class slot (R336). -/
  | rclass (g : Gates) (o : FormY)
  /-- RMISS: Writes a shadow miss action or the overflow action (R336). -/
  | rmiss (g : Gates) (o : FormY)
  /-- RSTAT: Reads a cluster-wide Relay counter (R339). -/
  | rstat (g : Gates) (o : FormA)
  /-- SCALL: Releases at device scope and raises 0xE0 to ask the Concierge for a service (R224). -/
  | scall (g : Gates) (o : FormI)
  /-- TRAP: Raises a software cause 0xF0 to 0xFF (R223). -/
  | trap (g : Gates) (o : FormC)
  /-- BKPT: Raises cause 0xC1 precisely at its own address (R226). -/
  | bkpt (tl : BitVec 3)
  /-- KADD: Lortar scalar add (R359). -/
  | kadd (o : LFormS)
  /-- KSUB: Lortar scalar subtract (R359). -/
  | ksub (o : LFormS)
  /-- KMUL: Lortar scalar multiply, low 64 bits (R359). -/
  | kmul (o : LFormS)
  /-- KAND: Lortar scalar and (R359). -/
  | kand (o : LFormS)
  /-- KOR: Lortar scalar or (R359). -/
  | kor (o : LFormS)
  /-- KXOR: Lortar scalar exclusive-or (R359). -/
  | kxor (o : LFormS)
  /-- KSLL: Lortar scalar left shift (R359). -/
  | ksll (o : LFormS)
  /-- KSRL: Lortar scalar logical right shift (R359). -/
  | ksrl (o : LFormS)
  /-- KSRA: Lortar scalar arithmetic right shift (R359). -/
  | ksra (o : LFormS)
  /-- KSLT: Lortar signed set-less-than (R359). -/
  | kslt (o : LFormS)
  /-- KADDI: Lortar add of a signed immediate (R359). -/
  | kaddi (o : LFormS)
  /-- KLI: Lortar load of a sign-extended immediate (R359). -/
  | kli (o : LFormS)
  /-- KBEQ: Lortar branch on equal (R359). -/
  | kbeq (o : LFormS)
  /-- KBNE: Lortar branch on not equal (R359). -/
  | kbne (o : LFormS)
  /-- KBLT: Lortar branch on signed less-than (R359). -/
  | kblt (o : LFormS)
  /-- KBGE: Lortar branch on signed greater-or-equal (R359). -/
  | kbge (o : LFormS)
  /-- KJMP: Lortar unconditional jump within the kernel (R359). -/
  | kjmp (o : LFormS)
  /-- KEND: Waits for outstanding asynchronous work and ends the Lortar kernel (R364). -/
  | kend (o : LFormS)
  /-- LSHAPE: Requests a two-dimensional shape and receives the grant (R357). -/
  | lshape (o : LFormS)
  /-- LWAIT: Waits on the barrier slots named in WAIT (R364). -/
  | lwait (o : LFormS)
  /-- LFENCE: Waits for async work then acquires, releases or both at a scope (R364). -/
  | lfence (o : LFormX)
  /-- XLD: Asynchronously loads the active elements of a tensor register (R360). -/
  | xld (o : LFormX)
  /-- XST: Asynchronously stores the active elements of a tensor register (R360). -/
  | xst (o : LFormX)
  /-- XBCAST: Broadcasts a scalar code into the active elements (R361). -/
  | xbcast (o : LFormX)
  /-- XADD: Lortar elementwise addition (R361). -/
  | xadd (o : LFormX)
  /-- XSUB: Lortar elementwise subtraction (R361). -/
  | xsub (o : LFormX)
  /-- XMUL: Lortar elementwise multiplication (R361). -/
  | xmul (o : LFormX)
  /-- XFMA: Lortar elementwise fused multiply-add (R361). -/
  | xfma (o : LFormX)
  /-- XMIN: Lortar elementwise minimum (R361). -/
  | xmin (o : LFormX)
  /-- XMAX: Lortar elementwise maximum (R361). -/
  | xmax (o : LFormX)
  /-- XCVT: Lortar elementwise conversion between two formats (R362). -/
  | xcvt (o : LFormX)
  /-- XMMA: Lortar asynchronous matrix-product accumulation (R363). -/
  | xmma (o : LFormX)
  /-- LORTAR_ASYNC_COMPLETE: An asynchronous Lortar operation completes and leaves its barrier slot (R365). -/
  | lortarAsyncComplete (ctx : Nat) (id : Nat)
  /-- ECALL: Control-program Concierge system call with release at device scope (R381). -/
  | ecall (job : Nat)
  /-- EBREAK: Stops the control program for its debugger with cause 0xC1 (R434). -/
  | ebreak (job : Nat)
  /-- CONTROL_PROGRAM_EXCEPTION: A RISC-V exception of the control program becomes a cause and ends the job or holds it (R434). -/
  | controlProgramException (job : Nat) (e : CpException) (tval : Word)
  /-- STRIP_DISPATCH: The VLC evaluates the strip head and dispatches the next strip to a free lane group (R22). -/
  | stripDispatch (ctx : Nat)
  /-- WATERMARK_RECHECK: A strip waiting on a watermark rereads it when its tracked copy is invalidated (R169). -/
  | watermarkRecheck (ctx : Nat)
  /-- BLOCK_COMMIT: A block passes its commit point when all strips ended and stores are accepted (R27). -/
  | blockCommit (ctx : Nat)
  /-- WAIT_RESUME: A party waiting on a timeline, gate, barrier, counter or watermark becomes ready once the value is reached (R16). -/
  | waitResume (p : Party)
  /-- REPLY_PUSH: A strip's reply-queue push that waited for lower strips or room is made (R29). -/
  | replyPush (ctx : Nat) (stripb : Nat)
  /-- PREEMPTION_REQUEST: Stops the control thread and strips at boundaries within 256 cycles and saves the context (R36). -/
  | preemptionRequest (ctx : Nat)
  /-- TRAP_DELIVERY: A delivered cause stops and saves the context, writes the trap record and launches the handler (R430). -/
  | trapDelivery (p : Party) (code : Code) (tval : Word) (imprecise : Bool)
  /-- HANDLER_COMPLETE: On handler completion the device acts on DISP to resume, cancel or hold (R431). -/
  | handlerComplete (ctx : Nat)
  /-- COPY_COMPLETE: A porter copy completes, writing its token and becoming eligible to advance its timeline (R119). -/
  | copyComplete (core : Nat) (id : Nat)
  /-- COPY_FAULT: A copy meets a fault, stops and counts complete, with the fault held for the context (R120). -/
  | copyFault (core : Nat) (id : Nat) (written : Nat) (code : Code) (addr : Word)
  /-- SATCHEL_CHECK: The decompression path decides a block's check two cycles after its last byte (R343). -/
  | satchelCheck (ctx : Nat)
  /-- SCRATCHPAD_FRAME_FILL: A stalled access to an unpinned window page pins a frame, fills it and then performs (R105). -/
  | scratchpadFrameFill (ctx : Nat) (page : Nat)
  /-- COLLECTIVE_RUN: After its counter wait a collective reads, combines and writes its data and completes (R294). -/
  | collectiveRun (core : Nat) (id : Nat) (others : List Contribution)
  /-- DRAIN_COMPLETE: A drain completes when every contribution is accepted and posts (R325). -/
  | drainComplete (ctx : Nat) (id : Nat)
  /-- DRAIN_CONTRIBUTION_FAULT: A faulting drain contribution stops the drain and holds the cause (R325). -/
  | drainContributionFault (ctx : Nat) (id : Nat) (accepted : Nat) (code : Code)
  /-- BARRIER_EVENTS_APPLY: The home atomic unit applies a cycle's barrier events to one object (R306). -/
  | barrierEventsApply (job : Nat) (addr : Word) (events : List BarrierEvent)
  /-- RELAY_ADMISSION: The Relay admits one pass per cycle, recirculations first (R340). -/
  | relayAdmission (cluster : Nat)
  /-- RELAY_RECORD_LEAVE: A record leaves and writes its outputs; the run completes when all have left (R335). -/
  | relayRecordLeave (cluster : Nat)
  /-- RCOMMIT_COPYBACK: Once no old-bank record remains the new active bank is copied to the shadow (R337). -/
  | rcommitCopyback (cluster : Nat)
  /-- HOME_REQUEST: The home handles a coherence request and changes each word's state (R134). -/
  | homeRequest (core : Nat) (req : HomeReq) (line : LineKey)
  /-- CORE_DROP_LINE: A core drops a line, sending a drop notice or writing data back (R136). -/
  | coreDropLine (core : Nat) (line : LineKey)
  /-- L2_DROP_LINE: A node's L2 drops a line, invalidating L1 copies and writing dirty data home (R136). -/
  | l2DropLine (die : Nat) (line : LineKey)
  /-- U_LINE_LEASE_EXPIRY: An untracked line's 4,096-cycle lease expires and its unregistered words become invalid (R129). -/
  | uLineLeaseExpiry (core : Nat) (line : LineKey)
  /-- EDGE_FLUSH: The command processor carries out an edge's flush list after a predecessor completes (R419). -/
  | edgeFlush (job : Nat) (lidx : Nat) (edge : Nat)
  /-- STEWARD_BIND: The Steward binds the first waiting unit in order to a free context (R423). -/
  | stewardBind (die : Nat)
  /-- QUANTUM_EXPIRY: A unit's quantum runs out and the Steward may stop it for an equal-priority unit (R424). -/
  | quantumExpiry (ctx : Nat)
  /-- ACCUMULATOR_REVOKE: The Steward revokes the claim of a long switched-out context (R317). -/
  | accumulatorRevoke (ctx : Nat)
  /-- L2_MODE_CHANGE: With no slot running, the die's L2 is written back and switched mode (R104). -/
  | l2ModeChange (die : Nat) (partitioned : Bool)
  /-- GO: Writing GO binds the slot freshly or resumes it from its save area (R427). -/
  | go (ctx : Nat)
  /-- STOP: Writing STOP requests a stop; hardware clears it when the save completes (R426). -/
  | stop (ctx : Nat)
  /-- REGISTER_WRITE: A write to a bind-record or key-rack field with no behaviour of its own (R426). -/
  | registerWrite (r : StewardReg)
  /-- SHOOTDOWN: A change to a valid leaf sets translation points, removes entries and completes (R445). -/
  | shootdown (job : Nat) (va : Word) (leaf : Word)
  /-- PAGE_MIGRATION: A page is marked MIG, shot down, copied and remapped (R446). -/
  | pageMigration (job : Nat) (va : Word) (paddr : Word)
  /-- MIG_WALK_RETRY: A walk stalled on MIG walks again when the entry's line is written (R446). -/
  | migWalkRetry (p : Party)
  /-- HELLO: Negotiates the request-protocol version (R405). -/
  | hello (r : Req)
  /-- JOB_CREATE: Creates a job with code-heap size and wishes and returns its identifier (R406). -/
  | jobCreate (r : Req)
  /-- JOB_END: Cancels the job level and frees its memory and keys (R406). -/
  | jobEnd (r : Req)
  /-- LOAD_IMAGE: Writes image bytes and loads the image once complete (R406). -/
  | loadImage (r : Req)
  /-- START: Starts the control program at CPENTRY (R406). -/
  | start (r : Req)
  /-- LAUNCH: Checks a launch record and enqueues the launch (R413). -/
  | launch (r : Req)
  /-- WAIT: Returns once the named counter is no longer running (R406). -/
  | wait (r : Req)
  /-- CANCEL: Cancels the level or counter that the handle names (R406). -/
  | cancel (r : Req)
  /-- MEM_READ: Reads up to 64 KiB of job memory after checking the range (R471). -/
  | memRead (r : Req)
  /-- MEM_WRITE: Writes bytes to job memory with release after checking the range (R471). -/
  | memWrite (r : Req)
  /-- BREAK_COPY: Maps a private copy of an executable page for one context (R412). -/
  | breakCopy (r : Req)
  /-- BREAK_END: Unmaps the private copy and returns the context to the shared page (R412). -/
  | breakEnd (r : Req)
  /-- CHECKPOINT_SAVE: Stops the job, streams its state to a tier and resumes it (R463). -/
  | checkpointSave (r : Req)
  /-- CHECKPOINT_RESTORE: Restores a checkpoint stream and binds the units from their save areas (R464). -/
  | checkpointRestore (r : Req) (stream : List Byte)
  /-- TELEMETRY: Returns boot status, port and link state and counters (R468). -/
  | telemetry (r : Req)
  /-- ATTEST: Returns a signed attestation report for a nonce (R457). -/
  | attest (r : Req)
  /-- IDCERT: Returns the device identity certificate from flash (R453). -/
  | idcert (r : Req)
  /-- CONFIG: Enables or disables credit-based flow control on a port (R406). -/
  | config (r : Req)
  /-- SYSCALL_VERSION: Returns the Concierge version (R409). -/
  | syscallVersion (c : Caller)
  /-- SYSCALL_LAUNCH: Reads a launch record at an address and launches it (R413). -/
  | syscallLaunch (c : Caller)
  /-- SYSCALL_WAIT: Waits for a counter and acquires its completion (R410). -/
  | syscallWait (c : Caller)
  /-- SYSCALL_CANCEL: Cancels the counter a handle names (R409). -/
  | syscallCancel (c : Caller)
  /-- SYSCALL_TRANSLATE: Translates a Lortar kernel for a function-table entry and returns its address (R386). -/
  | syscallTranslate (c : Caller)
  /-- OPEN_QUEUE: Opens a network receive queue (R409). -/
  | openQueue (c : Caller)
  /-- CLOSE_QUEUE: Closes a network receive queue, ending the peer's stream (R409). -/
  | closeQueue (c : Caller)
  /-- OPEN_GROUP: Opens or closes a collective group (R293). -/
  | openGroup (c : Caller)
  /-- OPEN_WINDOW: Fills a window-table entry and maps network-window pages (R443). -/
  | openWindow (c : Caller)
  /-- EXPOSE_REGION: Exposes a region to peers and returns a remote key (R443). -/
  | exposeRegion (c : Caller)
  /-- SYSCALL_EXIT: Ends the job as JOB_END with an exit code (R409). -/
  | syscallExit (c : Caller)
  /-- UET_INBOUND_WRITE: An inbound UET write to an exposed region performs as WT stores (R443). -/
  | uetInboundWrite (port : Nat) (key : Word) (off : Nat) (bytes : List Byte)
  /-- UET_INBOUND_READ: An inbound UET read is served with untracked loads (R443). -/
  | uetInboundRead (port : Nat) (key : Word) (off : Nat) (len : Nat)
  /-- UUD_PACKET: A packet requesting UUD is dropped and counted (R395). -/
  | uudPacket (port : Nat)
  /-- TRAIN: A TRAIN record negotiates the Turnpike framing version (R396). -/
  | train (link : Nat) (rec : TrainRec)
  /-- TRAIN_RESEND: Every microsecond an end resends TRAIN until it receives one (R396). -/
  | trainResend (link : Nat)
  /-- NAK: A NAK makes the sender replay flits from the named SEQ (R401). -/
  | nak (link : Nat) (seq : BitVec 16)
  /-- DOWN: A DOWN record reports the link going down with a reason (R397). -/
  | down (link : Nat) (reason : BitVec 8)
  /-- MESSAGE_FLIT: A message flit is accepted in order with correct LCRC or discarded (R401). -/
  | messageFlit (link : Nat) (f : Flit)
  /-- IDLE_FLIT: An idle flit carries ACK and credit returns (R397). -/
  | idleFlit (link : Nat) (f : Flit)
  /-- ACK_TIMEOUT: Flits waiting 10 µs for an ACK take the link down for retraining (R401). -/
  | ackTimeout (link : Nat)
  /-- RETRAIN_TIMEOUT: A link not up within 1 ms stays down until reset (R401). -/
  | retrainTimeout (link : Nat)
  /-- LDT: Tracked load request to the home (R399). -/
  | ldt (m : Msg)
  /-- LDU: Untracked load request to the home (R399). -/
  | ldu (m : Msg)
  /-- OWNR: OWN store or upgrade request to the home (R399). -/
  | ownr (m : Msg)
  /-- WR: WT or WIS store to the home (R399). -/
  | wr (m : Msg)
  /-- REG: SIS store registration request (R399). -/
  | reg (m : Msg)
  /-- ATOM: Atomic to be performed at the home (R399). -/
  | atom (m : Msg)
  /-- RED: Unordered reduction or drain contribution (R399). -/
  | red (m : Msg)
  /-- KEY: Remote racq or rrel request (R399). -/
  | key (m : Msg)
  /-- DROPN: A node drops its copy, with data when dirty (R399). -/
  | dropn (m : Msg)
  /-- INV: Home asks a holder to invalidate tracked copies (R399). -/
  | inv (m : Msg)
  /-- FWD: Home asks a holder to send a copy and keep its own (R399). -/
  | fwd (m : Msg)
  /-- FWDINV: Home asks a holder to send data and invalidate its own (R399). -/
  | fwdinv (m : Msg)
  /-- RECALL: Home recalls data, ending ownership or registration (R399). -/
  | recallMsg (m : Msg)
  /-- BINV: Back-invalidation for lack of filter space (R399). -/
  | binv (m : Msg)
  /-- DATA: Line data with the state granted (R399). -/
  | data (m : Msg)
  /-- ACK: Completion of a request, invalidation or write (R399). -/
  | ack (m : Msg)
  /-- ERR: A request failed with a cause (R399). -/
  | err (m : Msg)
  /-- WB: Data written back to the home (R399). -/
  | wb (m : Msg)
  /-- ARES: Atomic result returned to the requester (R399). -/
  | ares (m : Msg)
  /-- GRANT: Key granted to a remote requester (R399). -/
  | grant (m : Msg)
  /-- CDATA: Line for a copy or collective (R399). -/
  | cdata (m : Msg)
  /-- CACK: Copy line written and accepted (R399). -/
  | cack (m : Msg)
  /-- RESET: After reset the device derives its identity key and boots through stages 0 to 4 (R394). -/
  | reset
  /-- FREEZE_PIN: Raising FREEZE stops every clock and drops ports and links (R448). -/
  | freezePin
  /-- EXTEST: TAP boundary-scan test instruction (R449). -/
  | extest
  /-- IDCODE: TAP returns the 32-bit IDCODE (R449). -/
  | idcode
  /-- SAMPLE_PRELOAD: TAP boundary-scan sample and preload (R449). -/
  | samplePreload
  /-- TAP_FREEZE: TAP instruction that freezes the device (R448). -/
  | tapFreeze
  /-- TAP_STATUS: TAP returns boot status and freeze state (R449). -/
  | tapStatus
  /-- CHAINSEL: TAP selects a scan chain (R449). -/
  | chainsel (chain : BitVec 16)
  /-- CHAINOUT: TAP shifts out the selected chain while frozen (R449). -/
  | chainout
  /-- MEMADDR: TAP sets a device physical line address (R449). -/
  | memaddr (addr : BitVec 48)
  /-- MEMREAD: TAP reads a DRAM line with check value and poison bit (R449). -/
  | memread
  /-- RESETREQ: TAP requests a reset on leaving Update-IR (R449). -/
  | resetreq
  /-- BYPASS: TAP one-bit bypass (R449). -/
  | bypass
  /-- THERMAL_THROTTLE: TEMP reaching 105 °C starts stepping the main clock down (R469). -/
  | thermalThrottle (temp : Int)
  /-- CLOCK_STEP: Each millisecond the clock steps down or back up by 100 MHz (R469). -/
  | clockStep (temp : Int)
  /-- THERMAL_FREEZE: At 115 °C the device takes FREEZE (R469). -/
  | thermalFreeze (temp : Int)
  /-- CRD_MESSAGE: A CRD message asks the source device to read one line for a porter copy or collective (R399). -/
  | crdMessage (m : Msg)
  /-- CWR_MESSAGE: A CWR message writes one line of a copy or collective at the destination device (R399). -/
  | cwrMessage (m : Msg)
  /-- RECEIVE_QUEUE_TRAFFIC: Data arrives on an open network receive queue, or its sender closes the queue (R284). -/
  | receiveQueueTraffic (job : Nat) (queue : Nat) (t : QueueTraffic)
  /-- CHANNEL_LOST: A client's Concierge request channel is lost and its pending responses are discarded (R411). -/
  | channelLost (chan : Nat)
  /-- SOFT_ERROR: An uncorrectable soft error poisons its line or register word and is logged; a correctable one is corrected and counted (R461). -/
  | softError (site : ErrorSite) (correctable : Bool)
  /-- UET_DELIVERY_FAILURE: A UET delivery fails on every retry and stops the collective or copy that sent it (R294). -/
  | uetDeliveryFailure (core : Nat) (id : Nat)
  /-- MATRIX_OPERATION_COMPLETE: The cluster matrix unit finishes its current operation and takes the next in arrival order (R324). -/
  | matrixOperationComplete (cluster : Nat)
  /-- CONTROL_PROGRAM_INSTRUCTION: The control program executes an RV64 instruction, such as a load, store or fence rw,rw with its release and acquire (R382). -/
  | controlProgramInstruction (job : Nat)
  /-- CHECKPOINT_TIER_ACK: The checkpoint tier acknowledges the last byte, the save responds OK and the job resumes (R463). -/
  | checkpointTierAck (job : Nat)
  /-- POWER_LOSS: Package power is lost, possibly while SVN counter fuses are being blown (R455). -/
  | powerLoss (blown : Nat)
  deriving DecidableEq, Repr

end Sys2Proof
end

