-- ==== Sys2Proof/Machine/Checks.lean ====
section
/-! DEFINITION. The checks an instruction meets before it reads a register or touches memory (R187, steps 2 to 5):
the values its description accepts (cause 0x01), the places it may execute (R186), its reserved fields and values
(cause 0x02), and reserved scopes (cause 0x06). Form by form the helpers say what R181, R182, R231, R274 and R313
say; the per-instruction functions name the instructions. -/

namespace Sys2Proof

/-- No gate. -/
def Gates.none : Gates := ⟨Option.none, Option.none⟩

/-- The places column of R184: control thread, block, wayfarer thread. -/
structure Places where
  c : Bool
  b : Bool
  w : Bool
  deriving DecidableEq, Repr

/-- Formats that may be scaled (R74): i8, e4m3 to e2m1, bp2 to bp8. -/
def scalable (f : Nat) : Bool := f == 1 || (11 ≤ f && f ≤ 15) || (17 ≤ f && f ≤ 23)
/-- Integer formats i8 to i64 (R69). -/
def isIntFmt (f : Nat) : Bool := 1 ≤ f && f ≤ 7
/-- f32, bf16 and f16. -/
def isWideFmt (f : Nat) : Bool := 8 ≤ f && f ≤ 10
/-- bp2 to bp8. -/
def isBpFmt (f : Nat) : Bool := 17 ≤ f && f ≤ 23

/-- The gates an instruction carries (R178); operations that are not native instructions carry none. -/
def gatesOf : Instr → Gates
  | .nop g => g
  | .halt g => g
  | .vsync g => g
  | .fenceNear g => g
  | .tlwait g => g
  | .wexit g => g
  | .add g _ => g
  | .sub g _ => g
  | .and g _ => g
  | .or g _ => g
  | .xor g _ => g
  | .sll g _ => g
  | .srl g _ => g
  | .sra g _ => g
  | .slt g _ => g
  | .sltu g _ => g
  | .mul g _ => g
  | .div g _ => g
  | .divu g _ => g
  | .rem g _ => g
  | .remu g _ => g
  | .addi g _ => g
  | .andi g _ => g
  | .ori g _ => g
  | .xori g _ => g
  | .slli g _ => g
  | .srli g _ => g
  | .srai g _ => g
  | .mov g _ => g
  | .not g _ => g
  | .clz g _ => g
  | .cpop g _ => g
  | .beq g _ => g
  | .bne g _ => g
  | .blt g _ => g
  | .bge g _ => g
  | .bltu g _ => g
  | .bgeu g _ => g
  | .jmp g _ => g
  | .call g _ => g
  | .jr g _ => g
  | .callr g _ => g
  | .callt g _ => g
  | .vblk g _ => g
  | .li g _ => g
  | .lea g _ => g
  | .fadd g _ => g
  | .fsub g _ => g
  | .fmul g _ => g
  | .fdiv g _ => g
  | .feq g _ => g
  | .flt g _ => g
  | .fle g _ => g
  | .fcvt g _ => g
  | .crd g _ => g
  | .cwr g _ => g
  | .rqget g _ => g
  | .setvl g _ => g
  | .setvlW g _ => g
  | .vend g => g
  | .vrejoin g => g
  | .vlset g _ => g
  | .vloop g _ => g
  | .vbany g _ => g
  | .vbnone g _ => g
  | .vadd g _ => g
  | .vsub g _ => g
  | .vmul g _ => g
  | .vmulh g _ => g
  | .vmin g _ => g
  | .vmax g _ => g
  | .vand g _ => g
  | .vor g _ => g
  | .vxor g _ => g
  | .vsll g _ => g
  | .vsrl g _ => g
  | .vsra g _ => g
  | .vsadd g _ => g
  | .vssub g _ => g
  | .vdiv g _ => g
  | .vrem g _ => g
  | .vfadd g _ => g
  | .vfsub g _ => g
  | .vfmul g _ => g
  | .vfdiv g _ => g
  | .vfma g _ => g
  | .vfms g _ => g
  | .vfmin g _ => g
  | .vfmax g _ => g
  | .vfsqrt g _ => g
  | .vfabs g _ => g
  | .vfneg g _ => g
  | .vmseq g _ => g
  | .vmsne g _ => g
  | .vmslt g _ => g
  | .vmsle g _ => g
  | .vmsltu g _ => g
  | .vmsleu g _ => g
  | .vmfeq g _ => g
  | .vmflt g _ => g
  | .vmfle g _ => g
  | .mand g _ => g
  | .mor g _ => g
  | .mxor g _ => g
  | .mnot g _ => g
  | .mmv g _ => g
  | .msbf g _ => g
  | .msif g _ => g
  | .msof g _ => g
  | .mcnt g _ => g
  | .many g _ => g
  | .mfirst g _ => g
  | .vmv g _ => g
  | .vid g _ => g
  | .vcompress g _ => g
  | .vexpand g _ => g
  | .vslideup g _ => g
  | .vslidedn g _ => g
  | .vgather g _ => g
  | .vmerge g _ => g
  | .vredsum g _ => g
  | .vfredo g _ => g
  | .vfredt g _ => g
  | .vredmin g _ => g
  | .vredmax g _ => g
  | .vcvt g _ => g
  | .vunpk g _ => g
  | .vpilgrim g _ => g
  | .vqpush g _ => g
  | .vqpop g _ => g
  | .vdetach g _ => g
  | .vld g _ => g
  | .vst g _ => g
  | .vlds g _ => g
  | .vsts g _ => g
  | .vldx g _ => g
  | .vstx g _ => g
  | .vldff g _ => g
  | .vtld g _ => g
  | .vtst g _ => g
  | .lb g _ => g
  | .lbu g _ => g
  | .lw g _ => g
  | .lwu g _ => g
  | .ld g _ => g
  | .sb g _ => g
  | .sw g _ => g
  | .sd g _ => g
  | .vbind g _ => g
  | .vbindz g _ => g
  | .vbindn g _ => g
  | .vunbind g _ => g
  | .pcopy g _ => g
  | .pcopyz g _ => g
  | .coll g _ => g
  | .racq g _ => g
  | .rrel g _ => g
  | .fenceFar g _ => g
  | .aadd g _ => g
  | .aand g _ => g
  | .aor g _ => g
  | .axor g _ => g
  | .amin g _ => g
  | .amax g _ => g
  | .aminu g _ => g
  | .amaxu g _ => g
  | .aswap g _ => g
  | .acas g _ => g
  | .afadd g _ => g
  | .afmin g _ => g
  | .afmax g _ => g
  | .vaadd g _ => g
  | .vafadd g _ => g
  | .vamin g _ => g
  | .vamax g _ => g
  | .vafmin g _ => g
  | .vafmax g _ => g
  | .vrsadd g _ => g
  | .vrsfadd g _ => g
  | .bararv g _ => g
  | .bardrop g _ => g
  | .barwait g _ => g
  | .wcarr g _ => g
  | .wcwait g _ => g
  | .wccancel g _ => g
  | .tld g _ => g
  | .tst g _ => g
  | .tmma g _ => g
  | .tmmaS g _ => g
  | .tdrain g _ => g
  | .tcvt g _ => g
  | .tzero g _ => g
  | .mattach g _ => g
  | .mdetach g => g
  | .rrun g _ => g
  | .rtw g _ => g
  | .rcommit g _ => g
  | .rclass g _ => g
  | .rmiss g _ => g
  | .rstat g _ => g
  | .scall g _ => g
  | .trap g _ => g
  | _ => Gates.none

/-- The places an instruction may execute (R184, column Where), as control thread, block, wayfarer thread. -/
def placesOf : Instr → Places
  | .nop _ => ⟨true, true, true⟩
  | .halt _ => ⟨true, false, false⟩
  | .vsync _ => ⟨true, false, false⟩
  | .fenceNear _ => ⟨true, true, true⟩
  | .tlwait _ => ⟨true, true, false⟩
  | .wexit _ => ⟨false, false, true⟩
  | .add _ _ => ⟨true, true, true⟩
  | .sub _ _ => ⟨true, true, true⟩
  | .and _ _ => ⟨true, true, true⟩
  | .or _ _ => ⟨true, true, true⟩
  | .xor _ _ => ⟨true, true, true⟩
  | .sll _ _ => ⟨true, true, true⟩
  | .srl _ _ => ⟨true, true, true⟩
  | .sra _ _ => ⟨true, true, true⟩
  | .slt _ _ => ⟨true, true, true⟩
  | .sltu _ _ => ⟨true, true, true⟩
  | .mul _ _ => ⟨true, true, true⟩
  | .div _ _ => ⟨true, true, true⟩
  | .divu _ _ => ⟨true, true, true⟩
  | .rem _ _ => ⟨true, true, true⟩
  | .remu _ _ => ⟨true, true, true⟩
  | .addi _ _ => ⟨true, true, true⟩
  | .andi _ _ => ⟨true, true, true⟩
  | .ori _ _ => ⟨true, true, true⟩
  | .xori _ _ => ⟨true, true, true⟩
  | .slli _ _ => ⟨true, true, true⟩
  | .srli _ _ => ⟨true, true, true⟩
  | .srai _ _ => ⟨true, true, true⟩
  | .mov _ _ => ⟨true, true, true⟩
  | .not _ _ => ⟨true, true, true⟩
  | .clz _ _ => ⟨true, true, true⟩
  | .cpop _ _ => ⟨true, true, true⟩
  | .beq _ _ => ⟨true, false, true⟩
  | .bne _ _ => ⟨true, false, true⟩
  | .blt _ _ => ⟨true, false, true⟩
  | .bge _ _ => ⟨true, false, true⟩
  | .bltu _ _ => ⟨true, false, true⟩
  | .bgeu _ _ => ⟨true, false, true⟩
  | .jmp _ _ => ⟨true, false, true⟩
  | .call _ _ => ⟨true, false, false⟩
  | .jr _ _ => ⟨true, false, true⟩
  | .callr _ _ => ⟨true, false, false⟩
  | .callt _ _ => ⟨true, false, false⟩
  | .vblk _ _ => ⟨true, false, false⟩
  | .li _ _ => ⟨true, true, true⟩
  | .lea _ _ => ⟨true, true, true⟩
  | .fadd _ _ => ⟨true, true, true⟩
  | .fsub _ _ => ⟨true, true, true⟩
  | .fmul _ _ => ⟨true, true, true⟩
  | .fdiv _ _ => ⟨true, true, true⟩
  | .feq _ _ => ⟨true, true, true⟩
  | .flt _ _ => ⟨true, true, true⟩
  | .fle _ _ => ⟨true, true, true⟩
  | .fcvt _ _ => ⟨true, true, true⟩
  | .crd _ _ => ⟨true, true, true⟩
  | .cwr _ _ => ⟨true, true, false⟩
  | .rqget _ _ => ⟨true, false, false⟩
  | .setvl _ _ => ⟨false, true, false⟩
  | .setvlW _ _ => ⟨false, true, false⟩
  | .vend _ => ⟨false, true, false⟩
  | .vrejoin _ => ⟨false, true, false⟩
  | .vlset _ _ => ⟨false, true, false⟩
  | .vloop _ _ => ⟨false, true, false⟩
  | .vbany _ _ => ⟨false, true, false⟩
  | .vbnone _ _ => ⟨false, true, false⟩
  | .vadd _ _ => ⟨false, true, false⟩
  | .vsub _ _ => ⟨false, true, false⟩
  | .vmul _ _ => ⟨false, true, false⟩
  | .vmulh _ _ => ⟨false, true, false⟩
  | .vmin _ _ => ⟨false, true, false⟩
  | .vmax _ _ => ⟨false, true, false⟩
  | .vand _ _ => ⟨false, true, false⟩
  | .vor _ _ => ⟨false, true, false⟩
  | .vxor _ _ => ⟨false, true, false⟩
  | .vsll _ _ => ⟨false, true, false⟩
  | .vsrl _ _ => ⟨false, true, false⟩
  | .vsra _ _ => ⟨false, true, false⟩
  | .vsadd _ _ => ⟨false, true, false⟩
  | .vssub _ _ => ⟨false, true, false⟩
  | .vdiv _ _ => ⟨false, true, false⟩
  | .vrem _ _ => ⟨false, true, false⟩
  | .vfadd _ _ => ⟨false, true, false⟩
  | .vfsub _ _ => ⟨false, true, false⟩
  | .vfmul _ _ => ⟨false, true, false⟩
  | .vfdiv _ _ => ⟨false, true, false⟩
  | .vfma _ _ => ⟨false, true, false⟩
  | .vfms _ _ => ⟨false, true, false⟩
  | .vfmin _ _ => ⟨false, true, false⟩
  | .vfmax _ _ => ⟨false, true, false⟩
  | .vfsqrt _ _ => ⟨false, true, false⟩
  | .vfabs _ _ => ⟨false, true, false⟩
  | .vfneg _ _ => ⟨false, true, false⟩
  | .vmseq _ _ => ⟨false, true, false⟩
  | .vmsne _ _ => ⟨false, true, false⟩
  | .vmslt _ _ => ⟨false, true, false⟩
  | .vmsle _ _ => ⟨false, true, false⟩
  | .vmsltu _ _ => ⟨false, true, false⟩
  | .vmsleu _ _ => ⟨false, true, false⟩
  | .vmfeq _ _ => ⟨false, true, false⟩
  | .vmflt _ _ => ⟨false, true, false⟩
  | .vmfle _ _ => ⟨false, true, false⟩
  | .mand _ _ => ⟨false, true, false⟩
  | .mor _ _ => ⟨false, true, false⟩
  | .mxor _ _ => ⟨false, true, false⟩
  | .mnot _ _ => ⟨false, true, false⟩
  | .mmv _ _ => ⟨false, true, false⟩
  | .msbf _ _ => ⟨false, true, false⟩
  | .msif _ _ => ⟨false, true, false⟩
  | .msof _ _ => ⟨false, true, false⟩
  | .mcnt _ _ => ⟨false, true, false⟩
  | .many _ _ => ⟨false, true, false⟩
  | .mfirst _ _ => ⟨false, true, false⟩
  | .vmv _ _ => ⟨false, true, false⟩
  | .vid _ _ => ⟨false, true, false⟩
  | .vcompress _ _ => ⟨false, true, false⟩
  | .vexpand _ _ => ⟨false, true, false⟩
  | .vslideup _ _ => ⟨false, true, false⟩
  | .vslidedn _ _ => ⟨false, true, false⟩
  | .vgather _ _ => ⟨false, true, false⟩
  | .vmerge _ _ => ⟨false, true, false⟩
  | .vredsum _ _ => ⟨false, true, false⟩
  | .vfredo _ _ => ⟨false, true, false⟩
  | .vfredt _ _ => ⟨false, true, false⟩
  | .vredmin _ _ => ⟨false, true, false⟩
  | .vredmax _ _ => ⟨false, true, false⟩
  | .vcvt _ _ => ⟨false, true, false⟩
  | .vunpk _ _ => ⟨false, true, false⟩
  | .vpilgrim _ _ => ⟨false, true, false⟩
  | .vqpush _ _ => ⟨false, true, false⟩
  | .vqpop _ _ => ⟨false, true, false⟩
  | .vdetach _ _ => ⟨false, true, false⟩
  | .vld _ _ => ⟨false, true, false⟩
  | .vst _ _ => ⟨false, true, false⟩
  | .vlds _ _ => ⟨false, true, false⟩
  | .vsts _ _ => ⟨false, true, false⟩
  | .vldx _ _ => ⟨false, true, false⟩
  | .vstx _ _ => ⟨false, true, false⟩
  | .vldff _ _ => ⟨false, true, false⟩
  | .vtld _ _ => ⟨false, true, false⟩
  | .vtst _ _ => ⟨false, true, false⟩
  | .lb _ _ => ⟨true, true, true⟩
  | .lbu _ _ => ⟨true, true, true⟩
  | .lw _ _ => ⟨true, true, true⟩
  | .lwu _ _ => ⟨true, true, true⟩
  | .ld _ _ => ⟨true, true, true⟩
  | .sb _ _ => ⟨true, true, true⟩
  | .sw _ _ => ⟨true, true, true⟩
  | .sd _ _ => ⟨true, true, true⟩
  | .vbind _ _ => ⟨false, true, false⟩
  | .vbindz _ _ => ⟨false, true, false⟩
  | .vbindn _ _ => ⟨false, true, false⟩
  | .vunbind _ _ => ⟨false, true, false⟩
  | .pcopy _ _ => ⟨true, false, false⟩
  | .pcopyz _ _ => ⟨true, false, false⟩
  | .coll _ _ => ⟨true, false, false⟩
  | .racq _ _ => ⟨true, false, false⟩
  | .rrel _ _ => ⟨true, false, false⟩
  | .fenceFar _ _ => ⟨true, false, false⟩
  | .aadd _ _ => ⟨true, true, true⟩
  | .aand _ _ => ⟨true, true, true⟩
  | .aor _ _ => ⟨true, true, true⟩
  | .axor _ _ => ⟨true, true, true⟩
  | .amin _ _ => ⟨true, true, true⟩
  | .amax _ _ => ⟨true, true, true⟩
  | .aminu _ _ => ⟨true, true, true⟩
  | .amaxu _ _ => ⟨true, true, true⟩
  | .aswap _ _ => ⟨true, true, true⟩
  | .acas _ _ => ⟨true, true, true⟩
  | .afadd _ _ => ⟨true, true, true⟩
  | .afmin _ _ => ⟨true, true, true⟩
  | .afmax _ _ => ⟨true, true, true⟩
  | .vaadd _ _ => ⟨false, true, false⟩
  | .vafadd _ _ => ⟨false, true, false⟩
  | .vamin _ _ => ⟨false, true, false⟩
  | .vamax _ _ => ⟨false, true, false⟩
  | .vafmin _ _ => ⟨false, true, false⟩
  | .vafmax _ _ => ⟨false, true, false⟩
  | .vrsadd _ _ => ⟨false, true, false⟩
  | .vrsfadd _ _ => ⟨false, true, false⟩
  | .bararv _ _ => ⟨true, false, false⟩
  | .bardrop _ _ => ⟨true, false, false⟩
  | .barwait _ _ => ⟨true, false, false⟩
  | .wcarr _ _ => ⟨true, false, false⟩
  | .wcwait _ _ => ⟨true, false, false⟩
  | .wccancel _ _ => ⟨true, false, false⟩
  | .tld _ _ => ⟨false, true, false⟩
  | .tst _ _ => ⟨false, true, false⟩
  | .tmma _ _ => ⟨false, true, false⟩
  | .tmmaS _ _ => ⟨false, true, false⟩
  | .tdrain _ _ => ⟨false, true, false⟩
  | .tcvt _ _ => ⟨false, true, false⟩
  | .tzero _ _ => ⟨false, true, false⟩
  | .mattach _ _ => ⟨true, false, false⟩
  | .mdetach _ => ⟨true, false, false⟩
  | .rrun _ _ => ⟨false, true, false⟩
  | .rtw _ _ => ⟨true, false, false⟩
  | .rcommit _ _ => ⟨true, false, false⟩
  | .rclass _ _ => ⟨true, false, false⟩
  | .rmiss _ _ => ⟨true, false, false⟩
  | .rstat _ _ => ⟨true, false, false⟩
  | .scall _ _ => ⟨true, false, false⟩
  | .trap _ _ => ⟨true, false, false⟩
  | .bkpt _ => ⟨true, true, true⟩
  | _ => ⟨true, false, false⟩

/-- Rounding and saturation values an instruction takes: all of them, rounding without .rs and without saturation,
or none (R211, R249, R252, R253, R263, R313). The reserved values are left to the reserved check (R187). -/
inductive RndClass where
  | all
  | noRs
  | none
  deriving DecidableEq, Repr

/-- RND and SATM hold no modifier the class refuses. -/
def rndAccepted (c : RndClass) (rnd : BitVec 3) (satm : BitVec 2) : Bool :=
  match c with
  | .all => true
  | .noRs => rnd != 6 && satm != 1 && satm != 2
  | .none => (rnd == 0 || rnd == 7) && satm != 1 && satm != 2

/-- RND and SATM hold no reserved value (R182). -/
def rndReserved (rnd : BitVec 3) (satm : BitVec 2) : Bool := rnd != 7 && satm != 3

/-- Second-source kinds of form V (R231): vector, scalar, immediate. -/
structure Kinds where
  v : Bool
  s : Bool
  i : Bool
  deriving DecidableEq, Repr

/-- No second source. -/
def kNone : Kinds := ⟨false, false, false⟩
/-- VB, SB or an immediate. -/
def kVSI : Kinds := ⟨true, true, true⟩
/-- VB or SB. -/
def kVS : Kinds := ⟨true, true, false⟩
/-- SB or an immediate. -/
def kSI : Kinds := ⟨false, true, true⟩
/-- VB alone. -/
def kV : Kinds := ⟨true, false, false⟩
/-- SB alone. -/
def kS : Kinds := ⟨false, true, false⟩
/-- An immediate alone. -/
def kI : Kinds := ⟨false, false, true⟩

/-- What a named format of form V may be. -/
inductive FmtClass where
  | int
  | wide
  | intOrWide
  | any
  | n32
  | unpack
  | none
  deriving DecidableEq, Repr

/-- A named format is one the class accepts (R185, R256). -/
def fmtAccepted (c : FmtClass) (f : Nat) (sc : Bool) : Bool :=
  match c with
  | .int => isIntFmt f && !sc
  | .wide => isWideFmt f && !sc
  | .intOrWide => (isIntFmt f || isWideFmt f) && !sc
  | .any => f ≤ 26 && (!sc || scalable f)
  | .n32 => f == 6 && !sc
  | .unpack => (f == 11 || isWideFmt f) && !sc
  | .none => false

/-- The second source is of a listed kind (R231): BS = 0 is the kind VB, whatever IM holds, and IM = 1 beside it is a
reserved value where VB is listed (R182). An instruction without a second source lists no kind and takes neither field:
BS or IM there is a field not taken, cause 0x02 (DEDUCED, log 12). -/
def kindAccepted (k : Kinds) (bs im : BitVec 1) : Bool :=
  if k == kNone then true else if bs == 0 then k.v else if im == 1 then k.i else k.s

/-- Accepted values of a form V instruction: kind, required mask, format, rounding. -/
def vAccepts (k : Kinds) (req : Bool) (fc : FmtClass) (needFv : Bool) (rc : RndClass) (o : FormV) : Bool :=
  kindAccepted k o.bs o.im && (!req || o.msk == 1) && o.fmt.toNat ≤ 26
    && (if o.fv == 1 then fmtAccepted fc o.fmt.toNat (o.sc == 1) else !needFv)
    && rndAccepted rc o.rnd o.satm

/-- MSK is 1 exactly when MK is named (R182). -/
def maskNamed (msk : BitVec 1) (mk : MNum) : Bool := msk == 1 || mk == 0

/-- Fields of form V that an instruction does not take are zero, and no reserved value stands (R182, R231). -/
def vReserved (k : Kinds) (vd va vc mk : Bool) (o : FormV) : Bool :=
  rndReserved o.rnd o.satm
    && (if k == kNone then o.bs == 0 && o.im == 0 && o.sb == 0 && o.vb == 0
        else if o.bs == 0 then o.im == 0 && o.sb == 0 else o.vb == 0)
    && (o.fv == 1 || (o.fmt == 0 && o.sc == 0))
    && (vd || o.vd == 0) && (va || o.va == 0) && (vc || o.vc == 0)
    && (if mk then maskNamed o.msk o.mreg else o.msk == 0 && o.mreg == 0)

/-- Accepted values of form F arithmetic (R208, R211). -/
def fAccepts (rc : RndClass) (o : FormF) : Bool := isWideFmt o.fmt.toNat && rndAccepted rc o.rnd o.satm

/-- Accepted values of a MAJ 0x20 instruction: ORD, and scaled formats only for vld (R276, R278, R280). A vld with
FV = 0 and SC = 1 names no format: SC is left to the reserved check, cause 0x02 (DEDUCED, log 12). -/
def mAccepts (store ff tensor scaledOk : Bool) (o : FormM) : Bool :=
  (if ff then o.ord == 0 else if store then o.ord == 0 || o.ord == 2 else o.ord == 0 || o.ord == 1)
    && o.fmt.toNat ≤ 26
    && (if tensor then o.fv == 0 && o.sc == 0
        else if o.sc == 1 then scaledOk && (o.fv == 0 || scalable o.fmt.toNat) else true)
    && (!ff || o.msk == 1)

/-- Reserved fields of form M: what the instruction does not take, and SCP of a weak access (R181, R274). -/
def mReserved (sa sb vi : Bool) (o : FormM) : Bool :=
  (o.ord != 0 || o.scp == 0) && (o.fv == 1 || (o.fmt == 0 && o.sc == 0))
    && (sa || o.sa == 0) && (sb || o.sb == 0) && (vi || o.vi == 0) && maskNamed o.msk o.mreg

/-- vld takes SB only when it is scaled; with no named format VTYPE decides, at execution (R274, R279). -/
def vldReserved (o : FormM) : Bool := mReserved true true false o && (o.sb == 0 || o.fv == 0 || o.sc == 1)

/-- SCP of a weak MAJ 0x21 access is RES0 (R181). -/
def sReserved (o : FormS) : Bool := o.ord != 0 || o.scp == 0

/-- MAJ 0x28: POL and ORD are RES0 (R274). -/
def barReserved (o : FormS) : Bool := o.pol == 0 && o.ord == 0

/-- Scalar atomics: no vector field (R274). -/
def xReserved (sw : Bool) (o : FormX) : Bool :=
  o.vi == 0 && o.msk == 0 && o.mreg == 0 && (sw || o.sw == 0)

/-- Vector atomics: bits 5 and 17 and SW are RES0 (R274). -/
def xvReserved (dst : Bool) (o : FormX) : Bool :=
  o.sx.getLsbD 5 == false && o.sz.getLsbD 5 == false && o.sw == 0 && (dst || o.sx == 0) && maskNamed o.msk o.mreg

/-- The orientation and policy modifiers of form T: those R313 lists; any other is not accepted, cause 0x01 (R185,
R189). -/
def tModifiers (orr pol : Bool) (o : FormT) : Bool := (orr || o.or == 0) && (pol || o.pol == 0)

/-- Form T: which of TX, TY, VA, SA and SB an instruction takes; SC where the format is taken (R313). SC = 1 on tmma.s,
which takes FMT and not SC, is a field not taken, cause 0x02; tmma takes SC, and with FMT = 0 it names no format, so that
SC says nothing there (DEDUCED, log 12). -/
def tReserved (tx ty va sa sb sc : Bool) (o : FormT) : Bool :=
  rndReserved o.rnd o.satm && (tx || o.tx == 0) && (ty || o.ty == 0) && (va || o.va == 0) && (sa || o.sa == 0)
    && (sb || o.sb == 0) && (sc || o.sc == 0)

/-- Formats a multiply names: those of the operand pairs of R321. -/
def mmaFmt (f : Nat) : Bool := f == 1 || (9 ≤ f && f ≤ 15) || (17 ≤ f && f ≤ 23)

/-- Formats tzero and tcvt name (R320, R326). -/
def tzeroFmt (f : Nat) : Bool := f ≤ 23 && f != 7
/-- Formats tcvt converts to (R326). -/
def tcvtFmt (f : Nat) : Bool := f != 0 && f != 7 && f ≤ 15

/-- The TYPE operand names a format that exists, scaled only as R74 allows (R243). -/
def typeAccepted (t : BitVec 10) : Bool :=
  (t.extractLsb' 4 5).toNat ≤ 26 && (t.getLsbD 9 == false || scalable (t.extractLsb' 4 5).toNat)

/-- EW = 0b11 with GRP = 0b11 is refused (R49). -/
def typeReserved (t : BitVec 10) : Bool := !(t.extractLsb' 0 2 == 3 && t.extractLsb' 2 2 == 3)

/-- Formats of Lortar (R351). -/
def isLortarFmt (f : Nat) : Bool := (1 ≤ f && f ≤ 6) || (8 ≤ f && f ≤ 12)

/-- The elementwise operations: integer or wide formats, rounding only on wide ones, saturation only where the
integer form has it (R361). -/
def lxAccepts (int sat : Bool) (o : LFormX) : Bool :=
  let f := o.fmt.toNat
  isLortarFmt f && ((int && isIntFmt f) || isWideFmt f) && (o.rnd == 0 || isWideFmt f)
    && (o.satm != 1 || (sat && isIntFmt f))

/-- SIG is RES0 when SIGE = 0 (R352). -/
def lbarReserved (b : LBar) : Bool := b.sige == 1 || b.sig == 0

/-- Fields of Lortar form S that an operation takes (R354). -/
def lsReserved (kd ka kb imm : Bool) (o : LFormS) : Bool :=
  lbarReserved o.bar && (kd || o.kd == 0) && (ka || o.ka == 0) && (kb || o.kb == 0) && (imm || o.imm == 0)

/-- Fields of Lortar form X that an operation takes (R354): xa, xb, ka, memory operand fields, rounding. -/
def lxReserved (xd xa xb ka fmt mem rnd : Bool) (o : LFormX) : Bool :=
  lbarReserved o.bar && (xd || o.xd == 0) && (xa || o.xa == 0) && (xb || o.xb == 0) && (ka || o.ka == 0)
    && (fmt || o.fmt == 0)
    && (mem || (o.kb == 0 && o.or == 0 && o.pol == 0 && o.ord == 0 && o.scp == 0))
    && (!mem || o.ord != 0 || o.scp == 0)
    && (if rnd then o.rnd.toNat ≤ 4 && o.satm.toNat ≤ 1 else o.rnd == 0 && o.satm == 0)

/-- The values an instruction's description accepts (R185): where they do not hold, cause 0x01 is raised
(DEDUCED, log 12). -/
def accepts : Instr → Bool
  | .tlwait g => g.wait.isSome && g.post.isNone
  | .halt g => g.post.isNone
  | .setvl g o | .setvlW g o => g == Gates.none && typeAccepted o.type
  | .fadd _ o | .fsub _ o | .fmul _ o | .fdiv _ o => fAccepts .noRs o
  | .feq _ o | .flt _ o | .fle _ o => fAccepts .none o
  | .fcvt _ o => 1 ≤ o.fmt.toNat && o.fmt.toNat ≤ 16 && 1 ≤ o.sz.toNat % 32 && o.sz.toNat % 32 ≤ 16
  | .vadd _ o | .vsub _ o | .vmul _ o | .vmulh _ o | .vmin _ o | .vmax _ o | .vsll _ o | .vsrl _ o | .vsra _ o
  | .vsadd _ o | .vssub _ o | .vdiv _ o | .vrem _ o | .vand _ o | .vor _ o | .vxor _ o =>
      vAccepts kVSI false .int false .none o
  | .vfadd _ o | .vfsub _ o | .vfmul _ o | .vfdiv _ o | .vfmin _ o | .vfmax _ o | .vfma _ o | .vfms _ o =>
      vAccepts kVS false .wide false .noRs o
  | .vfsqrt _ o | .vfabs _ o | .vfneg _ o => vAccepts kNone false .wide false .noRs o
  | .vmseq _ o | .vmsne _ o | .vmslt _ o | .vmsle _ o | .vmsltu _ o | .vmsleu _ o =>
      vAccepts kVSI false .int false .none o
  | .vmfeq _ o | .vmflt _ o | .vmfle _ o => vAccepts kVS false .wide false .none o
  | .vmv _ o => vAccepts kVSI false .any false .none o
  | .vid _ o => vAccepts kNone false .int false .none o
  | .vcompress _ o | .vexpand _ o => vAccepts kNone true .any false .none o
  | .vslideup _ o | .vslidedn _ o => vAccepts kSI false .any false .none o
  | .vgather _ o => vAccepts kV false .any false .none o
  | .vmerge _ o => vAccepts kVSI true .any false .none o
  | .vredsum _ o => vAccepts kS false .int false .none o
  | .vredmin _ o | .vredmax _ o => vAccepts kS false .intOrWide false .none o
  | .vfredo _ o | .vfredt _ o => vAccepts kS false .wide false .noRs o
  | .vcvt _ o => vAccepts kSI false .any true .all o
  | .vunpk _ o => vAccepts kI false .unpack false .all o
  | .vpilgrim _ o => vAccepts kSI false .n32 false .none o
  | .vqpush _ o => vAccepts kNone false .none false .none o
  | .vqpop _ o => vAccepts kS false .any false .none o
  | .vdetach _ o => vAccepts kS false .none false .none o
  | .vbind _ o | .vbindz _ o => vAccepts kNone false .none false .none o
  | .vbindn _ o => vAccepts kS false .any true .none o
  | .vunbind _ o => vAccepts kNone false .none false .none o
  | .vld _ o => mAccepts false false false true o
  | .vlds _ o | .vldx _ o => mAccepts false false false false o
  | .vst _ o | .vsts _ o | .vstx _ o => mAccepts true false false false o
  | .vldff _ o => mAccepts false true false false o
  | .vtld _ o => mAccepts false false true false o
  | .vtst _ o => mAccepts true false true false o
  | .lb _ o | .lbu _ o | .lw _ o | .lwu _ o | .ld _ o => o.ord == 0 || o.ord == 1
  | .sb _ o | .sw _ o | .sd _ o => o.ord == 0 || o.ord == 2
  | .afadd _ o | .afmin _ o | .afmax _ o => o.w64 == 0
  | .vaadd _ o | .vafadd _ o | .vamin _ o | .vamax _ o | .vafmin _ o | .vafmax _ o => o.w64 == 0
  | .vrsadd _ o | .vrsfadd _ o => o.w64 == 0 && o.ord == 0
  | .tld _ o | .tst _ o => o.fmt == 0 && o.sc == 0 && o.rnd == 0 && o.satm == 0
  | .tdrain _ o => o.fmt == 0 && o.sc == 0 && rndAccepted .none o.rnd o.satm && tModifiers false false o
  | .tmma _ o => (o.fmt == 0 || (mmaFmt o.fmt.toNat && (o.sc == 0 || scalable o.fmt.toNat)))
      && rndAccepted .none o.rnd o.satm && tModifiers false false o
  | .tmmaS _ o => mmaFmt o.fmt.toNat && rndAccepted .none o.rnd o.satm && tModifiers false true o
  | .tzero _ o => tzeroFmt o.fmt.toNat && o.sc == 0 && rndAccepted .none o.rnd o.satm && tModifiers false false o
  | .tcvt _ o => tcvtFmt o.fmt.toNat && (o.sc == 0 || scalable o.fmt.toNat) && tModifiers false false o
  | .lshape o => isLortarFmt (o.imm.extractLsb' 0 5).toNat
  | .xld o => isLortarFmt o.fmt.toNat && o.ord.toNat ≤ 1
  | .xst o => isLortarFmt o.fmt.toNat && (o.ord == 0 || o.ord == 2)
  | .xbcast o => isLortarFmt o.fmt.toNat && (o.rnd == 0 || !isIntFmt o.fmt.toNat) && o.satm != 1
  | .xadd o | .xsub o => lxAccepts true true o
  | .xmul o | .xmin o | .xmax o => lxAccepts true false o
  | .xfma o => lxAccepts false false o
  | .xcvt o => isLortarFmt o.fmt.toNat && isLortarFmt o.ka.toNat
  | .xmma o => o.fmt.toNat == 1 || (9 ≤ o.fmt.toNat && o.fmt.toNat ≤ 12)
  | _ => true

/-- Fields an instruction does not take are zero and reserved values do not stand (R181, R182): otherwise cause
0x02 is raised (DEDUCED, log 12). -/
def reservedOk : Instr → Bool
  | .slli _ o | .srli _ o | .srai _ o => o.imm.extractLsb' 6 14 == 0
  | .jmp _ o | .call _ o => o.sx == 0
  | .jr _ o | .callr _ o => o.sy == 0
  | .fadd _ o | .fsub _ o | .fmul _ o | .fdiv _ o | .feq _ o | .flt _ o | .fle _ o => rndReserved o.rnd o.satm
  | .fcvt _ o => rndReserved o.rnd o.satm && o.sz.getLsbD 5 == false
  | .rqget _ o => o.code == 0
  | .fenceFar _ o => o.sx == 0 && (o.code.toNat ≤ 5 || o.code == 7)
  | .trap _ o => 0xF0 ≤ o.code.toNat
  | .scall _ o => o.sx == 0 && o.sy == 0 && o.imm.msb == false
  | .setvl _ o => o.sx == 0 && typeReserved o.type
  | .setvlW _ o => typeReserved o.type
  | .vlset _ o => o.sx.toNat ≤ 3
  | .vloop _ o => o.sx.toNat ≤ 3
  | .vbany _ o | .vbnone _ o => o.sx.toNat ≤ 15
  | .vadd _ o | .vsub _ o | .vmul _ o | .vmulh _ o | .vmin _ o | .vmax _ o | .vsll _ o | .vsrl _ o | .vsra _ o
  | .vsadd _ o | .vssub _ o | .vdiv _ o | .vrem _ o | .vand _ o | .vor _ o | .vxor _ o
  | .vmerge _ o => vReserved kVSI true true false true o
  | .vfadd _ o | .vfsub _ o | .vfmul _ o | .vfdiv _ o | .vfmin _ o | .vfmax _ o =>
      vReserved kVS true true false true o
  | .vfma _ o | .vfms _ o => vReserved kVS true true true true o
  | .vfsqrt _ o | .vfabs _ o | .vfneg _ o | .vcompress _ o | .vexpand _ o => vReserved kNone true true false true o
  | .vmseq _ o | .vmsne _ o | .vmslt _ o | .vmsle _ o | .vmsltu _ o | .vmsleu _ o =>
      vReserved kVSI true true false true o && o.vd.getLsbD 4 == false
  | .vmfeq _ o | .vmflt _ o | .vmfle _ o => vReserved kVS true true false true o && o.vd.getLsbD 4 == false
  | .mnot _ o | .mmv _ o | .msbf _ o | .msif _ o | .msof _ o => o.mz == 0
  | .mcnt _ o | .many _ o | .mfirst _ o => o.mz == 0 && o.my == 0
  | .vmv _ o => vReserved kVSI true false false true o
  | .vid _ o => vReserved kNone true false false true o
  | .vslideup _ o | .vslidedn _ o => vReserved kSI true true false true o && (o.im == 0 || o.sb.toNat < 32)
  | .vgather _ o => vReserved kV true true false true o
  | .vredsum _ o | .vredmin _ o | .vredmax _ o | .vfredo _ o | .vfredt _ o => vReserved kS true true false true o
  | .vcvt _ o => vReserved kSI true true false true o
  | .vunpk _ o => vReserved kI true true false true o && o.sb.toNat ≤ 1
  | .vpilgrim _ o => vReserved kSI true false false true o
  | .vqpush _ o => vReserved kNone false true false true o
  | .vqpop _ o => vReserved kS true false false true o
  | .vdetach _ o => vReserved kS false true false true o
  | .vbind _ o => vReserved kNone true true false false o
  | .vbindz _ o => vReserved kNone true false false false o
  | .vbindn _ o => vReserved kS true false false false o
  | .vunbind _ o => vReserved kNone true false false true o
  | .vld _ o => vldReserved o
  | .vst _ o | .vldff _ o => mReserved true false false o
  | .vlds _ o | .vsts _ o => mReserved true true false o
  | .vldx _ o | .vstx _ o => mReserved true false true o
  | .vtld _ o | .vtst _ o => mReserved false false true o
  | .lb _ o | .lbu _ o | .lw _ o | .lwu _ o | .ld _ o | .sb _ o | .sw _ o | .sd _ o => sReserved o
  | .pcopyz _ o => o.sy == 0
  | .coll _ o => o.sz == 0 && o.sw == 0
  | .rrel _ o => o.sy == 0
  | .acas _ o => xReserved true o
  | .aadd _ o | .aand _ o | .aor _ o | .axor _ o | .amin _ o | .amax _ o | .aminu _ o | .amaxu _ o | .aswap _ o
  | .afadd _ o | .afmin _ o | .afmax _ o => xReserved false o
  | .vaadd _ o | .vafadd _ o | .vamin _ o | .vamax _ o | .vafmin _ o | .vafmax _ o => xvReserved true o
  | .vrsadd _ o | .vrsfadd _ o => xvReserved false o
  | .bararv _ o | .bardrop _ o | .barwait _ o | .wcarr _ o | .wcwait _ o => barReserved o
  | .wccancel _ o => barReserved o && o.scp == 0
  | .tld _ o | .tst _ o => tReserved true false true false false true o
  | .tmma _ o => tReserved true true false false true true o
  | .tmmaS _ o => tReserved true false true true true false o
  | .tdrain _ o => tReserved false false false true true true o
  | .tcvt _ o => tReserved true false false false true true o
  | .tzero _ o => tReserved true false false false false true o
  | .mattach _ o => o.sy == 0
  | .rrun _ o => o.sb == 0 && o.stn == 0
  | .rtw _ o => o.vd == 0 && o.va == 0 && o.sb == 0 && o.stn.toNat ≤ 7
  | .rmiss _ o => o.vd == 0 && o.va == 0 && o.sb == 0 && o.stn.toNat ≤ 8
  | .rclass _ o => o.vd == 0 && o.va == 0 && o.stn == 0
  | .rcommit _ o => o.vd == 0 && o.va == 0 && o.sa == 0 && o.sb == 0 && o.stn == 0
  | .kadd o | .ksub o | .kmul o | .kand o | .kor o | .kxor o | .ksll o | .ksrl o | .ksra o | .kslt o =>
      lsReserved true true true false o
  | .kaddi o => lsReserved true true false true o
  | .kli o => lsReserved true false false true o
  | .kbeq o | .kbne o | .kblt o | .kbge o => lsReserved false true true true o
  | .kjmp o => lsReserved false false false true o
  | .kend o | .lwait o => lsReserved false false false false o && o.bar.sige == 0
  | .lshape o => lsReserved true true true true o && o.imm.extractLsb' 10 20 == 0
  | .lfence o => lbarReserved o.bar && o.xd == 0 && o.xa == 0 && o.xb == 0 && o.ka == 0 && o.kb == 0 && o.fmt == 0
      && o.or == 0 && o.pol == 0 && o.rnd == 0 && o.satm == 0 && o.ord != 3 && o.scp != 6
  | .xld o | .xst o => lxReserved true false false true true true false o
  | .xbcast o => lxReserved true false false true true false false o
  | .xadd o | .xsub o | .xmul o | .xfma o | .xmin o | .xmax o => lxReserved true true true false true false true o
  | .xcvt o => lxReserved true true false true true false true o
  | .xmma o => lxReserved true true true true true false false o
  | _ => true

/-- The scopes that the gates of an instruction name (R94, R178). -/
def Gates.scopes (g : Gates) : List Nat :=
  (g.wait.map fun (w : WaitGate) => w.scp.toNat).toList ++ (g.post.map fun (p : PostGate) => p.scp.toNat).toList

/-- No scope field of a gate holds 7 (R178). -/
def gateScopesOk (g : Gates) : Bool :=
  (match g.wait with | some w => w.scp != 7 | none => true) && (match g.post with | some p => p.scp != 7 | none => true)

/-- No scope field that an instruction takes holds the reserved code 7 (R182): otherwise cause 0x06 is raised. -/
def ownScopeOk : Instr → Bool
  | .fenceFar _ o => o.code != 7
  | .vld _ o | .vst _ o | .vlds _ o | .vsts _ o | .vldx _ o | .vstx _ o | .vldff _ o | .vtld _ o | .vtst _ o =>
      o.scp != 7
  | .lb _ o | .lbu _ o | .lw _ o | .lwu _ o | .ld _ o | .sb _ o | .sw _ o | .sd _ o | .bararv _ o | .bardrop _ o
  | .barwait _ o | .wcarr _ o | .wcwait _ o | .wccancel _ o => o.scp != 7
  | .aadd _ o | .aand _ o | .aor _ o | .axor _ o | .amin _ o | .amax _ o | .aminu _ o | .amaxu _ o | .aswap _ o
  | .acas _ o | .afadd _ o | .afmin _ o | .afmax _ o | .vaadd _ o | .vafadd _ o | .vamin _ o | .vamax _ o
  | .vafmin _ o | .vafmax _ o | .vrsadd _ o | .vrsfadd _ o => o.scp != 7
  | .lfence o | .xld o | .xst o => o.scp != 7
  | _ => true

/-- Scope codes of the gates and of the instruction itself (R182). -/
def scopesOk (i : Instr) : Bool := gateScopesOk (gatesOf i) && ownScopeOk i

/-- The cause of being met in a place the Where column does not list, or of a gate in a wayfarer thread (R183,
R186). -/
def placeCause (i : Instr) : Place → Option Code
  | .ctl => if (placesOf i).c then none else some 0x0E
  | .strip _ => if (placesOf i).b then none else some 0x04
  | .lane _ _ => if (placesOf i).w && gatesOf i == Gates.none then none else some 0x08

/-- The number names a control register of R44. -/
def cregNamed (n : Nat) : Bool :=
  n ≤ 0x0A || (0x10 ≤ n && n ≤ 0x17) || (0x20 ≤ n && n ≤ 0x42) || n == 0x48 || (0x50 ≤ n && n ≤ 0x63)

/-- A crd or cwr names a control register that exists (R182, R212, R213). -/
def codeNamed : Instr → Bool
  | .crd _ o | .cwr _ o => cregNamed o.code.toNat
  | _ => true

/-- The cause of the earliest failing step among 2 to 5 of R187; `raw` says that a bit no field carries is set
(DEDUCED, log 12). A CODE that names no control register is one of the reserved values of R182, so that its cause 0x01
comes after the place causes (R213: a cwr in a wayfarer thread is 0x08 first) and before the wait gate is read. -/
def formCause (i : Instr) (raw : Bool) (p : Place) : Option Code :=
  if !accepts i then some 0x01
  else match placeCause i p with
    | some c => some c
    | none =>
      if !codeNamed i then some 0x01
      else if raw || !reservedOk i then some 0x02 else if !scopesOk i then some 0x06 else none

end Sys2Proof
end

