-- ==== Sys2Proof/WellFormed.lean ====
section
/-! DEFINITION. A well-formed instruction: one whose values its description accepts, whose untaken fields are zero,
and whose scopes are not reserved (R185, R187). An operation of the device (95_what_each_step_holds.md) has no
encoding, and none of these checks applies to it. -/

namespace Sys2Proof

/-- The instruction passes every check of R187 that does not depend on where it executes. -/
def WellFormed (i : Instr) : Bool := accepts i && reservedOk i && scopesOk i

end Sys2Proof
end

