-- ==== Sys2Proof/Decode.lean ====
section
/-! DEFINITION. The decoder and the encoder of native instructions (R177 to R185) and of Lortar words (R352 to
R355), written from the layouts of R177, R178, R181, R184, R352, R353 and R354. Decoding is total: what does not
decode to an instruction is refused by name. -/

namespace Sys2Proof

/-- What the decoder reads: an instruction; an instruction with a reserved field or value that is refused with cause
0x02, or a reserved scope (0x06), once the place has been checked (R187); or no accepted encoding (0x01). -/
inductive Decoded where
  | ok (i : Instr)
  | reserved (i : Instr)
  | scope (i : Instr)
  | illegal
  deriving DecidableEq, Repr

/-- Read the fields of form C (R181) from an operand word. -/
def FormC.ofBits (o : BitVec 16) : FormC :=
  ⟨o.extractLsb' 6 8, o.extractLsb' 0 6⟩

/-- The operand word of form C (R181), reserved bits zero. -/
def FormC.bits (f : FormC) : BitVec 16 :=
  0#2 ++ f.code ++ f.sx

/-- A reserved bit of form C is set. -/
def rawC (o : BitVec 16) : Bool := o.extractLsb' 14 2 != 0

/-- Read the fields of form A (R181) from an operand word. -/
def FormA.ofBits (o : BitVec 16) : FormA :=
  ⟨o.extractLsb' 6 6, o.extractLsb' 0 6⟩

/-- The operand word of form A (R181), reserved bits zero. -/
def FormA.bits (f : FormA) : BitVec 16 :=
  0#4 ++ f.sy ++ f.sx

/-- A reserved bit of form A is set. -/
def rawA (o : BitVec 16) : Bool := o.extractLsb' 12 4 != 0

/-- Read the fields of form H (R181) from an operand word. -/
def FormH.ofBits (o : BitVec 16) : FormH :=
  ⟨o.extractLsb' 10 6, o.extractLsb' 0 10⟩

/-- The operand word of form H (R181), reserved bits zero. -/
def FormH.bits (f : FormH) : BitVec 16 :=
  f.sx ++ f.type

/-- A reserved bit of form H is set. -/
def rawH (_ : BitVec 16) : Bool := false

/-- Read the fields of form K (R181) from an operand word. -/
def FormK.ofBits (o : BitVec 16) : FormK :=
  ⟨o.extractLsb' 8 4, o.extractLsb' 4 4, o.extractLsb' 0 4⟩

/-- The operand word of form K (R181), reserved bits zero. -/
def FormK.bits (f : FormK) : BitVec 16 :=
  0#4 ++ f.mz ++ f.my ++ f.mx

/-- A reserved bit of form K is set. -/
def rawK (o : BitVec 16) : Bool := o.extractLsb' 12 4 != 0

/-- Read the fields of form B (R181) from an operand word. -/
def FormB.ofBits (o : BitVec 32) : FormB :=
  ⟨o.extractLsb' 12 6, o.extractLsb' 6 6, o.extractLsb' 0 6⟩

/-- The operand word of form B (R181), reserved bits zero. -/
def FormB.bits (f : FormB) : BitVec 32 :=
  0#14 ++ f.sz ++ f.sy ++ f.sx

/-- A reserved bit of form B is set. -/
def rawB (o : BitVec 32) : Bool := o.extractLsb' 18 14 != 0

/-- Read the fields of form I (R181) from an operand word. -/
def FormI.ofBits (o : BitVec 32) : FormI :=
  ⟨o.extractLsb' 12 20, o.extractLsb' 6 6, o.extractLsb' 0 6⟩

/-- The operand word of form I (R181), reserved bits zero. -/
def FormI.bits (f : FormI) : BitVec 32 :=
  f.imm ++ f.sy ++ f.sx

/-- A reserved bit of form I is set. -/
def rawI (_ : BitVec 32) : Bool := false

/-- Read the fields of form J (R181) from an operand word. -/
def FormJ.ofBits (o : BitVec 32) : FormJ :=
  ⟨o.extractLsb' 12 20, o.extractLsb' 6 6, o.extractLsb' 0 6⟩

/-- The operand word of form J (R181), reserved bits zero. -/
def FormJ.bits (f : FormJ) : BitVec 32 :=
  f.off ++ f.sy ++ f.sx

/-- A reserved bit of form J is set. -/
def rawJ (_ : BitVec 32) : Bool := false

/-- Read the fields of form L (R181) from an operand word. -/
def FormL.ofBits (o : BitVec 32) : FormL :=
  ⟨o.extractLsb' 6 26, o.extractLsb' 0 6⟩

/-- The operand word of form L (R181), reserved bits zero. -/
def FormL.bits (f : FormL) : BitVec 32 :=
  f.off ++ f.sx

/-- A reserved bit of form L is set. -/
def rawL (_ : BitVec 32) : Bool := false

/-- Read the fields of form F (R181) from an operand word. -/
def FormF.ofBits (o : BitVec 32) : FormF :=
  ⟨o.extractLsb' 26 2, o.extractLsb' 23 3, o.extractLsb' 18 5, o.extractLsb' 12 6, o.extractLsb' 6 6, o.extractLsb' 0 6⟩

/-- The operand word of form F (R181), reserved bits zero. -/
def FormF.bits (f : FormF) : BitVec 32 :=
  0#4 ++ f.satm ++ f.rnd ++ f.fmt ++ f.sz ++ f.sy ++ f.sx

/-- A reserved bit of form F is set. -/
def rawF (o : BitVec 32) : Bool := o.extractLsb' 28 4 != 0

/-- Read the fields of form E (R181) from an operand word. -/
def FormE.ofBits (o : BitVec 32) : FormE :=
  ⟨o.extractLsb' 18 6, o.extractLsb' 12 6, o.extractLsb' 6 6, o.extractLsb' 0 6⟩

/-- The operand word of form E (R181), reserved bits zero. -/
def FormE.bits (f : FormE) : BitVec 32 :=
  0#8 ++ f.sw ++ f.sz ++ f.sy ++ f.sx

/-- A reserved bit of form E is set. -/
def rawE (o : BitVec 32) : Bool := o.extractLsb' 24 8 != 0

/-- Read the fields of form Y (R181) from an operand word. -/
def FormY.ofBits (o : BitVec 32) : FormY :=
  ⟨o.extractLsb' 22 4, o.extractLsb' 16 6, o.extractLsb' 10 6, o.extractLsb' 5 5, o.extractLsb' 0 5⟩

/-- The operand word of form Y (R181), reserved bits zero. -/
def FormY.bits (f : FormY) : BitVec 32 :=
  0#6 ++ f.stn ++ f.sb ++ f.sa ++ f.va ++ f.vd

/-- A reserved bit of form Y is set. -/
def rawY (o : BitVec 32) : Bool := o.extractLsb' 26 6 != 0

/-- Read the fields of form V (R181) from an operand word. -/
def FormV.ofBits (o : BitVec 48) : FormV :=
  ⟨o.extractLsb' 44 1, o.extractLsb' 43 1, o.extractLsb' 38 5, o.extractLsb' 37 1, o.extractLsb' 35 2, o.extractLsb' 32 3, o.extractLsb' 27 5, o.extractLsb' 26 1, o.extractLsb' 22 4, o.extractLsb' 16 6, o.extractLsb' 15 1, o.extractLsb' 10 5, o.extractLsb' 5 5, o.extractLsb' 0 5⟩

/-- The operand word of form V (R181), reserved bits zero. -/
def FormV.bits (f : FormV) : BitVec 48 :=
  0#3 ++ f.im ++ f.fv ++ f.vc ++ f.sc ++ f.satm ++ f.rnd ++ f.fmt ++ f.msk ++ f.mreg ++ f.sb ++ f.bs ++ f.vb ++ f.va ++ f.vd

/-- A reserved bit of form V is set. -/
def rawV (o : BitVec 48) : Bool := o.extractLsb' 45 3 != 0

/-- Read the fields of form M (R181) from an operand word. -/
def FormM.ofBits (o : BitVec 48) : FormM :=
  ⟨o.extractLsb' 41 1, o.extractLsb' 40 1, o.extractLsb' 35 5, o.extractLsb' 32 3, o.extractLsb' 30 2, o.extractLsb' 28 2, o.extractLsb' 27 1, o.extractLsb' 26 1, o.extractLsb' 22 4, o.extractLsb' 17 5, o.extractLsb' 11 6, o.extractLsb' 5 6, o.extractLsb' 0 5⟩

/-- The operand word of form M (R181), reserved bits zero. -/
def FormM.bits (f : FormM) : BitVec 48 :=
  0#6 ++ f.sc ++ f.fv ++ f.fmt ++ f.scp ++ f.ord ++ f.pol ++ f.or ++ f.msk ++ f.mreg ++ f.vi ++ f.sb ++ f.sa ++ f.vd

/-- A reserved bit of form M is set. -/
def rawM (o : BitVec 48) : Bool := o.extractLsb' 42 6 != 0

/-- Read the fields of form S (R181) from an operand word. -/
def FormS.ofBits (o : BitVec 48) : FormS :=
  ⟨o.extractLsb' 32 3, o.extractLsb' 30 2, o.extractLsb' 28 2, o.extractLsb' 12 16, o.extractLsb' 6 6, o.extractLsb' 0 6⟩

/-- The operand word of form S (R181), reserved bits zero. -/
def FormS.bits (f : FormS) : BitVec 48 :=
  0#13 ++ f.scp ++ f.ord ++ f.pol ++ f.off ++ f.sy ++ f.sx

/-- A reserved bit of form S is set. -/
def rawS (o : BitVec 48) : Bool := o.extractLsb' 35 13 != 0

/-- Read the fields of form X (R181) from an operand word. -/
def FormX.ofBits (o : BitVec 48) : FormX :=
  ⟨o.extractLsb' 42 1, o.extractLsb' 37 5, o.extractLsb' 36 1, o.extractLsb' 32 4, o.extractLsb' 31 1, o.extractLsb' 28 3, o.extractLsb' 26 2, o.extractLsb' 24 2, o.extractLsb' 18 6, o.extractLsb' 12 6, o.extractLsb' 6 6, o.extractLsb' 0 6⟩

/-- The operand word of form X (R181), reserved bits zero. -/
def FormX.bits (f : FormX) : BitVec 48 :=
  0#5 ++ f.or ++ f.vi ++ f.msk ++ f.mreg ++ f.w64 ++ f.scp ++ f.ord ++ f.pol ++ f.sw ++ f.sz ++ f.sy ++ f.sx

/-- A reserved bit of form X is set. -/
def rawX (o : BitVec 48) : Bool := o.extractLsb' 43 5 != 0

/-- Read the fields of form T (R181) from an operand word. -/
def FormT.ofBits (o : BitVec 48) : FormT :=
  ⟨o.extractLsb' 35 2, o.extractLsb' 32 3, o.extractLsb' 31 1, o.extractLsb' 26 5, o.extractLsb' 24 2, o.extractLsb' 23 1, o.extractLsb' 17 6, o.extractLsb' 11 6, o.extractLsb' 6 5, o.extractLsb' 3 3, o.extractLsb' 0 3⟩

/-- The operand word of form T (R181), reserved bits zero. -/
def FormT.bits (f : FormT) : BitVec 48 :=
  0#11 ++ f.satm ++ f.rnd ++ f.sc ++ f.fmt ++ f.pol ++ f.or ++ f.sb ++ f.sa ++ f.va ++ f.ty ++ f.tx

/-- A reserved bit of form T is set. -/
def rawT (o : BitVec 48) : Bool := o.extractLsb' 37 11 != 0

/-- Read the fields of form W (R181) from an operand word. -/
def FormW.ofBits (o : BitVec 64) : FormW :=
  ⟨o.extractLsb' 16 48, o.extractLsb' 0 6⟩

/-- The operand word of form W (R181), reserved bits zero. -/
def FormW.bits (f : FormW) : BitVec 64 :=
  f.imm ++ 0#10 ++ f.sx

/-- A reserved bit of form W is set. -/
def rawW (o : BitVec 64) : Bool := o.extractLsb' 6 10 != 0

/-- The operand word's first two, three or four halfwords, lowest address first (R180). -/
def opHalves1 : List Half → BitVec 16
  | a :: _ => a
  | [] => 0
/-- Two halfwords (R180). -/
def opHalves2 : List Half → BitVec 32
  | a :: b :: _ => b ++ a
  | _ => 0
/-- Three halfwords (R180). -/
def opHalves3 : List Half → BitVec 48
  | a :: b :: c :: _ => c ++ b ++ a
  | _ => 0
/-- Four halfwords (R180). -/
def opHalves4 : List Half → BitVec 64
  | a :: b :: c :: d :: _ => d ++ c ++ b ++ a
  | _ => 0

/-- A 16-bit operand word as halfwords. -/
def halves1 (o : BitVec 16) : List Half := [o]
/-- A 32-bit operand word as halfwords, lowest address first. -/
def halves2 (o : BitVec 32) : List Half := [o.extractLsb' 0 16, o.extractLsb' 16 16]
/-- A 48-bit operand word as halfwords. -/
def halves3 (o : BitVec 48) : List Half := [o.extractLsb' 0 16, o.extractLsb' 16 16, o.extractLsb' 32 16]
/-- A 64-bit operand word as halfwords. -/
def halves4 (o : BitVec 64) : List Half :=
  [o.extractLsb' 0 16, o.extractLsb' 16 16, o.extractLsb' 32 16, o.extractLsb' 48 16]

/-- An instruction built from its gates and operand halfwords, with whether a reserved bit of its form is set. -/
abbrev Built := Instr × Bool

/-- MAJ 0x00 of R184. -/
def build00 (min : Nat) (g : Gates) (_ : List Half) : Option Built :=
  match min with
  | 1 => some (.nop g, false)
  | 2 => some (.halt g, false)
  | 3 => some (.vsync g, false)
  | 4 => some (.fenceNear g, false)
  | 5 => some (.tlwait g, false)
  | 6 => some (.wexit g, false)
  | _ => none

/-- MAJ 0x01 of R184. -/
def build01 (min : Nat) (g : Gates) (t : List Half) : Option Built :=
  match min with
  | 0 => some (.add g (FormB.ofBits (opHalves2 t)), rawB (opHalves2 t))
  | 1 => some (.sub g (FormB.ofBits (opHalves2 t)), rawB (opHalves2 t))
  | 2 => some (.and g (FormB.ofBits (opHalves2 t)), rawB (opHalves2 t))
  | 3 => some (.or g (FormB.ofBits (opHalves2 t)), rawB (opHalves2 t))
  | 4 => some (.xor g (FormB.ofBits (opHalves2 t)), rawB (opHalves2 t))
  | 5 => some (.sll g (FormB.ofBits (opHalves2 t)), rawB (opHalves2 t))
  | 6 => some (.srl g (FormB.ofBits (opHalves2 t)), rawB (opHalves2 t))
  | 7 => some (.sra g (FormB.ofBits (opHalves2 t)), rawB (opHalves2 t))
  | 8 => some (.slt g (FormB.ofBits (opHalves2 t)), rawB (opHalves2 t))
  | 9 => some (.sltu g (FormB.ofBits (opHalves2 t)), rawB (opHalves2 t))
  | 10 => some (.mul g (FormB.ofBits (opHalves2 t)), rawB (opHalves2 t))
  | 11 => some (.div g (FormB.ofBits (opHalves2 t)), rawB (opHalves2 t))
  | 12 => some (.divu g (FormB.ofBits (opHalves2 t)), rawB (opHalves2 t))
  | 13 => some (.rem g (FormB.ofBits (opHalves2 t)), rawB (opHalves2 t))
  | 14 => some (.remu g (FormB.ofBits (opHalves2 t)), rawB (opHalves2 t))
  | _ => none

/-- MAJ 0x02 of R184. -/
def build02 (min : Nat) (g : Gates) (t : List Half) : Option Built :=
  match min with
  | 0 => some (.addi g (FormI.ofBits (opHalves2 t)), rawI (opHalves2 t))
  | 1 => some (.andi g (FormI.ofBits (opHalves2 t)), rawI (opHalves2 t))
  | 2 => some (.ori g (FormI.ofBits (opHalves2 t)), rawI (opHalves2 t))
  | 3 => some (.xori g (FormI.ofBits (opHalves2 t)), rawI (opHalves2 t))
  | 4 => some (.slli g (FormI.ofBits (opHalves2 t)), rawI (opHalves2 t))
  | 5 => some (.srli g (FormI.ofBits (opHalves2 t)), rawI (opHalves2 t))
  | 6 => some (.srai g (FormI.ofBits (opHalves2 t)), rawI (opHalves2 t))
  | _ => none

/-- MAJ 0x03 of R184. -/
def build03 (min : Nat) (g : Gates) (t : List Half) : Option Built :=
  match min with
  | 0 => some (.mov g (FormA.ofBits (opHalves1 t)), rawA (opHalves1 t))
  | 1 => some (.not g (FormA.ofBits (opHalves1 t)), rawA (opHalves1 t))
  | 2 => some (.clz g (FormA.ofBits (opHalves1 t)), rawA (opHalves1 t))
  | 3 => some (.cpop g (FormA.ofBits (opHalves1 t)), rawA (opHalves1 t))
  | _ => none

/-- MAJ 0x04 of R184. -/
def build04 (min : Nat) (g : Gates) (t : List Half) : Option Built :=
  match min with
  | 0 => some (.beq g (FormJ.ofBits (opHalves2 t)), rawJ (opHalves2 t))
  | 1 => some (.bne g (FormJ.ofBits (opHalves2 t)), rawJ (opHalves2 t))
  | 2 => some (.blt g (FormJ.ofBits (opHalves2 t)), rawJ (opHalves2 t))
  | 3 => some (.bge g (FormJ.ofBits (opHalves2 t)), rawJ (opHalves2 t))
  | 4 => some (.bltu g (FormJ.ofBits (opHalves2 t)), rawJ (opHalves2 t))
  | 5 => some (.bgeu g (FormJ.ofBits (opHalves2 t)), rawJ (opHalves2 t))
  | _ => none

/-- MAJ 0x05 of R184. -/
def build05 (min : Nat) (g : Gates) (t : List Half) : Option Built :=
  match min with
  | 0 => some (.jmp g (FormL.ofBits (opHalves2 t)), rawL (opHalves2 t))
  | 1 => some (.call g (FormL.ofBits (opHalves2 t)), rawL (opHalves2 t))
  | _ => none

/-- MAJ 0x06 of R184. -/
def build06 (min : Nat) (g : Gates) (t : List Half) : Option Built :=
  match min with
  | 0 => some (.jr g (FormA.ofBits (opHalves1 t)), rawA (opHalves1 t))
  | 1 => some (.callr g (FormA.ofBits (opHalves1 t)), rawA (opHalves1 t))
  | 2 => some (.callt g (FormA.ofBits (opHalves1 t)), rawA (opHalves1 t))
  | 3 => some (.vblk g (FormA.ofBits (opHalves1 t)), rawA (opHalves1 t))
  | _ => none

/-- MAJ 0x07 of R184. -/
def build07 (min : Nat) (g : Gates) (t : List Half) : Option Built :=
  match min with
  | 0 => some (.li g (FormW.ofBits (opHalves4 t)), rawW (opHalves4 t))
  | 1 => some (.lea g (FormW.ofBits (opHalves4 t)), rawW (opHalves4 t))
  | _ => none

/-- MAJ 0x08 of R184. -/
def build08 (min : Nat) (g : Gates) (t : List Half) : Option Built :=
  match min with
  | 0 => some (.fadd g (FormF.ofBits (opHalves2 t)), rawF (opHalves2 t))
  | 1 => some (.fsub g (FormF.ofBits (opHalves2 t)), rawF (opHalves2 t))
  | 2 => some (.fmul g (FormF.ofBits (opHalves2 t)), rawF (opHalves2 t))
  | 3 => some (.fdiv g (FormF.ofBits (opHalves2 t)), rawF (opHalves2 t))
  | 4 => some (.feq g (FormF.ofBits (opHalves2 t)), rawF (opHalves2 t))
  | 5 => some (.flt g (FormF.ofBits (opHalves2 t)), rawF (opHalves2 t))
  | 6 => some (.fle g (FormF.ofBits (opHalves2 t)), rawF (opHalves2 t))
  | 7 => some (.fcvt g (FormF.ofBits (opHalves2 t)), rawF (opHalves2 t))
  | _ => none

/-- MAJ 0x09 of R184. -/
def build09 (min : Nat) (g : Gates) (t : List Half) : Option Built :=
  match min with
  | 0 => some (.crd g (FormC.ofBits (opHalves1 t)), rawC (opHalves1 t))
  | 1 => some (.cwr g (FormC.ofBits (opHalves1 t)), rawC (opHalves1 t))
  | 2 => some (.rqget g (FormC.ofBits (opHalves1 t)), rawC (opHalves1 t))
  | _ => none

/-- MAJ 0x10 of R184. -/
def build10 (min : Nat) (g : Gates) (t : List Half) : Option Built :=
  match min with
  | 0 => some (.setvl g (FormH.ofBits (opHalves1 t)), rawH (opHalves1 t))
  | 1 => some (.setvlW g (FormH.ofBits (opHalves1 t)), rawH (opHalves1 t))
  | _ => none

/-- MAJ 0x11 of R184. -/
def build11 (min : Nat) (g : Gates) (_ : List Half) : Option Built :=
  match min with
  | 0 => some (.vend g, false)
  | 1 => some (.vrejoin g, false)
  | _ => none

/-- MAJ 0x12 of R184. -/
def build12 (min : Nat) (g : Gates) (t : List Half) : Option Built :=
  match min with
  | 0 => some (.vlset g (FormA.ofBits (opHalves1 t)), rawA (opHalves1 t))
  | _ => none

/-- MAJ 0x13 of R184. -/
def build13 (min : Nat) (g : Gates) (t : List Half) : Option Built :=
  match min with
  | 0 => some (.vloop g (FormL.ofBits (opHalves2 t)), rawL (opHalves2 t))
  | 1 => some (.vbany g (FormL.ofBits (opHalves2 t)), rawL (opHalves2 t))
  | 2 => some (.vbnone g (FormL.ofBits (opHalves2 t)), rawL (opHalves2 t))
  | _ => none

/-- MAJ 0x14 of R184. -/
def build14 (min : Nat) (g : Gates) (t : List Half) : Option Built :=
  match min with
  | 0 => some (.vadd g (FormV.ofBits (opHalves3 t)), rawV (opHalves3 t))
  | 1 => some (.vsub g (FormV.ofBits (opHalves3 t)), rawV (opHalves3 t))
  | 2 => some (.vmul g (FormV.ofBits (opHalves3 t)), rawV (opHalves3 t))
  | 3 => some (.vmulh g (FormV.ofBits (opHalves3 t)), rawV (opHalves3 t))
  | 4 => some (.vmin g (FormV.ofBits (opHalves3 t)), rawV (opHalves3 t))
  | 5 => some (.vmax g (FormV.ofBits (opHalves3 t)), rawV (opHalves3 t))
  | 6 => some (.vand g (FormV.ofBits (opHalves3 t)), rawV (opHalves3 t))
  | 7 => some (.vor g (FormV.ofBits (opHalves3 t)), rawV (opHalves3 t))
  | 8 => some (.vxor g (FormV.ofBits (opHalves3 t)), rawV (opHalves3 t))
  | 9 => some (.vsll g (FormV.ofBits (opHalves3 t)), rawV (opHalves3 t))
  | 10 => some (.vsrl g (FormV.ofBits (opHalves3 t)), rawV (opHalves3 t))
  | 11 => some (.vsra g (FormV.ofBits (opHalves3 t)), rawV (opHalves3 t))
  | 12 => some (.vsadd g (FormV.ofBits (opHalves3 t)), rawV (opHalves3 t))
  | 13 => some (.vssub g (FormV.ofBits (opHalves3 t)), rawV (opHalves3 t))
  | 14 => some (.vdiv g (FormV.ofBits (opHalves3 t)), rawV (opHalves3 t))
  | 15 => some (.vrem g (FormV.ofBits (opHalves3 t)), rawV (opHalves3 t))
  | _ => none

/-- MAJ 0x15 of R184. -/
def build15 (min : Nat) (g : Gates) (t : List Half) : Option Built :=
  match min with
  | 0 => some (.vfadd g (FormV.ofBits (opHalves3 t)), rawV (opHalves3 t))
  | 1 => some (.vfsub g (FormV.ofBits (opHalves3 t)), rawV (opHalves3 t))
  | 2 => some (.vfmul g (FormV.ofBits (opHalves3 t)), rawV (opHalves3 t))
  | 3 => some (.vfdiv g (FormV.ofBits (opHalves3 t)), rawV (opHalves3 t))
  | 4 => some (.vfma g (FormV.ofBits (opHalves3 t)), rawV (opHalves3 t))
  | 5 => some (.vfms g (FormV.ofBits (opHalves3 t)), rawV (opHalves3 t))
  | 6 => some (.vfmin g (FormV.ofBits (opHalves3 t)), rawV (opHalves3 t))
  | 7 => some (.vfmax g (FormV.ofBits (opHalves3 t)), rawV (opHalves3 t))
  | 8 => some (.vfsqrt g (FormV.ofBits (opHalves3 t)), rawV (opHalves3 t))
  | 9 => some (.vfabs g (FormV.ofBits (opHalves3 t)), rawV (opHalves3 t))
  | 10 => some (.vfneg g (FormV.ofBits (opHalves3 t)), rawV (opHalves3 t))
  | _ => none

/-- MAJ 0x16 of R184. -/
def build16 (min : Nat) (g : Gates) (t : List Half) : Option Built :=
  match min with
  | 0 => some (.vmseq g (FormV.ofBits (opHalves3 t)), rawV (opHalves3 t))
  | 1 => some (.vmsne g (FormV.ofBits (opHalves3 t)), rawV (opHalves3 t))
  | 2 => some (.vmslt g (FormV.ofBits (opHalves3 t)), rawV (opHalves3 t))
  | 3 => some (.vmsle g (FormV.ofBits (opHalves3 t)), rawV (opHalves3 t))
  | 4 => some (.vmsltu g (FormV.ofBits (opHalves3 t)), rawV (opHalves3 t))
  | 5 => some (.vmsleu g (FormV.ofBits (opHalves3 t)), rawV (opHalves3 t))
  | 6 => some (.vmfeq g (FormV.ofBits (opHalves3 t)), rawV (opHalves3 t))
  | 7 => some (.vmflt g (FormV.ofBits (opHalves3 t)), rawV (opHalves3 t))
  | 8 => some (.vmfle g (FormV.ofBits (opHalves3 t)), rawV (opHalves3 t))
  | _ => none

/-- MAJ 0x17 of R184. -/
def build17 (min : Nat) (g : Gates) (t : List Half) : Option Built :=
  match min with
  | 0 => some (.mand g (FormK.ofBits (opHalves1 t)), rawK (opHalves1 t))
  | 1 => some (.mor g (FormK.ofBits (opHalves1 t)), rawK (opHalves1 t))
  | 2 => some (.mxor g (FormK.ofBits (opHalves1 t)), rawK (opHalves1 t))
  | 3 => some (.mnot g (FormK.ofBits (opHalves1 t)), rawK (opHalves1 t))
  | 4 => some (.mmv g (FormK.ofBits (opHalves1 t)), rawK (opHalves1 t))
  | 5 => some (.msbf g (FormK.ofBits (opHalves1 t)), rawK (opHalves1 t))
  | 6 => some (.msif g (FormK.ofBits (opHalves1 t)), rawK (opHalves1 t))
  | 7 => some (.msof g (FormK.ofBits (opHalves1 t)), rawK (opHalves1 t))
  | 8 => some (.mcnt g (FormK.ofBits (opHalves1 t)), rawK (opHalves1 t))
  | 9 => some (.many g (FormK.ofBits (opHalves1 t)), rawK (opHalves1 t))
  | 10 => some (.mfirst g (FormK.ofBits (opHalves1 t)), rawK (opHalves1 t))
  | _ => none

/-- MAJ 0x18 of R184. -/
def build18 (min : Nat) (g : Gates) (t : List Half) : Option Built :=
  match min with
  | 0 => some (.vmv g (FormV.ofBits (opHalves3 t)), rawV (opHalves3 t))
  | 1 => some (.vid g (FormV.ofBits (opHalves3 t)), rawV (opHalves3 t))
  | 2 => some (.vcompress g (FormV.ofBits (opHalves3 t)), rawV (opHalves3 t))
  | 3 => some (.vexpand g (FormV.ofBits (opHalves3 t)), rawV (opHalves3 t))
  | 4 => some (.vslideup g (FormV.ofBits (opHalves3 t)), rawV (opHalves3 t))
  | 5 => some (.vslidedn g (FormV.ofBits (opHalves3 t)), rawV (opHalves3 t))
  | 6 => some (.vgather g (FormV.ofBits (opHalves3 t)), rawV (opHalves3 t))
  | 7 => some (.vmerge g (FormV.ofBits (opHalves3 t)), rawV (opHalves3 t))
  | _ => none

/-- MAJ 0x19 of R184. -/
def build19 (min : Nat) (g : Gates) (t : List Half) : Option Built :=
  match min with
  | 0 => some (.vredsum g (FormV.ofBits (opHalves3 t)), rawV (opHalves3 t))
  | 1 => some (.vfredo g (FormV.ofBits (opHalves3 t)), rawV (opHalves3 t))
  | 2 => some (.vfredt g (FormV.ofBits (opHalves3 t)), rawV (opHalves3 t))
  | 3 => some (.vredmin g (FormV.ofBits (opHalves3 t)), rawV (opHalves3 t))
  | 4 => some (.vredmax g (FormV.ofBits (opHalves3 t)), rawV (opHalves3 t))
  | 5 => some (.vcvt g (FormV.ofBits (opHalves3 t)), rawV (opHalves3 t))
  | 6 => some (.vunpk g (FormV.ofBits (opHalves3 t)), rawV (opHalves3 t))
  | 7 => some (.vpilgrim g (FormV.ofBits (opHalves3 t)), rawV (opHalves3 t))
  | 8 => some (.vqpush g (FormV.ofBits (opHalves3 t)), rawV (opHalves3 t))
  | 9 => some (.vqpop g (FormV.ofBits (opHalves3 t)), rawV (opHalves3 t))
  | 10 => some (.vdetach g (FormV.ofBits (opHalves3 t)), rawV (opHalves3 t))
  | _ => none

/-- MAJ 0x20 of R184. -/
def build20 (min : Nat) (g : Gates) (t : List Half) : Option Built :=
  match min with
  | 0 => some (.vld g (FormM.ofBits (opHalves3 t)), rawM (opHalves3 t))
  | 1 => some (.vst g (FormM.ofBits (opHalves3 t)), rawM (opHalves3 t))
  | 2 => some (.vlds g (FormM.ofBits (opHalves3 t)), rawM (opHalves3 t))
  | 3 => some (.vsts g (FormM.ofBits (opHalves3 t)), rawM (opHalves3 t))
  | 4 => some (.vldx g (FormM.ofBits (opHalves3 t)), rawM (opHalves3 t))
  | 5 => some (.vstx g (FormM.ofBits (opHalves3 t)), rawM (opHalves3 t))
  | 6 => some (.vldff g (FormM.ofBits (opHalves3 t)), rawM (opHalves3 t))
  | 7 => some (.vtld g (FormM.ofBits (opHalves3 t)), rawM (opHalves3 t))
  | 8 => some (.vtst g (FormM.ofBits (opHalves3 t)), rawM (opHalves3 t))
  | _ => none

/-- MAJ 0x21 of R184. -/
def build21 (min : Nat) (g : Gates) (t : List Half) : Option Built :=
  match min with
  | 0 => some (.lb g (FormS.ofBits (opHalves3 t)), rawS (opHalves3 t))
  | 1 => some (.lbu g (FormS.ofBits (opHalves3 t)), rawS (opHalves3 t))
  | 2 => some (.lw g (FormS.ofBits (opHalves3 t)), rawS (opHalves3 t))
  | 3 => some (.lwu g (FormS.ofBits (opHalves3 t)), rawS (opHalves3 t))
  | 4 => some (.ld g (FormS.ofBits (opHalves3 t)), rawS (opHalves3 t))
  | 5 => some (.sb g (FormS.ofBits (opHalves3 t)), rawS (opHalves3 t))
  | 6 => some (.sw g (FormS.ofBits (opHalves3 t)), rawS (opHalves3 t))
  | 7 => some (.sd g (FormS.ofBits (opHalves3 t)), rawS (opHalves3 t))
  | _ => none

/-- MAJ 0x22 of R184. -/
def build22 (min : Nat) (g : Gates) (t : List Half) : Option Built :=
  match min with
  | 0 => some (.vbind g (FormV.ofBits (opHalves3 t)), rawV (opHalves3 t))
  | 1 => some (.vbindz g (FormV.ofBits (opHalves3 t)), rawV (opHalves3 t))
  | 2 => some (.vbindn g (FormV.ofBits (opHalves3 t)), rawV (opHalves3 t))
  | 3 => some (.vunbind g (FormV.ofBits (opHalves3 t)), rawV (opHalves3 t))
  | _ => none

/-- MAJ 0x23 of R184. -/
def build23 (min : Nat) (g : Gates) (t : List Half) : Option Built :=
  match min with
  | 0 => some (.pcopy g (FormE.ofBits (opHalves2 t)), rawE (opHalves2 t))
  | 1 => some (.pcopyz g (FormE.ofBits (opHalves2 t)), rawE (opHalves2 t))
  | 2 => some (.coll g (FormE.ofBits (opHalves2 t)), rawE (opHalves2 t))
  | _ => none

/-- MAJ 0x24 of R184. -/
def build24 (min : Nat) (g : Gates) (t : List Half) : Option Built :=
  match min with
  | 0 => some (.racq g (FormA.ofBits (opHalves1 t)), rawA (opHalves1 t))
  | 1 => some (.rrel g (FormA.ofBits (opHalves1 t)), rawA (opHalves1 t))
  | _ => none

/-- MAJ 0x25 of R184. -/
def build25 (min : Nat) (g : Gates) (t : List Half) : Option Built :=
  match min with
  | 0 => some (.fenceFar g (FormC.ofBits (opHalves1 t)), rawC (opHalves1 t))
  | _ => none

/-- MAJ 0x26 of R184. -/
def build26 (min : Nat) (g : Gates) (t : List Half) : Option Built :=
  match min with
  | 0 => some (.aadd g (FormX.ofBits (opHalves3 t)), rawX (opHalves3 t))
  | 1 => some (.aand g (FormX.ofBits (opHalves3 t)), rawX (opHalves3 t))
  | 2 => some (.aor g (FormX.ofBits (opHalves3 t)), rawX (opHalves3 t))
  | 3 => some (.axor g (FormX.ofBits (opHalves3 t)), rawX (opHalves3 t))
  | 4 => some (.amin g (FormX.ofBits (opHalves3 t)), rawX (opHalves3 t))
  | 5 => some (.amax g (FormX.ofBits (opHalves3 t)), rawX (opHalves3 t))
  | 6 => some (.aminu g (FormX.ofBits (opHalves3 t)), rawX (opHalves3 t))
  | 7 => some (.amaxu g (FormX.ofBits (opHalves3 t)), rawX (opHalves3 t))
  | 8 => some (.aswap g (FormX.ofBits (opHalves3 t)), rawX (opHalves3 t))
  | 9 => some (.acas g (FormX.ofBits (opHalves3 t)), rawX (opHalves3 t))
  | 10 => some (.afadd g (FormX.ofBits (opHalves3 t)), rawX (opHalves3 t))
  | 11 => some (.afmin g (FormX.ofBits (opHalves3 t)), rawX (opHalves3 t))
  | 12 => some (.afmax g (FormX.ofBits (opHalves3 t)), rawX (opHalves3 t))
  | _ => none

/-- MAJ 0x27 of R184. -/
def build27 (min : Nat) (g : Gates) (t : List Half) : Option Built :=
  match min with
  | 0 => some (.vaadd g (FormX.ofBits (opHalves3 t)), rawX (opHalves3 t))
  | 1 => some (.vafadd g (FormX.ofBits (opHalves3 t)), rawX (opHalves3 t))
  | 2 => some (.vamin g (FormX.ofBits (opHalves3 t)), rawX (opHalves3 t))
  | 3 => some (.vamax g (FormX.ofBits (opHalves3 t)), rawX (opHalves3 t))
  | 4 => some (.vafmin g (FormX.ofBits (opHalves3 t)), rawX (opHalves3 t))
  | 5 => some (.vafmax g (FormX.ofBits (opHalves3 t)), rawX (opHalves3 t))
  | 6 => some (.vrsadd g (FormX.ofBits (opHalves3 t)), rawX (opHalves3 t))
  | 7 => some (.vrsfadd g (FormX.ofBits (opHalves3 t)), rawX (opHalves3 t))
  | _ => none

/-- MAJ 0x28 of R184. -/
def build28 (min : Nat) (g : Gates) (t : List Half) : Option Built :=
  match min with
  | 0 => some (.bararv g (FormS.ofBits (opHalves3 t)), rawS (opHalves3 t))
  | 1 => some (.bardrop g (FormS.ofBits (opHalves3 t)), rawS (opHalves3 t))
  | 2 => some (.barwait g (FormS.ofBits (opHalves3 t)), rawS (opHalves3 t))
  | 3 => some (.wcarr g (FormS.ofBits (opHalves3 t)), rawS (opHalves3 t))
  | 4 => some (.wcwait g (FormS.ofBits (opHalves3 t)), rawS (opHalves3 t))
  | 5 => some (.wccancel g (FormS.ofBits (opHalves3 t)), rawS (opHalves3 t))
  | _ => none

/-- MAJ 0x30 of R184. -/
def build30 (min : Nat) (g : Gates) (t : List Half) : Option Built :=
  match min with
  | 0 => some (.tld g (FormT.ofBits (opHalves3 t)), rawT (opHalves3 t))
  | 1 => some (.tst g (FormT.ofBits (opHalves3 t)), rawT (opHalves3 t))
  | 2 => some (.tmma g (FormT.ofBits (opHalves3 t)), rawT (opHalves3 t))
  | 3 => some (.tmmaS g (FormT.ofBits (opHalves3 t)), rawT (opHalves3 t))
  | 4 => some (.tdrain g (FormT.ofBits (opHalves3 t)), rawT (opHalves3 t))
  | 5 => some (.tcvt g (FormT.ofBits (opHalves3 t)), rawT (opHalves3 t))
  | 6 => some (.tzero g (FormT.ofBits (opHalves3 t)), rawT (opHalves3 t))
  | _ => none

/-- MAJ 0x31 of R184. -/
def build31 (min : Nat) (g : Gates) (t : List Half) : Option Built :=
  match min with
  | 0 => some (.mattach g (FormA.ofBits (opHalves1 t)), rawA (opHalves1 t))
  | _ => none

/-- MAJ 0x32 of R184. -/
def build32 (min : Nat) (g : Gates) (_ : List Half) : Option Built :=
  match min with
  | 0 => some (.mdetach g, false)
  | _ => none

/-- MAJ 0x38 of R184. -/
def build38 (min : Nat) (g : Gates) (t : List Half) : Option Built :=
  match min with
  | 0 => some (.rrun g (FormY.ofBits (opHalves2 t)), rawY (opHalves2 t))
  | 1 => some (.rtw g (FormY.ofBits (opHalves2 t)), rawY (opHalves2 t))
  | 2 => some (.rcommit g (FormY.ofBits (opHalves2 t)), rawY (opHalves2 t))
  | 3 => some (.rclass g (FormY.ofBits (opHalves2 t)), rawY (opHalves2 t))
  | 4 => some (.rmiss g (FormY.ofBits (opHalves2 t)), rawY (opHalves2 t))
  | _ => none

/-- MAJ 0x39 of R184. -/
def build39 (min : Nat) (g : Gates) (t : List Half) : Option Built :=
  match min with
  | 0 => some (.rstat g (FormA.ofBits (opHalves1 t)), rawA (opHalves1 t))
  | _ => none

/-- MAJ 0x3C of R184. -/
def build3C (min : Nat) (g : Gates) (t : List Half) : Option Built :=
  match min with
  | 0 => some (.scall g (FormI.ofBits (opHalves2 t)), rawI (opHalves2 t))
  | _ => none

/-- MAJ 0x3D of R184. -/
def build3D (min : Nat) (g : Gates) (t : List Half) : Option Built :=
  match min with
  | 0 => some (.trap g (FormC.ofBits (opHalves1 t)), rawC (opHalves1 t))
  | _ => none

/-- The opcode map (R184): MAJ and MIN to the length of the operand form in halfwords and the instruction. -/
def build (maj min : Nat) (g : Gates) (t : List Half) : Option (Nat × Built) :=
  match maj with
  | 0x00 => (build00 min g t).map (⟨0, ·⟩)
  | 0x01 => (build01 min g t).map (⟨2, ·⟩)
  | 0x02 => (build02 min g t).map (⟨2, ·⟩)
  | 0x03 => (build03 min g t).map (⟨1, ·⟩)
  | 0x04 => (build04 min g t).map (⟨2, ·⟩)
  | 0x05 => (build05 min g t).map (⟨2, ·⟩)
  | 0x06 => (build06 min g t).map (⟨1, ·⟩)
  | 0x07 => (build07 min g t).map (⟨4, ·⟩)
  | 0x08 => (build08 min g t).map (⟨2, ·⟩)
  | 0x09 => (build09 min g t).map (⟨1, ·⟩)
  | 0x10 => (build10 min g t).map (⟨1, ·⟩)
  | 0x11 => (build11 min g t).map (⟨0, ·⟩)
  | 0x12 => (build12 min g t).map (⟨1, ·⟩)
  | 0x13 => (build13 min g t).map (⟨2, ·⟩)
  | 0x14 => (build14 min g t).map (⟨3, ·⟩)
  | 0x15 => (build15 min g t).map (⟨3, ·⟩)
  | 0x16 => (build16 min g t).map (⟨3, ·⟩)
  | 0x17 => (build17 min g t).map (⟨1, ·⟩)
  | 0x18 => (build18 min g t).map (⟨3, ·⟩)
  | 0x19 => (build19 min g t).map (⟨3, ·⟩)
  | 0x20 => (build20 min g t).map (⟨3, ·⟩)
  | 0x21 => (build21 min g t).map (⟨3, ·⟩)
  | 0x22 => (build22 min g t).map (⟨3, ·⟩)
  | 0x23 => (build23 min g t).map (⟨2, ·⟩)
  | 0x24 => (build24 min g t).map (⟨1, ·⟩)
  | 0x25 => (build25 min g t).map (⟨1, ·⟩)
  | 0x26 => (build26 min g t).map (⟨3, ·⟩)
  | 0x27 => (build27 min g t).map (⟨3, ·⟩)
  | 0x28 => (build28 min g t).map (⟨3, ·⟩)
  | 0x30 => (build30 min g t).map (⟨3, ·⟩)
  | 0x31 => (build31 min g t).map (⟨1, ·⟩)
  | 0x32 => (build32 min g t).map (⟨0, ·⟩)
  | 0x38 => (build38 min g t).map (⟨2, ·⟩)
  | 0x39 => (build39 min g t).map (⟨1, ·⟩)
  | 0x3C => (build3C min g t).map (⟨2, ·⟩)
  | 0x3D => (build3D min g t).map (⟨1, ·⟩)
  | _ => none

/-- MAJ of a head (R177). -/
def headMaj (h : Half) : Nat := (h.extractLsb' 10 6).toNat
/-- TL of a head (R177). -/
def headTl (h : Half) : Nat := (h.extractLsb' 7 3).toNat
/-- GATE of a head (R177). -/
def headGate (h : Half) : BitVec 2 := h.extractLsb' 5 2
/-- MIN of a head (R177). -/
def headMin (h : Half) : Nat := (h.extractLsb' 0 5).toNat

/-- A wait gate halfword (R178). -/
def waitOf (h : Half) : WaitGate := ⟨h.extractLsb' 12 4, h.extractLsb' 6 6, h.extractLsb' 3 3⟩
/-- A post gate halfword (R178). -/
def postOf (h : Half) : PostGate := ⟨h.extractLsb' 12 4, h.extractLsb' 3 3⟩
/-- A wait gate's halfword. -/
def WaitGate.half (w : WaitGate) : Half := w.tl ++ w.thr ++ w.scp ++ 0#3
/-- A post gate's halfword. -/
def PostGate.half (p : PostGate) : Half := p.tl ++ 0#6 ++ p.scp ++ 0#3

/-- The gates at the start of a tail, the rest of the tail, and whether a reserved gate bit is set (R178). -/
def splitGates (gate : BitVec 2) (t : List Half) : Gates × List Half × Bool :=
  let a := t.headD 0
  let b := t.tail.headD 0
  if gate == 0 then (⟨none, none⟩, t, false)
  else if gate == 1 then (⟨some (waitOf a), none⟩, t.tail, a.extractLsb' 0 3 != 0)
  else if gate == 2 then
    (⟨none, some (postOf a)⟩, t.tail, a.extractLsb' 0 3 != 0 || a.extractLsb' 6 6 != 0)
  else (⟨some (waitOf a), some (postOf b)⟩, t.tail.tail,
    a.extractLsb' 0 3 != 0 || b.extractLsb' 0 3 != 0 || b.extractLsb' 6 6 != 0)

/-- How many gate halfwords a GATE code takes (R178). -/
def gateCount (gate : BitVec 2) : Nat := if gate == 0 then 0 else if gate == 3 then 2 else 1

/-- Sort what the opcode map gave by the checks of R187: accepted values, then reserved fields, then scopes. -/
def classify (i : Instr) (raw : Bool) : Decoded :=
  if !accepts i then .illegal else if raw || !reservedOk i then .reserved i
  else if !scopesOk i then .scope i else .ok i

/-- Decode a head and its tail (R177 to R185). A bkpt takes any TL and no gate, and its tail is not read (R226,
R227). -/
def decode (h : Half) (t : List Half) : Decoded :=
  if headMaj h == 0x3E && headMin h == 0 then
    if headGate h == 0 then .ok (.bkpt (h.extractLsb' 7 3)) else .illegal
  else
    let (g, ops, raw) := splitGates (headGate h) t
    match build (headMaj h) (headMin h) g ops with
    | none => .illegal
    | some (len, i, rawForm) =>
        if headTl h != gateCount (headGate h) + len || t.length != headTl h then .illegal
        else classify i (raw || rawForm)

/-- MAJ, MIN and operand halfwords of a native instruction (R184); nothing for an operation of the device. -/
def opcodeOf : Instr → Option (BitVec 6 × BitVec 5 × List Half)
  | .nop _ => some (0x00, 0x01, [])
  | .halt _ => some (0x00, 0x02, [])
  | .vsync _ => some (0x00, 0x03, [])
  | .fenceNear _ => some (0x00, 0x04, [])
  | .tlwait _ => some (0x00, 0x05, [])
  | .wexit _ => some (0x00, 0x06, [])
  | .add _ o => some (0x01, 0x00, halves2 o.bits)
  | .sub _ o => some (0x01, 0x01, halves2 o.bits)
  | .and _ o => some (0x01, 0x02, halves2 o.bits)
  | .or _ o => some (0x01, 0x03, halves2 o.bits)
  | .xor _ o => some (0x01, 0x04, halves2 o.bits)
  | .sll _ o => some (0x01, 0x05, halves2 o.bits)
  | .srl _ o => some (0x01, 0x06, halves2 o.bits)
  | .sra _ o => some (0x01, 0x07, halves2 o.bits)
  | .slt _ o => some (0x01, 0x08, halves2 o.bits)
  | .sltu _ o => some (0x01, 0x09, halves2 o.bits)
  | .mul _ o => some (0x01, 0x0A, halves2 o.bits)
  | .div _ o => some (0x01, 0x0B, halves2 o.bits)
  | .divu _ o => some (0x01, 0x0C, halves2 o.bits)
  | .rem _ o => some (0x01, 0x0D, halves2 o.bits)
  | .remu _ o => some (0x01, 0x0E, halves2 o.bits)
  | .addi _ o => some (0x02, 0x00, halves2 o.bits)
  | .andi _ o => some (0x02, 0x01, halves2 o.bits)
  | .ori _ o => some (0x02, 0x02, halves2 o.bits)
  | .xori _ o => some (0x02, 0x03, halves2 o.bits)
  | .slli _ o => some (0x02, 0x04, halves2 o.bits)
  | .srli _ o => some (0x02, 0x05, halves2 o.bits)
  | .srai _ o => some (0x02, 0x06, halves2 o.bits)
  | .mov _ o => some (0x03, 0x00, halves1 o.bits)
  | .not _ o => some (0x03, 0x01, halves1 o.bits)
  | .clz _ o => some (0x03, 0x02, halves1 o.bits)
  | .cpop _ o => some (0x03, 0x03, halves1 o.bits)
  | .beq _ o => some (0x04, 0x00, halves2 o.bits)
  | .bne _ o => some (0x04, 0x01, halves2 o.bits)
  | .blt _ o => some (0x04, 0x02, halves2 o.bits)
  | .bge _ o => some (0x04, 0x03, halves2 o.bits)
  | .bltu _ o => some (0x04, 0x04, halves2 o.bits)
  | .bgeu _ o => some (0x04, 0x05, halves2 o.bits)
  | .jmp _ o => some (0x05, 0x00, halves2 o.bits)
  | .call _ o => some (0x05, 0x01, halves2 o.bits)
  | .jr _ o => some (0x06, 0x00, halves1 o.bits)
  | .callr _ o => some (0x06, 0x01, halves1 o.bits)
  | .callt _ o => some (0x06, 0x02, halves1 o.bits)
  | .vblk _ o => some (0x06, 0x03, halves1 o.bits)
  | .li _ o => some (0x07, 0x00, halves4 o.bits)
  | .lea _ o => some (0x07, 0x01, halves4 o.bits)
  | .fadd _ o => some (0x08, 0x00, halves2 o.bits)
  | .fsub _ o => some (0x08, 0x01, halves2 o.bits)
  | .fmul _ o => some (0x08, 0x02, halves2 o.bits)
  | .fdiv _ o => some (0x08, 0x03, halves2 o.bits)
  | .feq _ o => some (0x08, 0x04, halves2 o.bits)
  | .flt _ o => some (0x08, 0x05, halves2 o.bits)
  | .fle _ o => some (0x08, 0x06, halves2 o.bits)
  | .fcvt _ o => some (0x08, 0x07, halves2 o.bits)
  | .crd _ o => some (0x09, 0x00, halves1 o.bits)
  | .cwr _ o => some (0x09, 0x01, halves1 o.bits)
  | .rqget _ o => some (0x09, 0x02, halves1 o.bits)
  | .setvl _ o => some (0x10, 0x00, halves1 o.bits)
  | .setvlW _ o => some (0x10, 0x01, halves1 o.bits)
  | .vend _ => some (0x11, 0x00, [])
  | .vrejoin _ => some (0x11, 0x01, [])
  | .vlset _ o => some (0x12, 0x00, halves1 o.bits)
  | .vloop _ o => some (0x13, 0x00, halves2 o.bits)
  | .vbany _ o => some (0x13, 0x01, halves2 o.bits)
  | .vbnone _ o => some (0x13, 0x02, halves2 o.bits)
  | .vadd _ o => some (0x14, 0x00, halves3 o.bits)
  | .vsub _ o => some (0x14, 0x01, halves3 o.bits)
  | .vmul _ o => some (0x14, 0x02, halves3 o.bits)
  | .vmulh _ o => some (0x14, 0x03, halves3 o.bits)
  | .vmin _ o => some (0x14, 0x04, halves3 o.bits)
  | .vmax _ o => some (0x14, 0x05, halves3 o.bits)
  | .vand _ o => some (0x14, 0x06, halves3 o.bits)
  | .vor _ o => some (0x14, 0x07, halves3 o.bits)
  | .vxor _ o => some (0x14, 0x08, halves3 o.bits)
  | .vsll _ o => some (0x14, 0x09, halves3 o.bits)
  | .vsrl _ o => some (0x14, 0x0A, halves3 o.bits)
  | .vsra _ o => some (0x14, 0x0B, halves3 o.bits)
  | .vsadd _ o => some (0x14, 0x0C, halves3 o.bits)
  | .vssub _ o => some (0x14, 0x0D, halves3 o.bits)
  | .vdiv _ o => some (0x14, 0x0E, halves3 o.bits)
  | .vrem _ o => some (0x14, 0x0F, halves3 o.bits)
  | .vfadd _ o => some (0x15, 0x00, halves3 o.bits)
  | .vfsub _ o => some (0x15, 0x01, halves3 o.bits)
  | .vfmul _ o => some (0x15, 0x02, halves3 o.bits)
  | .vfdiv _ o => some (0x15, 0x03, halves3 o.bits)
  | .vfma _ o => some (0x15, 0x04, halves3 o.bits)
  | .vfms _ o => some (0x15, 0x05, halves3 o.bits)
  | .vfmin _ o => some (0x15, 0x06, halves3 o.bits)
  | .vfmax _ o => some (0x15, 0x07, halves3 o.bits)
  | .vfsqrt _ o => some (0x15, 0x08, halves3 o.bits)
  | .vfabs _ o => some (0x15, 0x09, halves3 o.bits)
  | .vfneg _ o => some (0x15, 0x0A, halves3 o.bits)
  | .vmseq _ o => some (0x16, 0x00, halves3 o.bits)
  | .vmsne _ o => some (0x16, 0x01, halves3 o.bits)
  | .vmslt _ o => some (0x16, 0x02, halves3 o.bits)
  | .vmsle _ o => some (0x16, 0x03, halves3 o.bits)
  | .vmsltu _ o => some (0x16, 0x04, halves3 o.bits)
  | .vmsleu _ o => some (0x16, 0x05, halves3 o.bits)
  | .vmfeq _ o => some (0x16, 0x06, halves3 o.bits)
  | .vmflt _ o => some (0x16, 0x07, halves3 o.bits)
  | .vmfle _ o => some (0x16, 0x08, halves3 o.bits)
  | .mand _ o => some (0x17, 0x00, halves1 o.bits)
  | .mor _ o => some (0x17, 0x01, halves1 o.bits)
  | .mxor _ o => some (0x17, 0x02, halves1 o.bits)
  | .mnot _ o => some (0x17, 0x03, halves1 o.bits)
  | .mmv _ o => some (0x17, 0x04, halves1 o.bits)
  | .msbf _ o => some (0x17, 0x05, halves1 o.bits)
  | .msif _ o => some (0x17, 0x06, halves1 o.bits)
  | .msof _ o => some (0x17, 0x07, halves1 o.bits)
  | .mcnt _ o => some (0x17, 0x08, halves1 o.bits)
  | .many _ o => some (0x17, 0x09, halves1 o.bits)
  | .mfirst _ o => some (0x17, 0x0A, halves1 o.bits)
  | .vmv _ o => some (0x18, 0x00, halves3 o.bits)
  | .vid _ o => some (0x18, 0x01, halves3 o.bits)
  | .vcompress _ o => some (0x18, 0x02, halves3 o.bits)
  | .vexpand _ o => some (0x18, 0x03, halves3 o.bits)
  | .vslideup _ o => some (0x18, 0x04, halves3 o.bits)
  | .vslidedn _ o => some (0x18, 0x05, halves3 o.bits)
  | .vgather _ o => some (0x18, 0x06, halves3 o.bits)
  | .vmerge _ o => some (0x18, 0x07, halves3 o.bits)
  | .vredsum _ o => some (0x19, 0x00, halves3 o.bits)
  | .vfredo _ o => some (0x19, 0x01, halves3 o.bits)
  | .vfredt _ o => some (0x19, 0x02, halves3 o.bits)
  | .vredmin _ o => some (0x19, 0x03, halves3 o.bits)
  | .vredmax _ o => some (0x19, 0x04, halves3 o.bits)
  | .vcvt _ o => some (0x19, 0x05, halves3 o.bits)
  | .vunpk _ o => some (0x19, 0x06, halves3 o.bits)
  | .vpilgrim _ o => some (0x19, 0x07, halves3 o.bits)
  | .vqpush _ o => some (0x19, 0x08, halves3 o.bits)
  | .vqpop _ o => some (0x19, 0x09, halves3 o.bits)
  | .vdetach _ o => some (0x19, 0x0A, halves3 o.bits)
  | .vld _ o => some (0x20, 0x00, halves3 o.bits)
  | .vst _ o => some (0x20, 0x01, halves3 o.bits)
  | .vlds _ o => some (0x20, 0x02, halves3 o.bits)
  | .vsts _ o => some (0x20, 0x03, halves3 o.bits)
  | .vldx _ o => some (0x20, 0x04, halves3 o.bits)
  | .vstx _ o => some (0x20, 0x05, halves3 o.bits)
  | .vldff _ o => some (0x20, 0x06, halves3 o.bits)
  | .vtld _ o => some (0x20, 0x07, halves3 o.bits)
  | .vtst _ o => some (0x20, 0x08, halves3 o.bits)
  | .lb _ o => some (0x21, 0x00, halves3 o.bits)
  | .lbu _ o => some (0x21, 0x01, halves3 o.bits)
  | .lw _ o => some (0x21, 0x02, halves3 o.bits)
  | .lwu _ o => some (0x21, 0x03, halves3 o.bits)
  | .ld _ o => some (0x21, 0x04, halves3 o.bits)
  | .sb _ o => some (0x21, 0x05, halves3 o.bits)
  | .sw _ o => some (0x21, 0x06, halves3 o.bits)
  | .sd _ o => some (0x21, 0x07, halves3 o.bits)
  | .vbind _ o => some (0x22, 0x00, halves3 o.bits)
  | .vbindz _ o => some (0x22, 0x01, halves3 o.bits)
  | .vbindn _ o => some (0x22, 0x02, halves3 o.bits)
  | .vunbind _ o => some (0x22, 0x03, halves3 o.bits)
  | .pcopy _ o => some (0x23, 0x00, halves2 o.bits)
  | .pcopyz _ o => some (0x23, 0x01, halves2 o.bits)
  | .coll _ o => some (0x23, 0x02, halves2 o.bits)
  | .racq _ o => some (0x24, 0x00, halves1 o.bits)
  | .rrel _ o => some (0x24, 0x01, halves1 o.bits)
  | .fenceFar _ o => some (0x25, 0x00, halves1 o.bits)
  | .aadd _ o => some (0x26, 0x00, halves3 o.bits)
  | .aand _ o => some (0x26, 0x01, halves3 o.bits)
  | .aor _ o => some (0x26, 0x02, halves3 o.bits)
  | .axor _ o => some (0x26, 0x03, halves3 o.bits)
  | .amin _ o => some (0x26, 0x04, halves3 o.bits)
  | .amax _ o => some (0x26, 0x05, halves3 o.bits)
  | .aminu _ o => some (0x26, 0x06, halves3 o.bits)
  | .amaxu _ o => some (0x26, 0x07, halves3 o.bits)
  | .aswap _ o => some (0x26, 0x08, halves3 o.bits)
  | .acas _ o => some (0x26, 0x09, halves3 o.bits)
  | .afadd _ o => some (0x26, 0x0A, halves3 o.bits)
  | .afmin _ o => some (0x26, 0x0B, halves3 o.bits)
  | .afmax _ o => some (0x26, 0x0C, halves3 o.bits)
  | .vaadd _ o => some (0x27, 0x00, halves3 o.bits)
  | .vafadd _ o => some (0x27, 0x01, halves3 o.bits)
  | .vamin _ o => some (0x27, 0x02, halves3 o.bits)
  | .vamax _ o => some (0x27, 0x03, halves3 o.bits)
  | .vafmin _ o => some (0x27, 0x04, halves3 o.bits)
  | .vafmax _ o => some (0x27, 0x05, halves3 o.bits)
  | .vrsadd _ o => some (0x27, 0x06, halves3 o.bits)
  | .vrsfadd _ o => some (0x27, 0x07, halves3 o.bits)
  | .bararv _ o => some (0x28, 0x00, halves3 o.bits)
  | .bardrop _ o => some (0x28, 0x01, halves3 o.bits)
  | .barwait _ o => some (0x28, 0x02, halves3 o.bits)
  | .wcarr _ o => some (0x28, 0x03, halves3 o.bits)
  | .wcwait _ o => some (0x28, 0x04, halves3 o.bits)
  | .wccancel _ o => some (0x28, 0x05, halves3 o.bits)
  | .tld _ o => some (0x30, 0x00, halves3 o.bits)
  | .tst _ o => some (0x30, 0x01, halves3 o.bits)
  | .tmma _ o => some (0x30, 0x02, halves3 o.bits)
  | .tmmaS _ o => some (0x30, 0x03, halves3 o.bits)
  | .tdrain _ o => some (0x30, 0x04, halves3 o.bits)
  | .tcvt _ o => some (0x30, 0x05, halves3 o.bits)
  | .tzero _ o => some (0x30, 0x06, halves3 o.bits)
  | .mattach _ o => some (0x31, 0x00, halves1 o.bits)
  | .mdetach _ => some (0x32, 0x00, [])
  | .rrun _ o => some (0x38, 0x00, halves2 o.bits)
  | .rtw _ o => some (0x38, 0x01, halves2 o.bits)
  | .rcommit _ o => some (0x38, 0x02, halves2 o.bits)
  | .rclass _ o => some (0x38, 0x03, halves2 o.bits)
  | .rmiss _ o => some (0x38, 0x04, halves2 o.bits)
  | .rstat _ o => some (0x39, 0x00, halves1 o.bits)
  | .scall _ o => some (0x3C, 0x00, halves2 o.bits)
  | .trap _ o => some (0x3D, 0x00, halves1 o.bits)
  | _ => none

/-- The gate halfwords of an instruction, wait first (R178). -/
def gateHalves (g : Gates) : List Half :=
  (match g.wait with | some w => [w.half] | none => []) ++ (match g.post with | some p => [p.half] | none => [])

/-- GATE of a head (R177). -/
def gateCode (g : Gates) : BitVec 2 := (BitVec.ofBool g.post.isSome) ++ (BitVec.ofBool g.wait.isSome)

/-- Encode a native instruction: its head, then its tail, lowest address first. -/
def encode (i : Instr) : Option (List Half) :=
  match i with
  | .bkpt tl => some [0x3E#6 ++ tl ++ 0#2 ++ 0#5]
  | i =>
    match opcodeOf i with
    | none => none
    | some (maj, min, ops) =>
        let t := gateHalves (gatesOf i) ++ ops
        some ((maj ++ BitVec.ofNat 3 t.length ++ gateCode (gatesOf i) ++ min) :: t)

/-! Lortar words (R352 to R355). -/

/-- The common fields of a Lortar word (R352). -/
def LBar.ofBits (w : BitVec 64) : LBar := ⟨w.extractLsb' 50 8, w.extractLsb' 49 1, w.extractLsb' 46 3⟩
/-- Lortar form S (R353). -/
def LFormS.ofBits (w : BitVec 64) : LFormS :=
  ⟨LBar.ofBits w, w.extractLsb' 40 5, w.extractLsb' 35 5, w.extractLsb' 30 5, w.extractLsb' 0 30⟩
/-- Lortar form X (R353). -/
def LFormX.ofBits (w : BitVec 64) : LFormX :=
  ⟨LBar.ofBits w, w.extractLsb' 41 4, w.extractLsb' 37 4, w.extractLsb' 33 4, w.extractLsb' 28 5,
   w.extractLsb' 23 5, w.extractLsb' 18 5, w.extractLsb' 17 1, w.extractLsb' 15 2, w.extractLsb' 13 2,
   w.extractLsb' 10 3, w.extractLsb' 7 3, w.extractLsb' 5 2⟩
/-- The word of form S with opcode OP (R352, R353). -/
def LFormS.bits (op : BitVec 6) (o : LFormS) : BitVec 64 :=
  op ++ o.bar.wait ++ o.bar.sige ++ o.bar.sig ++ 0#1 ++ o.kd ++ o.ka ++ o.kb ++ o.imm
/-- The word of form X with opcode OP (R352, R353). -/
def LFormX.bits (op : BitVec 6) (o : LFormX) : BitVec 64 :=
  op ++ o.bar.wait ++ o.bar.sige ++ o.bar.sig ++ 0#1 ++ o.xd ++ o.xa ++ o.xb ++ o.ka ++ o.kb ++ o.fmt ++ o.or
    ++ o.pol ++ o.ord ++ o.scp ++ o.rnd ++ o.satm ++ 0#5

/-- The opcode map of Lortar (R354). -/
def buildLortar (op : Nat) (s : LFormS) (x : LFormX) : Option (Instr × Bool) :=
  match op with
  | 0x01 => some (.kadd s, false)
  | 0x02 => some (.ksub s, false)
  | 0x03 => some (.kmul s, false)
  | 0x04 => some (.kand s, false)
  | 0x05 => some (.kor s, false)
  | 0x06 => some (.kxor s, false)
  | 0x07 => some (.ksll s, false)
  | 0x08 => some (.ksrl s, false)
  | 0x09 => some (.ksra s, false)
  | 0x0A => some (.kslt s, false)
  | 0x0B => some (.kaddi s, false)
  | 0x0C => some (.kli s, false)
  | 0x10 => some (.kbeq s, false)
  | 0x11 => some (.kbne s, false)
  | 0x12 => some (.kblt s, false)
  | 0x13 => some (.kbge s, false)
  | 0x14 => some (.kjmp s, false)
  | 0x15 => some (.kend s, false)
  | 0x18 => some (.lshape s, false)
  | 0x19 => some (.lwait s, false)
  | 0x1A => some (.lfence x, true)
  | 0x20 => some (.xld x, true)
  | 0x21 => some (.xst x, true)
  | 0x24 => some (.xbcast x, true)
  | 0x28 => some (.xadd x, true)
  | 0x29 => some (.xsub x, true)
  | 0x2A => some (.xmul x, true)
  | 0x2B => some (.xfma x, true)
  | 0x2C => some (.xmin x, true)
  | 0x2D => some (.xmax x, true)
  | 0x30 => some (.xcvt x, true)
  | 0x34 => some (.xmma x, true)
  | _ => none

/-- Decode a Lortar word (R352 to R355). -/
def decodeLortar (w : BitVec 64) : Decoded :=
  match buildLortar (w.extractLsb' 58 6).toNat (LFormS.ofBits w) (LFormX.ofBits w) with
  | none => .illegal
  | some (i, isX) => classify i (w.extractLsb' 45 1 != 0 || (isX && w.extractLsb' 0 5 != 0))

/-- Encode a Lortar instruction as its word. -/
def encodeLortar : Instr → Option (BitVec 64)
  | .kadd o => some (o.bits 0x01)
  | .ksub o => some (o.bits 0x02)
  | .kmul o => some (o.bits 0x03)
  | .kand o => some (o.bits 0x04)
  | .kor o => some (o.bits 0x05)
  | .kxor o => some (o.bits 0x06)
  | .ksll o => some (o.bits 0x07)
  | .ksrl o => some (o.bits 0x08)
  | .ksra o => some (o.bits 0x09)
  | .kslt o => some (o.bits 0x0A)
  | .kaddi o => some (o.bits 0x0B)
  | .kli o => some (o.bits 0x0C)
  | .kbeq o => some (o.bits 0x10)
  | .kbne o => some (o.bits 0x11)
  | .kblt o => some (o.bits 0x12)
  | .kbge o => some (o.bits 0x13)
  | .kjmp o => some (o.bits 0x14)
  | .kend o => some (o.bits 0x15)
  | .lshape o => some (o.bits 0x18)
  | .lwait o => some (o.bits 0x19)
  | .lfence o => some (o.bits 0x1A)
  | .xld o => some (o.bits 0x20)
  | .xst o => some (o.bits 0x21)
  | .xbcast o => some (o.bits 0x24)
  | .xadd o => some (o.bits 0x28)
  | .xsub o => some (o.bits 0x29)
  | .xmul o => some (o.bits 0x2A)
  | .xfma o => some (o.bits 0x2B)
  | .xmin o => some (o.bits 0x2C)
  | .xmax o => some (o.bits 0x2D)
  | .xcvt o => some (o.bits 0x30)
  | .xmma o => some (o.bits 0x34)
  | _ => none

/-- The halfwords of a number, least significant first. -/
def natHalves : Nat → Nat → List Half
  | 0, _ => []
  | n + 1, w => BitVec.ofNat 16 w :: natHalves n (w / 65536)

/-- The instruction the decoder reads from a word numbered as the opcode table numbers it: the head in bits 15:0 and
the tail's halfwords above it, lowest address first. -/
def decodeTableWord (_nbits w : Nat) : Option Instr :=
  let h := BitVec.ofNat 16 w
  match decode h (natHalves (headTl h) (w / 65536)) with
  | .ok i => some i
  | _ => none

end Sys2Proof
end

