-- ==== Sys2Proof/Config.lean ====
section
/-! DEFINITION. What the part fixes (R3, R13) and the values the spec leaves open. A constant without a body is a
free value: nothing constrains it, and a statement holds whatever it is. -/

namespace Sys2Proof.Config

/-- Compute dies of the package (R13). -/
def dies : Nat := 4
/-- Contexts of a die (R14). -/
def ctxPerDie : Nat := 256
/-- Contexts of the device (R14). -/
def ctxCount : Nat := 1024
/-- Bytes of a vector register, VLENB (R3). -/
def vlenb : Nat := 1024
/-- Block-queue entries (R17). -/
def blockQueue : Nat := 4
/-- Reply-queue entries (R29). -/
def replyQueue : Nat := 16
/-- Lane groups of a core, and strips in flight of one VLC (R23). -/
def laneGroups : Nat := 4
/-- Copies in flight of a core (R118). -/
def copyTable : Nat := 256
/-- The lease of an untracked line, in cycles; the model counts steps (R129, log 6). -/
def lease : Nat := 4096
/-- Ways of the L1 (R100). -/
def l1Ways : Nat := 16
/-- Sets of the L1 (R100). -/
def l1Sets : Nat := 128
/-- Lines of an L2 slice (R101). -/
def sliceLines : Nat := 24576
/-- Lines of an instruction cache (R3). -/
def icacheLines : Nat := 512
/-- Sets of a cluster filter (R138). -/
def filterSets : Nat := 1024
/-- Ways of a cluster filter (R138). -/
def filterWays : Nat := 16
/-- Entries of a slice's registration table (R140). -/
def regEntries : Nat := 4096
/-- Ways of a slice's remote filter (R348). -/
def remoteWays : Nat := 8
/-- Scratchpad frames of a core (R105). -/
def frames : Nat := 128
/-- The scratchpad window's first address (R93). -/
def spWindow : Nat := 0x1FFFFFFFFF80000
/-- The end of the scratchpad window (R93). -/
def spEnd : Nat := 0x200000000000000

/-- A free 32-bit value: what the spec leaves open, drawn afresh for each number of the model's own counter
(DESIGN CHOICE, log 6; DESIGN CHOICE, log 50). -/
opaque freeWord : Nat → BitVec 32
/-- A free 64-bit value, as freeWord (DESIGN CHOICE, log 6; DESIGN CHOICE, log 23; DESIGN CHOICE, log 50). -/
opaque freeDouble : Nat → BitVec 64
/-- The bits a boundary-scan register shifts out (R449 names the register and not its contents). -/
opaque boundaryScan : Nat → BitVec 64
/-- The bits of scan chains of kinds 1, 2 and 3, whose field widths the spec does not give (R449) (DESIGN CHOICE, log 44). -/
opaque chainBits : Nat → List Byte
/-- SHAKE256 of a byte string, its first n bytes (R450 cites FIPS 202 and does not define it) (DESIGN CHOICE, log 46). -/
opaque shake256 : List Byte → Nat → List Byte
/-- The Ed448 public key of a 57-byte secret (R450 cites RFC 8032) (DESIGN CHOICE, log 46). -/
opaque ed448Public : List Byte → List Byte
/-- The Ed448 signature by a secret, under a context string, of a message (R450) (DESIGN CHOICE, log 46). -/
opaque ed448Sign : List Byte → List Byte → List Byte → List Byte
/-- Whether a public key, context string, message and signature agree (R450). -/
opaque ed448Verify : List Byte → List Byte → List Byte → List Byte → Bool
/-- What a load may return where two values are both allowed, as a choice (R26, R119, R366) (DESIGN CHOICE, log 50). -/
opaque freeChoice : Nat → Bool
/-- What becomes of stages 1 and 2 of a boot (R394): 2 when DRAM, 3 when a bridge, 4 when a Steward fails
(DESIGN CHOICE, log 45). -/
opaque stageFails : Nat → BitVec 3
/-- The ports that come up at stage 3 of a boot (R394) (DESIGN CHOICE, log 24). -/
opaque portsUp : Nat → BitVec 8
/-- log2 of the element width of a column line that only its address names (R398 carries no width). -/
opaque columnWidth : BitVec 64 → BitVec 2
/-- The links toward a device that the domain record does not name as a neighbour (R402). -/
opaque farRoute : Nat → BitVec 16
/-- The lines of lowered code of a kernel with these words, beyond one for its entry and one for each word: R369 gives the
sequences and not the translator's choice of instructions (DESIGN CHOICE, log 37). -/
opaque moreLines : List Nat → Nat
/-- The lowered code of a kernel with these words, placed at an address: its bytes by their number (DESIGN CHOICE, log 37). -/
opaque loweredByte : List Nat → Nat → Nat → BitVec 8
/-- A free content of a vector or tile register (DESIGN CHOICE, log 37). -/
opaque freeReg : Nat → BitVec 65536
/-- A remote key of an exposed region (R443: 64 bits, never reused during the job). -/
opaque remoteKey : Nat → BitVec 64

end Sys2Proof.Config
end

