-- ==== Sys2Proof/Machine/Event.lean ====
section
/-! DEFINITION. The happenings that the agenda of the state holds: one for each row of spec/opcode_table.json that is no
native and no Lortar instruction, with the arguments of its constructor of Instr. The agenda cannot hold Instr itself:
the compiler of Lean builds no value of a constructor past the 244th. -/

namespace Sys2Proof.Machine

/-- A happening still to come (95_what_each_step_holds.md). -/
inductive Event where
  /-- As the constructor of Instr with this name. -/
  | lortarAsyncComplete (ctx : Nat) (id : Nat)
  /-- As the constructor of Instr with this name. -/
  | ecall (job : Nat)
  /-- As the constructor of Instr with this name. -/
  | ebreak (job : Nat)
  /-- As the constructor of Instr with this name. -/
  | controlProgramException (job : Nat) (e : CpException) (tval : Word)
  /-- As the constructor of Instr with this name. -/
  | stripDispatch (ctx : Nat)
  /-- As the constructor of Instr with this name. -/
  | watermarkRecheck (ctx : Nat)
  /-- As the constructor of Instr with this name. -/
  | blockCommit (ctx : Nat)
  /-- As the constructor of Instr with this name. -/
  | waitResume (p : Party)
  /-- As the constructor of Instr with this name. -/
  | replyPush (ctx : Nat) (stripb : Nat)
  /-- As the constructor of Instr with this name. -/
  | preemptionRequest (ctx : Nat)
  /-- As the constructor of Instr with this name. -/
  | trapDelivery (p : Party) (code : Code) (tval : Word) (imprecise : Bool)
  /-- As the constructor of Instr with this name. -/
  | handlerComplete (ctx : Nat)
  /-- As the constructor of Instr with this name. -/
  | copyComplete (core : Nat) (id : Nat)
  /-- As the constructor of Instr with this name. -/
  | copyFault (core : Nat) (id : Nat) (written : Nat) (code : Code) (addr : Word)
  /-- As the constructor of Instr with this name. -/
  | satchelCheck (ctx : Nat)
  /-- As the constructor of Instr with this name. -/
  | scratchpadFrameFill (ctx : Nat) (page : Nat)
  /-- As the constructor of Instr with this name. -/
  | collectiveRun (core : Nat) (id : Nat) (others : List Contribution)
  /-- As the constructor of Instr with this name. -/
  | drainComplete (ctx : Nat) (id : Nat)
  /-- As the constructor of Instr with this name. -/
  | drainContributionFault (ctx : Nat) (id : Nat) (accepted : Nat) (code : Code)
  /-- As the constructor of Instr with this name. -/
  | barrierEventsApply (job : Nat) (addr : Word) (events : List BarrierEvent)
  /-- As the constructor of Instr with this name. -/
  | relayAdmission (cluster : Nat)
  /-- As the constructor of Instr with this name. -/
  | relayRecordLeave (cluster : Nat)
  /-- As the constructor of Instr with this name. -/
  | rcommitCopyback (cluster : Nat)
  /-- As the constructor of Instr with this name. -/
  | homeRequest (core : Nat) (req : HomeReq) (line : LineKey)
  /-- As the constructor of Instr with this name. -/
  | coreDropLine (core : Nat) (line : LineKey)
  /-- As the constructor of Instr with this name. -/
  | l2DropLine (die : Nat) (line : LineKey)
  /-- As the constructor of Instr with this name. -/
  | uLineLeaseExpiry (core : Nat) (line : LineKey)
  /-- As the constructor of Instr with this name. -/
  | edgeFlush (job : Nat) (lidx : Nat) (edge : Nat)
  /-- As the constructor of Instr with this name. -/
  | stewardBind (die : Nat)
  /-- As the constructor of Instr with this name. -/
  | quantumExpiry (ctx : Nat)
  /-- As the constructor of Instr with this name. -/
  | accumulatorRevoke (ctx : Nat)
  /-- As the constructor of Instr with this name. -/
  | l2ModeChange (die : Nat) (partitioned : Bool)
  /-- As the constructor of Instr with this name. -/
  | go (ctx : Nat)
  /-- As the constructor of Instr with this name. -/
  | stop (ctx : Nat)
  /-- As the constructor of Instr with this name. -/
  | registerWrite (r : StewardReg)
  /-- As the constructor of Instr with this name. -/
  | shootdown (job : Nat) (va : Word) (leaf : Word)
  /-- As the constructor of Instr with this name. -/
  | pageMigration (job : Nat) (va : Word) (paddr : Word)
  /-- As the constructor of Instr with this name. -/
  | migWalkRetry (p : Party)
  /-- As the constructor of Instr with this name. -/
  | hello (r : Req)
  /-- As the constructor of Instr with this name. -/
  | jobCreate (r : Req)
  /-- As the constructor of Instr with this name. -/
  | jobEnd (r : Req)
  /-- As the constructor of Instr with this name. -/
  | loadImage (r : Req)
  /-- As the constructor of Instr with this name. -/
  | start (r : Req)
  /-- As the constructor of Instr with this name. -/
  | launch (r : Req)
  /-- As the constructor of Instr with this name. -/
  | wait (r : Req)
  /-- As the constructor of Instr with this name. -/
  | cancel (r : Req)
  /-- As the constructor of Instr with this name. -/
  | memRead (r : Req)
  /-- As the constructor of Instr with this name. -/
  | memWrite (r : Req)
  /-- As the constructor of Instr with this name. -/
  | breakCopy (r : Req)
  /-- As the constructor of Instr with this name. -/
  | breakEnd (r : Req)
  /-- As the constructor of Instr with this name. -/
  | checkpointSave (r : Req)
  /-- As the constructor of Instr with this name. -/
  | checkpointRestore (r : Req) (stream : List Byte)
  /-- As the constructor of Instr with this name. -/
  | telemetry (r : Req)
  /-- As the constructor of Instr with this name. -/
  | attest (r : Req)
  /-- As the constructor of Instr with this name. -/
  | idcert (r : Req)
  /-- As the constructor of Instr with this name. -/
  | config (r : Req)
  /-- As the constructor of Instr with this name. -/
  | syscallVersion (c : Caller)
  /-- As the constructor of Instr with this name. -/
  | syscallLaunch (c : Caller)
  /-- As the constructor of Instr with this name. -/
  | syscallWait (c : Caller)
  /-- As the constructor of Instr with this name. -/
  | syscallCancel (c : Caller)
  /-- As the constructor of Instr with this name. -/
  | syscallTranslate (c : Caller)
  /-- As the constructor of Instr with this name. -/
  | openQueue (c : Caller)
  /-- As the constructor of Instr with this name. -/
  | closeQueue (c : Caller)
  /-- As the constructor of Instr with this name. -/
  | openGroup (c : Caller)
  /-- As the constructor of Instr with this name. -/
  | openWindow (c : Caller)
  /-- As the constructor of Instr with this name. -/
  | exposeRegion (c : Caller)
  /-- As the constructor of Instr with this name. -/
  | syscallExit (c : Caller)
  /-- As the constructor of Instr with this name. -/
  | uetInboundWrite (port : Nat) (key : Word) (off : Nat) (bytes : List Byte)
  /-- As the constructor of Instr with this name. -/
  | uetInboundRead (port : Nat) (key : Word) (off : Nat) (len : Nat)
  /-- As the constructor of Instr with this name. -/
  | uudPacket (port : Nat)
  /-- As the constructor of Instr with this name. -/
  | train (link : Nat) (rec : TrainRec)
  /-- As the constructor of Instr with this name. -/
  | trainResend (link : Nat)
  /-- As the constructor of Instr with this name. -/
  | nak (link : Nat) (seq : BitVec 16)
  /-- As the constructor of Instr with this name. -/
  | down (link : Nat) (reason : BitVec 8)
  /-- As the constructor of Instr with this name. -/
  | messageFlit (link : Nat) (f : Flit)
  /-- As the constructor of Instr with this name. -/
  | idleFlit (link : Nat) (f : Flit)
  /-- As the constructor of Instr with this name. -/
  | ackTimeout (link : Nat)
  /-- As the constructor of Instr with this name. -/
  | retrainTimeout (link : Nat)
  /-- As the constructor of Instr with this name. -/
  | ldt (m : Msg)
  /-- As the constructor of Instr with this name. -/
  | ldu (m : Msg)
  /-- As the constructor of Instr with this name. -/
  | ownr (m : Msg)
  /-- As the constructor of Instr with this name. -/
  | wr (m : Msg)
  /-- As the constructor of Instr with this name. -/
  | reg (m : Msg)
  /-- As the constructor of Instr with this name. -/
  | atom (m : Msg)
  /-- As the constructor of Instr with this name. -/
  | red (m : Msg)
  /-- As the constructor of Instr with this name. -/
  | key (m : Msg)
  /-- As the constructor of Instr with this name. -/
  | dropn (m : Msg)
  /-- As the constructor of Instr with this name. -/
  | inv (m : Msg)
  /-- As the constructor of Instr with this name. -/
  | fwd (m : Msg)
  /-- As the constructor of Instr with this name. -/
  | fwdinv (m : Msg)
  /-- As the constructor of Instr with this name. -/
  | recallMsg (m : Msg)
  /-- As the constructor of Instr with this name. -/
  | binv (m : Msg)
  /-- As the constructor of Instr with this name. -/
  | data (m : Msg)
  /-- As the constructor of Instr with this name. -/
  | ack (m : Msg)
  /-- As the constructor of Instr with this name. -/
  | err (m : Msg)
  /-- As the constructor of Instr with this name. -/
  | wb (m : Msg)
  /-- As the constructor of Instr with this name. -/
  | ares (m : Msg)
  /-- As the constructor of Instr with this name. -/
  | grant (m : Msg)
  /-- As the constructor of Instr with this name. -/
  | cdata (m : Msg)
  /-- As the constructor of Instr with this name. -/
  | cack (m : Msg)
  /-- As the constructor of Instr with this name. -/
  | reset
  /-- As the constructor of Instr with this name. -/
  | freezePin
  /-- As the constructor of Instr with this name. -/
  | extest
  /-- As the constructor of Instr with this name. -/
  | idcode
  /-- As the constructor of Instr with this name. -/
  | samplePreload
  /-- As the constructor of Instr with this name. -/
  | tapFreeze
  /-- As the constructor of Instr with this name. -/
  | tapStatus
  /-- As the constructor of Instr with this name. -/
  | chainsel (chain : BitVec 16)
  /-- As the constructor of Instr with this name. -/
  | chainout
  /-- As the constructor of Instr with this name. -/
  | memaddr (addr : BitVec 48)
  /-- As the constructor of Instr with this name. -/
  | memread
  /-- As the constructor of Instr with this name. -/
  | resetreq
  /-- As the constructor of Instr with this name. -/
  | bypass
  /-- As the constructor of Instr with this name. -/
  | thermalThrottle (temp : Int)
  /-- As the constructor of Instr with this name. -/
  | clockStep (temp : Int)
  /-- As the constructor of Instr with this name. -/
  | thermalFreeze (temp : Int)
  /-- As the constructor of Instr with this name. -/
  | crdMessage (m : Msg)
  /-- As the constructor of Instr with this name. -/
  | cwrMessage (m : Msg)
  /-- As the constructor of Instr with this name. -/
  | receiveQueueTraffic (job : Nat) (queue : Nat) (t : QueueTraffic)
  /-- As the constructor of Instr with this name. -/
  | channelLost (chan : Nat)
  /-- As the constructor of Instr with this name. -/
  | softError (site : ErrorSite) (correctable : Bool)
  /-- As the constructor of Instr with this name. -/
  | uetDeliveryFailure (core : Nat) (id : Nat)
  /-- As the constructor of Instr with this name. -/
  | matrixOperationComplete (cluster : Nat)
  /-- As the constructor of Instr with this name. -/
  | controlProgramInstruction (job : Nat)
  /-- As the constructor of Instr with this name. -/
  | checkpointTierAck (job : Nat)
  /-- As the constructor of Instr with this name. -/
  | powerLoss (blown : Nat)
  deriving DecidableEq, Repr

end Sys2Proof.Machine
end

