-- ==== Sys2Proof/Machine/State.lean ====
section
/-! DEFINITION. The state of the device as plain data: memory, contexts, cores, clusters, dies, jobs, links, and the
test access port, with the model's own agenda and counters; the reasons a step can stop; and the state after reset
(22 R394). INVENTORY.md lists every piece with its rule and its reset value. -/

namespace Sys2Proof.Machine

/-- A vector register: 1,024 bytes, tag, scale array, high-water length in element groups, and the poison bit of
each 4-byte word (R42, R56, R58, R68, R462). -/
structure VReg where
  bytes : BitVec 8192
  tag : Tag
  scale : BitVec 512
  hw : Nat
  poison : BitVec 256
  deriving DecidableEq, Repr

/-- A mask register and its high-water length in 512-bit units (R53, R68). -/
structure MReg where
  bits : BitVec 8192
  hw : Nat
  deriving DecidableEq, Repr

/-- A tile: 64 rows of 128 bytes, tag, 16-byte scale array, high-water row (R42, R58, R68). -/
structure TReg where
  bytes : BitVec 65536
  tag : Tag
  scale : BitVec 128
  hw : Nat
  deriving DecidableEq, Repr

/-- A timeline: posts issued P, value reached T, and completed numbers above T (R65). -/
structure Timeline where
  p : Nat
  t : Nat
  done : List Nat
  deriving DecidableEq, Repr

/-- A number taken by a post gate at issue, to be posted at completion with release at the scope (R65, R178). -/
structure Ticket where
  tl : TL
  num : Nat
  scp : Scope
  deriving DecidableEq, Repr

/-- What a party that does not issue waits for (R16, R41). -/
inductive WaitCond where
  /-- T(tl) to reach a value (R178). -/
  | timeline (tl : TL) (thr : Nat)
  /-- A pending token register to be written (R66). -/
  | token (r : SReg)
  /-- A free entry of the block queue (R17). -/
  | blockSlot
  /-- An entry of the reply queue (R29). -/
  | replyEntry
  /-- Every dispatched block past its commit point (R216, R316). -/
  | blocksDone
  /-- A lower strip to end or the reply queue to have room, with the value to push, the next address and the post
  (R29). -/
  | replyRoom (stripb : Nat) (value next : Word) (post : Option PostGate)
  /-- A value of the cross-lane queue for a strip (R28). -/
  | carry (stripb : Nat) (k : Nat)
  /-- The strip's detached lanes to end (R31). -/
  | lanesDone (stripb : Nat)
  /-- A lower strip to have taken its groups of a stream, or the stream to have data (R117, R284). -/
  | streamTurn (stripb : Nat) (v : VNum)
  /-- The phase word of a barrier to exceed a value (R306). -/
  | barrier (paddr : Nat) (ph : Nat)
  /-- A work counter to stop running (R310). -/
  | counter (h : Word)
  /-- The watermark word to pass a value (R169). -/
  | watermark (paddr : Nat) (than : Nat)
  /-- A free slot of the core's copy table (R118). -/
  | copySlot
  /-- A key's grant (R296). -/
  | key (n : Nat)
  /-- An answer from a peer (R399). -/
  | remote (tag : Nat)
  /-- An entry with MIG = 1 to be written (R446). -/
  | migration (va : Word)
  /-- The context's blocks, matrix operations and drains (R316). -/
  | matrix
  /-- The context's multiplies and drains to have completed (R318). -/
  | drained
  /-- The strip's Relay run to end (R335). -/
  | relayRun (stripb : Nat)
  /-- The Relay's copy-back to end (R336, R337). -/
  | copyback
  /-- The Concierge's answer (R224). -/
  | concierge
  deriving DecidableEq, Repr

/-- A dispatch entry of the block queue (R17, R47), with the poison of its snapshot (R462). -/
structure BlockEntry where
  start : Word
  n : Nat
  seed : BitVec 32
  fctl : BitVec 5
  post : Option Ticket
  snap : Vector Word 64
  snapP : BitVec 64
  deriving DecidableEq, Repr

/-- The values that the strip before pushed for the first lane of the strip with a given STRIPB, and whether that
strip has ended (R28, R270). -/
structure Carry where
  stripb : Nat
  values : List Word
  ended : Bool
  deriving DecidableEq, Repr

/-- A serial region in progress (R268): the vqpop's address, the lane that runs, the value it received, whether it
issues region instructions at all, the registers to return to if it faults, and the region's instructions whose wait
gates have been met (R168). -/
structure Region where
  pop : Word
  lane : Nat
  recv : Word
  inactive : Bool
  undoV : Vector VReg 32
  undoM : Vector MReg 16
  undoS : Vector Word 64
  undoP : BitVec 64
  undoFlags : BitVec 7
  gated : List Word
  deriving DecidableEq, Repr

/-- The strip record of a strip in flight (R33): its own registers (R25), VSTART, loop counters, flags, cross-lane
position and kept value, detached lanes with their program counters, streams taken from, what it waits for, and what a
Relay run that has issued and not completed posts (R335). Beside it: the instructions of a serial region that have posted
(R268), registers whose progress index lags with its value (R52), and whether the strip is back from a save area and has
no lane group yet (R35). -/
structure Strip where
  stripb : Nat
  vl : Nat
  vtype : BitVec 10
  vstart : Nat
  pc : Word
  lpc : Vector (BitVec 32) 4
  snap : Vector Word 64
  snapP : BitVec 64
  v : Vector VReg 32
  m : Vector MReg 16
  flags : BitVec 7
  pops : Nat
  pushes : Nat
  recv : Option Word
  region : Option Region
  detached : BitVec 8192
  lanePcs : List (Nat × Word)
  laneLast : Nat
  laneWait : List (Nat × WaitCond)
  bpPass : List (Option Nat × Word)
  consumed : List (VNum × BitVec 8192)
  wait : Option WaitCond
  headDue : Bool
  kept : Option (Option Ticket)
  posted : List Word
  late : List (Nat × Nat)
  resting : Bool
  deriving DecidableEq, Repr

/-- A byte that lanes of the running block have stored (R26): its place (of a scratchpad page, its backing bytes from 2^60 on),
the highest lane that stored it with the value that lane gave it, and whether a lower lane has stored it since. -/
structure LaneByte where
  place : Nat
  lane : Nat
  value : Byte
  overtaken : Bool
  deriving DecidableEq, Repr

/-- The block a VLC runs (R19): its dispatch entry, STRIPB of the next strip, flags of the strips that have ended,
the cross-lane values, the registers of the ended strip with the highest STRIPB (R25), and what its lanes have stored
(R26). -/
structure BlockRun where
  entry : BlockEntry
  next : Nat
  flags : BitVec 7
  carries : List Carry
  lastB : Option Nat
  lastVl : Nat
  lastVtype : BitVec 10
  lastV : Vector VReg 32
  lastM : Vector MReg 16
  headWait : Option WaitCond
  stores : List LaneByte
  deriving DecidableEq, Repr

/-- Where a stream comes from (R116). -/
inductive StreamKind where
  | walk
  | satchel
  | network (queue : Nat)
  deriving DecidableEq, Repr

/-- A stream bound to or parked on a vector register (R116, R284 to R287, R438). -/
structure Stream where
  v : VNum
  parked : Bool
  kind : StreamKind
  tag : Tag
  taken : Nat
  shape : List Word
  pc : Word
  attached : List Nat
  unbound : Bool
  deriving DecidableEq, Repr

/-- A decoded byte run of the stream buffer of a context's Satchel channel: the block it came from, by copy and address,
and its tag (R124, R344). -/
structure SatchelRun where
  block : Nat
  tag : Tag
  bytes : List Byte
  deriving DecidableEq, Repr

/-- A block of a Satchel channel whose bytes have all entered the stream buffer and whose check is not decided yet: its copy, its
address, the bytes it takes, the cycles still to come, and what the check will find (R343, R344). -/
structure SatchelCheck where
  id : Nat
  place : Nat
  due : Nat
  wrong : Bool
  deriving DecidableEq, Repr

/-- The block that a Satchel copy decodes: the bytes it takes in memory, its tag, its decoded bytes, and whether its check
fails (R121 to R123). -/
structure SatchelBlock where
  size : Nat
  tag : Tag
  bytes : List Byte
  wrong : Bool
  deriving DecidableEq, Repr

/-- A fault of an engine operation held for its context (R120, R290, R325): delivered at a wait on its timeline, at a
read of its token, or at any timeline wait. -/
structure HeldFault where
  code : Code
  tval : Word
  num : Nat
  tl : Option TL
  token : Option SReg
  anyWait : Bool
  deriving DecidableEq, Repr

/-- A per-context page slot that BREAK_COPY writes (R412, R442): the virtual page, log2 of its size, and the leaf. -/
structure PageSlot where
  va : Nat
  bits : Nat
  leaf : Word
  deriving DecidableEq, Repr

/-- An asynchronous Lortar operation that has issued and not completed (R365 to R368): what it is (0 `xld`, 1 `xst`, 2
`xmma`), the values it took at issue, the number of its first free choice, the number it completes on the timeline of
its slot (0 until it has issued), the elements whose effect is still to come, and those its issue has not reached yet. -/
structure LOp where
  id : Nat
  kind : Nat
  form : LFormX
  base : Word
  stride : Word
  mt : Nat
  nt : Nat
  choice : Nat
  slot : TL
  num : Nat
  pc : Word
  todo : List (Nat × Nat)
  rest : List (Nat × Nat)
  deriving DecidableEq, Repr

/-- A context (R15, R42, R44): registers, control registers, queues, control thread, VLC, streams, held faults, the faults of
stores that have retired (R161), since when its VLC wants a lane group (R24), the parties that wait on a timeline in the
order in which their waits issued (R345), the checks its Satchel channel has still to decide (R343), how many elements of
the Lortar word at hand are done (R380). -/
structure Ctx where
  s : Vector Word 64
  pend : List (SReg × Nat)
  spoison : BitVec 64
  v : Vector VReg 32
  m : Vector MReg 16
  t : Vector TReg 8
  tl : Vector Timeline 16
  rq : List Word
  vl : BitVec 14
  vtype : BitVec 10
  stripb : Word
  seed : BitVec 32
  fctl : BitVec 5
  fmtst : BitVec 7
  mgrant : BitVec 11
  tsh : Vector (BitVec 24) 8
  cause : Code
  epc : Word
  tval : Word
  pc : Word
  halted : Bool
  haltPc : Word
  wait : Option WaitCond
  bpPass : Option Word
  queue : List BlockEntry
  run : Option BlockRun
  strips : List Strip
  streams : List Stream
  satchel : List SatchelRun
  satchelTag : Option Tag
  held : List HeldFault
  imprecise : List (Code × Word)
  bps : Vector Word 8
  slots : List PageSlot
  revoked : Bool
  lops : List LOp
  tokenScopes : List (SReg × Scope)
  wants : Nat
  waiters : List Place
  checks : List SatchelCheck
  lrow : Nat
  deriving DecidableEq, Repr

/-- State of an L1 line (R128). -/
inductive LineState where
  | S
  | E
  | M
  | U
  deriving DecidableEq, Repr

/-- A line of an L1 (R128, R129): for a U line the unregistered words it holds with the values of their fill, and its
registered words; the step of its fill. -/
structure L1Line where
  key : LineKey
  st : LineState
  copies : List (Nat × Word32)
  regs : List Nat
  filled : Nat
  deriving DecidableEq, Repr

/-- A pinned scratchpad frame of a core (R105, R106): the backing region's base, the window page, the physical page it
is filled from, the orientation attributes, its bytes by offset, the offsets written since the fill, and recency. -/
structure Frame where
  region : Nat
  page : Nat
  paddr : Nat
  ori : Bool
  ow : Nat
  data : List Host.Cell
  written : List Nat
  last : Nat
  deriving DecidableEq, Repr

/-- A translation a cache holds (R444): job, context of a per-context entry, virtual page, log2 of its size, leaf. -/
structure TlbEntry where
  job : Nat
  ctx : Option Nat
  page : Nat
  bits : Nat
  leaf : Word
  deriving DecidableEq, Repr

/-- What an engine operation in the copy table does (R288, R289, R291); a collective is the k-th of its group (R293). -/
inductive CopyKind where
  | copy (dst src len : Nat)
  | satchel (src len : Nat)
  | coll (desc : List Byte) (k : Nat)
  deriving DecidableEq, Repr

/-- An engine operation of the copy table (R118): issuing context, job, kind, token register, number and timeline; the
bytes done of a copy, or the place of the block that a Satchel copy is at, how many of its decoded bytes have entered the
stream buffer, and the block itself once it is decoded (R124). -/
structure Copy where
  id : Nat
  ctx : Nat
  job : Nat
  kind : CopyKind
  token : Option SReg
  post : Option Ticket
  given : Nat
  pos : Nat
  block : Option SatchelBlock
  deriving DecidableEq, Repr

/-- A core (R13): L1 lines most recently used first, the lines of the instruction cache with their bytes, most recently used
first (R229), frames, TLBs, copy table, which of its four control threads issued last (R16), and for a control thread or a strip
the line it fetched last, with the address at which it goes on in it (R229). -/
structure Core where
  l1 : List L1Line
  icache : List (Nat × List Byte)
  frames : List Frame
  itlb : List TlbEntry
  dtlb : List TlbEntry
  copies : List Copy
  turn : Nat
  held : List (Party × Word × List Byte)
  deriving DecidableEq, Repr

/-- MODE of an accumulator row (R314). -/
inductive AccMode where
  | none
  | fp
  | int
  deriving DecidableEq, Repr

/-- An accumulator row: 64 values, MODE, TOUCH (R314). -/
structure AccRow where
  vals : BitVec 2048
  mode : AccMode
  touch : BitVec 64
  deriving DecidableEq, Repr

/-- A drain in flight (R325). -/
structure Drain where
  id : Nat
  ctx : Nat
  job : Nat
  addr : Word
  stride : Word
  band : Nat
  rows : Nat
  post : Option Ticket
  deriving DecidableEq, Repr

/-- An operation in the matrix unit's queue (R324): its context and what it posts. -/
structure MatOp where
  ctx : Nat
  post : Option Ticket
  deriving DecidableEq, Repr

/-- An entry of a Relay table (R331). -/
structure RelayEntry where
  key : Word
  mask : Word
  action : Word
  valid : Bool
  deriving DecidableEq, Repr

/-- A station's table in one bank (R329, R331). -/
structure Station where
  kind : Nat
  entries : List (Nat × RelayEntry)
  miss : Word
  deriving DecidableEq, Repr

/-- A record class (R330). -/
structure RelayClass where
  nf : Nat
  keep : Option MNum
  flag : Option MNum
  keys : List (Option Nat × Option Nat)
  deriving DecidableEq, Repr

/-- One bank of a Relay (R329). -/
structure RelayBank where
  stations : Vector Station 8
  overflow : Word
  classes : List (Nat × RelayClass)
  deriving DecidableEq, Repr

/-- How a record leaves (R335). -/
inductive Leaving where
  | normally
  | dropped
  | trapped (station : Nat)
  deriving DecidableEq, Repr

/-- A record of a run (R333): position, fields, FLAG, recirculation count, bank, the order of its admission, the station at
which it makes its next lookup, the station it stands at while it is in the chain, and, once its last pass has left the
chain, how it left. -/
structure RelayRec where
  run : Nat
  pos : Nat
  fields : Vector Word32 8
  flag : Bool
  rc : Nat
  bank : Bool
  first : Nat
  start : Nat
  station : Nat
  left : Option Leaving
  deriving DecidableEq, Repr

/-- A Relay run (R333, R335): registers, class slot, the next position to admit, VL, the lowest trapped position with its
cause and station, and the positions that are final. -/
structure RelayRun where
  id : Nat
  ctx : Nat
  stripb : Nat
  vd : Nat
  va : Nat
  slot : Nat
  next : Nat
  vl : Nat
  trapped : Option (Nat × Code × Nat)
  gone : List Nat
  deriving DecidableEq, Repr

/-- A commit whose copy-back has not ended (R337): the old bank, the context and what its end posts. -/
structure RelayCommit where
  old : Bool
  ctx : Nat
  post : Option Ticket
  deriving DecidableEq, Repr

/-- A cluster's Relay (R329, R337, R339): `chain` holds the records in the stations, oldest first, and `turn` the context and
strip of the run that was served last (R340). -/
structure Relay where
  job : Option Nat
  act : Bool
  bank0 : RelayBank
  bank1 : RelayBank
  counters : List (Nat × Nat)
  runs : List RelayRun
  chain : List RelayRec
  recirc : List RelayRec
  leaving : List RelayRec
  turn : Nat × Nat
  commit : Option RelayCommit
  deriving DecidableEq, Repr

/-- An entry of a cluster filter (R138): its unit, a line (`side` 0) or a square by its base and side, and for each of the
four cores that holds something of it a mask of rows and a mask of columns; of a line, row bit 0. -/
structure FilterEntry where
  unit : Nat
  side : Nat
  cores : List (Nat × Nat × Nat)
  deriving DecidableEq, Repr

/-- A cluster (R13): matrix unit, Relay, and cluster filter, most recently used first (R138). -/
structure Cluster where
  rows : List (Nat × AccRow)
  holders : Vector (Option Nat) 4
  matq : List MatOp
  drains : List Drain
  relay : Relay
  filter : List FilterEntry
  deriving DecidableEq, Repr

/-- A bind record's event in the Steward's ring (R427): the context and its new STATE. -/
structure SlotEvent where
  ctx : Nat
  state : BitVec 2
  deriving DecidableEq, Repr

/-- A line in the L2 of a die: the slice that holds it, and whether the copy is tracked at the line's home (R101, R131). -/
structure L2Line where
  slice : Nat
  key : LineKey
  tracked : Bool
  deriving DecidableEq, Repr

/-- A die (R13): L2 mode (true: partitioned, R103), the lines its L2 holds, most recently used first (R101), the clusters that
hold something of each 512-byte region (R137), last-level TLB, event ring, and what its four service cores run, the
first as Steward (R3, R381). -/
structure Die where
  part : Bool
  l2 : List L2Line
  regions : List (Nat × BitVec 16)
  tlb : List TlbEntry
  ring : List SlotEvent
  service : List (Nat × Nat)
  deriving DecidableEq, Repr

/-- State of a word at its home (R132). Nodes 0 to 3 are the dies; node 4 + n is peer device n (R131); a registrant below
256 is a core of this device, and 256 + n one of peer device n. -/
inductive HomeState where
  | H
  | E (node : Nat)
  | M (node : Nat)
  | O (node : Nat)
  | G (core : Nat)
  deriving DecidableEq, Repr

/-- A word's state and the set D of nodes with a tracked copy, ascending (R132). -/
structure WordState where
  st : HomeState
  d : List Nat
  deriving DecidableEq, Repr

/-- An entry of a slice's remote filter (R139, R348): slice, line, nodes, coarse mode, and in it the groups of 32 nodes. -/
structure RemoteEntry where
  slice : Nat
  line : LineKey
  nodes : List Nat
  coarse : Bool
  groups : List Nat
  deriving DecidableEq, Repr

/-- An entry of a slice's registration table (R140): slice, row line, core, words. -/
structure RegEntry where
  slice : Nat
  line : Nat
  core : Nat
  words : List Nat
  deriving DecidableEq, Repr

/-- A key-rack entry with its tag and its waiting queue (R295, R296): contexts by number, and requests of peers as 2^20 +
device × 2^16 + TAG; the waiter that has been granted and has not taken the key yet; the peer whose context holds it. -/
structure Key where
  tenure : BitVec 32
  holder : Nat
  held : Bool
  valid : Bool
  scope : Scope
  lenm1 : BitVec 24
  base : BitVec 50
  job : Nat
  queue : List Nat
  granted : Option Nat
  remoteHolder : Option Nat
  deriving DecidableEq, Repr

/-- STATUS of a counter (R308). -/
inductive CStatus where
  | running
  | complete
  | cancelled
  deriving DecidableEq, Repr

/-- A work counter or level counter (R308, R415, R416): its handle, VALUE and STATUS, and whether a member of the
level ended cancelled (R40). -/
structure Counter where
  handle : Word
  value : Nat
  status : CStatus
  tainted : Bool
  deriving DecidableEq, Repr

/-- An edge of a launch with the Concierge's copy of its flush list, and whether it is satisfied (R418, R419). -/
structure Edge where
  pred : Nat
  streaming : Bool
  flush : List (Nat × Nat × BitVec 8)
  wmark : Word
  satisfied : Bool
  deriving DecidableEq, Repr

/-- Progress of a unit (R37, R423). -/
inductive UStatus where
  | waiting (age : Nat)
  | bound (ctx : Nat)
  | saved (age : Nat)
  | complete
  | cancelled
  deriving DecidableEq, Repr

/-- A unit of a launch (R37): number, argument words, the copy of its argument block, its allocations (R427), its progress,
when and to which context it was last bound, and whether it ever was (R420, R424, R428). -/
structure Unit' where
  no : Nat
  args : List Word
  argp : Word
  stack : Word
  tblk : Word
  savea : Word
  status : UStatus
  allocated : Bool
  lastBind : Nat
  home : Option Nat
  everBound : Bool
  deriving DecidableEq, Repr

/-- What a handler unit serves (R431, R432): the context's job and unit, its save area, and whether it is an event. -/
structure Serves where
  ctx : Nat
  lidx : Nat
  unit : Nat
  record : Word
  event : Bool
  deriving DecidableEq, Repr

/-- A launch (R413): what was accepted, its place in graph and phase, its units, its edges. -/
structure Launch where
  job : Nat
  lidx : Nat
  entry : Word
  prio : Nat
  dies : Nat
  gang : Bool
  quant : Nat
  graph : Nat
  phase : Nat
  seed : BitVec 32
  edges : List Edge
  relay : Bool
  stackBytes : Nat
  spbase : Word
  splen : Nat
  units : List Unit'
  eligible : Option Nat
  serves : Option Serves
  ended : Option CStatus
  deriving DecidableEq, Repr

/-- A translation of a Lortar kernel (R386 to R390). -/
structure Translation where
  kidx : Nat
  base : Nat
  len : Nat
  published : Bool
  order : Nat
  deriving DecidableEq, Repr

/-- A kernel directory entry (R378). -/
structure Kernel where
  sig : Word
  loff : Word
  noff : Word
  stack : Nat
  flags : BitVec 32
  name : List Byte
  native : Bool
  deriving DecidableEq, Repr

/-- A section of a loaded image as it was placed (R377, R379): kind, virtual base, length. -/
structure Section where
  kind : Nat
  base : Nat
  len : Nat
  deriving DecidableEq, Repr

/-- A loaded image (R379, R456); `entries` holds the kernel index of each function-table entry. -/
structure Image where
  sections : List Section
  kernels : List Kernel
  entries : List Nat
  stubBase : Nat
  cpEntry : Word
  digest : List Byte
  owner : List Byte
  deriving DecidableEq, Repr

/-- The control program of a job (R381): registers x0 to x31, f0 to f31, fcsr, program counter, whether it
runs; the record of a held breakpoint (R434); whether a system call of it is in progress, and the counter it waits for. -/
structure ControlProgram where
  x : Vector Word 32
  f : Vector Word 32
  fcsr : BitVec 8
  pc : Word
  running : Bool
  held : Option Nat
  calling : Bool
  waits : Option Word
  deriving DecidableEq, Repr

/-- The reservation of a control program's load-reserved (R381): the 8 bytes it covers, how many bytes were read, and their
value. -/
structure Reservation where
  base : Nat
  size : Nat
  value : Nat
  deriving DecidableEq, Repr

/-- A receive queue (R284, R409). -/
structure RecvQueue where
  port : Nat
  peer : Word
  bytes : List Byte
  closed : Bool
  deriving DecidableEq, Repr

/-- A collective group (R293): this member's rank, how many collectives it has issued on the group, and the members. -/
structure Group where
  rank : Nat
  issued : Nat
  members : List (Byte × Byte × Byte × Word)
  deriving DecidableEq, Repr

/-- A window record (R443). -/
structure Window where
  port : Nat
  fabric : Word
  rkey : Word
  rbase : Nat
  len : Nat
  deriving DecidableEq, Repr

/-- An exposed region (R443). -/
structure Exposed where
  key : Word
  base : Nat
  len : Nat
  ports : Nat
  deriving DecidableEq, Repr

/-- A job (R406, R415): identifier, wishes, heap, image, page-table root, what it has opened; a save in progress, and what
waits behind it (R406, R463). -/
structure Job where
  id : BitVec 32
  live : Bool
  heapBytes : Nat
  heapBase : Nat
  partitioned : Bool
  parts : Nat
  wishDies : Nat
  relays : Nat
  root : Nat
  nextVa : Nat
  buffer : List (Nat × Byte)
  image : Option Image
  cp : Option ControlProgram
  translations : List Translation
  nextLidx : Nat
  openGraphs : List Nat
  phase : Nat
  windows : List (Nat × Window)
  exposed : List Exposed
  queues : List (Nat × RecvQueue)
  groups : List (Nat × Group)
  exitCode : Option Word
  ckpt : Option Req
  deferred : List Event
  deriving DecidableEq, Repr

/-- A channel of the Concierge (R395, R405): its negotiated version, WAIT requests not yet answered. -/
structure Channel where
  version : Option (Byte × Byte)
  waits : List (Word × Word × Word)
  deriving DecidableEq, Repr

/-- Phase of a Turnpike link (R396, R401). -/
inductive LinkPhase where
  | down
  | training
  | up
  | dead
  deriving DecidableEq, Repr

/-- A Turnpike link (R396 to R401): phase, peer's device and link, replay buffer with SEQ and CRED of each flit, next SEQ to
send and expected, credits, NAK run, whether a NAK has been sent for the current gap. -/
structure Link where
  phase : LinkPhase
  peer : Option (Nat × Nat)
  nextSeq : BitVec 16
  expect : BitVec 16
  lastAck : BitVec 16
  replay : List (BitVec 16 × BitVec 16 × List (BitVec 8 × Msg))
  credits : Vector Nat 4
  freed : Vector Nat 4
  ready : List (BitVec 8 × Msg)
  naks : Nat
  nakSeq : BitVec 16
  nakSent : Bool
  retrained : Bool
  deriving DecidableEq, Repr

/-- A request to a peer in flight (R398, R399): TAG, the party, what it asked, for which address and line, the answer; whether an
invalidation or an acquire has met it, so that its data is not installed (R147); and of a recall the bytes that this
device has stored since, which come later in the coherence order (R133). -/
structure RemoteReq where
  tag : Nat
  party : Party
  mtype : BitVec 8
  addr : Nat
  line : LineKey
  dst : Nat
  answer : Option (BitVec 8 × Msg)
  spoiled : Bool
  stored : List Nat
  deriving DecidableEq, Repr

/-- What the device sends out: a response of the Concierge, a Turnpike control record or message flit, Ultra
Ethernet traffic. -/
inductive Output where
  | response (chan : Nat) (vmaj vmin : Byte) (op status : BitVec 16) (tag job : Word) (payload : List Byte)
  | flit (link : Nat) (seq ack cred : BitVec 16) (msgs : List (BitVec 8 × Msg))
  | train (link : Nat)
  | nak (link : Nat) (seq : BitVec 16)
  | down (link : Nat) (reason : BitVec 8)
  | uetWrite (port : Nat) (fabric rkey : Word) (off : Nat) (bytes : List Byte)
  | uetRead (port : Nat) (fabric rkey : Word) (off : Nat) (len : Nat)
  | queueClose (port : Nat) (peer : Word)
  | uetReply (port : Nat) (bytes : List Byte)
  | uetRefuse (port : Nat)
  | contribution (group rank k op ftag count root : Nat) (bytes : List Byte)
  | checkpoint (endpoint : Word) (off : Nat) (bytes : List Byte)
  | tdo (bits : List Byte)
  deriving DecidableEq, Repr

/-- Fuses (R451). -/
structure Fuses where
  uds : List Byte
  serial : Word
  roots : List (List Byte)
  revoked : BitVec 4
  svn : Nat
  deriving DecidableEq, Repr

/-- Package flash (R394, R396, R453): firmware package, identity certificate, domain record. -/
structure Flash where
  firmware : List Byte
  idcert : List Byte
  device : Nat
  peers : List (Nat × Nat × Nat)
  deriving DecidableEq, Repr

/-- TELEMETRY counters (R468). -/
structure Telemetry where
  ce : Nat
  ue : Nat
  pcons : Nat
  crcmm : Nat
  evdrop : Nat
  goign : Nat
  uuddrop : Nat
  ckpt : Nat
  hfault : Nat
  deriving DecidableEq, Repr

/-- The package as a whole: boot (R394), freeze and test access port (R448, R449), fuses and flash (R451, R453),
keys (R455), clock (R469), ports (R395). -/
structure Chip where
  boot : Byte
  booted : Bool
  frozen : Bool
  frozenByPin : Bool
  ir : Byte
  chain : BitVec 16
  memaddr : BitVec 48
  dr : List Byte
  fuses : Fuses
  flash : Flash
  fwd : List Byte
  svn : Nat
  aliasSecret : List Byte
  aliasCert : List Byte
  dikPub : List Byte
  attests : Nat
  clock : Nat
  throttling : Bool
  ports : BitVec 8
  portCredits : BitVec 8
  tele : Telemetry
  deriving DecidableEq, Repr

/-- The issue latch: the party that issues, its instruction's address, the address after it (R175), and, when its
cause is one held for the context, the engine operation's fault (R120) or that a store's fault is late (R161). -/
structure Latch where
  party : Party
  pc : Word
  next : Word
  engine : Option HeldFault
  late : Bool
  deriving DecidableEq, Repr

/-- What may happen next: the issue of a control thread of a core, of another party, a happening of the device's own, and the
Concierge's answers. -/
inductive Action where
  | thread (core : Nat)
  | issue (p : Party)
  | happen (e : Event)
  | answer (chan : Nat)
  | native (ctx : Nat)
  | control (job : Nat)
  deriving DecidableEq, Repr

/-- The state of the device. `order` holds what may happen, in the order in which it became possible. `heldBack` are happenings that wait for pages to be free or for answers of peers; `farKeys` the
keys of peers that units of this device hold, by unit (R295); `reserved` the reservations of control programs, by job slot (R381). -/
structure State where
  mem : List Host.Cell
  poison : List Nat
  badCheck : List Nat
  homeOld : List (Nat × Word32)
  words : List (Nat × WordState)
  remotes : List RemoteEntry
  regTable : List RegEntry
  ctxs : List (Nat × Ctx)
  bind : List (Nat × BitVec 512)
  cores : List (Nat × Core)
  clusters : List (Nat × Cluster)
  dies : List (Nat × Die)
  keys : List (Nat × Key)
  jobs : List Job
  launches : List Launch
  counters : List Counter
  generations : List (Nat × Nat)
  nextPage : Nat
  residue : List (Nat × Ctx)
  channels : List (Nat × Channel)
  links : List (Nat × Link)
  routes : List (Nat × BitVec 16)
  requests : List RemoteReq
  nextTag : Nat
  out : List Output
  chip : Chip
  agenda : List Event
  order : List Action
  heldBack : List Event
  farKeys : List (Nat × Nat)
  reserved : List (Nat × Reservation)
  cur : Latch
  now : Nat
  fresh : Nat
  nextId : Nat
  deriving DecidableEq, Repr

/-- Reasons a step stops with a fault. The model raises none: every cause of the spec is taken as an exception with a
next state. The constructor is kept for a state in which no rule applies. -/
inductive Fault where
  /-- Raised by nothing: the list of happenings and the parties always leave a next state. Safe. -/
  | stuck
  deriving DecidableEq, Repr

/-- Reasons an instruction has no meaning in the model. -/
inductive Refusal where
  /-- Raised by the dispatcher for an instruction whose meaning is not written yet. Safe: a run stops there. -/
  | notModelled (mnemonic : String)
  deriving DecidableEq, Repr

/-- Memory is canonical: addresses strictly rise, and no entry holds what an unlisted address reads as (0: R394
zeroes DRAM at boot) (DESIGN CHOICE, log 11). -/
def Memory.wf : List Host.Cell → Bool
  | [] => true
  | [c] => c.2 != 0
  | c :: d :: r => c.2 != 0 && c.1 < d.1 && Memory.wf (d :: r)

/-- A vector register at bind (R42). -/
def VReg.zero : VReg := ⟨0, 0, 0, 0, 0⟩
/-- A mask register at bind (R42). -/
def MReg.zero : MReg := ⟨0, 0⟩
/-- A tile at bind (R42). -/
def TReg.zero : TReg := ⟨0, 0, 0, 0⟩
/-- A timeline at bind (R42). -/
def Timeline.zero : Timeline := ⟨0, 0, []⟩

/-- A context that is not bound, or freshly bound before the bind record is applied (R42, R44, R67)
(DESIGN CHOICE, log 1). -/
def Ctx.zero : Ctx where
  s := Vector.replicate 64 0
  pend := []
  spoison := 0
  v := Vector.replicate 32 VReg.zero
  m := Vector.replicate 16 MReg.zero
  t := Vector.replicate 8 TReg.zero
  tl := Vector.replicate 16 Timeline.zero
  rq := []
  vl := 0
  vtype := 0
  stripb := 0
  seed := 0
  fctl := 0
  fmtst := 0
  mgrant := 0
  tsh := Vector.replicate 8 0
  cause := 0
  epc := 0
  tval := 0
  pc := 0
  halted := false
  haltPc := 0
  wait := none
  bpPass := none
  queue := []
  run := none
  strips := []
  streams := []
  satchel := []
  satchelTag := none
  held := []
  imprecise := []
  bps := Vector.replicate 8 0
  slots := []
  revoked := false
  lops := []
  tokenScopes := []
  wants := 0
  waiters := []
  checks := []
  lrow := 0

/-- A core after reset (DESIGN CHOICE, log 61). -/
def Core.zero : Core := ⟨[], [], [], [], [], [], 3, []⟩
/-- A bank of an unbound Relay (R329): KIND 0, PASS, DROP, no class. -/
def RelayBank.zero : RelayBank := ⟨Vector.replicate 8 ⟨0, [], 0⟩, 0x9000000000000000, []⟩
/-- An unbound Relay. -/
def Relay.zero : Relay := ⟨none, false, RelayBank.zero, RelayBank.zero, [], [], [], [], [], (0, 0), none⟩
/-- A cluster after reset (DESIGN CHOICE, log 61). -/
def Cluster.zero : Cluster := ⟨[], Vector.replicate 4 none, [], [], Relay.zero, []⟩
/-- A die after reset: L2 in shared mode (R394 stage 2). -/
def Die.zero : Die := ⟨false, [], [], [], [], []⟩
/-- A key-rack entry before it is written (R295). -/
def Key.zero : Key := ⟨0, 0, false, false, 0, 0, 0, 0, [], none, none⟩
/-- A link before training (R396). -/
def Link.zero : Link :=
  ⟨.down, none, 0, 0, 0xFFFF, [], Vector.replicate 4 0, Vector.replicate 4 0, [], 0, 0, false, false⟩
/-- A channel before HELLO (R405). -/
def Channel.zero : Channel := ⟨none, []⟩

/-- The package before stage 0 of boot; the values no rule gives are named in the log (2, 3, 4, 23, 24)
(DESIGN CHOICE, log 2; DESIGN CHOICE, log 3; DESIGN CHOICE, log 4). -/
def Chip.zero : Chip where
  boot := 0xFF
  booted := false
  frozen := false
  frozenByPin := false
  ir := 0x01
  chain := 0
  memaddr := 0
  dr := []
  fuses := ⟨[], 0, [], 0, 0⟩
  flash := ⟨[], [], 0, []⟩
  fwd := []
  svn := 0
  aliasSecret := []
  aliasCert := []
  dikPub := []
  attests := 0
  clock := 2100
  throttling := false
  ports := 0
  portCredits := 0
  tele := ⟨0, 0, 0, 0, 0, 0, 0, 0, 0⟩

/-- The device right after reset, before the stages of R394 run: memory with nothing listed, no context bound, an
empty slot table, no job, links down (DESIGN CHOICE, log 1; DESIGN CHOICE, log 11; DESIGN CHOICE, log 61). -/
def State.reset : State where
  mem := []
  poison := []
  badCheck := []
  homeOld := []
  words := []
  remotes := []
  regTable := []
  ctxs := []
  bind := []
  cores := []
  clusters := []
  dies := []
  keys := []
  jobs := []
  launches := []
  counters := []
  generations := []
  nextPage := 0x100000
  residue := []
  channels := []
  links := []
  routes := []
  requests := []
  nextTag := 1
  out := []
  chip := Chip.zero
  agenda := []
  order := []
  heldBack := []
  farKeys := []
  reserved := []
  cur := ⟨⟨0, .ctl⟩, 0, 0, none, false⟩
  now := 0
  fresh := 0
  nextId := 1

end Sys2Proof.Machine
end

