-- ==== Sys2Proof/Machine/Maps.lean ====
section
/-! DEFINITION. Sparse maps as sorted lists of pairs, memory by bytes in canonical form, and the result of an
operation: a value with a state, a cause, or a stall. -/

namespace Sys2Proof.Machine

/-- The value a sparse map holds for a key, or the default. -/
def aget (d : α) : List (Nat × α) → Nat → α
  | [], _ => d
  | (k, v) :: r, n => if k = n then v else aget d r n

/-- Set a key of a sparse map, keeping the keys in rising order. -/
def aset : List (Nat × α) → Nat → α → List (Nat × α)
  | [], n, x => [(n, x)]
  | (k, v) :: r, n, x => if n < k then (n, x) :: (k, v) :: r else if k = n then (n, x) :: r else (k, v) :: aset r n x

/-- Remove a key of a sparse map. -/
def adel : List (Nat × α) → Nat → List (Nat × α)
  | [], _ => []
  | (k, v) :: r, n => if k = n then r else (k, v) :: adel r n

/-- A key's value if the map lists it. -/
def afind? : List (Nat × α) → Nat → Option α
  | [], _ => none
  | (k, v) :: r, n => if k = n then some v else afind? r n

namespace Memory

/-- The byte at an address: 0 where nothing is listed (R394 stage 1 zeroes DRAM). -/
def read : List Host.Cell → Nat → Byte
  | [], _ => 0
  | (k, v) :: r, a => if a < k then 0 else if k = a then v else read r a

/-- Write a byte, keeping the canonical form. -/
def write : List Host.Cell → Nat → Byte → List Host.Cell
  | [], a, b => if b = 0 then [] else [(a, b)]
  | (k, v) :: r, a, b =>
      if a < k then (if b = 0 then (k, v) :: r else (a, b) :: (k, v) :: r)
      else if k = a then (if b = 0 then r else (a, b) :: r)
      else (k, v) :: write r a b

/-- The n bytes from an address as a little-endian number (R7). -/
def readN (m : List Host.Cell) (a : Nat) : Nat → Nat
  | 0 => 0
  | n + 1 => (read m a).toNat + 256 * readN m (a + 1) n

/-- Write the n low bytes of a number, little-endian (R7). -/
def writeN (m : List Host.Cell) (a : Nat) : Nat → Nat → List Host.Cell
  | 0, _ => m
  | n + 1, x => writeN (write m a (BitVec.ofNat 8 x)) (a + 1) n (x / 256)

/-- The n bytes from an address. -/
def readBytes (m : List Host.Cell) (a : Nat) : Nat → List Byte
  | 0 => []
  | n + 1 => read m a :: readBytes m (a + 1) n

/-- Write a list of bytes from an address. -/
def writeBytes (m : List Host.Cell) (a : Nat) : List Byte → List Host.Cell
  | [] => m
  | b :: r => writeBytes (write m a b) (a + 1) r

end Memory

/-- A little-endian number from bytes (R7). -/
def leNat : List Byte → Nat
  | [] => 0
  | b :: r => b.toNat + 256 * leNat r

/-- The n low bytes of a number, little-endian (R7). -/
def leBytes : Nat → Nat → List Byte
  | 0, _ => []
  | n + 1, x => BitVec.ofNat 8 x :: leBytes n (x / 256)

/-- Put an element into a list in rising order of a key, before those of an equal key. -/
def insertBy (key : α → Nat) (a : α) : List α → List α
  | [] => [a]
  | b :: r => if key a ≤ key b then a :: b :: r else b :: insertBy key a r
/-- A list in rising order of a key, elements of equal keys in the order they had. -/
def sortBy (key : α → Nat) (l : List α) : List α := l.foldr (insertBy key) []

/-- What an operation gives: a value and the state after; a cause with its TVAL and the state with the effects that
stand; or a stall, which the party takes again from the start once the condition holds (R196). -/
inductive R (α : Type) where
  | ok (a : α) (s : State)
  | trap (c : Code) (tval : Word) (s : State)
  | stall (w : WaitCond) (s : State)

/-- Go on with the value when there is one. -/
def R.bind (r : R α) (f : α → State → R β) : R β :=
  match r with
  | .ok a s => f a s
  | .trap c t s => .trap c t s
  | .stall w s => .stall w s

/-- Go on with the state, the value being of no use. -/
def R.andThen (r : R α) (f : State → R β) : R β := r.bind fun _ s => f s

/-- A plain state. -/
abbrev R.done (s : State) : R PUnit := .ok ⟨⟩ s

/-- Take a cause when a condition fails. -/
def need (b : Bool) (c : Code) (t : Word) (s : State) (k : R α) : R α := if b then k else .trap c t s

/-- Run an operation for each element of a list in order, stopping at the first cause or stall. -/
def R.each : List α → State → (α → State → R PUnit) → R PUnit
  | [], s, _ => .ok ⟨⟩ s
  | a :: r, s, f => (f a s).bind fun _ s => R.each r s f

/-- Run an operation for each element of a list, collecting the values. -/
def R.gather : List α → State → (α → State → R β) → R (List β)
  | [], s, _ => .ok [] s
  | a :: r, s, f => (f a s).bind fun b s => (R.gather r s f).bind fun bs s => .ok (b :: bs) s

/-- A context of the device by its number (R14). -/
def State.ctx (s : State) (c : Nat) : Ctx := aget Ctx.zero s.ctxs c
/-- Replace a context. -/
def State.setCtx (s : State) (c : Nat) (x : Ctx) : State := { s with ctxs := aset s.ctxs c x }
/-- Change a context. -/
def State.modCtx (s : State) (c : Nat) (f : Ctx → Ctx) : State := s.setCtx c (f (s.ctx c))
/-- A core by its number in the device. -/
def State.core (s : State) (k : Nat) : Core := aget Core.zero s.cores k
/-- Change a core. -/
def State.modCore (s : State) (k : Nat) (f : Core → Core) : State := { s with cores := aset s.cores k (f (s.core k)) }
/-- A cluster by its number in the device. -/
def State.cluster (s : State) (k : Nat) : Cluster := aget Cluster.zero s.clusters k
/-- Change a cluster. -/
def State.modCluster (s : State) (k : Nat) (f : Cluster → Cluster) : State :=
  { s with clusters := aset s.clusters k (f (s.cluster k)) }
/-- A die. -/
def State.die (s : State) (k : Nat) : Die := aget Die.zero s.dies k
/-- Change a die. -/
def State.modDie (s : State) (k : Nat) (f : Die → Die) : State := { s with dies := aset s.dies k (f (s.die k)) }
/-- A key-rack entry of this device. -/
def State.key (s : State) (k : Nat) : Key := aget Key.zero s.keys k
/-- Change a key-rack entry. -/
def State.modKey (s : State) (k : Nat) (f : Key → Key) : State := { s with keys := aset s.keys k (f (s.key k)) }
/-- The bind record of a context (R426). -/
def State.slot (s : State) (c : Nat) : BitVec 512 := aget 0 s.bind c
/-- Change counters of TELEMETRY. -/
def State.modTele (s : State) (f : Telemetry → Telemetry) : State :=
  { s with chip := { s.chip with tele := f s.chip.tele } }
/-- Send something out. -/
def State.emit (s : State) (o : Output) : State := { s with out := s.out ++ [o] }
/-- Put a happening at the end of the agenda. -/
def State.later (s : State) (e : Event) : State := { s with agenda := s.agenda ++ [e] }

/-- The core of a context (R14). -/
def coreOf (c : Nat) : Nat := c / 4
/-- The cluster of a context (R14). -/
def clusterOf (c : Nat) : Nat := c / 16
/-- The die of a context (R14). -/
def dieOf (c : Nat) : Nat := c / 256

/-- STATE of a slot: 0 empty, 1 running, 2 saved, 3 complete (R426). -/
def slotState (r : BitVec 512) : BitVec 2 := r.extractLsb' 1 2
/-- JOB of a slot (R426). -/
def slotJob (r : BitVec 512) : BitVec 32 := r.extractLsb' 128 32
/-- LIDX of a slot (R426). -/
def slotLidx (r : BitVec 512) : Nat := (r.extractLsb' 96 32).toNat
/-- UNITNO of a slot (R426). -/
def slotUnit (r : BitVec 512) : Nat := (r.extractLsb' 84 12).toNat
/-- PRIO of a slot (R426). -/
def slotPrio (r : BitVec 512) : Nat := (r.extractLsb' 81 3).toNat
/-- The save area a slot names (R426, SAVEA: bits 56:7). -/
def slotSave (r : BitVec 512) : Nat := (r.extractLsb' 27 50).toNat * 128
/-- The scratchpad backing region's base (R426, SPBASE: bits 56:12). -/
def slotSpBase (r : BitVec 512) : Nat := (r.extractLsb' 211 45).toNat * 4096
/-- Backing pages (R426). -/
def slotSpLen (r : BitVec 512) : Nat := (r.extractLsb' 203 8).toNat

/-- The slot of a job within the device, the low half of its identifier (R415). -/
def jobSlot (id : BitVec 32) : Nat := (id.extractLsb' 0 16).toNat

/-- The live job with an identifier (R415). -/
def State.jobById (s : State) (id : BitVec 32) : Option Job := s.jobs.find? fun j => j.live && j.id == id
/-- The job of a context (R426). -/
def State.jobOf (s : State) (c : Nat) : Option Job := s.jobById (slotJob (s.slot c))
/-- Change the job with an identifier. -/
def State.modJob (s : State) (id : BitVec 32) (f : Job → Job) : State :=
  { s with jobs := s.jobs.map fun j => if j.live && j.id == id then f j else j }

/-- A strip in flight of a context, by STRIPB. -/
def Ctx.strip? (x : Ctx) (b : Nat) : Option Strip := x.strips.find? (·.stripb == b)
/-- Change a strip in flight. -/
def Ctx.modStrip (x : Ctx) (b : Nat) (f : Strip → Strip) : Ctx :=
  { x with strips := x.strips.map fun t => if t.stripb == b then f t else t }

/-- A strip that holds nothing, for lookups that find none. -/
def Strip.zero : Strip where
  stripb := 0
  vl := 0
  vtype := 0
  vstart := 0
  pc := 0
  lpc := Vector.replicate 4 0
  snap := Vector.replicate 64 0
  snapP := 0
  v := Vector.replicate 32 VReg.zero
  m := Vector.replicate 16 MReg.zero
  flags := 0
  pops := 0
  pushes := 0
  recv := none
  region := none
  detached := 0
  lanePcs := []
  laneLast := 0
  laneWait := []
  bpPass := []
  consumed := []
  wait := none
  headDue := false
  kept := none
  posted := []
  late := []
  resting := false

/-- A strip of a context, zero when there is none with that STRIPB. -/
def State.strip (s : State) (c b : Nat) : Strip := ((s.ctx c).strip? b).getD Strip.zero
/-- Change a strip of a context. -/
def State.modStrip (s : State) (c b : Nat) (f : Strip → Strip) : State := s.modCtx c (·.modStrip b f)

/-- The context of the party that issues. -/
def State.me (s : State) : Nat := s.cur.party.ctx
/-- STRIPB of the strip that issues. -/
def placeStripb : Place → Nat
  | .ctl => 0
  | .strip b => b
  | .lane b _ => b
/-- The strip that issues. -/
def State.myStrip (s : State) : Strip := s.strip s.me (placeStripb s.cur.party.place)
/-- Change the strip that issues. -/
def State.modMyStrip (s : State) (f : Strip → Strip) : State := s.modStrip s.me (placeStripb s.cur.party.place) f
/-- The context that issues. -/
def State.myCtx (s : State) : Ctx := s.ctx s.me

/-- The issuing party fetches anew when it goes on (R229). -/
def State.refetch (s : State) : State :=
  if (s.core (coreOf s.me)).held.any (·.1 == s.cur.party) then
    s.modCore (coreOf s.me) fun c => { c with held := c.held.filter (·.1 != s.cur.party) }
  else s

/-- The issuing party may go on at an address in the line that it fetched with these bytes (R229). -/
def State.holdLine (s : State) (a : Word) (bs : List Byte) : State :=
  s.modCore (coreOf s.me) fun c => { c with held := (s.cur.party, a, bs) :: c.held.filter (·.1 != s.cur.party) }

/-- A party that stalls issues again at its address in the line it fetched last (R16, R229). -/
def State.holdBackTo (s : State) (a : Word) : State :=
  match (s.core (coreOf s.me)).held.find? (·.1 == s.cur.party) with
  | some x => s.holdLine a x.2.2
  | none => s

/-- The parties of a context that stops, or a strip that ends, hold no line. -/
def State.releaseLines (s : State) (p : Party → Bool) (core : Nat) : State :=
  if (s.core core).held.any fun x => p x.1 then
    s.modCore core fun c => { c with held := c.held.filter fun x => !p x.1 }
  else s

/-- The program counter of a party (R15, R30, R33). -/
def State.pcOf (s : State) (p : Party) : Word :=
  match p.place with
  | .ctl => (s.ctx p.ctx).pc
  | .strip b => (s.strip p.ctx b).pc
  | .lane b q => (((s.strip p.ctx b).lanePcs.find? (·.1 == q)).map (·.2)).getD 0

/-- Rounding up to a multiple. -/
def roundUp (x n : Nat) : Nat := (x + n - 1) / n * n

/-- Two's complement reading of a w-bit number. -/
def sgn (w x : Nat) : Int := if x < 2 ^ (w - 1) then (x : Int) else (x : Int) - 2 ^ w
/-- An integer modulo 2^w. -/
def wrap (w : Nat) (x : Int) : Nat := (x % (2 ^ w : Int)).toNat
/-- A 64-bit word from a number. -/
abbrev w64 (n : Nat) : Word := BitVec.ofNat 64 n

/-- Contexts that run (R426). -/
def State.running (s : State) : List Nat := s.bind.filterMap fun (c, r) => if slotState r == 1 then some c else none

end Sys2Proof.Machine
end

