-- ==== Sys2Proof/Machine/Flags.lean ====
section
/-! DEFINITION. The sticky flags of FMTST (R60) and where a party's flags go (R61). -/

namespace Sys2Proof.Machine

/-- Flags in the layout of FMTST (R60). -/
abbrev Flags := BitVec 7

/-- Inexact. -/
def fNX : Flags := 0x01
/-- Underflow. -/
def fUF : Flags := 0x02
/-- Overflow. -/
def fOF : Flags := 0x04
/-- Division by zero. -/
def fDZ : Flags := 0x08
/-- Invalid operation. -/
def fNV : Flags := 0x10
/-- A conversion saturated. -/
def fST : Flags := 0x20
/-- A subnormal was flushed. -/
def fFL : Flags := 0x40

/-- Flags of a condition. -/
def flagIf (b : Bool) (f : Flags) : Flags := if b then f else 0

/-- OR flags into FMTST for the control thread, into the strip's flags for a block or a wayfarer thread (R61). -/
def State.addFlags (s : State) (f : Flags) : State :=
  match s.cur.party.place with
  | .ctl => s.modCtx s.me fun x => { x with fmtst := x.fmtst ||| f }
  | .strip b | .lane b _ => s.modStrip s.me b fun t => { t with flags := t.flags ||| f }

/-- FCTL as the party uses it: the control thread's own, or the one captured at dispatch (R47). -/
def State.fctlOf (s : State) : BitVec 5 :=
  match s.cur.party.place with
  | .ctl => s.myCtx.fctl
  | _ => match s.myCtx.run with | some r => r.entry.fctl | none => 0

/-- SEED as the party uses it (R47). -/
def State.seedOf (s : State) : BitVec 32 :=
  match s.cur.party.place with
  | .ctl => s.myCtx.seed
  | _ => match s.myCtx.run with | some r => r.entry.seed | none => 0

/-- FTZ of FCTL (R59). -/
def ftzOf (f : BitVec 5) : Bool := f.getLsbD 3
/-- SAT of FCTL (R59). -/
def satOf (f : BitVec 5) : Bool := f.getLsbD 4

end Sys2Proof.Machine
end

