-- ==== Sys2Proof/Machine/Numbers.lean ====
section
/-! DEFINITION. Number formats, exact values, rounding, conversions and arithmetic (R69 to R91). Values are exact
dyadic numbers; a quotient or a root that is not dyadic carries a last bit that stands for the rest, far below any
rounding position. -/

namespace Sys2Proof.Machine

/-- Rounding modes (R59, R78). -/
inductive RMode where
  | rne
  | rtz
  | rdn
  | rup
  | rna
  | rs
  deriving DecidableEq, Repr

/-- The mode of an RM code of FCTL (R59). -/
def rmOf (c : Nat) : RMode :=
  if c = 0 then .rne else if c = 1 then .rtz else if c = 2 then .rdn else if c = 3 then .rup
  else if c = 4 then .rna else .rs

/-- The effective mode: the RND modifier when it is non-zero, otherwise FCTL.RM (R182, R208). -/
def effMode (rnd : BitVec 3) (fctl : BitVec 5) : RMode :=
  if rnd = 0 then rmOf (fctl.extractLsb' 0 3).toNat else rmOf (rnd.toNat - 1)

/-- Arithmetic under the stochastic mode rounds to nearest even (R80). -/
def arithMode (rnd : BitVec 3) (fctl : BitVec 5) : RMode :=
  match effMode rnd fctl with
  | .rs => .rne
  | m => m

/-- Effective saturation: SATM when it is non-zero, otherwise FCTL.SAT (R210). -/
def effSat (satm : BitVec 2) (fctl : BitVec 5) : Bool := if satm = 0 then satOf fctl else satm == 1

/-- Width in bits of a format (R69, R71), 0 for raw, record, shape record and token; e2m1 counts 8 in a vector
register (R232). -/
def fmtBits (f : Nat) : Nat :=
  if f = 1 || f = 2 then 8 else if f = 3 || f = 4 then 16 else if f = 5 || f = 6 then 32 else if f = 7 then 64
  else if f = 8 then 32 else if f = 9 || f = 10 then 16 else if 11 ≤ f && f ≤ 23 then 8 else 0

/-- An i-format (R69). -/
def isSignedFmt (f : Nat) : Bool := f == 1 || f == 3 || f == 5 || f == 7

/-- Layout of a floating format: exponent bits, mantissa bits, bias; whether it has infinities and NaNs (R71). -/
structure FFmt where
  e : Nat
  m : Nat
  bias : Nat
  inf : Bool
  nan : Bool
  deriving DecidableEq, Repr

/-- The floating formats of R71; 64 stands for binary64, which only a control program has (R381). -/
def ffmt (f : Nat) : FFmt :=
  if f = 64 then ⟨11, 52, 1023, true, true⟩ else if f = 8 then ⟨8, 23, 127, true, true⟩ else if f = 9 then ⟨8, 7, 127, true, true⟩
  else if f = 10 then ⟨5, 10, 15, true, true⟩ else if f = 11 then ⟨4, 3, 7, false, true⟩
  else if f = 12 then ⟨5, 2, 15, true, true⟩ else if f = 13 then ⟨3, 2, 3, false, false⟩
  else if f = 14 then ⟨2, 3, 1, false, false⟩ else ⟨2, 1, 1, false, false⟩

/-- Bits of a code of a floating format. -/
def FFmt.width (F : FFmt) : Nat := 1 + F.e + F.m

/-- An exact dyadic value (-1)^neg × man × 2^exp. -/
structure Dy where
  neg : Bool
  man : Nat
  exp : Int
  deriving DecidableEq, Repr

/-- A value of a floating format: a NaN with its sign and whether it signals, an infinity, or a number. -/
inductive FVal where
  | nan (neg sig : Bool)
  | inf (neg : Bool)
  | fin (x : Dy)
  deriving DecidableEq, Repr

/-- Sign of a value. -/
def FVal.neg : FVal → Bool
  | .nan n _ => n
  | .inf n => n
  | .fin x => x.neg

/-- Zero with a sign. -/
def Dy.zero (neg : Bool) : Dy := ⟨neg, 0, 0⟩

/-- The largest finite magnitude of a format as mantissa and exponent (R71). -/
def maxFinite (f : Nat) : Nat × Int :=
  let F := ffmt f
  if f = 11 then (14, 5) else
    let top : Int := if F.inf then 2 ^ F.e - 2 else 2 ^ F.e - 1
    (2 ^ (F.m + 1) - 1, top - F.bias - F.m)

/-- The code of the largest finite magnitude. -/
def maxCode (f : Nat) : Nat :=
  let F := ffmt f
  if f = 11 then 0x7E else if F.inf then (2 ^ F.e - 1) * 2 ^ F.m - 1 else 2 ^ (F.e + F.m) - 1

/-- Decode a floating code (R71, R73). Format 16 is e8m0. -/
def decodeF (f c : Nat) : FVal :=
  if f = 16 then (if c % 256 = 255 then .nan false false else .fin ⟨false, 1, (c % 256 : Int) - 127⟩) else
  let F := ffmt f
  let x := c % 2 ^ F.width
  let neg := x / 2 ^ (F.e + F.m) == 1
  let e := x / 2 ^ F.m % 2 ^ F.e
  let m := x % 2 ^ F.m
  if f = 11 && e = 15 && m = 7 then .nan neg false
  else if F.inf && e = 2 ^ F.e - 1 then
    (if m = 0 then .inf neg else .nan neg (m < 2 ^ (F.m - 1)))
  else if e = 0 then .fin ⟨neg, m, 1 - (F.bias : Int) - F.m⟩
  else .fin ⟨neg, 2 ^ F.m + m, (e : Int) - F.bias - F.m⟩

/-- The sign bit of a floating code. -/
def signBit (f : Nat) (neg : Bool) : Nat := let F := ffmt f; if neg then 2 ^ (F.e + F.m) else 0

/-- The canonical quiet NaN (R83). -/
def quietNan (f : Nat) : Nat :=
  if f = 64 then 0x7FF8000000000000 else if f = 8 then 0x7FC00000 else if f = 9 then 0x7FC0 else if f = 10 then 0x7E00 else if f = 11 then 0x7F else 0x7E

/-- The code of an infinity. -/
def infCode (f : Nat) (neg : Bool) : Nat := let F := ffmt f; (2 ^ F.e - 1) * 2 ^ F.m + signBit f neg

/-- Floor of the base-2 logarithm of a non-zero number. -/
def ilog2 (n : Nat) : Nat := Nat.log2 n

/-- Choose between the lower and the upper neighbour (R78): the fraction is r ÷ d, `odd` says the lower one has an
odd last bit, u is the random value of the stochastic mode. -/
def roundUpHere (mode : RMode) (neg odd : Bool) (r d u : Nat) : Bool :=
  match mode with
  | .rne => 2 * r > d || (2 * r == d && odd)
  | .rna => 2 * r ≥ d
  | .rtz => false
  | .rup => !neg
  | .rdn => neg
  | .rs => u < r * 2 ^ 32 / d

/-- Round the magnitude man × 2^exp onto multiples of 2^q: the multiple and whether it was inexact (R78). -/
def roundAt (man : Nat) (exp q : Int) (neg : Bool) (mode : RMode) (u : Nat) : Nat × Bool :=
  if q ≤ exp then (man * 2 ^ (exp - q).toNat, false)
  else
    let d := 2 ^ (q - exp).toNat
    let k := man / d
    let r := man % d
    if r = 0 then (k, false) else (if roundUpHere mode neg (k % 2 == 1) r d u then k + 1 else k, true)

/-- What Overflow(y, F) yields (R79): the code and its flags. -/
def overflowF (f : Nat) (neg : Bool) (mode : RMode) (sat : Bool) : Nat × Flags :=
  let away := match mode with | .rtz => true | .rup => neg | .rdn => !neg | _ => false
  let maxv := maxCode f + signBit f neg
  if away then (maxv, fOF)
  else if !(ffmt f).nan then (maxv, fOF ||| fST)
  else if sat then (maxv, fOF ||| fST)
  else if f = 11 then (0x7F + signBit f neg, fOF)
  else (infCode f neg, fOF)

/-- RoundTo(x, F, mode, u) for a finite x (R78, R79, R87): the code and its flags. A zero keeps its sign. -/
def roundTo (x : Dy) (f : Nat) (mode : RMode) (u : Nat) (sat ftz : Bool) : Nat × Flags :=
  let F := ffmt f
  if x.man = 0 then (signBit f x.neg, 0) else
  let e : Int := (ilog2 x.man : Int) + x.exp
  let emin : Int := 1 - (F.bias : Int)
  let (mm, me) := maxFinite f
  let etop : Int := me + (ilog2 mm : Int)
  let q := (max emin (min e etop)) - (F.m : Int)
  let (k, nx) := roundAt x.man x.exp q x.neg mode u
  let past := if q ≥ me then k * 2 ^ (q - me).toNat > mm else k > mm * 2 ^ (me - q).toNat
  if past then
    let (c, fl) := overflowF f x.neg mode sat
    (c, fl ||| flagIf nx fNX)
  else
    let sub := k < 2 ^ F.m
    let fl := flagIf nx fNX ||| flagIf (nx && sub && k != 0) fUF
    if ftz && isWideFmt f && sub && k != 0 then (signBit f x.neg, fFL ||| fUF ||| fNX)
    else (k + ((q + F.m + F.bias - 1).toNat) * 2 ^ F.m + signBit f x.neg, fl)

/-- An operand under FTZ (R87): a magnitude that is not zero and below 2^-126 reads as zero of its sign (DEDUCED, log 15). -/
def flushIn (ftz : Bool) : FVal → FVal × Flags
  | .fin x =>
      if ftz && x.man != 0 && (ilog2 x.man : Int) + x.exp < -126 then (.fin (Dy.zero x.neg), fFL) else (.fin x, 0)
  | v => (v, 0)

/-- Exact sum of two numbers with the sign rule of R88 for a zero result. -/
def addDy (a b : Dy) (mode : RMode) : Dy :=
  let q := min a.exp b.exp
  let av : Int := (if a.neg then -1 else 1) * ((a.man * 2 ^ (a.exp - q).toNat : Nat) : Int)
  let bv : Int := (if b.neg then -1 else 1) * ((b.man * 2 ^ (b.exp - q).toNat : Nat) : Int)
  let c := av + bv
  if c = 0 then
    (if a.man = 0 && b.man = 0 && a.neg == b.neg then Dy.zero a.neg else Dy.zero (mode == .rdn))
  else ⟨c < 0, c.natAbs, q⟩

/-- Exact product. -/
def mulDy (a b : Dy) : Dy := ⟨a.neg != b.neg, a.man * b.man, a.exp + b.exp⟩

/-- Quotient with 200 further bits and a last bit for the rest. -/
def divDy (a b : Dy) : Dy :=
  let n := a.man * 2 ^ 200
  let k := n / b.man
  ⟨a.neg != b.neg, 2 * k + (if n % b.man = 0 then 0 else 1), a.exp - b.exp - 201⟩

/-- Integer square root of n, searched downward from bit i. -/
def isqrtFrom (n : Nat) : Nat → Nat → Nat
  | 0, r => r
  | i + 1, r => let c := r + 2 ^ i; if c * c ≤ n then isqrtFrom n i c else isqrtFrom n i r

/-- Root with at least 64 further bits and a last bit for the rest. -/
def sqrtDy (a : Dy) : Dy :=
  let odd := a.exp % 2 != 0
  let man := if odd then a.man * 2 else a.man
  let exp := if odd then a.exp - 1 else a.exp
  let n := man * 2 ^ 160
  let r := isqrtFrom n (ilog2 n / 2 + 2) 0
  ⟨false, 2 * r + (if r * r = n then 0 else 1), exp / 2 - 81⟩

/-- A value a signalling NaN of which raises NV (R83). -/
def sigFlag : FVal → Flags
  | .nan _ true => fNV
  | _ => 0

/-- A result that rounds, with flags of the operands (R83, R88). -/
def finish (f : Nat) (mode : RMode) (ftz : Bool) (v : FVal) (fl : Flags) : Nat × Flags :=
  match v with
  | .nan _ _ => (quietNan f, fl)
  | .inf n => (infCode f n, fl)
  | .fin x => let (c, g) := roundTo x f mode 0 false ftz; (c, fl ||| g)

/-- Sum of two values (R83, R88). -/
def addV (a b : FVal) (mode : RMode) : FVal × Flags :=
  match a, b with
  | .nan _ _, _ | _, .nan _ _ => (.nan false false, sigFlag a ||| sigFlag b)
  | .inf n, .inf m => if n == m then (.inf n, 0) else (.nan false false, fNV)
  | .inf n, _ => (.inf n, 0)
  | _, .inf n => (.inf n, 0)
  | .fin x, .fin y => (.fin (addDy x y mode), 0)

/-- Product of two values (R83, R88). -/
def mulV (a b : FVal) : FVal × Flags :=
  match a, b with
  | .nan _ _, _ | _, .nan _ _ => (.nan false false, sigFlag a ||| sigFlag b)
  | .inf n, .inf m => (.inf (n != m), 0)
  | .inf n, .fin y => if y.man = 0 then (.nan false false, fNV) else (.inf (n != y.neg), 0)
  | .fin x, .inf n => if x.man = 0 then (.nan false false, fNV) else (.inf (n != x.neg), 0)
  | .fin x, .fin y => (.fin (mulDy x y), 0)

/-- Quotient of two values (R83, R208). -/
def divV (a b : FVal) : FVal × Flags :=
  match a, b with
  | .nan _ _, _ | _, .nan _ _ => (.nan false false, sigFlag a ||| sigFlag b)
  | .inf _, .inf _ => (.nan false false, fNV)
  | .inf n, .fin y => (.inf (n != y.neg), 0)
  | .fin x, .inf n => (.fin (Dy.zero (x.neg != n)), 0)
  | .fin x, .fin y =>
      if y.man = 0 then
        (if x.man = 0 then (.nan false false, fNV) else (.inf (x.neg != y.neg), fDZ))
      else if x.man = 0 then (.fin (Dy.zero (x.neg != y.neg)), 0) else (.fin (divDy x y), 0)

/-- Square root (R83, R250). -/
def sqrtV : FVal → FVal × Flags
  | .nan n s => (.nan false false, sigFlag (.nan n s))
  | .inf n => if n then (.nan false false, fNV) else (.inf false, 0)
  | .fin x => if x.man = 0 then (.fin x, 0) else if x.neg then (.nan false false, fNV) else (.fin (sqrtDy x), 0)

/-- Change the sign of a value. -/
def negV : FVal → FVal
  | .nan n s => .nan (!n) s
  | .inf n => .inf (!n)
  | .fin x => .fin ⟨!x.neg, x.man, x.exp⟩

/-- Arithmetic of the scalar and vector units (R208, R250). -/
inductive FOp where
  | add
  | sub
  | mul
  | div
  | fma
  | fms
  | sqrt
  deriving DecidableEq, Repr

/-- A fused multiply-add of values: invalid inside the product counts (R83). -/
def fmaV (a b c : FVal) (mode : RMode) : FVal × Flags :=
  let (p, f1) := mulV a b
  let (r, f2) := addV p c mode
  (r, f1 ||| f2)

/-- One arithmetic operation on codes of format f, rounded once (R83, R87, R88). -/
def farith (op : FOp) (f : Nat) (mode : RMode) (ftz : Bool) (a b c : Nat) : Nat × Flags :=
  let (x, f1) := flushIn ftz (decodeF f a)
  let (y, f2) := flushIn ftz (decodeF f b)
  let (z, f3) := flushIn ftz (decodeF f c)
  match op with
  | .add => let (v, g) := addV x y mode; finish f mode ftz v (f1 ||| f2 ||| g)
  | .sub => let (v, g) := addV x (negV y) mode; finish f mode ftz v (f1 ||| f2 ||| g)
  | .mul => let (v, g) := mulV x y; finish f mode ftz v (f1 ||| f2 ||| g)
  | .div => let (v, g) := divV x y; finish f mode ftz v (f1 ||| f2 ||| g)
  | .fma => let (v, g) := fmaV x y z mode; finish f mode ftz v (f1 ||| f2 ||| f3 ||| g)
  | .fms => let (v, g) := fmaV x y (negV z) mode; finish f mode ftz v (f1 ||| f2 ||| f3 ||| g)
  | .sqrt => let (v, g) := sqrtV x; finish f mode ftz v (f1 ||| g)

/-- Comparison of numbers: below zero, zero, above zero, as an integer. -/
def cmpDy (a b : Dy) : Int :=
  let q := min a.exp b.exp
  let av : Int := (if a.neg then -1 else 1) * ((a.man * 2 ^ (a.exp - q).toNat : Nat) : Int)
  let bv : Int := (if b.neg then -1 else 1) * ((b.man * 2 ^ (b.exp - q).toNat : Nat) : Int)
  if av < bv then -1 else if av = bv then 0 else 1

/-- Comparison of values other than NaNs. -/
def cmpV (a b : FVal) : Int :=
  match a, b with
  | .inf n, .inf m => if n == m then 0 else if n then -1 else 1
  | .inf n, _ => if n then -1 else 1
  | _, .inf n => if n then 1 else -1
  | .fin x, .fin y => cmpDy x y
  | _, _ => 0

/-- A value that is a NaN. -/
def FVal.isNan : FVal → Bool
  | .nan _ _ => true
  | _ => false

/-- Comparisons (R209). -/
inductive FCmp where
  | eq
  | lt
  | le
  deriving DecidableEq, Repr

/-- A comparison of codes with its NV rule (R209). -/
def fcompare (op : FCmp) (f : Nat) (ftz : Bool) (a b : Nat) : Bool × Flags :=
  let (x, f1) := flushIn ftz (decodeF f a)
  let (y, f2) := flushIn ftz (decodeF f b)
  if x.isNan || y.isNan then
    (false, f1 ||| f2 ||| (match op with | .eq => sigFlag x ||| sigFlag y | _ => fNV))
  else
    let c := cmpV x y
    ((match op with | .eq => c == 0 | .lt => c < 0 | .le => c ≤ 0), f1 ||| f2)

/-- Order with -0 below +0 (R251). -/
def belowV (a b : FVal) : Bool :=
  let c := cmpV a b
  c < 0 || (c == 0 && a.neg && !b.neg)

/-- The quiet code of a NaN code. -/
def quieten (f c : Nat) : Nat := let F := ffmt f; if f = 11 then c else c ||| 2 ^ (F.m - 1)

/-- Minimum or maximum of two codes (R251): the operand selected, as flushed; a missing NaN; quieted NaN both. -/
def fminmax (isMax : Bool) (f : Nat) (ftz : Bool) (a b : Nat) : Nat × Flags :=
  let (x, f1) := flushIn ftz (decodeF f a)
  let (y, f2) := flushIn ftz (decodeF f b)
  let fl := f1 ||| f2 ||| sigFlag x ||| sigFlag y
  let ca := if f1 = 0 then a else signBit f x.neg
  let cb := if f2 = 0 then b else signBit f y.neg
  if x.isNan then (if y.isNan then (quietNan f, fl) else (cb, fl))
  else if y.isNan then (ca, fl)
  else if isMax then (if belowV x y then cb else ca, fl) else (if belowV y x then cb else ca, fl)

/-- FMinMax of the atomics (R301): subnormals stay, bits are unchanged. -/
def atomicMinMax (isMax : Bool) (x y : Nat) : Nat × Flags := fminmax isMax 8 false x y

/-- Range of an integer format; a register holds a bp format as a signed byte (R69, R76, R77). -/
def intMin (f : Nat) : Int := if isSignedFmt f || isBpFmt f then -(2 ^ (fmtBits f - 1) : Int) else 0
/-- Range of an integer format; a register holds a bp format as a signed byte (R69, R76, R77). -/
def intMax (f : Nat) : Int := if isSignedFmt f || isBpFmt f then 2 ^ (fmtBits f - 1) - 1 else 2 ^ fmtBits f - 1
/-- Clamp to a format's range (R70). -/
def clampTo (f : Nat) (x : Int) : Int := max (intMin f) (min (intMax f) x)
/-- V(x): signed for an i-format and a bp format, unsigned for an n-format (R249, R77). -/
def intVal (f x : Nat) : Int :=
  if isSignedFmt f || isBpFmt f then sgn (fmtBits f) (x % 2 ^ fmtBits f) else ((x % 2 ^ fmtBits f : Nat) : Int)

/-- An integer as a dyadic number. -/
def dyOfInt (x : Int) : Dy := ⟨x < 0, x.natAbs, 0⟩

/-- The integer a dyadic number is, when it is one. -/
def Dy.integer? (x : Dy) : Option Int :=
  let sg : Int := if x.neg then -1 else 1
  if 0 ≤ x.exp then some (sg * (x.man * 2 ^ x.exp.toNat : Nat))
  else if x.man % 2 ^ (-x.exp).toNat = 0 then some (sg * (x.man / 2 ^ (-x.exp).toNat : Nat))
  else none

/-- Cells E and N of R85 for an integer destination: the value where it fits, its low bits, or the clamped value with ST. -/
def narrowInt (d : Nat) (sat : Bool) (x : Int) : Nat × Flags :=
  let w := fmtBits d
  if intMin d ≤ x && x ≤ intMax d then (wrap w x, 0) else if sat then (wrap w (clampTo d x), fST) else (wrap w x, 0)

/-- Cell I of R85: to an integer with unit spacing, then clamped with NV and ST. -/
def toInt (d : Nat) (v : FVal) (mode : RMode) (u : Nat) : Nat × Flags :=
  let w := fmtBits d
  match v with
  | .nan _ _ => (0, fNV)
  | .inf n => (wrap w (if n then intMin d else intMax d), fNV ||| fST)
  | .fin x =>
      let (k, nx) := roundAt x.man x.exp 0 x.neg mode u
      let i : Int := if x.neg then -(k : Int) else k
      let c := clampTo d i
      if c = i then (wrap w i, flagIf nx fNX) else (wrap w c, fNV ||| fST ||| flagIf nx fNX)

/-- Cell P of R85: to e8m0, by magnitude, onto powers of two. -/
def toE8m0 (v : FVal) (mode : RMode) (u : Nat) : Nat × Flags :=
  match v with
  | .nan _ _ => (0xFF, fNV)
  | .inf _ => (0xFE, fST)
  | .fin x =>
      if x.man = 0 then (0x00, fUF ||| fNX) else
      let e : Int := (ilog2 x.man : Int) + x.exp
      if e < -127 then (0x00, fUF ||| fNX) else
      let d := 2 ^ ilog2 x.man
      let r := x.man - d
      let code : Int := e + 127
      if r = 0 then (if e > 127 then (0xFE, fST) else (code.toNat, 0)) else
      let up : Bool := match mode with
        | .rne => 2 * r > d || (2 * r == d && code % 2 != 0)
        | .rna => 2 * r ≥ d
        | .rtz | .rdn => false
        | .rup => true
        | .rs => decide (u < r * 2 ^ 32 / d)
      let c : Int := if up then code + 1 else code
      if c > 254 then (0xFE, fST ||| fNX) else (c.toNat, fNX)

/-- Classes of R85. -/
inductive CClass where
  | int
  | bp
  | wide
  | f8
  | f64
  | sc
  | x
  deriving DecidableEq, Repr

/-- The class of a format (R85). -/
def cclass (f : Nat) : CClass :=
  if isIntFmt f then .int else if isBpFmt f then .bp else if isWideFmt f then .wide
  else if f = 11 || f = 12 then .f8 else if 13 ≤ f && f ≤ 15 then .f64 else if f = 16 then .sc else .x

/-- The cell of R85 is not X. -/
def convertible (s d : Nat) : Bool :=
  match cclass s, cclass d with
  | .x, _ | _, .x => false
  | .int, .bp => s == 1 && d == 23
  | .int, .sc | .bp, .sc | .f8, .sc | .f64, .sc => false
  | .bp, .bp => s == 23 && d == 23
  | .wide, .bp | .f8, .bp | .f64, .bp | .sc, .bp => false
  | .sc, .int | .sc, .f8 | .sc, .f64 => false
  | _, _ => true

/-- A conversion to a floating format of a value (R78, R79, R83, R84). -/
def toFloat (d : Nat) (v : FVal) (mode : RMode) (u : Nat) (sat ftz : Bool) : Nat × Flags :=
  match v with
  | .nan n s =>
      if (ffmt d).nan then (quietNan d + signBit d n, flagIf s fNV) else (maxCode d + signBit d n, fNV)
  | .inf n =>
      if (ffmt d).inf then (infCode d n, 0)
      else if d = 11 then overflowF d n mode sat
      else (maxCode d + signBit d n, fOF ||| fST)
  | .fin x => roundTo x d mode u sat ftz

/-- Multiply a value by a power of two; a NaN scale makes a quiet NaN (R75, R86) (DEDUCED, log 15). -/
def scaleV (v : FVal) (e : Option Int) : FVal :=
  match e with
  | none => .nan v.neg false
  | some k => match v with | .fin x => .fin ⟨x.neg, x.man, x.exp + k⟩ | v => v

/-- The exponent an e8m0 scale code means, nothing for 0xFF (R73, R75). -/
def scaleExp (code : Nat) : Option Int := if code = 255 then none else some ((code : Int) - 127)

/-- The value of a code in any numeric format (R69, R71, R77). -/
def valueOf (f c : Nat) : FVal :=
  if isIntFmt f || isBpFmt f then .fin (dyOfInt (intVal f c)) else decodeF f c

/-- The conversion of R85 and R86 of one code: source format and its scale when scaled, destination format and its
scale when scaled. Not for a pair whose cell is X. Two points are the model's (DEDUCED, log 15): an e8m0 source counts as an
operand of a floating format for the input flush of R87, so that code 0x00 reads as +0 with FL under FTZ = 1; and an unscaled
integer whose quotient by a destination scale is no integer follows cell I, where R85 names E or N for the pair. -/
def convert (s : Nat) (sScale : Option Nat) (d : Nat) (dScale : Option Nat) (mode : RMode) (u : Nat)
    (sat ftz : Bool) (c : Nat) : Nat × Flags :=
  let w := fmtBits d
  let plainInt := (isIntFmt s || isBpFmt s) && sScale.isNone
  if s = 16 && d = 16 then (c % 256, 0)
  else
    let v0 := valueOf s c
    let v1 := match sScale with | some k => scaleV v0 (scaleExp k) | none => v0
    let (v2, fl) := flushIn (ftz && !(isIntFmt s || isBpFmt s)) v1
    let v3 := match dScale with
      | some k => scaleV v2 ((scaleExp k).map fun e => -e)
      | none => v2
    let (r, g) :=
      if isIntFmt d || isBpFmt d then
        (match v3 with
          | .fin x =>
              (match x.integer? with
                | some i => if plainInt then narrowInt d sat i else toInt d v3 mode u
                | none => toInt d v3 mode u)
          | _ => toInt d v3 mode u)
      else if d = 16 then toE8m0 v3 mode u
      else toFloat d v3 mode u sat ftz
    (r % 2 ^ (if d = 13 || d = 14 then 8 else w), fl ||| sigFlag v0 ||| g)

/-- One round of the Pilgrim mix (R81). -/
def pilgrimRound (a b c kc : BitVec 32) : BitVec 32 × BitVec 32 :=
  let a1 := (a + b + kc).rotateLeft 13 ^^^ c
  (a1, (c + a1).rotateLeft 17 ^^^ b)

/-- Pilgrim(K, C) (R81), the key as its low and high words. -/
def pilgrim (klo khi ctr : BitVec 32) : BitVec 32 :=
  let (a0, c0) := pilgrimRound ctr klo khi 0
  let (a1, c1) := pilgrimRound a0 klo c0 0x9E3779B9
  let (a2, c2) := pilgrimRound a1 klo c1 0x3C6EF372
  let (a3, c3) := pilgrimRound a2 klo c2 0xDAA66D2B
  a3 ^^^ c3

/-- Addition at an atomic unit, a reduction tree or a collective (R91, R292): nearest even, subnormals kept. -/
def addAt (f a b : Nat) : Nat × Flags := farith .add f .rne false a b 0

/-- CRC-32C of a byte string (R121, R460; polynomial 0x1EDC6F41, reflected, as the checks of R397 use it)
(PRESUMED, log 16). -/
def crcBit : Nat → BitVec 32 → BitVec 32
  | 0, c => c
  | n + 1, c => crcBit n (if c.getLsbD 0 then (c >>> 1) ^^^ 0x82F63B78#32 else c >>> 1)

/-- CRC-32C over bytes, from a running value (PRESUMED, log 16). -/
def crcGo : List Byte → BitVec 32 → BitVec 32
  | [], c => c
  | b :: r, c => crcGo r (crcBit 8 (c ^^^ b.setWidth 32))

/-- CRC-32C of a byte string (PRESUMED, log 16). -/
def crc32c (bs : List Byte) : BitVec 32 := crcGo bs 0xFFFFFFFF ^^^ 0xFFFFFFFF

end Sys2Proof.Machine
end

