-- ==== Sys2Proof/Machine/Translate.lean ====
section
/-! DEFINITION. Address translation (R93, R95, R103, R441, R442, R444): the page-table walk in memory, the per-context
page slots, the translation caches, and the permission checks of an access. -/

namespace Sys2Proof.Machine

/-- This device's index in its domain (R48, R396). -/
def State.dev (s : State) : Nat := s.chip.flash.device

/-- A device physical address in the 56-bit domain physical space (R5). -/
def State.phys (s : State) (pa : Nat) : Nat := s.dev * 2 ^ 48 + pa

/-- The levels of a walk: level, lowest index bit, index bits (R441). -/
def walkLevels : List (Nat × Nat × Nat) :=
  [(6, 48, 9), (5, 39, 9), (4, 31, 8), (3, 26, 5), (2, 21, 5), (1, 16, 5), (0, 12, 4)]

/-- Bit n of a number. -/
def bit (x n : Nat) : Bool := x / 2 ^ n % 2 == 1

/-- The PADDR field as an address (R442, bits 55:7). -/
def leafPaddr (e : Nat) : Nat := e % 2 ^ 56 / 128 * 128

/-- Whether an entry is invalid although V = 1, for a leaf of 2^lo bytes at a level (R442). -/
def leafInvalid (level lo e : Nat) : Bool :=
  let space := e / 2 ^ 60 % 4
  5 ≤ level || leafPaddr e % 2 ^ lo != 0 || (bit e 4 && level == 0) || space == 3 || e / 4 % 4 == 3
    || (space == 0 && leafPaddr e ≥ 2 ^ 48) || bit e 0

/-- Whether a table entry is invalid: the table it names is aligned to its own size (R441, R442). -/
def tableInvalid (level nextBits e : Nat) : Bool :=
  level == 0 || e / 2 ^ 56 % 64 != 0 || e % 128 != 0 || leafPaddr e % (2 ^ nextBits * 8) != 0
    || leafPaddr e ≥ 2 ^ 48

/-- What a walk ends with: a leaf with log2 of its page size, a cause, or an entry with MIG = 1 (R446). -/
inductive Walk where
  | leaf (e : Nat) (bits : Nat)
  | cause (c : Code)
  | mig
  deriving DecidableEq, Repr

/-- Walk the levels from a table (R441, R442). -/
def walkFrom (s : State) (va : Nat) : Nat → List (Nat × Nat × Nat) → Walk
  | _, [] => .cause 0x29
  | table, (level, lo, w) :: r =>
      let e := Memory.readN s.mem (s.phys (table + (va / 2 ^ lo % 2 ^ w) * 8)) 8
      if !bit e 63 then .cause 0x20
      else if bit e 62 then
        (if leafInvalid level lo e then .cause 0x29 else if bit e 1 then .mig else .leaf e lo)
      else if tableInvalid level ((r.map fun x => x.2.2).headD 0) e then .cause 0x29
      else walkFrom s va (leafPaddr e) r

/-- The entry at which a walk ends: its device physical address, log2 of its page size, and its value (R441). -/
def State.entryAt (s : State) (va : Nat) : Nat → List (Nat × Nat × Nat) → Option (Nat × Nat × Nat)
  | _, [] => none
  | table, (level, lo, w) :: r =>
      let a := table + (va / 2 ^ lo % 2 ^ w) * 8
      let e := Memory.readN s.mem (s.phys a) 8
      if bit e 62 then some (a, lo, e)
      else if !bit e 63 then (if level ≤ 4 then some (a, lo, e) else none)
      else s.entryAt va (leafPaddr e) r

/-- A copy in flight of a job that touches a virtual page holds it (R108). -/
def State.pageBusy (s : State) (job lo hi : Nat) : Bool :=
  let meets := fun (a n : Nat) => a < hi && lo < a + n
  s.cores.any fun (_, c) => c.copies.any fun p =>
    p.job == job && (match p.kind with
      | .copy dst src n => meets dst n || meets src n
      | .satchel src n => meets src n
      | .coll _ _ => false)

/-- The virtual page of an address in a job, by its table: its bounds, none where no entry is. -/
def State.pageBounds (s : State) (job : Nat) (va : Nat) : Option (Nat × Nat) :=
  (s.jobs.find? fun j => j.live && jobSlot j.id == job).bind fun j =>
    (s.entryAt va j.root walkLevels).map fun (_, lo, _) => (va / 2 ^ lo * 2 ^ lo, va / 2 ^ lo * 2 ^ lo + 2 ^ lo)

/-- Whether a change of a page that waits for copies can go on (R108). -/
def State.pageReady (s : State) (job : Nat) (va : Nat) : Bool :=
  match s.pageBounds job va with
  | some (lo, hi) => !s.pageBusy job lo hi
  | none => true

/-- What an access does to a page. -/
inductive Access where
  | load
  | store
  | atomic
  | fetch
  | copyRead
  | copyWrite
  deriving DecidableEq, Repr

/-- Whether an access writes. -/
def Access.writes : Access → Bool
  | .store | .atomic | .copyWrite => true
  | _ => false

/-- A translated page (R442): its leaf, log2 of its size, whether a per-context slot gave it. -/
structure Page where
  leaf : Nat
  bits : Nat
  own : Bool
  deriving DecidableEq, Repr

/-- SPACE of a page: 0 device global, 1 domain, 2 network window (R442). -/
def Page.space (p : Page) : Nat := p.leaf / 2 ^ 60 % 4
/-- Element width in bytes of an oriented page, 0 for a page without the attribute (R96, R442). -/
def Page.ow (p : Page) : Nat := if bit p.leaf 4 then 2 ^ (p.leaf / 4 % 4) else 0
/-- PMASK (R103, R442). -/
def Page.pmask (p : Page) : Nat := p.leaf / 2 ^ 56 % 16
/-- The 56-bit domain physical address of a virtual address on the page (R93). -/
def Page.paddr (p : Page) (s : State) (va : Nat) : Nat :=
  let a := leafPaddr p.leaf + va % 2 ^ p.bits
  if p.space = 0 then s.phys a else a

/-- Add an entry to a translation cache of a given size, the oldest entry leaving (R444). -/
def tlbAdd (l : List TlbEntry) (size : Nat) (e : TlbEntry) : List TlbEntry := (e :: l.filter (· != e)).take size

/-- A cached entry that matches (R444). -/
def tlbFind (l : List TlbEntry) (job c va : Nat) : Option TlbEntry :=
  l.find? fun e => e.job == job && (e.ctx == none || e.ctx == some c) && e.page == va / 2 ^ e.bits

/-- Fill the caches of a core and its die with a translation (R444). -/
def State.tlbFill (s : State) (c : Nat) (fetch : Bool) (e : TlbEntry) : State :=
  let s := s.modCore (coreOf c) fun k =>
    if fetch then { k with itlb := tlbAdd k.itlb 32 e } else { k with dtlb := tlbAdd k.dtlb 64 e }
  s.modDie (dieOf c) fun d => { d with tlb := tlbAdd d.tlb 16384 e }

/-- The page of a virtual address for a context: its per-context slots, then cached entries, then a walk of the job's
table (R441, R442, R444) (DEDUCED, log 49). -/
def State.pageOf (s : State) (c va : Nat) (fetch : Bool) : R (Option Page × Code) :=
  match (s.ctx c).slots.find? fun x => x.va == va / 2 ^ x.bits * 2 ^ x.bits with
  | some x => .ok (some ⟨x.leaf.toNat, x.bits, true⟩, 0) s
  | none =>
    match s.jobOf c with
    | none => .ok (none, 0x20) s
    | some j =>
      let core := s.core (coreOf c)
      match tlbFind (if fetch then core.itlb else core.dtlb) (jobSlot j.id) c va with
      | some e => .ok (some ⟨e.leaf.toNat, e.bits, false⟩, 0) s
      | none =>
        match walkFrom s va j.root walkLevels with
        | .leaf e bits =>
            .ok (some ⟨e, bits, false⟩, 0) (s.tlbFill c fetch ⟨jobSlot j.id, none, va / 2 ^ bits, bits, w64 e⟩)
        | .cause k => .ok (none, k) s
        | .mig => .stall (.migration (w64 va)) s

/-- An address whose translation reaches no DRAM (R95). -/
def unpopulated (pa : Nat) : Bool := pa % 2 ^ 48 ≥ 2 ^ 39 || pa % 2 ^ 37 ≥ 96 * 2 ^ 30

/-- Number of bits set in the low four bits. -/
def pop4 (x : Nat) : Nat := x % 2 + x / 2 % 2 + x / 4 % 2 + x / 8 % 2

/-- The partition of a context within its die (R103). -/
def partitionOf (c : Nat) : Nat := clusterOf c % 16 / 4

/-- In partitioned mode a partition outside the mask, or a write to a page that several share, is refused (R103). -/
def Page.masked (p : Page) (s : State) (c : Nat) (k : Access) : Bool :=
  (s.die (dieOf c)).part && (!bit p.pmask (partitionOf c) || (k.writes && pop4 p.pmask > 1))

/-- A page that the job's table maps executable (R228, R442). -/
def Page.code (p : Page) : Bool := !p.own && bit p.leaf 5

/-- Permission of an access to a page (R103, R228, R288, R442): the cause that refuses it. A store to code is refused as such
before any other permission is looked at. -/
def Page.refuses (p : Page) (s : State) (c : Nat) (k : Access) : Option Code :=
  if p.space = 2 && !(k == .copyRead || k == .copyWrite) then some 0x21
  else if k.writes && p.code then some 0xC2
  else if p.masked s c k then some 0x21
  else if k == .fetch then (if bit p.leaf 5 then none else some 0x21)
  else if k.writes && !bit p.leaf 6 then some 0x21
  else none

/-- The widest scope a space admits (R92, R94): scratchpad 1, device global 4, domain 5, network 6. -/
def spaceScope (space : Nat) : Nat := if space = 0 then 4 else if space = 1 then 5 else 6

/-- Where an access lands: a physical address of the domain with the page's element width when it is oriented, or an
offset of the scratchpad window page with a given backing page and its element width. -/
inductive Target where
  | phys (pa : Nat) (ow : Nat)
  | pad (page off paddr ow : Nat)
  deriving DecidableEq, Repr

/-- An access of one element: address, width in bytes, column orientation with the element width, policy, the scopes it
names itself, and those of its gates (R94). -/
structure Elem where
  va : Word
  n : Nat
  kind : Access
  col : Bool
  ew : Nat
  pol : BitVec 2
  scopes : List Nat
  gates : List Nat
  deriving DecidableEq, Repr

/-- An access names a scope, itself or by a gate, wider than a given one (R94). -/
def Elem.wider (e : Elem) (n : Nat) : Bool := (e.scopes ++ e.gates).any (n < ·)

/-- Check and translate an element access in the order of R277: alignment 0x22, mapping 0x20, permission 0x21,
orientation 0x23, scope 0x25. A scratchpad access is held against its backing page too (R95, R103); one whose backing page is
not in device global space, for which R105 gives no cause, raises 0x21 (DESIGN CHOICE, log 64). -/
def State.locate (s : State) (c : Nat) (e : Elem) : R Target :=
  let va := e.va.toNat
  if va % e.n != 0 then .trap 0x22 e.va s
  else if va ≥ 2 ^ 57 then .trap 0x20 e.va s
  else if Config.spWindow ≤ va then
    let page := (va - Config.spWindow) / 4096
    if page ≥ slotSpLen (s.slot c) then .trap 0x20 e.va s
    else
      (s.pageOf c (slotSpBase (s.slot c) + page * 4096) false).bind fun (p, k) s =>
        match p with
        | none => .trap k e.va s
        | some p =>
          let pa := p.paddr s (slotSpBase (s.slot c) + page * 4096)
          if p.space != 2 && unpopulated pa then .trap 0x20 e.va s
          else if p.space != 0 || p.masked s c e.kind then .trap 0x21 e.va s
          else if e.col && (p.ow == 0 || p.ow != e.ew) then .trap 0x23 e.va s
          else if e.wider 1 then .trap 0x25 e.va s
          else .ok (.pad page (va % 4096) pa p.ow) s
  else
    (s.pageOf c va (e.kind == .fetch)).bind fun (p, k) s =>
      match p with
      | none => .trap k e.va s
      | some p =>
        let pa := p.paddr s va
        if p.space != 2 && unpopulated pa then .trap 0x20 e.va s else
        match p.refuses s c e.kind with
        | some k => .trap k e.va s
        | none =>
          if e.col && (p.ow == 0 || p.ow != e.ew) then .trap 0x23 e.va s
          else if e.wider (spaceScope p.space) then .trap 0x25 e.va s
          else .ok (.phys pa p.ow) s

end Sys2Proof.Machine
end

