-- ==== Sys2Proof/Machine/Route.lean ====
section
/-! DEFINITION. Lines as bytes in line order, and the sending of coherence messages over Turnpike links: routes
(R402), virtual channels and credits (R399, R400), flits and the replay buffer (R397, R401). -/

namespace Sys2Proof.Machine

/-- The aligned 4-byte word of an address (R132). -/
def wordOf (a : Nat) : Nat := a / 4 * 4

/-- The current value of a word. -/
def State.word (s : State) (w : Nat) : Word32 := BitVec.ofNat 32 (Memory.readN s.mem w 4)

/-- The footprint of a line (R142). -/
def footprint (k : LineKey) : List Nat :=
  match k.col with
  | none => (List.range 32).map fun i => k.base + 4 * i
  | some (c, w) => (List.range (128 / w)).map fun i => wordOf (k.base + i * 128 + c * w)

/-- Whether a line's footprint holds a word (R142, R143). -/
def holdsWord (k : LineKey) (w : Nat) : Bool :=
  match k.col with
  | none => k.base ≤ w && w < k.base + 128
  | some (c, ew) => k.base ≤ w && w < k.base + 128 / ew * 128 && w % 128 / 4 == c * ew / 4

/-- The row line of a physical address. -/
def rowLine (pa : Nat) : LineKey := ⟨pa / 128 * 128, none⟩
/-- The column line of a physical address on a page of element width w (R96). -/
def colLine (pa w : Nat) : LineKey := ⟨pa / (16384 / w) * (16384 / w), some (pa % 128 / w, w)⟩

/-- The address of byte b of a line in line order (R398): a row in address order, a column down its elements. -/
def lineByte (k : LineKey) (b : Nat) : Nat :=
  match k.col with
  | none => k.base + b
  | some (c, w) => k.base + b / w * 128 + c * w + b % w

/-- The place in line order of an address of the line. -/
def linePlace (k : LineKey) (a : Nat) : Nat :=
  match k.col with
  | none => a - k.base
  | some (_, w) => (a - k.base) / 128 * w + a % w

/-- The 128 bytes of a line in line order. -/
def State.lineData (s : State) (k : LineKey) : List Byte :=
  (List.range 128).map fun b => Memory.read s.mem (lineByte k b)

/-- Bytes as the LINE field of a message (R398). -/
def lineBits (bs : List Byte) : BitVec 1024 := BitVec.ofNat 1024 (leNat bs)
/-- The LINE field of a message as bytes (R398). -/
def lineOfBits (x : BitVec 1024) : List Byte := leBytes 128 x.toNat

/-- The ADDR field of a line (R398). -/
def lineAddr (k : LineKey) : Word :=
  match k.col with
  | none => w64 k.base
  | some (c, _) => w64 (k.base + c)

/-- A message with nothing in it. -/
def noMsg : Msg := ⟨0, 0, 0, 0, 0, 0, 0, 0, false, false, false, false, 0, 0, 0, false⟩

/-- The data part of a message that carries n bytes from a place of the line, the rest zero (R398). -/
def msgBytes (m : Msg) (place n x : Nat) : Msg :=
  let line := BitVec.ofNat 1024 (x % 2 ^ (8 * n) * 2 ^ (8 * place))
  { m with
    data := true
    mask := BitVec.ofNat 128 ((2 ^ n - 1) * 2 ^ place)
    line := line
    check := crc32c (lineOfBits line) }

/-- The data part of a message that carries a whole line (R398). -/
def msgLine (m : Msg) (bs : List Byte) (poison : Bool) : Msg :=
  { m with data := true, mask := BitVec.allOnes 128, line := lineBits bs, check := crc32c bs, poison := poison }

/-- The virtual channel of a message type (R399). -/
def channelOf (t : BitVec 8) : Nat :=
  if t.toNat < 0x10 then 0 else if t.toNat < 0x20 then 1 else if t.toNat < 0x30 then 2 else 3

/-- Numbers of the set bits of a mask, ascending. -/
def setBits (n m : Nat) : List Nat := (List.range n).filter (bit m)

/-- The link a message for a device leaves on (R402). -/
def State.linkFor (s : State) (dst : Nat) (addr : Word) : Option Nat :=
  let ks := setBits 16 (aget 0 s.routes dst).toNat
  if ks.isEmpty then none
  else ks[((addr.extractLsb' 7 12 ^^^ addr.extractLsb' 19 12).toNat % ks.length)]?

/-- A Turnpike link by number. -/
def State.link (s : State) (k : Nat) : Link := aget Link.zero s.links k
/-- Change a link. -/
def State.modLink (s : State) (k : Nat) (f : Link → Link) : State := { s with links := aset s.links k (f (s.link k)) }

/-- Choose the messages of the next flit from those ready, in the order VC 2, 1, 0, 3, with the credits held, at most
one data message, and the sizes of a flit (R398, R400): the messages taken, those left, and the credits after
(DEDUCED, log 39). -/
def fillFlit : List (BitVec 8 × Msg) → Vector Nat 4 → Bool → Nat → List (BitVec 8 × Msg) × List (BitVec 8 × Msg) × Vector Nat 4
  | [], cr, _, _ => ([], [], cr)
  | (t, m) :: r, cr, one, n =>
      let k := channelOf t
      let room := if m.data then !one && n ≤ 4 else if one then n < 4 else n < 15
      if room && cr[k]?.getD 0 > 0 then
        let (a, b, cr) := fillFlit r (cr.setIfInBounds k (cr[k]?.getD 0 - 1)) (one || m.data) (if m.data then n else n + 1)
        ((t, m) :: a, b, cr)
      else
        let (a, b, cr) := fillFlit r cr one n
        (a, (t, m) :: b, cr)

/-- The messages ready, in the order of their channels (R400). -/
def byChannel (l : List (BitVec 8 × Msg)) : List (BitVec 8 × Msg) :=
  l.filter (channelOf ·.1 == 2) ++ l.filter (channelOf ·.1 == 1) ++ l.filter (channelOf ·.1 == 0)
    ++ l.filter (channelOf ·.1 == 3)

/-- The CRED field of the next flit (R397). -/
def credField (v : Vector Nat 4) : BitVec 16 :=
  BitVec.ofNat 16 (min v[0] 15 + 16 * min v[1] 15 + 256 * min v[2] 15 + 4096 * min v[3] 15)
/-- What is still to be returned after a flit (R397). -/
def credLeft (v : Vector Nat 4) : Vector Nat 4 := v.map fun n => n - min n 15

/-- Send message flits while messages are ready, credits are held and the replay buffer of 512 flits has room (R400,
R401) (DEDUCED, log 39). -/
def State.pump (s : State) (k : Nat) : Nat → State
  | 0 => s
  | n + 1 =>
      let l := s.link k
      if l.phase != .up || l.replay.length ≥ 512 then s
      else
        let (taken, left, cr) := fillFlit (byChannel l.ready) l.credits false 0
        if taken.isEmpty then s
        else
          let s := s.emit (.flit k l.nextSeq l.lastAck (credField l.freed) taken)
          let s := s.modLink k fun l =>
            { l with
              nextSeq := l.nextSeq + 1
              replay := l.replay ++ [(l.nextSeq, credField l.freed, taken)]
              ready := left
              credits := cr
              freed := credLeft l.freed }
          s.pump k n

/-- Send a message (R402); nothing is sent for a device with no route, and it is said so. -/
def State.send (s : State) (t : BitVec 8) (m : Msg) : Option State :=
  match s.linkFor m.dst m.addr with
  | none => none
  | some k =>
      let s := s.modLink k fun l => { l with ready := l.ready ++ [(t, m)] }
      some (s.pump k ((s.link k).ready.length))

/-- Send a message that is no request: without a route it is dropped (R402). -/
def State.sendOrDrop (s : State) (t : BitVec 8) (m : Msg) : State := (s.send t m).getD s

/-- The device that owns a domain physical address (R92). -/
def deviceOf (pa : Nat) : Nat := pa / 2 ^ 48
/-- An address whose home is this device. -/
def State.owns (s : State) (pa : Nat) : Bool := deviceOf pa == s.dev

/-- A line's poison (R460): the poison bit of the row line that holds an address. -/
def State.poisoned (s : State) (a : Nat) : Bool := s.poison.contains (a / 128 * 128)
/-- Mark a row line poisoned at its home; the error is logged (R461) (DEDUCED, log 43). -/
def State.poisonLine (s : State) (a : Nat) : State :=
  let b := a / 128 * 128
  let s := { s with
    poison := if s.poison.contains b then s.poison else b :: s.poison
    badCheck := s.badCheck.filter (· != b) }
  s.modTele fun t => { t with ue := t.ue + 1 }
/-- Set or clear a row line's poison bit without an error. -/
def State.setPoison (s : State) (a : Nat) (p : Bool) : State :=
  let b := a / 128 * 128
  let others := s.poison.filter (· != b)
  { s with poison := if p then b :: others else others }

/-- The words a core has registered of a line homed at a peer go to that home as a write-back (R134, R136). -/
def State.returnWords (s : State) (l : L1Line) : State :=
  l.regs.foldl (fun s w =>
    let m := { noMsg with
      src := s.dev, dst := deviceOf w, addr := lineAddr l.key, colLine := l.key.col.isSome, poison := s.poisoned w }
    s.sendOrDrop 0x23 (msgBytes m (linePlace l.key w) 4 (s.word w).toNat)) s

end Sys2Proof.Machine
end

