-- ==== Sys2Proof/Machine/Coherence.lean ====
section
/-! DEFINITION. Coherence (R99, R126 to R147, R347 to R349). The memory of the state holds the current value of every
byte in its coherence order; the caches are the lines that cores hold, the values that untracked lines keep from their
fill, the word states of the homes, and the filters and tables that evict. Where the home's own value is older than
the current one it is kept beside (R132). -/

namespace Sys2Proof.Machine

/-- The L1 set of a line (R100). -/
def l1Set (k : LineKey) : Nat :=
  match k.col with
  | none => k.base / 128 % 128
  | some (c, _) => (k.base / 128 + c) % 128

/-- The home slice within the owning die in shared mode (R101). -/
def sliceShared (pa : Nat) : Nat :=
  let f := fun lo => pa / 2 ^ lo % 32
  f 14 ^^^ f 19 ^^^ f 24 ^^^ f 29 ^^^ f 34 ^^^ f 39 ^^^ (pa / 2 ^ 44 % 16)

/-- The XOR of PA[47:14] in groups of three bits (R103). -/
def foldThree (x : Nat) : Nat → Nat
  | 0 => 0
  | n + 1 => (x % 8) ^^^ foldThree (x / 8) n

/-- The slice of a die for an address and an access from a partition (R101, R103): the home slice on the die that owns the
address, the proxy slice on another (R131). -/
def State.sliceIn (s : State) (die pa part : Nat) : Nat :=
  if (s.die die).part then 8 * part + foldThree (pa % 2 ^ 48 / 2 ^ 14) 12 else sliceShared (pa % 2 ^ 48)

/-- The home slice of an address for an access from a partition (R101, R103), numbered over the device. -/
def State.homeSlice (s : State) (pa part : Nat) : Nat :=
  let die := pa % 2 ^ 39 / 2 ^ 37
  die * 32 + s.sliceIn die pa part

/-- The node of a core: its die (R131). -/
def nodeOfCore (k : Nat) : Nat := k / 64
/-- The node of a peer device (R131). -/
def nodeOfPeer (d : Nat) : Nat := 4 + d
/-- The node of the home die of an address. -/
def homeNode (pa : Nat) : Nat := pa % 2 ^ 39 / 2 ^ 37

/-- A word's state at its home (R132). -/
def State.wstate (s : State) (w : Nat) : WordState := aget ⟨.H, []⟩ s.words w
/-- Set a word's state; H with D empty is not listed. -/
def State.setWstate (s : State) (w : Nat) (x : WordState) : State :=
  { s with words := if x = ⟨.H, []⟩ then adel s.words w else aset s.words w x }
/-- The home's own value becomes current (R134). -/
def State.homeCurrent (s : State) (w : Nat) : State := { s with homeOld := adel s.homeOld w }

/-- Insert a node into D, ascending. -/
def addNode (d : List Nat) (n : Nat) : List Nat :=
  match d with
  | [] => [n]
  | x :: r => if n < x then n :: x :: r else if n = x then d else x :: addNode r n

/-- A tracked line (R128). -/
def L1Line.tracked (l : L1Line) : Bool := l.st != .U

/-- Change every core's lines. -/
def State.mapL1 (s : State) (f : Nat → L1Line → Option L1Line) : State :=
  { s with cores := s.cores.map fun (k, c) => (k, { c with l1 := c.l1.filterMap (f k) }) }

/-- A U line whose words are all invalid and unregistered becomes I (R129). -/
def pruneU (l : L1Line) : Option L1Line := if l.st == .U && l.copies.isEmpty && l.regs.isEmpty then none else some l

/-- The 512-byte regions that a line's footprint touches (R137). -/
def regionsOf (k : LineKey) : List Nat :=
  match k.col with
  | none => [k.base / 512]
  | some (_, w) => (List.range (32 / w)).map fun i => k.base / 512 + i

/-- The lines of which a core's caches hold tracked copies (R128, R229). -/
def Core.trackedLines (c : Core) : List LineKey :=
  (c.l1.filter (·.tracked)).map (·.key) ++ c.icache.map fun (b, _) => rowLine b

/-- The element width of the oriented page that holds a physical address, by the translations of a core and its contexts;
0 where they know no oriented page (R96). -/
def State.owAt (s : State) (core pa : Nat) : Nat :=
  let pages := (s.core core).dtlb.map (fun (e : TlbEntry) => (⟨e.leaf.toNat, e.bits, false⟩ : Page))
    ++ (List.range 4).flatMap fun i => (s.ctx (4 * core + i)).slots.map fun (x : PageSlot) => ⟨x.leaf.toNat, x.bits, true⟩
  ((pages.find? fun (p : Page) => p.paddr s 0 ≤ pa && pa < p.paddr s 0 + 2 ^ p.bits).map Page.ow).getD 0

/-- The tracking unit of a line (R138): the line, or the square of an oriented page, by its base and its side. -/
def State.trackUnit (s : State) (core : Nat) (k : LineKey) : Nat × Nat :=
  let w := match k.col with | some (_, w) => w | none => s.owAt core k.base
  if w = 0 then (k.base, 0) else (k.base / (16384 / w) * (16384 / w), 128 / w)

/-- A line lies in the unit of an entry (R138). -/
def FilterEntry.names (e : FilterEntry) (k : LineKey) : Bool :=
  match k.col with
  | none => e.unit ≤ k.base && k.base < e.unit + 128 * max 1 e.side
  | some (_, w) => e.unit == k.base && e.side == 128 / w

/-- The row mask and the column mask of lines of an entry's unit (R138). -/
def FilterEntry.masks (e : FilterEntry) (ks : List LineKey) : Nat × Nat :=
  (ks.foldl (fun (m : Nat) (k : LineKey) => if k.col.isNone then m ||| 2 ^ ((k.base - e.unit) / 128) else m) 0,
   ks.foldl (fun (m : Nat) (k : LineKey) => match k.col with | some (c, _) => m ||| 2 ^ c | none => m) 0)

/-- An entry with the row or column of one more line of a core. -/
def FilterEntry.join (core : Nat) (k : LineKey) (e : FilterEntry) : FilterEntry :=
  let (r, c) := e.masks [k]
  let (r0, c0) := ((e.cores.find? (·.1 == core)).map (·.2)).getD (0, 0)
  { e with cores := (core, r0 ||| r, c0 ||| c) :: e.cores.filter (·.1 != core) }

/-- An entry with what its cores still hold; one of which no core holds anything goes. -/
def FilterEntry.restrict (held : Nat → List LineKey) (e : FilterEntry) : Option FilterEntry :=
  let cores := e.cores.filterMap fun (i, _, _) =>
    let ks := (held i).filter e.names
    if ks.isEmpty then none else some (i, e.masks ks)
  if cores.isEmpty then none else some { e with cores := cores }

/-- The clusters of a die, among those of a vector, that still hold a tracked copy of a word of a region (R137). -/
def State.regionHolders (s : State) (die r : Nat) (v : BitVec 16) : BitVec 16 :=
  BitVec.ofNat 16 (((List.range 16).filter fun i => v.getLsbD i && (List.range 4).any fun j =>
    (s.core (64 * die + 4 * i + j)).trackedLines.any fun k => (regionsOf k).contains r).foldl (fun m i => m + 2 ^ i) 0)

/-- The cluster filters and the vectors of the regions follow what the cores hold after tracked copies have gone (R136 to
R138). -/
def State.unrecord (s : State) : State :=
  { s with
    clusters := s.clusters.map fun (k, c) =>
      (k, { c with filter := c.filter.filterMap (FilterEntry.restrict fun i => (s.core (4 * k + i)).trackedLines) })
    dies := s.dies.map fun (n, d) =>
      (n, { d with regions := d.regions.filterMap fun (r, v) =>
        if s.regionHolders n r v = 0 then none else some (r, s.regionHolders n r v) }) }

/-- Tracked copies go: of the lines that a test names for a core, those of a core `keep` in its L1 alone staying (R143, R229). -/
def State.dropTracked (s : State) (keep : Option Nat) (p : Nat → LineKey → Bool) : State :=
  State.unrecord { s with
    cores := s.cores.map fun (k, c) => (k, { c with
      l1 := c.l1.filter fun l => !(l.tracked && some k != keep && p k l.key)
      icache := c.icache.filter fun (b, _) => !p k (rowLine b) }) }

/-- A line stays in a die's L2 without being tracked: a core of the die holds it (R101), or its home is there. -/
def State.keptInL2 (s : State) (die : Nat) (k : LineKey) : Bool :=
  (s.owns k.base && homeNode k.base == die) || s.cores.any fun (j, c) =>
    nodeOfCore j == die && (c.l1.any (·.key == k) || c.icache.any fun (b, _) => rowLine b == k)

/-- The L2s hold no tracked copy any longer of the lines that a test names for a die. -/
def State.untrackL2 (s : State) (p : Nat → LineKey → Bool) : State :=
  let after := fun (n : Nat) (x : L2Line) =>
    if !(x.tracked && p n x.key) then some x
    else if s.keptInL2 n x.key then some { x with tracked := false }
    else none
  { s with dies := s.dies.map fun (n, d) => (n, { d with l2 := d.l2.filterMap (after n) }) }

/-- An invalidation of a word is sent to a core for one of its lines: the vector of the word's region names its cluster, and
the cluster's filter the core (R137, R138). -/
def State.probed (s : State) (core w : Nat) (k : LineKey) : Bool :=
  (aget 0 (s.die (nodeOfCore core)).regions (w / 512)).getLsbD (core / 4 % 16)
    && (s.cluster (core / 4)).filter.any fun e => e.names k && e.cores.any (·.1 == core % 4)

/-- Invalidate every tracked line that holds a word, as a whole line, but those of one core's L1 (R137, R143). -/
def State.invalidate (s : State) (w : Nat) (keep : Option Nat) : State :=
  let t := s.dropTracked keep fun k key => holdsWord key w && s.probed k w key
  t.untrackL2 fun n key => holdsWord key w
    && !(keep.any fun k => nodeOfCore k == n && (t.core k).l1.any fun l => l.tracked && l.key == key)

/-- The set of a cluster filter in which a tracking unit lies (R138 names 16 ways and no set function) (DESIGN CHOICE, log 65). -/
def filterSet (unit : Nat) : Nat := unit / 128 % Config.filterSets

/-- An entry of a cluster filter is evicted for the line of a core: its cores invalidate the lines it names, but that one; the data
of an M line stays in the L2 (R141). -/
def State.evictFilter (s : State) (core : Nat) (key : LineKey) (v : FilterEntry) : State :=
  s.dropTracked none fun k l => k / 4 == core / 4 && v.cores.any (·.1 == k % 4) && v.names l && !(k == core && l == key)

/-- A core holds a tracked copy of a line: the cluster filter and the vectors of the line's regions say so; the least recently
used entry of a full set goes first (R137, R138, R141). -/
def State.record (s : State) (core : Nat) (key : LineKey) : State :=
  let (unit, side) := s.trackUnit core key
  let k := core / 4
  let mine := fun e : FilterEntry => e.unit == unit && e.side == side
  let f := (s.cluster k).filter
  let inSet := f.filter fun e => filterSet e.unit == filterSet unit
  let s := if f.any mine || inSet.length < Config.filterWays then s else
    match inSet.getLast? with
    | none => s
    | some v => s.evictFilter core key v
  let s := s.modCluster k fun c =>
    { c with filter := ((c.filter.find? mine).getD ⟨unit, side, []⟩).join (core % 4) key :: c.filter.filter (!mine ·) }
  s.modDie (nodeOfCore core) fun d =>
    { d with regions := (regionsOf key).foldl (fun m r => aset m r (aget 0 m r ||| (1#16 <<< (core / 4 % 16)))) d.regions }

/-- Every core's M or E line that holds a word becomes S (R134, R135). -/
def State.downgrade (s : State) (w : Nat) (keep : Option Nat) : State :=
  s.mapL1 fun k l =>
    if (l.st == .M || l.st == .E) && holdsWord l.key w && some k != keep then some { l with st := .S } else some l

/-- Whether some core holds a word in M, or the home's value is older than the current one. -/
def State.dirty (s : State) (w : Nat) : Bool :=
  (afind? s.homeOld w).isSome || s.cores.any fun (_, c) => c.l1.any fun l => l.st == .M && holdsWord l.key w

/-- A line whose registered word has gone: the word is kept as an unregistered one (R134). -/
def L1Line.unregister (w : Nat) (v : Word32) (l : L1Line) : L1Line :=
  if l.regs.contains w then { l with regs := l.regs.filter (· != w), copies := aset l.copies w v } else l

/-- A table entry without a word; an entry with no word left goes (R140). -/
def RegEntry.without (w : Nat) (e : RegEntry) : Option RegEntry :=
  let ws := e.words.filter (· != w)
  if ws.isEmpty then none else some { e with words := ws }

/-- A word's registration ends: the registrant forwards the word, its registered bit is cleared, and its table entry goes
(R134, R140). The home's own value stays as it was. -/
def State.passRegistration (s : State) (w : Nat) : State :=
  match (s.wstate w).st with
  | .G k =>
      let v := s.word w
      let s := if k < 256 then s.modCore k fun c => { c with l1 := c.l1.map (L1Line.unregister w v) } else s
      ({ s with regTable := s.regTable.filterMap (RegEntry.without w) } : State).setWstate w ⟨.H, []⟩
  | _ => s

/-- A word's registration ends, and the registrant writes the word to the home (R134, R136). -/
def State.endRegistration (s : State) (w : Nat) : State :=
  match (s.wstate w).st with
  | .G _ => (s.passRegistration w).homeCurrent w
  | _ => s

/-- The party that stands for the home in what it asks of peers for no one's request (R141). -/
def homeParty : Party := ⟨2 ^ 40, .ctl⟩

/-- Send a message of the home to a peer and remember it until it is answered (R399, R400). -/
def State.tellPeer (s : State) (t : BitVec 8) (key : LineKey) (d : Nat) : State :=
  let m := { noMsg with
    src := s.dev, dst := d, tag := BitVec.ofNat 16 s.nextTag, pol := 1
    addr := lineAddr key, colLine := key.col.isSome }
  let r : RemoteReq := ⟨s.nextTag % 65536, homeParty, t, key.base, key, d, none, false, []⟩
  match ({ s with nextTag := s.nextTag + 1 } : State).send t m with
  | some s => { s with requests := s.requests ++ [r] }
  | none => s

/-- Whether a peer may hold a newer value of a word of this device than the device does (R132). -/
def State.peerHolds (s : State) (w : Nat) : Bool :=
  match (s.wstate w).st with
  | .E d | .M d | .O d => d ≥ 4
  | .G k => k ≥ 256
  | .H => false

/-- A peer has given up its copies and its registration of a word (R134, R136). -/
def State.peerLeaves (s : State) (dev w : Nat) : State :=
  let n := nodeOfPeer dev
  let x := s.wstate w
  let rest := x.d.filter (· != n)
  match x.st with
  | .E d | .M d | .O d => if d == n then (s.homeCurrent w).setWstate w ⟨.H, rest⟩ else s.setWstate w { x with d := rest }
  | .G k => if k == 256 + dev then s.endRegistration w else s
  | .H => s.setWstate w ⟨.H, rest⟩

/-- The peers of the groups of 32 nodes that a coarse entry of a line with a word marks (R139). -/
def State.coarsePeers (s : State) (w : Nat) : List Nat :=
  ((s.remotes.filter fun e => e.coarse && holdsWord e.line w).flatMap (·.groups)).flatMap fun g =>
    s.routes.filterMap fun (d, ls) => if ls != 0 && nodeOfPeer d / 32 == g then some (nodeOfPeer d) else none

/-- The peers to which an invalidation of a word goes (R139): those of D, and in coarse mode every node of their groups. -/
def State.sharers (s : State) (w : Nat) (but : Nat → Bool) : List Nat :=
  let exact := (s.wstate w).d.filter fun d => d ≥ 4 && !but d
  if exact.isEmpty then [] else (exact ++ (s.coarsePeers w).filter fun d => !but d).eraseDups

/-- The peer that holds a word newer than the home, or has registered it, and is asked for a request of a node (R134). The node
itself is asked where its own caches hold what the home must have first (R135). -/
def State.askedHolder (s : State) (req : HomeReq) (node w : Nat) : Option Nat :=
  let written := match req with | .throughStore | .sisStore | .atomic => true | _ => false
  match (s.wstate w).st with
  | .E d => if d ≥ 4 && (d != node || req == .atomic) then some (d - 4) else none
  | .M d | .O d => if d ≥ 4 && (d != node || written) then some (d - 4) else none
  | .G k => if k ≥ 256 && (k - 252 != node || req != .untrackedLoad) then some (k - 256) else none
  | .H => none

/-- What the home asks of the peers that hold words, and of which, before it handles a request of a node (R134, R139, R347,
R399). -/
def State.peerAsks (s : State) (req : HomeReq) (node : Nat) (ws : List Nat) : List (BitVec 8 × Nat) :=
  let asks := ws.flatMap fun w =>
    let x := s.wstate w
    let holder := s.askedHolder req node w
    let sharers := (s.sharers w fun d => (d == node && req != .atomic) || some (d - 4) == holder).map fun d =>
      ((0x10 : BitVec 8), d - 4)
    let reg := match x.st with | .G _ => true | _ => false
    let one := fun (t : BitVec 8) => holder.toList.map fun d => (if nodeOfPeer d == node then 0x13 else t, d)
    match req with
    | .untrackedLoad => one 0x11
    | .trackedLoad _ => one (if reg then 0x13 else 0x11)
    | .ownStore => one 0x12 ++ sharers
    | .throughStore | .sisStore | .atomic => one 0x13 ++ sharers
  asks.eraseDups

/-- A line a core drops (R136): registered words go to the home; the data of an M line stays in the die's L2. -/
def State.dropLine (s : State) (core : Nat) (key : LineKey) : State :=
  match (s.core core).l1.find? (·.key == key) with
  | none => s
  | some l =>
      let s := if s.owns key.base then l.regs.foldl State.endRegistration s else s.returnWords l
      State.unrecord (s.modCore core fun c => { c with l1 := c.l1.filter (·.key != key) })

/-- Every copy of a line goes from the caches of the cores of one die (R136). -/
def State.dropInDie (s : State) (die : Nat) (key : LineKey) : State :=
  let s := s.cores.foldl (fun s (k, _) => if nodeOfCore k == die then s.dropLine k key else s) s
  s.dropTracked none fun k l => nodeOfCore k == die && l == key

/-- A line of a peer of which no die of this device has a tracked copy any longer leaves the device: its home is told, with the
data when it is dirty (R131, R136, R399). -/
def State.leaveDevice (s : State) (key : LineKey) : State :=
  if s.dies.any fun (_, d) => d.l2.any fun x => x.tracked && x.key == key then s
  else
    let dirty := (footprint key).any fun w => (afind? s.homeOld w).isSome
    let m := { noMsg with src := s.dev, dst := deviceOf key.base, addr := lineAddr key, colLine := key.col.isSome }
    let s := s.sendOrDrop 0x09 (if dirty then msgLine m (s.lineData key) (s.poisoned key.base) else m)
    (footprint key).foldl State.homeCurrent s

/-- The dies of this device give up their tracked copies of a peer's line, which goes to its home (R136, R159). -/
def State.sendHome (s : State) (key : LineKey) : State :=
  if s.dies.any fun (_, d) => d.l2.any fun x => x.tracked && x.key == key then
    ((s.dropTracked none fun _ k => k == key).untrackL2 fun _ k => k == key).leaveDevice key
  else s

/-- A node's L2 drops a line of this device (R136): its L1 copies go first, dirty data goes to the home, and the node leaves D,
but for words that another line of its L2 holds tracked. A peer is sent a BINV, and answers (R141, R399). -/
def State.nodeDrops (s : State) (node : Nat) (key : LineKey) : State :=
  if node ≥ 4 then s.tellPeer 0x14 key (node - 4) else
  let s := s.dropInDie node key
  let s := s.modDie node fun d => { d with l2 := d.l2.filter (·.key != key) }
  (footprint key).foldl (fun s w =>
    let x := s.wstate w
    let rest := x.d.filter (· != node)
    if !x.d.contains node || (s.die node).l2.any fun y => y.tracked && holdsWord y.key w then s
    else
      match x.st with
      | .E d | .M d | .O d =>
          if d == node then (s.homeCurrent w).setWstate w ⟨.H, rest⟩ else s.setWstate w { x with d := rest }
      | _ => s.setWstate w { x with d := rest }) s

/-- The L2 lines of the backing page of a pinned frame are pinned in their home slices (R106). -/
def State.pinnedInL2 (s : State) (die : Nat) (key : LineKey) : Bool :=
  s.owns key.base && homeNode key.base == die && s.cores.any fun (_, c) => c.frames.any fun f =>
    (footprint key).any fun w => f.paddr ≤ w && w < f.paddr + 4096

/-- A die's L2 drops a line (R131, R136): of a peer's line the home is told once no die of this device holds it. A pinned line
stays (R106). -/
def State.l2Drop (s : State) (die : Nat) (key : LineKey) : State :=
  if s.pinnedInL2 die key || !(s.die die).l2.any (·.key == key) then s
  else if s.owns key.base then s.nodeDrops die key
  else
    let was := (s.die die).l2.any fun x => x.tracked && x.key == key
    let s := (s.dropInDie die key).modDie die fun d => { d with l2 := d.l2.filter (·.key != key) }
    if was then s.leaveDevice key else s

/-- A line is brought into, or used in, the slice of a die's L2 for a partition (R101, R103, R131); the least recently used line
of a full slice that is not pinned goes first (DESIGN CHOICE, log 66). -/
def State.useL2 (s : State) (die part : Nat) (key : LineKey) (tracked : Bool) : State :=
  let slice := s.sliceIn die key.base part
  let mine := fun x : L2Line => x.slice == slice && x.key == key
  let inSlice := (s.die die).l2.filter (·.slice == slice)
  let s := if inSlice.any mine || inSlice.length < Config.sliceLines then s else
    match (inSlice.filter fun x => !s.pinnedInL2 die x.key).getLast? with
    | none => s
    | some v => s.l2Drop die v.key
  s.modDie die fun d =>
    { d with l2 := ⟨slice, key, tracked || (d.l2.find? mine).any (·.tracked)⟩ :: d.l2.filter (!mine ·) }

/-- A set of a slice's remote filter (R348): PA[16:7]. -/
def remoteSet (k : LineKey) : Nat := k.base / 128 % 1024

/-- The nodes that an entry of a remote filter covers (R139): its nodes, or in coarse mode the dies and the peers of its
groups. -/
def State.covered (s : State) (e : RemoteEntry) : List Nat :=
  if e.coarse then
    e.groups.flatMap fun g =>
      ((List.range 4).filter fun n => n / 32 == g && n != homeNode e.line.base)
        ++ s.routes.filterMap fun (d, ls) => if ls != 0 && nodeOfPeer d / 32 == g then some (nodeOfPeer d) else none
  else e.nodes

/-- A node joins an entry: up to 8 are held by name, more by groups of 32 (R139). -/
def RemoteEntry.join (n : Nat) (e : RemoteEntry) : RemoteEntry :=
  let nodes := addNode e.nodes n
  if e.coarse then { e with groups := addNode e.groups (n / 32) }
  else if nodes.length > 8 then
    { e with nodes := [], coarse := true, groups := nodes.foldl (fun gs n => addNode gs (n / 32)) [] }
  else { e with nodes := nodes }

/-- An entry after nodes have left D: it is freed when no node but the home die holds a word of its line (R348). -/
def RemoteEntry.prune (d : Nat → List Nat) (e : RemoteEntry) : Option RemoteEntry :=
  let ws := footprint e.line
  if !ws.any fun w => (d w).any (· != homeNode w) then none
  else some { e with nodes := e.nodes.filter fun n => ws.any fun w => (d w).contains n }

/-- The remote filters follow D (R139, R348). -/
def State.freeRemotes (s : State) : State :=
  { s with remotes := s.remotes.filterMap (RemoteEntry.prune fun w => (s.wstate w).d) }

/-- The entry that an allocation for a line evicts: none while the line has an entry or its set has room (R348). -/
def State.remoteVictim (s : State) (slice : Nat) (key : LineKey) : Option RemoteEntry :=
  let inSet := s.remotes.filter fun e => e.slice == slice && remoteSet e.line == remoteSet key
  if inSet.any (·.line == key) || inSet.length < Config.remoteWays then none else inSet.getLast?

/-- Evict an entry of a remote filter, as a request of its own on that line (R141, R349): what the home die holds dirty goes to
the home, the dies drop the line, and each peer is told. -/
def State.evictRemote (s : State) (v : RemoteEntry) : State :=
  let s := (footprint v.line).foldl (fun s w =>
    match (s.wstate w).st with
    | .O d => if d == homeNode w then (s.homeCurrent w).setWstate w ⟨.H, (s.wstate w).d⟩ else s
    | _ => s) s
  ((s.covered v).foldl (fun s n => s.nodeDrops n v.line) s).freeRemotes

/-- Make a line's remote-filter entry the most recently used, with a node joined; allocate when there is none,
evicting the least recently used entry of the set first (R139, R348, R349). -/
def State.touchRemote (s : State) (slice : Nat) (key : LineKey) (node : Option Nat) : State :=
  let mine := fun e : RemoteEntry => e.slice == slice && e.line == key
  match s.remotes.find? mine, node with
  | some e, some n => { s with remotes := e.join n :: s.remotes.filter (!mine ·) }
  | some e, none => { s with remotes := e :: s.remotes.filter (!mine ·) }
  | none, none => s
  | none, some n =>
      let s := match s.remoteVictim slice key with
        | none => s
        | some v => s.evictRemote v
      { s with remotes := ⟨slice, key, [n], false, []⟩ :: s.remotes }

/-- Register words of a row line to a core in the slice's table, evicting when no entry is free (R140, R141). When the line
already has 4 entries the least recently used of them goes, of which R140 says nothing (DESIGN CHOICE, log 41). The words of a
peer are recalled. -/
def State.registerWord (s : State) (slice core w : Nat) : State :=
  let line := w / 128 * 128
  let mine := fun e : RegEntry => e.slice == slice && e.line == line && e.core == core
  match s.regTable.find? mine with
  | some e =>
      { s with regTable := { e with words := addNode e.words w } :: s.regTable.filter (!mine ·) }
  | none =>
      let ofLine := s.regTable.filter fun e => e.slice == slice && e.line == line
      let ofSlice := s.regTable.filter fun e => e.slice == slice
      let victim := if ofLine.length ≥ 4 then ofLine.getLast?
        else if ofSlice.length ≥ Config.regEntries then ofSlice.getLast? else none
      let s := match victim with
        | none => s
        | some v =>
            if v.core < 256 then v.words.foldl State.endRegistration s
            else
              ({ s with regTable := s.regTable.filter (· != v) } : State).tellPeer 0x13 (rowLine v.line) (v.core - 256)
      { s with regTable := ⟨slice, line, core, [w]⟩ :: s.regTable }

/-- One word's transition for a request by core k of node d (R134, R135, R347). `core` is absent for a peer device. A core that
holds the word in E and writes it through keeps it in E (R130), and so the word stays in E(d) (DEDUCED, log 22). -/
def State.requestWord (s : State) (core : Option Nat) (d : Nat) (slice : Nat) (req : HomeReq) (w : Nat) : State :=
  let x := s.wstate w
  match req with
  | .untrackedLoad => s
  | .trackedLoad own =>
      let s := match x.st with | .G _ => s.endRegistration w | _ => s
      let x := s.wstate w
      match x.st with
      | .H | .G _ =>
          if own && x.d.isEmpty then s.setWstate w ⟨.E d, [d]⟩ else s.setWstate w ⟨.H, addNode x.d d⟩
      | .E h =>
          let dirty := s.dirty w
          let s := s.downgrade w core
          if h == d then s
          else if dirty then s.setWstate w ⟨.O h, addNode x.d d⟩
          else s.setWstate w ⟨.H, addNode x.d d⟩
      | .M h =>
          let s := s.downgrade w core
          if h == d then s else s.setWstate w ⟨.O h, addNode x.d d⟩
      | .O h => (s.downgrade w core).setWstate w ⟨.O h, addNode x.d d⟩
  | .ownStore =>
      let s := match x.st with | .G k => if some k == core then s.endRegistration w else s.passRegistration w | _ => s
      (s.invalidate w core).setWstate w ⟨.M d, [d]⟩
  | .throughStore =>
      let s := s.endRegistration w
      let mine := fun (p : L1Line → Bool) => s.cores.any fun (k, c) => some k == core && c.l1.any fun l => p l && holdsWord l.key w
      let kept := mine L1Line.tracked || (d ≥ 4 && x.d.contains d)
      ((s.invalidate w core).homeCurrent w).setWstate w
        (if mine (·.st == .E) || (d ≥ 4 && x.st == .E d) then ⟨.E d, [d]⟩ else ⟨.H, if kept then [d] else []⟩)
  | .sisStore =>
      let s := match x.st with
        | .G _ => s.passRegistration w
        | .H => s
        | _ => s.homeCurrent w
      let s := s.invalidate w none
      let k := core.getD (252 + d)
      if core.isSome || d ≥ 4 then (s.registerWord slice k w).setWstate w ⟨.G k, []⟩ else s.setWstate w ⟨.H, []⟩
  | .atomic =>
      let s := s.endRegistration w
      ((s.invalidate w none).homeCurrent w).setWstate w ⟨.H, []⟩

/-- A request of a core that the copies of its own node answer (R135): it does not reach the home. -/
def State.inNode (s : State) (core : Nat) (req : HomeReq) (key : LineKey) (ws : List Nat) : Bool :=
  let d := nodeOfCore core
  d != homeNode key.base && (match req with
    | .trackedLoad _ => (s.die d).l2.any fun x => x.tracked && x.key == key
    | .ownStore => ws.all fun w => (s.wstate w).st == .E d || (s.wstate w).st == .M d
    | _ => false)

/-- A request of a node for words of one line, handled whole (R133, R134): every word of the list takes its new state, and the
remote filter records nodes other than the home die. A request that the node's own copies answer does not reach the home and
leaves the filter as it is (R135, R348). `who` is the core whose L1 keeps its own copy (DEDUCED, log 22; DEDUCED, log 41). -/
def State.nodeRequest (s : State) (who : Option Nat) (core : Nat) (req : HomeReq) (key : LineKey) (ws : List Nat) : State :=
  let d := nodeOfCore core
  let part := core / 16 % 4
  let slice := s.homeSlice key.base part
  let home := homeNode key.base
  let inNode := s.inNode core req key ws
  let joins := match req with | .trackedLoad _ | .ownStore => true | _ => false
  let s := if inNode then s else s.touchRemote slice key (if joins && home != d then some d else none)
  let s := ws.foldl (fun s w => s.requestWord who d slice req w) s
  let s := if inNode then s else s.useL2 home part key false
  s.freeRemotes

/-- A request of a core for words of one line. -/
def State.homeRequest (s : State) (core : Nat) (req : HomeReq) (key : LineKey) (ws : List Nat) : State :=
  s.nodeRequest (some core) core req key ws

/-- The unregistered copies of a U line that a tracked line of the same L1 covers take the current values: one word has one copy
in an L1 (R99, R145) (DEDUCED, log 22). -/
def State.refresh (s : State) (key : LineKey) (l : L1Line) : L1Line :=
  { l with copies := l.copies.map fun (w, v) => (w, if holdsWord key w then s.word w else v) }

/-- Put a line at the front of a core's L1 and into the die's L2, evicting the least recently used line of its set when the set
is full (R100, R101) (DEDUCED, log 22). -/
def State.installLine (s : State) (core : Nat) (l : L1Line) : State :=
  let others := (s.core core).l1.filter fun x => x.key != l.key && l1Set x.key == l1Set l.key
  let s := if others.length < Config.l1Ways then s else
    match others.getLast? with
    | none => s
    | some v => s.dropLine core v.key
  let s := s.useL2 (nodeOfCore core) (core / 16 % 4) l.key l.tracked
  if l.tracked then
    let s := s.modCore core fun c => { c with l1 := l :: (c.l1.filter (·.key != l.key)).map (s.refresh l.key) }
    s.record core l.key
  else State.unrecord (s.modCore core fun c => { c with l1 := l :: c.l1.filter (·.key != l.key) })

/-- A hit makes the line that a test names the most recently used of the core's L1 (R100). -/
def State.touchL1 (s : State) (core : Nat) (p : L1Line → Bool) : State :=
  match (s.core core).l1.find? p with
  | some l => s.modCore core fun c => { c with l1 := l :: c.l1.filter (·.key != l.key) }
  | none => s

/-- The value a core's resident U lines keep for a word, if one holds it unregistered and its lease runs (R99, R129). -/
def State.staleCopy (s : State) (core w : Nat) : Option Word32 :=
  let ls := (s.core core).l1.filter fun l => l.st == .U && s.now - l.filled < Config.lease
  ls.findSome? fun l => afind? l.copies w

/-- A core's resident tracked or registered copy of a word. -/
def State.currentCopy (s : State) (core w : Nat) : Bool :=
  (s.core core).l1.any fun l => (l.tracked && holdsWord l.key w) || l.regs.contains w

/-- Fill a line untracked (R134): a cell that a resident line of this core holds keeps the resident value (R99). -/
def State.fillUntracked (s : State) (core : Nat) (key : LineKey) (regs : List Nat) : State :=
  let ws := (footprint key).filter fun w => !regs.contains w
  let copies := ws.foldl (fun m w =>
    let v := if s.currentCopy core w then s.word w else (s.staleCopy core w).getD (s.word w)
    aset m w v) ([] : List (Nat × Word32))
  s.installLine core ⟨key, .U, copies, regs, s.now⟩

/-- A load of a word hits a line in U: the word is registered, or its copy is valid and the lease runs (R129). -/
def State.hitsU (s : State) (l : L1Line) (w : Nat) : Bool :=
  l.regs.contains w || ((afind? l.copies w).isSome && s.now - l.filled < Config.lease)

/-- Ensure a core can load a word of a line under a policy, by hit, refetch or miss (R126, R130, R145). -/
def State.loadLine (s : State) (core : Nat) (key : LineKey) (pol : BitVec 2) (w : Nat) : State :=
  let tracked := pol == 0 || pol == 3
  let d := nodeOfCore core
  let fetch := fun s : State =>
    let s := s.homeRequest core (.trackedLoad (pol == 0)) key (footprint key)
    let e := pol == 0 && (footprint key).all fun w => (s.wstate w) = ⟨.E d, [d]⟩
      && !(s.cores.any fun (k, c) => (c.l1.any fun l => k != core && l.tracked && holdsWord l.key w)
        || c.icache.any fun (b, _) => holdsWord (rowLine b) w)
    s.installLine core ⟨key, if e then .E else .S, [], [], s.now⟩
  let fill := fun (regs : List Nat) => (s.homeRequest core .untrackedLoad key (footprint key)).fillUntracked core key regs
  match (s.core core).l1.find? (·.key == key) with
  | some l =>
      if l.st == .U && tracked then fetch (l.regs.foldl State.endRegistration s)
      else if l.st == .U && !s.hitsU l w then fill l.regs
      else s.touchL1 core (·.key == key)
  | none => if tracked then fetch s else fill []

/-- The value a core's load of a word returns once its line is there (R145): the current value from a tracked, owned or
registered copy, the value of the fill from an untracked one (DESIGN CHOICE, log 9). -/
def State.loadWord (s : State) (core w : Nat) : Word32 :=
  if s.currentCopy core w then s.word w else (s.staleCopy core w).getD (s.word w)

/-- A recall whose answer comes later in the coherence order than bytes that are stored now (R133). -/
def RemoteReq.storedOver (a n : Nat) (r : RemoteReq) : RemoteReq :=
  if r.mtype.toNat ≥ 0x10 && r.mtype.toNat < 0x20 && r.answer.isNone && holdsWord r.line (wordOf a) then
    { r with stored := r.stored ++ (List.range n).map (a + ·) } else r

/-- Write bytes as the newest value of a word's coherence order; this core's own untracked copies of the word take it
(R99, R130), and a control program's reservation of it is gone (R381). `atHome` says the home's value is written too. -/
def State.putBytes (s : State) (core : Option Nat) (a n x : Nat) (atHome : Bool) : State :=
  let w := wordOf a
  let old := s.word w
  let s := { s with
    mem := Memory.writeN s.mem a n x
    reserved := s.reserved.filter fun r => r.2.base != a / 8 * 8
    requests := s.requests.map (RemoteReq.storedOver a n) }
  let v := s.word w
  let s := if atHome then s.homeCurrent w
    else if (afind? s.homeOld w).isSome then s else { s with homeOld := aset s.homeOld w old }
  match core with
  | none => s
  | some k => s.modCore k fun c =>
      { c with l1 := c.l1.map fun l =>
          if (afind? l.copies w).isSome then { l with copies := aset l.copies w v } else l }

/-- A line in which a store under a policy performs without a request: M, or E for an OWN store, which makes it M (R128,
R130). -/
def L1Line.owns (pol : BitVec 2) (w : Nat) (l : L1Line) : Bool :=
  (l.st == .M || (l.st == .E && pol == 0)) && holdsWord l.key w

/-- The first store of a core that holds a word in E makes its lines with it M (R128). -/
def State.upgrade (s : State) (core w : Nat) : State :=
  s.mapL1 fun k l => some (if k == core && l.st == .E && holdsWord l.key w then { l with st := .M } else l)

/-- A line of a core as a U line: one that was tracked keeps its words as unregistered copies (R130). -/
def State.asUntracked (s : State) (key : LineKey) (l : L1Line) : L1Line :=
  if l.st == .U then l
  else ⟨key, .U, (footprint key).foldl (fun m w => aset m w (s.word w)) [], [], s.now⟩

/-- An SIS store registers a word to its core, whose line becomes U, or is filled untracked when it is absent (R130, R134). -/
def State.sisRegister (s : State) (core : Nat) (key : LineKey) (w : Nat) : State :=
  let s := if (s.core core).l1.any (·.key == key) then s
    else (s.homeRequest core .untrackedLoad key (footprint key)).fillUntracked core key []
  let l := s.asUntracked key (((s.core core).l1.find? (·.key == key)).getD ⟨key, .U, [], [], s.now⟩)
  (s.homeRequest core .sisStore key [w]).installLine core
    { l with copies := adel l.copies w, regs := addNode l.regs w }

/-- Obtain the line in M (R130, R134, R146) (DEDUCED, log 22). -/
def State.ownLine (s : State) (core : Nat) (key : LineKey) : State :=
  match (s.core core).l1.find? (·.key == key) with
  | some l =>
      if l.st == .M || l.st == .E then s.installLine core { l with st := .M }
      else
        let s := l.regs.foldl State.endRegistration s
        (s.homeRequest core .ownStore key (footprint key)).installLine core ⟨key, .M, [], [], s.now⟩
  | none => (s.homeRequest core .ownStore key (footprint key)).installLine core ⟨key, .M, [], [], s.now⟩

/-- Store bytes within one word under a policy (R126, R130, R134, R135) (DESIGN CHOICE, log 9). -/
def State.storeWord (s : State) (core : Nat) (key : LineKey) (pol : BitVec 2) (a n x : Nat) : State :=
  let w := wordOf a
  if (s.core core).l1.any (L1Line.owns pol w) then
    ((s.upgrade core w).touchL1 core (L1Line.owns pol w)).putBytes (some core) a n x false
  else if pol == 0 then (s.ownLine core key).putBytes (some core) a n x false
  else if (s.core core).l1.any (·.regs.contains w) then
    (s.touchL1 core (·.regs.contains w)).putBytes (some core) a n x false
  else if pol == 2 then (s.sisRegister core key w).putBytes (some core) a n x false
  else
    ((s.homeRequest core .throughStore key [w]).touchL1 core (·.key == key)).putBytes (some core) a n x true

/-- A fill that a request of a core asked for is not installed when an acquire has met it (R147). -/
def RemoteReq.acquired (core : Nat) (r : RemoteReq) : RemoteReq :=
  if (r.mtype == 0x02 || r.mtype == 0x05) && r.answer.isNone && r.party.ctx / 4 == core then { r with spoiled := true } else r

/-- An acquire at scope 2 or wider drops the unregistered words of every U line of the core, and those of a fill in flight; at
scope 0 or 1 it leaves them (R129, R147) (DESIGN CHOICE, log 9). The party fetches its next instruction anew (R229). -/
def State.acquire (s : State) (core : Nat) (scope : Nat) : State :=
  let s := s.refetch
  if scope < 2 then s else
  ({ s with requests := s.requests.map (RemoteReq.acquired core) } : State).modCore core fun c =>
    { c with l1 := c.l1.filterMap fun l => pruneU (if l.st == .U then { l with copies := [] } else l) }

/-- Invalidate every line of a core whose footprint touches a range of addresses, registered words going to the home
first (R159, R296). -/
def State.dropRange (s : State) (core lo hi : Nat) : State :=
  let ks := ((s.core core).l1.filter fun (l : L1Line) => (footprint l.key).any fun w => lo ≤ w && w < hi).map fun (l : L1Line) => l.key
  ks.foldl (fun s k => s.dropLine core k) s

/-- A line of a peer that a core holds in M or has registered words of goes to its home (R136, R159): registered words are
written back, and an M line is dropped with its data. -/
def State.flushPeer (s : State) (core : Nat) (l : L1Line) : State :=
  if l.st == .M then s.sendHome l.key
  else if l.regs.isEmpty then s
  else
    (s.returnWords l).modCore core fun c =>
      { c with l1 := c.l1.map fun k => if k.key == l.key then { k with regs := [] } else k }

/-- Write to the home every word of a range that a core holds in M or has registered (R159, R297, R419). -/
def State.flushRange (s : State) (core lo hi : Nat) : State :=
  (s.core core).l1.foldl (fun s l =>
    let ws := (footprint l.key).filter fun w => lo ≤ w && w < hi
    if ws.isEmpty then s else
    if !s.owns l.key.base then s.flushPeer core l else
    let s := (ws.filter (l.regs.contains ·)).foldl State.endRegistration s
    if l.st == .M then
      (ws.foldl (fun s w => s.homeCurrent w) s)
    else s) s

/-- Every line of a core goes, its registered and dirty words to their homes: what a hand-over does whose region only the
key's device knows. -/
def State.dropAll (s : State) (core : Nat) : State :=
  let s := s.flushRange core 0 (2 ^ 57)
  (s.core core).l1.foldl (fun s l => s.dropLine core l.key) s

end Sys2Proof.Machine
end

