-- ==== Sys2Proof/Machine/Access.lean ====
section
/-! DEFINITION. Element accesses: loads, stores, atomics and reduction stores, in a scratchpad frame (R105 to R107), at
home on this device (R126 to R146), or at a peer by the messages of R399; poison and check values (R460 to R462). -/

namespace Sys2Proof.Machine

/-- The words an access of n bytes touches (R157). -/
def wordsOf (a n : Nat) : List Nat := if n ≤ 4 then [wordOf a] else (List.range (n / 4)).map fun i => a + 4 * i

/-- Words joined, the first lowest. -/
def joinWords : List Nat → Nat
  | [] => 0
  | w :: r => w + 2 ^ 32 * joinWords r

/-- The parts of a store within single words: address, bytes, value. -/
def pieces (a n x : Nat) : List (Nat × Nat × Nat) :=
  if n ≤ 4 then [(a, n, x)] else (List.range (n / 4)).map fun i => (a + 4 * i, 4, x / 2 ^ (32 * i) % 2 ^ 32)

/-- A consumer checks a line's check value and poison bit before it uses a word (R461, R462). -/
def State.consume (s : State) (w : Nat) (va : Word) : R PUnit :=
  if s.badCheck.contains (w / 128 * 128) then .trap 0xA1 va (s.poisonLine w)
  else if s.poisoned w then .trap 0xA0 va s
  else R.done s

/-- A partial write merging into a line whose check value fails poisons it (R462). -/
def State.mergeCheck (s : State) (a : Nat) : State :=
  if s.badCheck.contains (a / 128 * 128) then s.poisonLine a else s

/-- Ask a peer about a line: the answer to this party's request of a type on an address, once it is there; a request that
finds no route is answered ERR with cause 0x20 by this device's own port (R399, R402) (DEDUCED, log 38). -/
def State.ask (s : State) (t : BitVec 8) (m : Msg) (key : LineKey) (pa : Nat) : R (BitVec 8 × Msg) :=
  match s.requests.find? fun r => r.party == s.cur.party && r.mtype == t && r.addr == pa with
  | some r =>
      match r.answer with
      | some a => .ok a s
      | none => .stall (.remote r.tag) s
  | none =>
      let m := { m with
        src := s.dev, tag := BitVec.ofNat 16 s.nextTag
        dst := if t == 0x08 || (0x10 ≤ t.toNat && t.toNat < 0x20) then m.dst else deviceOf (pa % 2 ^ 64) }
      let r : RemoteReq := ⟨s.nextTag % 65536, s.cur.party, t, pa, key, m.dst, none, false, []⟩
      let asked : State := { s with nextTag := s.nextTag + 1, requests := s.requests ++ [r] }
      match asked.send t m with
      | some s => .stall (.remote (m.tag.toNat)) s
      | none => .ok (0x22, { m with aux := 0x20 }) s

/-- Ask for each of a list, all at once; then wait while one of them is not answered (R347). -/
def State.askAll (s : State) (f : α → State → R β) : List α → R PUnit
  | [] => R.done s
  | a :: r =>
      match f a s with
      | .ok _ s => s.askAll f r
      | .trap c v s => .trap c v s
      | .stall w s =>
          match s.askAll f r with
          | .ok _ s => .stall w s
          | o => o

/-- The answers this party has used go when the access that asked is complete. -/
def State.dropAnswers (s : State) : State :=
  { s with requests := s.requests.filter fun r => !(r.party == s.cur.party && r.answer.isSome) }

/-- An answered request of this party goes. -/
def State.forget (s : State) (t : BitVec 8) (pa : Nat) : State :=
  { s with requests := s.requests.filter fun r => !(r.party == s.cur.party && r.mtype == t && r.addr == pa) }

/-- A request's header for a line (R398) (DEDUCED, log 38). -/
def askFor (key : LineKey) (e : Elem) : Msg :=
  { noMsg with
    scp := BitVec.ofNat 3 (e.scopes.foldl max 0), pol := e.pol, addr := lineAddr key, colLine := key.col.isSome }

/-- A line without its registered words, when it is the one named. -/
def L1Line.clearRegs (key : LineKey) (l : L1Line) : L1Line := if l.key == key then { l with regs := [] } else l

/-- A line through which a core owns a word. -/
def L1Line.ownsWord (w : Nat) (l : L1Line) : Bool := (l.st == .M || l.st == .E) && holdsWord l.key w

/-- Lines of cores of this device through which one of them owns or has registered a peer's word go to its home before
a request of a core, whose own lines may stay (R134, R135). -/
def State.nearFirst (s : State) (core : Option Nat) (w : Nat) : State :=
  s.cores.foldl (fun s (k, c) =>
    if some k == core then s
    else
      c.l1.foldl (fun s l =>
        if l.ownsWord w then s.sendHome l.key else if l.regs.contains w then s.dropLine k l.key else s) s) s

/-- Every core's line of a name becomes S (R135). -/
def State.shareLine (s : State) (key : LineKey) : State :=
  s.mapL1 fun _ l => some (if l.key == key && (l.st == .M || l.st == .E) then { l with st := .S } else l)

/-- The words that this core has registered of a peer's line go to their home before a request for the line (R130). -/
def State.returnMine (s : State) (core : Nat) (key : LineKey) : State :=
  match (s.core core).l1.find? fun l => l.key == key with
  | some l =>
      if l.regs.isEmpty then s
      else (s.returnWords l).modCore core fun c => { c with l1 := c.l1.map (L1Line.clearRegs key) }
  | none => s

/-- The registered words of a core's line. -/
def State.regsOf (s : State) (core : Nat) (key : LineKey) : List Nat :=
  (((s.core core).l1.find? fun l => l.key == key).map fun (l : L1Line) => l.regs).getD []

/-- A load of a word whose home is a peer (R134, R135, R399): a hit in this core's L1, the copy that a die of this device
tracks as a node of its own (R131), or the data of the answer. -/
def State.peerLoad (s : State) (core : Nat) (key : LineKey) (e : Elem) (w : Nat) : R Nat :=
  let tracked := e.pol == 0 || e.pol == 3
  let own := fun (l : L1Line) => l.tracked && holdsWord l.key w
  let hit := (s.core core).l1.any own || (!tracked && (s.currentCopy core w || (s.staleCopy core w).isSome))
  let near := s.dies.any fun (_, d) => d.l2.any fun x => x.tracked && x.key == key
  if hit then
    (s.consume w e.va).andThen fun s =>
      .ok (s.loadWord core w).toNat (s.touchL1 core fun l => own l || l.regs.contains w || (afind? l.copies w).isSome)
  else if near then
    (s.consume w e.va).andThen fun s =>
      let s := if tracked then ((s.returnMine core key).shareLine key).installLine core ⟨key, .S, [], [], s.now⟩
        else s.fillUntracked core key (s.regsOf core key)
      .ok (s.loadWord core w).toNat s
  else
    let s := if tracked then (s.returnMine core key).nearFirst (some core) w else s
    (s.ask (if tracked then 0x01 else 0x02) (askFor key e) key w).bind fun (t, m) s =>
      if t == 0x20 then
        if crc32c (lineOfBits m.line) != m.check then .trap 0xA1 e.va s
        else if m.poison then .trap 0xA0 e.va s
        else .ok (m.line.toNat / 2 ^ (8 * linePlace key w) % 2 ^ 32) s
      else .trap (if m.aux == 0x20 then 0xA0 else m.aux) e.va s

/-- A weak store that a lost peer refuses faults imprecisely; any other access faults at once (R161, R466). -/
def State.refusedStore (s : State) (c : Nat) (e : Elem) (cause : Code) : R PUnit :=
  if e.scopes.isEmpty && (e.pol == 1 || e.pol == 3) then
    R.done (s.modCtx c fun x => { x with imprecise := x.imprecise ++ [(cause, e.va)] })
  else .trap cause e.va s

/-- A core takes in M a line of a peer that this device owns: the copies of its other cores and dies go (R135). -/
def State.takeLine (s : State) (core : Nat) (key : LineKey) : State :=
  ((s.dropTracked none fun _ k => k == key).untrackL2 fun _ k => k == key).installLine core ⟨key, .M, [], [], s.now⟩

/-- Obtain in M a line of a peer (R134, R135, R146, R399): within this device when it owns the line, else from the home. -/
def State.ownPeer (s : State) (core : Nat) (key : LineKey) (e : Elem) (a : Nat) (fail : Code → State → R PUnit) : R PUnit :=
  let w := wordOf a
  if (s.core core).l1.any (L1Line.owns 0 w) then R.done ((s.upgrade core w).touchL1 core (L1Line.owns 0 w))
  else if s.cores.any fun (_, c) => c.l1.any fun l => (l.st == .M || l.st == .E) && l.key == key then
    R.done ((s.returnMine core key).takeLine core key)
  else
    let s := (s.returnMine core key).nearFirst (some core) w
    (s.ask 0x03 (askFor key e) key a).bind fun (t, m) s =>
      if t == 0x22 then fail m.aux s
      else ((s.forget 0x03 a).ask 0x03 (askFor key e) key a).bind fun (_, m) s => fail m.aux s

/-- A write that a peer's home has accepted: the tracked copies of this device, but one core's own, are gone, and memory holds the
value (R143, R164). -/
def State.acceptedAt (s : State) (keep core : Option Nat) (a n x : Nat) : State :=
  (s.invalidate (wordOf a) keep).putBytes core a n x true

/-- A store within one word whose home is a peer (R134, R135, R399). -/
def State.peerStore (s : State) (c : Nat) (key : LineKey) (e : Elem) (a n x : Nat) : R PUnit :=
  let core := coreOf c
  let w := wordOf a
  let msg := msgBytes (askFor key e) (linePlace key a) n x
  let keep := fun s : State => R.done (s.putBytes (some core) a n x false)
  if (s.core core).l1.any (L1Line.owns e.pol w) then keep ((s.upgrade core w).touchL1 core (L1Line.owns e.pol w))
  else if e.pol == 0 then
    match s.ownPeer core key e a fun k s => s.refusedStore c e k with
    | .ok _ s => if (s.core core).l1.any (L1Line.owns 0 w) then keep s else R.done s
    | o => o
  else if (s.core core).l1.any (·.regs.contains w) then keep (s.touchL1 core (·.regs.contains w))
  else if e.pol == 2 then
    ((s.nearFirst (some core) w).ask 0x05 msg key a).bind fun (t, m) s =>
      if t == 0x22 then s.refusedStore c e m.aux
      else
        let l := s.asUntracked key (((s.core core).l1.find? fun l => l.key == key).getD ⟨key, .U, [], [], s.now⟩)
        let s := s.invalidate w none
        keep (s.installLine core { l with copies := adel l.copies w, regs := addNode l.regs w })
  else
    ((s.nearFirst (some core) w).ask 0x04 msg key a).bind fun (t, m) s =>
      if t == 0x22 then s.refusedStore c e m.aux
      else R.done ((s.acceptedAt (some core) (some core) a n x).touchL1 core (·.key == key))

/-- A request of another party on words of this device that is in progress: a request whose footprint shares a word with it
waits until it is complete (R133). -/
def State.inProgress (s : State) (p : Party) (ws : List Nat) : Option RemoteReq :=
  s.requests.find? fun r =>
    r.party != p && 0x10 ≤ r.mtype.toNat && r.mtype.toNat < 0x20 && s.owns r.line.base && ws.any (holdsWord r.line ·)

/-- A request that allocates an entry of a full set of a remote filter waits until the eviction is complete (R349). -/
def State.remoteRoom (s : State) (core : Nat) (req : HomeReq) (key : LineKey) (ws : List Nat) : R PUnit :=
  let joins := match req with | .trackedLoad _ | .ownStore => nodeOfCore core != homeNode key.base | _ => false
  if !joins || s.inNode core req key ws then R.done s
  else
    match s.remoteVictim (s.homeSlice key.base (core / 16 % 4)) key with
    | none => R.done s
    | some v =>
        let pending := fun s : State => s.requests.find? fun r => r.party == homeParty && r.line == v.line && r.answer.isNone
        match pending s with
        | some r => .stall (.remote r.tag) s
        | none =>
            let s := s.evictRemote v
            match pending s with
            | some r => .stall (.remote r.tag) s
            | none => R.done s

/-- Before a core's request for words of a line of this device is handled, requests on those words that are in progress end;
each peer that holds one of the words gives it up or sends a copy, all of them asked at once, and has answered; and the remote
filter has room (R133, R134, R347, R349, R399). -/
def State.peersFirst (s : State) (req : HomeReq) (core : Nat) (key : LineKey) (e : Elem) (ws : List Nat) : R PUnit :=
  match s.inProgress s.cur.party ws with
  | some r => .stall (.remote r.tag) s
  | none =>
      (s.askAll (fun (t, d) s =>
        let aux := if t == 0x11 || t == 0x12 then s.dev else 0
        s.ask t { askFor key e with dst := d, aux := BitVec.ofNat 8 aux } key (key.base + 2 ^ 200 * (d + 1)))
        (s.peerAsks req (nodeOfCore core) ws)).andThen fun s => (s.remoteRoom core req key ws).andThen fun s =>
          R.done { s with requests := s.requests.filter fun r =>
            !(r.party == s.cur.party && r.line == key && r.mtype.toNat / 16 == 1 && r.answer.isSome) }

/-- What a load of a word under a policy asks of peers: nothing when this core has a copy that serves it (R130, R145)
(DEDUCED, log 38). -/
def State.peersForLoad (s : State) (core : Nat) (key : LineKey) (e : Elem) (w : Nat) : R PUnit :=
  if s.words.isEmpty then R.done s
  else
    let tracked := e.pol == 0 || e.pol == 3
    let held := (s.core core).l1.any fun l => l.key == key && (l.st != .U || (!tracked && s.hitsU l w))
    if held then R.done s
    else s.peersFirst (if tracked then .trackedLoad (e.pol == 0) else .untrackedLoad) core key e (footprint key)

/-- What a store of a word under a policy asks of peers: nothing when this core owns or has registered it (R130, R135). -/
def State.peersForStore (s : State) (core : Nat) (key : LineKey) (e : Elem) (w : Nat) : R PUnit :=
  if s.words.isEmpty then R.done s
  else
    let ls := (s.core core).l1
    if ls.any (L1Line.owns e.pol w) then R.done s
    else if e.pol == 0 then s.peersFirst .ownStore core key e (footprint key)
    else if ls.any (·.regs.contains w) then R.done s
    else if e.pol == 2 then
      (if ls.any fun l => l.key == key then R.done s else s.peersForLoad core key { e with pol := 2 } w).andThen fun s =>
        s.peersFirst .sisStore core key e [w]
    else s.peersFirst .throughStore core key e [w]

/-- A store that does not wait for peers: they are told to give up a word, once; what they return of the bytes stored comes
before them in the coherence order (R133). -/
def State.recallNow (s : State) (w : Nat) : State :=
  if s.words.isEmpty then s
  else
    let told := fun (d : Nat) => s.requests.any fun r => r.party == homeParty && r.dst == d && r.answer.isNone && holdsWord r.line w
    ((s.peerAsks .throughStore (homeNode w) [w]).filter fun (_, d) => !told d).foldl (fun s (t, d) => s.tellPeer t (rowLine w) d) s

/-- Write bytes at the home of a word of this device for a party without an L1: a copy, an unpin, the Concierge, an
inbound write (R127, R443): a WT store; to a peer's word it goes as a message (R399). -/
def State.homeStore (s : State) (a n x : Nat) : State :=
  (pieces a n x).foldl (fun s (a, n, x) =>
    if !s.owns a then
      let m := { noMsg with src := s.dev, dst := deviceOf a, pol := 1, addr := lineAddr (rowLine a) }
      s.sendOrDrop 0x04 (msgBytes m (a % 128) n x)
    else
    let s := ((s.mergeCheck a).touchRemote (s.homeSlice a 0) (rowLine a) none).recallNow (wordOf a)
    let s := if s.peerHolds (wordOf a) then s else s.requestWord none (homeNode a) 0 .throughStore (wordOf a)
    (s.putBytes none a n x true).freeRemotes) s

/-- Write a whole line at its home, which clears or carries poison (R462). -/
def State.homeStoreLine (s : State) (base : Nat) (bs : List Byte) (poison : Bool) : State :=
  let s := { s with badCheck := s.badCheck.filter (· != base) }
  let s := (List.range 32).foldl (fun s i => s.homeStore (base + 4 * i) 4 (leNat ((bs.drop (4 * i)).take 4))) s
  s.setPoison base poison

/-- Write a list of bytes at the home, byte by byte in ascending address. -/
def State.homeStoreBytes (s : State) (a : Nat) : List Byte → State
  | [] => s
  | b :: r => (s.homeStore a 1 b.toNat).homeStoreBytes (a + 1) r

/-- Write a run of bytes at the home: the whole lines of this device as whole lines (R462), the bytes at the ends one by one. -/
def State.homeStoreRun (s : State) (a : Nat) (bs : List Byte) : State :=
  let h := min bs.length ((128 - a % 128) % 128)
  let q := (bs.length - h) / 128
  let s := s.homeStoreBytes a (bs.take h)
  let s := (List.range q).foldl (fun (s : State) i =>
    let base := a + h + 128 * i
    let part := (bs.drop (h + 128 * i)).take 128
    if s.owns base then s.homeStoreLine base part false else s.homeStoreBytes base part) s
  s.homeStoreBytes (a + h + 128 * q) (bs.drop (h + 128 * q))

/-- Unpin a frame: its written lines go to the backing lines, with the poison that these have, and the frame is free (R106)
(DEDUCED, log 42; DEDUCED, log 55). -/
def State.unpin (s : State) (core : Nat) (f : Frame) : State :=
  let lines := f.written.foldl (fun ls o => addNode ls (o / 128 * 128)) ([] : List Nat)
  let s := lines.foldl (fun s o =>
    s.homeStoreLine (f.paddr + o) (Memory.readBytes f.data o 128) (s.poisoned (f.paddr + o))) s
  s.modCore core fun c => { c with frames := c.frames.filter (· != f) }

/-- A backing region in use by a running context of a core. -/
def State.regionRuns (s : State) (core region : Nat) : Bool :=
  (List.range 4).any fun i => slotState (s.slot (core * 4 + i)) == 1 && slotSpBase (s.slot (core * 4 + i)) == region

/-- Pin a frame for a window page and fill it from its backing page, unpinning a victim when all 128 are taken: frames
of contexts that do not run first, then the least recently used (R105, R106) (DEDUCED, log 55). -/
def State.pin (s : State) (core region page paddr ow : Nat) : State :=
  if (s.core core).frames.any fun f => f.region == region && f.page == page && f.paddr == paddr then
    s.modCore core fun c =>
      { c with frames := c.frames.map fun f =>
          if f.region == region && f.page == page && f.paddr == paddr then { f with last := s.now } else f }
  else
    let fs := (s.core core).frames
    let idle := fs.filter fun f => !s.regionRuns core f.region
    let oldest := fun l : List Frame =>
      l.foldl (fun b f => match b with | none => some f | some g => if f.last < g.last then some f else b) (none : Option Frame)
    let s := if fs.length < Config.frames then s else
      match oldest (if idle.isEmpty then fs else idle) with
      | none => s
      | some v => s.unpin core v
    let data := s.mem.filterMap fun (a, b) => if paddr ≤ a && a < paddr + 4096 then some (a - paddr, b) else none
    let s := (List.range 32).foldl (fun s i =>
      s.useL2 (homeNode paddr) (core / 16 % 4) (rowLine (paddr + 128 * i)) false) s
    s.modCore core fun c => { c with frames := ⟨region, page, paddr, ow != 0, ow, data, [], s.now⟩ :: c.frames }

/-- The frame that holds a pinned window page (DEDUCED, log 55). -/
def State.frameOf (s : State) (core region page paddr : Nat) : Option Frame :=
  (s.core core).frames.find? fun f => f.region == region && f.page == page && f.paddr == paddr

/-- Write bytes of a frame. -/
def State.padWrite (s : State) (core region page paddr off n x : Nat) : State :=
  s.modCore core fun c =>
    { c with frames := c.frames.map fun f =>
        if f.region == region && f.page == page && f.paddr == paddr then
          { f with
            data := Memory.writeN f.data off n x
            written := (List.range n).foldl (fun w i => addNode w (off + i)) f.written }
        else f }

/-- Load an element: its code as a number (R97, R145, R283). -/
def State.readElem (s : State) (c : Nat) (e : Elem) : R Nat :=
  (s.locate c e).bind fun t s =>
    match t with
    | .pad page off paddr ow =>
        (s.consume (paddr + off) e.va).andThen fun s =>
          let region := slotSpBase (s.slot c)
          let s := s.pin (coreOf c) region page paddr ow
          match s.frameOf (coreOf c) region page paddr with
          | some f => .ok (Memory.readN f.data off e.n) s
          | none => .ok 0 s
    | .phys pa ow =>
        let key := if e.col then colLine pa ow else rowLine pa
        (R.gather (wordsOf pa e.n) s fun w s =>
          if s.owns pa then
            (s.peersForLoad (coreOf c) key e w).andThen fun s => (s.consume w e.va).andThen fun s =>
              let s := s.loadLine (coreOf c) key e.pol w
              .ok (s.loadWord (coreOf c) w).toNat s
          else s.peerLoad (coreOf c) key e w).bind fun ws s =>
            .ok (joinWords ws / 2 ^ (8 * (pa % 4)) % 2 ^ (8 * e.n)) s

/-- Store an element (R97, R126, R283). -/
def State.writeElem (s : State) (c : Nat) (e : Elem) (x : Nat) : R PUnit :=
  (s.locate c e).bind fun t s =>
    match t with
    | .pad page off paddr ow =>
        let region := slotSpBase (s.slot c)
        R.done ((s.pin (coreOf c) region page paddr ow).padWrite (coreOf c) region page paddr off e.n x)
    | .phys pa ow =>
        let key := if e.col then colLine pa ow else rowLine pa
        R.each (pieces pa e.n x) s fun (a, n, x) s =>
          if s.owns pa then
            (s.peersForStore (coreOf c) key e (wordOf a)).andThen fun s =>
              R.done ((s.mergeCheck a).storeWord (coreOf c) key e.pol a n x)
          else s.peerStore c key e a n x

/-- What an atomic of MAJ 0x26 stores, by its MIN, nothing when it does not store, and the flags it returns (R300,
R301). -/
def atomicNew (min w old b cmp : Nat) : Option Nat × Flags :=
  match min with
  | 0 => (some ((old + b) % 2 ^ w), 0)
  | 1 => (some (old &&& b), 0)
  | 2 => (some (old ||| b), 0)
  | 3 => (some (old ^^^ b), 0)
  | 4 => (some (if sgn w b < sgn w old then b else old), 0)
  | 5 => (some (if sgn w b > sgn w old then b else old), 0)
  | 6 => (some (Nat.min old b), 0)
  | 7 => (some (Nat.max old b), 0)
  | 8 => (some b, 0)
  | 9 => (if old = cmp then some b else none, 0)
  | 10 => let (r, f) := addAt 8 old b; (some r, f)
  | 11 => let (r, f) := atomicMinMax false old b; (some r, f)
  | _ => let (r, f) := atomicMinMax true old b; (some r, f)

/-- Read the current value of n bytes at a home word or words. -/
def State.current (s : State) (a n : Nat) : Nat := Memory.readN s.mem a n

/-- Perform an atomic at its home on this device (R134, R146): old value and flags. -/
def State.homeAtomic (s : State) (core : Option Nat) (req : State → Nat → State) (pa n min b cmp : Nat) :
    (Nat × Flags) × State :=
  let s := (wordsOf pa n).foldl req s
  let old := s.current pa n
  match atomicNew min (8 * n) old b cmp with
  | (some x, f) => ((old, f), (pieces pa n x).foldl (fun s (a, n, x) => s.putBytes core a n x true) s)
  | (none, f) => ((old, f), s)

/-- The operand of an atomic in its message (R398): at its word's place; MASK holds the compare value, MIN, W64 and the place. -/
def atomMsg (m : Msg) (pa n min b cmp : Nat) : Msg :=
  let place := pa % 128
  { msgBytes m place n b with mask := BitVec.ofNat 128 (cmp % 2 ^ 64 + 2 ^ 64 * min + (if n = 8 then 2 ^ 72 else 0) + 2 ^ 80 * place) }

/-- A peer's home has performed an atomic and answered the old value: the tracked copies of this device are gone, and memory holds
the new value (R143, R164). -/
def State.atomDone (s : State) (core : Option Nat) (pa n min b cmp : Nat) (answer : Msg) : (Nat × Flags) × State :=
  let old := answer.line.toNat / 2 ^ (8 * (pa % 128)) % 2 ^ (8 * n)
  let s := (wordsOf pa n).foldl (fun s w => s.invalidate w none) s
  let (new, fl) := atomicNew min (8 * n) old b cmp
  ((old, fl), (pieces pa n (new.getD old)).foldl (fun s (a, n, x) => s.putBytes core a n x true) s)

/-- Perform an atomic on an element: the old value and the flags (R146, R300). -/
def State.atomicElem (s : State) (c : Nat) (e : Elem) (min b cmp : Nat) : R (Nat × Flags) :=
  let core := coreOf c
  (s.locate c e).bind fun t s =>
    match t with
    | .pad page off paddr ow =>
        (s.consume (paddr + off) e.va).andThen fun s =>
          let region := slotSpBase (s.slot c)
          let s := s.pin core region page paddr ow
          match s.frameOf core region page paddr with
          | none => .ok (0, 0) s
          | some f =>
            let old := Memory.readN f.data off e.n
            match atomicNew min (8 * e.n) old b cmp with
            | (some x, fl) => .ok (old, fl) (s.padWrite core region page paddr off e.n x)
            | (none, fl) => .ok (old, fl) s
    | .phys pa ow =>
        if s.owns pa then
          let inL1 := e.pol == 0 && ow == 0 && e.scopes.all (· ≤ 1)
          let key := rowLine pa
          let asked := if inL1 then s.peersForStore core key e (wordOf pa) else s.peersFirst .atomic core key e (wordsOf pa e.n)
          asked.andThen fun s => (R.each (wordsOf pa e.n) s fun w s => s.consume w e.va).andThen fun s =>
            if inL1 then
              let s := s.ownLine core (rowLine pa)
              let old := s.current pa e.n
              match atomicNew min (8 * e.n) old b cmp with
              | (some x, fl) =>
                  .ok (old, fl) ((pieces pa e.n x).foldl (fun s (a, n, x) => s.putBytes (some core) a n x false) s)
              | (none, fl) => .ok (old, fl) s
            else
              let (r, s) := s.homeAtomic (some core) (fun s w => s.homeRequest core .atomic (rowLine pa) [w]) pa e.n min b cmp
              .ok r s
        else if e.pol == 0 && ow == 0 && e.scopes.all (· ≤ 1) then
          let key := rowLine pa
          (s.ownPeer core key e pa fun k s => .trap k e.va s).andThen fun s =>
            (R.each (wordsOf pa e.n) s fun w s => s.consume w e.va).andThen fun s =>
              let old := s.current pa e.n
              match atomicNew min (8 * e.n) old b cmp with
              | (some x, fl) =>
                  .ok (old, fl) ((pieces pa e.n x).foldl (fun s (a, n, x) => s.putBytes (some core) a n x false) s)
              | (none, fl) => .ok (old, fl) s
        else
          let key := rowLine pa
          (s.ask 0x06 (atomMsg (askFor key e) pa e.n min b cmp) key pa).bind fun (t, a) s =>
            if t == 0x24 then
              let (r, s) := s.atomDone (some core) pa e.n min b cmp a
              .ok r s
            else .trap a.aux e.va s

/-- A core's untracked copies of a word go: a store of its own at the word's home has changed it (R156). -/
def State.forgetCopies (s : State) (core w : Nat) : State :=
  s.modCore core fun c => { c with l1 := c.l1.filterMap fun l => pruneU { l with copies := adel l.copies w } }

/-- The sum a reduction store leaves (R91, R304). -/
def reduced (fp : Bool) (n old x : Nat) : Nat := if fp then (addAt 8 old x).1 else (old + x) % 2 ^ (8 * n)

/-- Add a value into an element as an unordered reduction store (R127, R304, R325); poison stays (R462)
(DESIGN CHOICE, log 51). -/
def State.reduceElem (s : State) (c : Nat) (e : Elem) (fp : Bool) (x : Nat) : R PUnit :=
  let core := coreOf c
  (s.locate c e).bind fun t s =>
    match t with
    | .pad page off paddr ow =>
        let region := slotSpBase (s.slot c)
        let s := s.pin core region page paddr ow
        match s.frameOf core region page paddr with
        | none => R.done s
        | some f => R.done (s.padWrite core region page paddr off e.n (reduced fp e.n (Memory.readN f.data off e.n) x))
    | .phys pa _ =>
        if s.owns pa then
          (s.peersFirst .atomic core (rowLine pa) e (wordsOf pa e.n)).andThen fun s =>
            let s := (wordsOf pa e.n).foldl (fun s w => (s.mergeCheck w).homeRequest core .atomic (rowLine pa) [w]) s
            let v := reduced fp e.n (s.current pa e.n) x
            R.done ((pieces pa e.n v).foldl (fun s (a, n, x) => s.putBytes (some core) a n x true) s)
        else
          let key := rowLine pa
          let m := msgBytes (askFor key e) (linePlace key pa) e.n x
          (s.ask 0x07 { m with fp := fp, w64 := e.n == 8 } key pa).bind fun (t, a) s =>
            if t == 0x22 then s.refusedStore c { e with pol := 1, scopes := [] } a.aux
            else R.done ((wordsOf pa e.n).foldl (fun s w => (s.invalidate w none).forgetCopies core w) s)

/-- A row element access of a party, weak, under a policy. -/
def rowElem (va : Word) (n : Nat) (kind : Access) (pol : BitVec 2) : Elem := ⟨va, n, kind, false, n, pol, [], []⟩

/-- Read n bytes at a virtual address as untracked loads of a context, byte by byte words (R127): descriptors, source
words of engine operations. -/
def State.readRun (s : State) (c : Nat) (va n : Nat) (pol : BitVec 2) : R (List Byte) :=
  (R.gather (List.range (n / 4)) s fun i s => s.readElem c (rowElem (w64 (va + 4 * i)) 4 .load pol)).bind fun ws s =>
    .ok (ws.flatMap fun w => leBytes 4 w) s

end Sys2Proof.Machine
end

