-- ==== Sys2Proof/Machine/Shape.lean ====
section
/-! DEFINITION. Shape records (R109 to R115) and the loads and stores of tensor elements through them, bit-plane
blocks (R76) and scale arrays (R112, R114) with them. -/

namespace Sys2Proof.Machine

/-- A shape record, with one entry for each dimension below its rank (R109, R110). -/
structure Shape where
  zf : Bool
  lay : Bool
  ftag : Tag
  base : Nat
  sbase : Nat
  coord : List Int
  size : List Nat
  stepy : List Int
  stepx : List Int
  stride : List Int
  off : List Int
  deriving DecidableEq, Repr

/-- A word of a list, 0 beyond its end. -/
def wordAt (ws : List Word) (i : Nat) : Word := ws[i]?.getD 0

/-- The format code of a tag, without the bit that says scaled (R56). -/
def tagFmt (t : Tag) : Nat := (t.extractLsb' 0 5).toNat
/-- A scaled tag (R56). -/
def tagScaled (t : Tag) : Bool := t.getLsbD 5
/-- A tag that a format may carry: scaled only where R74 admits it. -/
def tagLegal (t : Tag) : Bool := tagFmt t ≤ 26 && (!tagScaled t || scalable (tagFmt t))
/-- Width of an element in bytes as a tensor counts it: a bp element and a pair of e2m1 elements are 1 byte (R111). -/
def elemBytes (f : Nat) : Nat := fmtBits f / 8

/-- The fields of a record of a given rank (R109). -/
def Shape.ofWords (ws : List Word) (rank : Nat) : Shape :=
  let h := wordAt ws 0
  let dims := List.range rank
  { zf := h.getLsbD 12
    lay := h.getLsbD 11
    ftag := h.extractLsb' 0 6
    base := (wordAt ws 1).toNat
    sbase := (wordAt ws 2).toNat
    coord := dims.map fun d => (wordAt ws (3 + d)).toInt
    size := dims.map fun d => ((wordAt ws (8 + d)).extractLsb' 0 32).toNat
    stepy := dims.map fun d => ((wordAt ws (8 + d)).extractLsb' 32 16).toInt
    stepx := dims.map fun d => ((wordAt ws (8 + d)).extractLsb' 48 16).toInt
    stride := dims.map fun d => ((wordAt ws (13 + d)).extractLsb' 0 48).toInt
    off := dims.map fun d => ((wordAt ws (13 + d)).extractLsb' 48 16).toInt }

/-- An entry of a list of integers, 0 beyond its end. -/
def intAt (l : List Int) (i : Nat) : Int := l[i]?.getD 0

/-- The bytes that BASE and STRIDE_1 are multiples of (R115). -/
def Shape.grain (h : Shape) : Nat :=
  let f := tagFmt h.ftag
  let w := elemBytes f
  if isBpFmt f then 1024 else if h.lay then 128 / w * 128 else w

/-- The checks of a record (R115): the record, or the number of the first offending element. -/
def Shape.check (ws : List Word) : Except Nat Shape :=
  let hdr := wordAt ws 0
  let rank := (hdr.extractLsb' 8 3).toNat
  let t : Tag := hdr.extractLsb' 0 6
  let f := tagFmt t
  let lay := hdr.getLsbD 11
  if rank = 0 || rank ≥ 6 || hdr.extractLsb' 13 51 != 0 || hdr.extractLsb' 6 2 != 0 then .error 0
  else if f = 0 || f = 7 || f ≥ 24 || (tagScaled t && !scalable f) then .error 0
  else if lay && rank = 1 then .error 0
  else if isBpFmt f && !lay then .error 0
  else
    let h := Shape.ofWords ws rank
    let w := elemBytes f
    if h.base % h.grain != 0 then .error 1
    else if tagScaled t && (List.range (min rank 2)).any (fun d =>
        (intAt h.coord d + intAt h.off d) % 32 != 0
          || (intAt h.stepx d).natAbs > 1 || (intAt h.stepy d).natAbs > 1) then .error 3
    else
      match h.size.findIdx? (· == 0) with
      | some d => .error (8 + d)
      | none =>
        match (List.range rank).find? fun d =>
            intAt h.stride d % w != 0 || (lay && d == 1 && intAt h.stride d % h.grain != 0)
              || (f == 15 && !lay && d == 0 && intAt h.stride d != 0) with
        | some d => .error (13 + d)
        | none => .ok h

/-- Whether the orientation of an access agrees with the record (R113). -/
def Shape.orientOk (h : Shape) (col : Bool) : Bool :=
  if !h.lay then !col
  else if col then intAt h.stepx 1 == 1 && intAt h.stepx 0 == 0
  else intAt h.stepx 0 == 1 && intAt h.stepx 1 == 0

/-- The tensor index of view element (y, x) (R111). -/
def Shape.index (h : Shape) (y x : Nat) : List Int :=
  (List.range h.coord.length).map fun d =>
    intAt h.coord d + intAt h.off d + (y : Int) * intAt h.stepy d + (x : Int) * intAt h.stepx d

/-- Whether an index lies inside the tensor (R111). -/
def Shape.inside (h : Shape) (i : List Int) : Bool :=
  (List.range h.size.length).all fun d => 0 ≤ intAt i d && intAt i d < (h.size[d]?.getD 0 : Int)

/-- The address part of the dimensions from a given one (R111). -/
def Shape.outer (h : Shape) (i : List Int) (d0 : Nat) : Int :=
  (List.range h.stride.length).foldl (fun a d => if d < d0 then a else a + intAt i d * intAt h.stride d) 0

/-- The address of an index inside the tensor, for a format other than bp (R111). -/
def Shape.addr (h : Shape) (i : List Int) : Word :=
  let f := tagFmt h.ftag
  let i0 := if f = 15 then intAt i 0 / 2 else intAt i 0
  let a : Int :=
    if !h.lay then
      (if f = 15 then (h.base : Int) + i0 + h.outer i 1 else (h.base : Int) + h.outer i 0)
    else
      let w : Int := elemBytes f
      let sq : Int := 128 / w
      (h.base : Int) + intAt i 1 / sq * intAt h.stride 1 + i0 / sq * sq * 128 + intAt i 1 % sq * 128
        + i0 % sq * w + h.outer i 2
  BitVec.ofInt 64 a

/-- The block, byte and bit of an index of a bit-plane tensor (R76, R111). -/
def Shape.plane (h : Shape) (i : List Int) : Word × Nat × Nat :=
  let block : Int := (h.base : Int) + intAt i 1 / 32 * intAt h.stride 1 + intAt i 0 / 32 * 1024 + h.outer i 2
  (BitVec.ofInt 64 block, ((intAt i 1 % 32) * 4 + intAt i 0 % 32 / 8).toNat, (intAt i 0 % 8).toNat)

/-- How a tensor access reaches memory. -/
structure TensorAcc where
  col : Bool
  pol : BitVec 2
  scopes : List Nat
  gates : List Nat
  deriving DecidableEq, Repr

/-- The element access of one byte-wide or wider element of a tensor. -/
def TensorAcc.elem (a : TensorAcc) (h : Shape) (va : Word) (k : Access) : Elem :=
  let w := elemBytes (tagFmt h.ftag)
  ⟨va, w, k, a.col, w, a.pol, a.scopes, a.gates⟩

/-- The access of one byte of a bit plane: always along rows (R113). -/
def TensorAcc.planeElem (a : TensorAcc) (va : Word) (k : Access) : Elem := ⟨va, 1, k, false, 1, a.pol, a.scopes, a.gates⟩

/-- Load the code of view element (y, x): the address loaded from is the TVAL of its causes (R76, R111, R114). -/
def State.loadTensor (s : State) (c : Nat) (h : Shape) (a : TensorAcc) (y x : Nat) : R Nat :=
  let i := h.index y x
  let f := tagFmt h.ftag
  if !h.inside i then
    (if h.zf then .ok 0 s else .trap 0x28 (w64 (y * 65536 + x)) s)
  else if isBpFmt f then
    let k := f - 15
    let (block, byte, b) := h.plane i
    (R.gather (List.range k) s fun j s =>
      s.readElem c (a.planeElem (block + w64 (j * 128 + byte)) .load)).bind fun bytes s =>
        let v := bytes.foldl (fun v x => 2 * v + x / 2 ^ b % 2) 0
        .ok (wrap 8 (sgn k v)) s
  else
    (s.readElem c (a.elem h (h.addr i) .load)).bind fun v s =>
      .ok (if f = 15 then v / (if intAt i 0 % 2 = 0 then 1 else 16) % 16
        else if f = 13 || f = 14 then v % 64 else v) s

/-- Store the code of view element (y, x); a position outside the tensor is not written (R76, R111, R114). -/
def State.storeTensor (s : State) (c : Nat) (h : Shape) (a : TensorAcc) (y x v : Nat) : R PUnit :=
  let i := h.index y x
  let f := tagFmt h.ftag
  if !h.inside i then
    (if h.zf then R.done s else .trap 0x28 (w64 (y * 65536 + x)) s)
  else if isBpFmt f then
    let k := f - 15
    let (block, byte, b) := h.plane i
    R.each (List.range k) s fun j s =>
      let va := block + w64 (j * 128 + byte)
      (s.readElem c (a.planeElem va .load)).bind fun old s =>
        let bit := v / 2 ^ (k - 1 - j) % 2
        let new := old / 2 ^ (b + 1) * 2 ^ (b + 1) + bit * 2 ^ b + old % 2 ^ b
        s.writeElem c (a.planeElem va .store) new
  else if f = 15 then
    (s.readElem c (a.elem h (h.addr i) .load)).bind fun old s =>
      s.writeElem c (a.elem h (h.addr i) .store)
        (if intAt i 0 % 2 = 0 then old / 16 * 16 + v % 16 else v % 16 * 16 + old % 16)
  else s.writeElem c (a.elem h (h.addr i) .store) (if f = 13 || f = 14 then v % 64 else v)

/-- The first view element outside a tensor whose ZF is 0, in row-major view order: its cause comes before the access
writes anything (R114). -/
def Shape.firstOutside (h : Shape) (ys xs : List Nat) : Option (Nat × Nat) :=
  if h.zf then none
  else (ys.flatMap fun y => xs.map fun x => (y, x)).find? fun p => !h.inside (h.index p.1 p.2)

/-- Dimension sizes with 1 at and above the rank. -/
def Shape.dim (h : Shape) (d : Nat) : Nat := h.size[d]?.getD 1

/-- The scale of the tensor block of an index: the byte at SBASE + L (R112). -/
def Shape.scaleAddr (h : Shape) (i : List Int) : Word :=
  let n0 : Int := ((h.dim 0 + 31) / 32 : Nat)
  let n1 : Int := ((h.dim 1 + 31) / 32 : Nat)
  let l := ((((intAt i 4 * h.dim 3 + intAt i 3) * h.dim 2 + intAt i 2) * n1 + intAt i 1 / 32) * n0) + intAt i 0 / 32
  BitVec.ofInt 64 ((h.sbase : Int) + l)

/-- The scale of a view block whose elements are named: that of the first element inside, 0x7F when none is (R112,
R114). -/
def State.loadScale (s : State) (c : Nat) (h : Shape) (a : TensorAcc) (els : List (Nat × Nat)) : R Nat :=
  match els.find? fun p => h.inside (h.index p.1 p.2) with
  | none => .ok 0x7F s
  | some p => s.readElem c (a.planeElem (h.scaleAddr (h.index p.1 p.2)) .load)

end Sys2Proof.Machine
end

