-- ==== Sys2Proof/Machine/Operands.lean ====
section
/-! DEFINITION. Operands of native instructions by place: scalar fields (R183, R194), tokens (R66, R120, R158), vector
groups (R51, R233), masks (R53), active positions (R234), and the groups of stream-bound registers (R116, R117, R284). -/

namespace Sys2Proof.Machine

/-- Element width of a strip in bytes (R49). -/
def Strip.ewB (t : Strip) : Nat := 2 ^ (t.vtype.extractLsb' 0 2).toNat
/-- Grouping of a strip (R49). -/
def Strip.grp (t : Strip) : Nat := 2 ^ (t.vtype.extractLsb' 2 2).toNat
/-- VTYPE.FMT of a strip (R49). -/
def Strip.fmt (t : Strip) : Tag := t.vtype.extractLsb' 4 6
/-- VLMAX of a VTYPE (R22, R49). -/
def vlmax (ty : BitVec 10) : Nat := 1024 * 2 ^ (ty.extractLsb' 2 2).toNat / 2 ^ (ty.extractLsb' 0 2).toNat

/-- Element i of a register at w bytes, as a code (R51). -/
def VReg.get (r : VReg) (w i : Nat) : Nat := r.bytes.toNat / 2 ^ (8 * w * i) % 2 ^ (8 * w)
/-- A 4-byte word of an element is poisoned (R462). -/
def VReg.bad (r : VReg) (w i : Nat) : Bool := (r.poison.toNat / 2 ^ (w * i / 4) % 2 ^ ((w + 3) / 4)) != 0
/-- Write element i of a register at w bytes: whole words written lose their poison, and the high-water length rises
(R68, R462). -/
def VReg.put (r : VReg) (w i x : Nat) : VReg :=
  let n := r.bytes.toNat
  let k := 2 ^ (8 * w * i)
  { r with
    bytes := BitVec.ofNat 8192 (n - r.get w i * k + x % 2 ^ (8 * w) * k)
    hw := max r.hw ((w * i + w + 63) / 64)
    poison := if w < 4 then r.poison else
      r.poison &&& ~~~ (BitVec.ofNat 256 ((2 ^ (w / 4) - 1) * 2 ^ (w * i / 4))) }

/-- A vector register of a strip. -/
def Strip.reg (t : Strip) (k : Nat) : VReg := t.v[k]?.getD VReg.zero
/-- Change a vector register of a strip. -/
def Strip.setReg (t : Strip) (k : Nat) (f : VReg → VReg) : Strip := { t with v := t.v.setIfInBounds k (f (t.reg k)) }

/-- Element p of the group that begins at a register (R51). -/
def Strip.el (t : Strip) (first w p : Nat) : Nat := (t.reg (first + p * w / 1024)).get w (p % (1024 / w))
/-- A code as it is written under a tag: bits 7:6 of e3m2 and e2m3 are 0 (R72). -/
def codeOf (tag : Tag) (x : Nat) : Nat := if tag.extractLsb' 0 5 == 13 || tag.extractLsb' 0 5 == 14 then x % 64 else x
/-- Element p of a group holds a poisoned word. -/
def Strip.elBad (t : Strip) (first w p : Nat) : Bool := (t.reg (first + p * w / 1024)).bad w (p % (1024 / w))
/-- Write element p of a group. -/
def Strip.putEl (t : Strip) (first w p x : Nat) : Strip :=
  t.setReg (first + p * w / 1024) fun r => r.put w (p % (1024 / w)) x
/-- Write elements of a group in order. -/
def Strip.putEls (t : Strip) (first w : Nat) : List (Nat × Nat) → Strip
  | [] => t
  | (p, x) :: r => (t.putEl first w p x).putEls first w r
/-- Give every member of a group a tag (R57, R58). -/
def Strip.tagGroup (t : Strip) (first g : Nat) (tag : Tag) : Strip :=
  (List.range g).foldl (fun t i => t.setReg (first + i) fun r => { r with tag := tag }) t
/-- The tag of a group when its members agree (R57). -/
def Strip.groupTag (t : Strip) (first g : Nat) : Option Tag :=
  let tag := (t.reg first).tag
  if (List.range g).all fun i => (t.reg (first + i)).tag == tag then some tag else none
/-- Copy the scale arrays of one group to another (R262). -/
def Strip.copyScales (t : Strip) (dst src g : Nat) : Strip :=
  (List.range g).foldl (fun t i =>
    let sc := (t.reg (src + i)).scale
    t.setReg (dst + i) fun r => { r with scale := sc }) t
/-- The scale code that covers position p of a group: one for each 32 positions (R58, R75). -/
def Strip.scaleAt (t : Strip) (first w p : Nat) : Nat :=
  let per := 1024 / w
  ((t.reg (first + p / per)).scale.toNat / 2 ^ (8 * (p % per / 32))) % 256
/-- Write a scale slot. -/
def VReg.putScale (r : VReg) (slot x : Nat) : VReg :=
  let n := r.scale.toNat
  { r with scale := BitVec.ofNat 512 (n - n / 2 ^ (8 * slot) % 256 * 2 ^ (8 * slot) + x % 256 * 2 ^ (8 * slot)) }

/-- Bit p of a mask register of a strip. -/
def Strip.mbit (t : Strip) (k : MNum) (p : Nat) : Bool := (t.m[k.toNat]?.getD MReg.zero).bits.getLsbD p
/-- Write bits of a mask register, its high-water length rising (R53, R68). -/
def Strip.putMask (t : Strip) (k : MNum) (bs : List (Nat × Bool)) : Strip :=
  let r := t.m[k.toNat]?.getD MReg.zero
  let n := bs.foldl (fun n (p, b) =>
    if n / 2 ^ p % 2 == (if b then 1 else 0) then n else if b then n + 2 ^ p else n - 2 ^ p) r.bits.toNat
  let top := bs.foldl (fun h (p, _) => max h ((p + 512) / 512)) r.hw
  { t with m := t.m.setIfInBounds k.toNat ⟨BitVec.ofNat 8192 n, top⟩ }

/-- Position p is detached (R31). -/
def Strip.isDetached (t : Strip) (p : Nat) : Bool := t.detached.getLsbD p

/-- Active positions of an instruction from VSTART, ascending; in a serial region the one lane that runs (R234, R268). -/
def Strip.active (t : Strip) (msk : BitVec 1) (mk : MNum) : List Nat :=
  let ok := fun p => (msk == 0 || t.mbit mk p) && !t.isDetached p
  match t.region with
  | some r => if r.inactive || !ok r.lane then [] else [r.lane]
  | none => ((List.range t.vl).drop t.vstart).filter ok

/-- Every position a strip-wide instruction treats: all below VL, none when VSTART is at or above VL (R239). -/
def Strip.wide (t : Strip) : List Nat := if t.vl ≤ t.vstart then [] else List.range t.vl

/-- A poisoned word among active elements of source groups: cause 0xA0 before anything is written (R462)
(DEDUCED, log 13). -/
def Strip.poisonedAt (t : Strip) (srcs : List Nat) (w : Nat) (ps : List Nat) : Bool :=
  srcs.any fun f => ps.any fun p => t.elBad f w p

/-- The stream bound to a register, not parked, to which a strip is attached (R116, R117, R285). -/
def Ctx.bound (x : Ctx) (b v : Nat) : Option Stream :=
  x.streams.find? fun st => st.v.toNat == v && !st.parked && st.attached.contains b
/-- A register of a group is bound. -/
def Ctx.groupBound (x : Ctx) (b v g : Nat) : Bool := (List.range g).any fun i => (x.bound b (v + i)).isSome

/-- A write to a parked register discards its stream (R286). -/
def Ctx.unpark (x : Ctx) (v g : Nat) : Ctx :=
  { x with streams := x.streams.filter fun st => !(st.parked && v ≤ st.v.toNat && st.v.toNat < v + g) }

/-- A cause held for an engine operation is delivered once; the latch says whose it is (R120). -/
def State.deliverHeld (s : State) (h : HeldFault) : State :=
  let s := s.modCtx s.me fun x => { x with held := x.held.filter (· != h) }
  { s with cur := { s.cur with engine := some h } }

/-- A synchronising operation takes a store's fault that is held for the context, the oldest first; it has not performed
(R161). -/
def State.syncPoint (s : State) : R PUnit :=
  match s.myCtx.imprecise with
  | [] => R.done s
  | (c, t) :: r =>
      let s := s.modCtx s.me fun x => { x with imprecise := r }
      .trap c t { s with cur := { s.cur with late := true } }

/-- The control thread waits for a pending token, takes the fault of the copy that wrote it, and acquires that copy's
completion at its first read, which synchronises (R66, R120, R150, R158). -/
def State.tokenRead (s : State) (k : SReg) : R PUnit :=
  let x := s.myCtx
  if x.pend.any (·.1 == k) then .stall (.token k) s
  else
    match x.held.find? fun h => h.token == some k && k != 0 with
    | some h => .trap h.code h.tval (s.deliverHeld h)
    | none =>
      match x.tokenScopes.find? (·.1 == k) with
      | none => R.done s
      | some t =>
          s.syncPoint.andThen fun s =>
            let s := s.modCtx s.me fun x => { x with tokenScopes := x.tokenScopes.filter (· != t) }
            R.done (s.acquire (coreOf s.me) t.2.toNat)

/-- Scalar register k of a context (R43). -/
def Ctx.sreg (x : Ctx) (k : SReg) : Word := if k = 0 then 0 else x.s[k.toNat]?.getD 0
/-- Set scalar register k, unless it is s0; its poison goes (R43, R462). -/
def Ctx.setSreg (x : Ctx) (k : SReg) (v : Word) : Ctx :=
  if k = 0 then x else
  { x with s := x.s.setIfInBounds k.toNat v, spoison := x.spoison &&& ~~~ (1#64 <<< k.toNat) }

/-- A word of the snapshot holds poison (R18, R462). -/
def Strip.snapBad (t : Strip) (k : SReg) : Bool := k != 0 && t.snapP.getLsbD k.toNat
/-- Set a word of the snapshot; its poison goes (R18, R462). -/
def Strip.setSnap (k : SReg) (v : Word) (t : Strip) : Strip :=
  if k = 0 then t else { t with snap := t.snap.setIfInBounds k.toNat v, snapP := t.snapP &&& ~~~ (1#64 <<< k.toNat) }

/-- The vector register that holds a lane's element for a field below 32: the group that begins at it (R51, R194). -/
def State.rdS (s : State) (k : SReg) : R Word :=
  match s.cur.party.place with
  | .ctl =>
      (s.tokenRead k).andThen fun s =>
        if k != 0 && s.myCtx.spoison.getLsbD k.toNat then .trap 0xA0 0 s else .ok (s.myCtx.sreg k) s
  | .strip _ => if s.myStrip.snapBad k then .trap 0xA0 0 s else .ok (if k = 0 then 0 else s.myStrip.snap[k.toNat]?.getD 0) s
  | .lane _ p =>
      let t := s.myStrip
      if k.toNat < 32 then
        (if k.toNat % t.grp != 0 then .trap 0x0C 0 s
         else if t.elBad k.toNat t.ewB p then .trap 0xA0 0 s
         else .ok (BitVec.ofInt 64 (sgn (8 * t.ewB) (t.el k.toNat t.ewB p))) s)
      else if t.snapBad (k - 32) then .trap 0xA0 0 s
      else .ok (if k = 32 then 0 else t.snap[k.toNat - 32]?.getD 0) s

/-- A write to field k may go ahead (R66, R117, R183): no token pending there, a lane's register reachable. -/
def State.dstReady (s : State) (k : SReg) : R PUnit :=
  match s.cur.party.place with
  | .ctl => if s.myCtx.pend.any (·.1 == k) && k != 0 then .stall (.token k) s else R.done s
  | .strip _ => R.done s
  | .lane b _ =>
      if k.toNat ≥ 32 then .trap 0x08 0 s
      else if k.toNat % s.myStrip.grp != 0 then .trap 0x0C 0 s
      else if s.myCtx.groupBound b k.toNat s.myStrip.grp then .trap 0x0D 0 s
      else R.done s

/-- A fault held for the read of a token register that is written over stays for its timeline, or for the end of the unit
(R120). -/
def HeldFault.untoken (k : SReg) (h : HeldFault) : HeldFault :=
  if h.token == some k && k != 0 then { h with token := none } else h

/-- Register k no longer stands for a copy's completion (R66, R158). -/
def Ctx.forgetToken (x : Ctx) (k : SReg) : Ctx :=
  { x with tokenScopes := x.tokenScopes.filter (·.1 != k), held := x.held.map (HeldFault.untoken k) }

/-- Set field k, once it is ready (R43, R166, R194). A lane's write of its element keeps the register's tag: R58 has every write
set one, and R57 and R194 name none for it (DESIGN CHOICE, log 13). It is a write of vD, which discards a parked stream
(R286). -/
def State.setS (s : State) (k : SReg) (v : Word) : State :=
  match s.cur.party.place with
  | .ctl => s.modCtx s.me fun x => (x.setSreg k v).forgetToken k
  | .strip _ => s.modMyStrip (Strip.setSnap k v)
  | .lane _ p => (s.modCtx s.me fun x => x.unpark k.toNat 1).modMyStrip fun t => t.putEl k.toNat t.ewB p v.toNat

/-- Write(field, x) (R194). -/
def State.wrS (s : State) (k : SReg) (v : Word) : R PUnit := (s.dstReady k).andThen fun s => R.done (s.setS k v)

/-- Width check of a format at w bytes: raw, record, shape record and token meet every width (R232). -/
def widthOk (f w : Nat) : Bool := f == 0 || (24 ≤ f && f ≤ 26) || fmtBits f == 8 * w

/-- The operation format of R232: named, or VTYPE.FMT, which raises 0x05 where it is not accepted; the width check
0x0F when `wide` says it applies. -/
def Strip.opFormat (t : Strip) (fv sc : BitVec 1) (fmt : BitVec 5) (accepted : Nat → Bool → Bool) (check : Bool) :
    Except Code Tag :=
  let tag : Tag := if fv == 1 then sc ++ fmt else t.fmt
  if fv == 0 && !accepted (tagFmt tag) (tagScaled tag) then .error 0x05
  else if check && !widthOk (tagFmt tag) t.ewB then .error 0x0F
  else .ok tag

/-- Take a result or its cause. -/
def fromE (e : Except Code α) (s : State) (k : α → R β) : R β :=
  match e with
  | .ok a => k a
  | .error c => .trap c 0 s

/-- The bytes a Satchel stream can still take. -/
def Ctx.satchelBytes (x : Ctx) : List Byte := x.satchel.flatMap (·.bytes)

/-- Drop n bytes from the front of the stream buffer. -/
def dropRuns : Nat → List SatchelRun → List SatchelRun
  | _, [] => []
  | n, r :: rs => if n < r.bytes.length then { r with bytes := r.bytes.drop n } :: rs else dropRuns (n - r.bytes.length) rs

/-- Whether a Satchel copy of a context is queued or in flight (R284). -/
def State.satchelFeeds (s : State) (c : Nat) : Bool :=
  (s.core (coreOf c)).copies.any fun k => k.ctx == c && (match k.kind with | .satchel _ _ => true | _ => false)

/-- A group of a stream: codes for positions 0 to VL − 1 with their tag, which of them are elements of the stream, and the
scale codes of a scaled tag (R112, R116). -/
structure StreamGroup where
  codes : List Nat
  tag : Tag
  valid : List Bool
  scales : List Nat
  deriving DecidableEq, Repr

/-- A group after the end of a stream: +0 everywhere (R116). -/
def StreamGroup.empty (n : Nat) (tag : Tag) : StreamGroup := ⟨List.replicate n 0, tag, List.replicate n false, []⟩

/-- View row g of a memory walk: the walk ends at the first row with no element inside the tensor (R284). -/
def State.walkGroup (s : State) (c n : Nat) (h : Shape) (g : Nat) (tag : Tag) : R StreamGroup :=
  let ps := List.range n
  if (List.range (g + 1)).any fun y => ps.all fun x => !h.inside (h.index y x) then .ok (StreamGroup.empty n tag) s
  else
    let acc : TensorAcc := ⟨h.lay && intAt h.stepx 1 == 1, 1, [], []⟩
    (R.gather ps s fun x s => s.loadTensor c h acc g x).bind fun vs s =>
      let blocks := if tagScaled tag then List.range ((n + 31) / 32) else []
      (R.gather blocks s fun k s =>
        s.loadScale c h acc ((List.range 32).flatMap fun y => (List.range (min 32 (n - 32 * k))).map fun x =>
          (g / 32 * 32 + y, 32 * k + x))).bind fun sc s =>
        .ok ⟨vs, tag, ps.map fun x => h.inside (h.index g x), sc⟩ s

/-- The tag of the run that holds byte i of the stream buffer. -/
def runTag : Nat → List SatchelRun → Option Tag
  | _, [] => none
  | i, r :: rs => if i < r.bytes.length then some r.tag else runTag (i - r.bytes.length) rs

/-- The next bytes of the stream buffer: the tag of the block that supplies the first of them; after the end, that of the
last block that delivered a byte, or VTYPE.FMT (R284, R344). -/
def State.satchelGroup (s : State) (c n : Nat) (t : Strip) (v : VNum) : R StreamGroup :=
  let x := s.ctx c
  let bytes := x.satchelBytes
  if bytes.length < n && s.satchelFeeds c then .stall (.streamTurn t.stripb v) s
  else
    let k := min n bytes.length
    let tag := (runTag 0 x.satchel).getD (x.satchelTag.getD t.fmt)
    let last := if k = 0 then x.satchelTag else runTag (k - 1) x.satchel
    let s := s.modCtx c fun x => { x with satchel := dropRuns n x.satchel, satchelTag := last }
    .ok ⟨(List.range n).map fun p => (bytes[p]?.getD 0).toNat, tag, (List.range n).map fun p => p < bytes.length, []⟩ s

/-- The next elements of a receive queue at w bytes (R284) (DEDUCED, log 18). -/
def State.queueGroup (s : State) (c n : Nat) (t : Strip) (st : Stream) (q : Nat) : R StreamGroup :=
  match s.jobOf c with
  | none => .ok (StreamGroup.empty n st.tag) s
  | some j =>
      let rq := aget ⟨0, 0, [], true⟩ j.queues q
      let w := t.ewB
      if rq.bytes.length < n * w && !rq.closed then .stall (.streamTurn t.stripb st.v) s
      else
        let s := s.modJob j.id fun j => { j with queues := aset j.queues q { rq with bytes := rq.bytes.drop (n * w) } }
        .ok ⟨(List.range n).map fun p => leNat ((rq.bytes.drop (p * w)).take w), st.tag,
          (List.range n).map fun p => (p + 1) * w ≤ rq.bytes.length, []⟩ s

/-- The next group of a stream and the state after (R116, R284) (DEDUCED, log 18). -/
def State.nextGroup (s : State) (c : Nat) (t : Strip) (st : Stream) : R StreamGroup :=
  match st.kind with
  | .walk =>
      match Shape.check st.shape with
      | .error _ => .ok (StreamGroup.empty t.vl st.tag) s
      | .ok h => s.walkGroup c t.vl h st.taken st.tag
  | .satchel => s.satchelGroup c t.vl t st.v
  | .network q => s.queueGroup c t.vl t st q

/-- Put scale codes into the scale arrays of a group, one for each 32 positions (R58). -/
def Strip.putScales (t : Strip) (v : Nat) (per : Nat) (sc : List Nat) : Strip :=
  ((List.range sc.length).zip sc).foldl (fun t (k, x) =>
    t.setReg (v + 32 * k / per) fun r => r.putScale (32 * k % per / 32) x) t

/-- A stream has given one more group (R116). -/
def Stream.took (v : VNum) (tag : Tag) (u : Stream) : Stream :=
  if u.v == v && !u.parked then { u with taken := u.taken + 1, tag := tag } else u

/-- A read of a bound register takes the stream's next group into the strip's register: strips with a lower STRIPB
take all of theirs first (R116, R117). -/
def State.takeGroup (s : State) (v : Nat) : R PUnit :=
  let c := s.me
  let t := s.myStrip
  match s.myCtx.bound t.stripb v with
  | none => R.done s
  | some st =>
      if t.region.isSome then .trap 0x10 0 s
      else if s.myCtx.strips.any fun u => u.stripb < t.stripb then
        .stall (.streamTurn t.stripb st.v) s
      else
        (s.nextGroup c t st).bind fun gr s =>
          let mask := BitVec.ofNat 8192 ((List.range gr.valid.length).foldl (fun m p =>
            if gr.valid[p]?.getD false then m + 2 ^ p else m) 0)
          let s := s.modCtx c fun x => { x with streams := x.streams.map (Stream.took st.v gr.tag) }
          R.done (s.modMyStrip fun t =>
            let xs := ((List.range gr.codes.length).zip gr.codes).filter fun x => !t.isDetached x.1
            let t := (t.putEls v t.ewB (xs.map fun x => (x.1, codeOf gr.tag x.2))).tagGroup v t.grp gr.tag
            { t.putScales v (1024 / t.ewB) gr.scales with
              consumed := (st.v, mask) :: t.consumed.filter (·.1 != st.v) })

/-- Take the groups of the bound registers among the sources, each once (R117). -/
def State.takeGroups (s : State) (srcs : List Nat) : R PUnit := R.each srcs.eraseDups s fun v s => s.takeGroup v

end Sys2Proof.Machine
end

