-- ==== Sys2Proof/Machine/Chain.lean ====
section
/-! DEFINITION. The chain of a Relay (R329 to R335, R340, R346): lookups, actions, the stations of a record, admission, the
leaving of records, timelines (R65), and what a stop of the context does to its operations. -/

namespace Sys2Proof.Machine

/-- OP of an action word (R332). -/
def actOp (a : Word) : Nat := (a.extractLsb' 60 4).toNat
/-- FD of an action word. -/
def actFd (a : Word) : Nat := (a.extractLsb' 57 3).toNat
/-- FS of an action word. -/
def actFs (a : Word) : Nat := (a.extractLsb' 54 3).toNat
/-- TGT of an action word. -/
def actTgt (a : Word) : Nat := (a.extractLsb' 50 4).toNat
/-- IMM of an action word. -/
def actImm (a : Word) : Word32 := a.extractLsb' 0 32

/-- Actions that recirculate: ADDR and SETR (R332). -/
def actRecirc (op : Nat) : Bool := op == 0xA || op == 0xB
/-- Actions that jump: JUMP, SETJ and EMITJ (R332). -/
def actJumps (op : Nat) : Bool := op == 0xC || op == 0xD || op == 0xE

/-- Whether an action is valid at a station; station 8 stands for the overflow action of the chain (R332). -/
def actionOk (a : Word) (stn : Nat) : Bool :=
  let op := actOp a
  let tgt := actTgt a
  a.extractLsb' 32 18 == 0
    && (op != 7 || (actImm a).toNat < 32)
    && (if stn = 8 then (if actRecirc op || actJumps op then tgt ≤ 8 else tgt == 0)
        else if actRecirc op then tgt ≤ stn
        else if actJumps op then stn < tgt && tgt ≤ 8
        else tgt == 0)

/-- A field of a record. -/
def RelayRec.field (r : RelayRec) (k : Nat) : Word32 := r.fields[k]?.getD 0
/-- Set a field of a record. -/
def RelayRec.setField (r : RelayRec) (k : Nat) (x : Word32) : RelayRec := { r with fields := r.fields.setIfInBounds k x }

/-- The field effect of an action (R332). -/
def RelayRec.apply (r : RelayRec) (a : Word) (idx : Nat) : RelayRec :=
  let imm := actImm a
  let src := r.field (actFs a)
  match actOp a with
  | 0x1 | 0xB | 0xD => r.setField (actFd a) imm
  | 0x2 | 0xA => r.setField (actFd a) (r.field (actFd a) + imm)
  | 0x3 => r.setField (actFd a) src
  | 0x4 | 0xE => r.setField (actFd a) (BitVec.ofNat 32 idx + imm)
  | 0x5 => r.setField (actFd a) (src &&& imm)
  | 0x6 => r.setField (actFd a) (src ^^^ imm)
  | 0x7 => r.setField (actFd a) (src >>> (imm.toNat % 32))
  | 0x8 => { r with flag := true }
  | _ => r

/-- Whether a key hits an entry of a table of a kind (R331). -/
def RelayEntry.hits (kind : Nat) (k : Word) (e : RelayEntry) : Bool :=
  e.valid && (match kind with
    | 1 => e.key == k
    | 2 => k &&& e.mask == e.key &&& e.mask
    | 3 =>
        let x := (k.extractLsb' 0 32).toNat
        (e.key.extractLsb' 0 32).toNat ≤ x && x ≤ (e.key.extractLsb' 32 32).toNat
    | _ => false)

/-- The index a miss reports (R331). -/
def missIndex : Nat := 2 ^ 32 - 1
/-- A station of a bank. -/
def RelayBank.station (b : RelayBank) (k : Nat) : Station := b.stations[k]?.getD ⟨0, [], 0⟩

/-- The valid entry with the lowest index that a key hits, or the miss action (R331): index and action. -/
def Station.lookup (t : Station) (k : Word) : Nat × Word :=
  match t.entries.find? fun e => e.2.hits t.kind k with
  | some e => (e.1, e.2.action)
  | none => (missIndex, t.miss)

/-- One bank of a Relay: bank 1 or bank 0. -/
def Relay.bank (r : Relay) (b : Bool) : RelayBank := if b then r.bank1 else r.bank0
/-- Change one bank of a Relay. -/
def Relay.modBank (r : Relay) (b : Bool) (f : RelayBank → RelayBank) : Relay :=
  if b then { r with bank1 := f r.bank1 } else { r with bank0 := f r.bank0 }
/-- Count an event (R339). -/
def Relay.count (r : Relay) (k : Nat) : Relay := { r with counters := aset r.counters k ((aget 0 r.counters k + 1) % 2 ^ 64) }
/-- Count each of a list of events. -/
def Relay.counts (r : Relay) (ks : List Nat) : Relay := ks.foldl Relay.count r

/-- What becomes of a record at a station (R334): it stays in the chain, recirculates, or leaves. -/
inductive After where
  | stays
  | again
  | leaves
  deriving DecidableEq, Repr

/-- What a station does with a record: the record, what becomes of it, and the counters that count (R334, R339). -/
structure StationEnd where
  record : RelayRec
  after : After
  events : List Nat

/-- The record leaves by the overflow action at a station (R334). -/
def RelayRec.overflow (r : RelayRec) (act : Word) (ev : List Nat) : StationEnd :=
  let how : Leaving := if actOp act = 9 then .dropped else if actOp act = 0xF then .trapped r.station else .normally
  ⟨{ r.apply act missIndex with left := some how }, .leaves, ev ++ (if actOp act = 9 then [3, 2] else [3])⟩

/-- A record goes on to the next station, its next lookup at a station not below another; past station 7 it leaves (R334,
R340). -/
def RelayRec.onTo (r : RelayRec) (start : Nat) (ev : List Nat) : StationEnd :=
  if start ≥ 8 || r.station ≥ 7 then ⟨{ r with start := start, left := some .normally }, .leaves, ev⟩
  else ⟨{ r with start := start }, .stays, ev⟩

/-- A record at its station (R334, R340): before its next lookup, and where the class names no key, nothing is looked up. -/
def RelayRec.look (b : RelayBank) (c : RelayClass) (r : RelayRec) : StationEnd :=
  let s := r.station
  if s < r.start then r.onTo r.start []
  else
    match c.keys[s]?.getD (none, none) with
    | (none, _) => r.onTo (s + 1) []
    | (some ka, kb) =>
        let hi : Word32 := match kb with | some k => r.field k | none => 0
        let (idx, act) := (b.station s).lookup (hi ++ r.field ka)
        let ev := [if idx = missIndex then 16 + s else 8 + s]
        let op := actOp act
        if actRecirc op && r.rc = 3 then r.overflow b.overflow ev
        else
          let r := r.apply act idx
          if actRecirc op then ⟨{ r with rc := r.rc + 1, start := actTgt act }, .again, ev⟩
          else if op = 9 then ⟨{ r with left := some .dropped }, .leaves, ev ++ [2]⟩
          else if op = 0xF then ⟨{ r with left := some (.trapped s) }, .leaves, ev⟩
          else r.onTo (if actJumps op then actTgt act else s + 1) ev

/-- An empty class slot (R329). -/
def RelayClass.empty : RelayClass := ⟨0, none, none, []⟩
/-- A class slot of a bank; NF = 0 is an empty one (R330). -/
def RelayBank.class (b : RelayBank) (k : Nat) : RelayClass := aget RelayClass.empty b.classes k

/-- A run by its number. -/
def Relay.run? (r : Relay) (id : Nat) : Option RelayRun := r.runs.find? (·.id == id)
/-- Change a run. -/
def Relay.modRun (r : Relay) (id : Nat) (f : RelayRun → RelayRun) : Relay :=
  { r with runs := r.runs.map fun q => if q.id == id then f q else q }

/-- The lowest trapped position (R335). -/
def RelayRun.trap (p : Nat) (c : Code) (stn : Nat) (q : RelayRun) : RelayRun :=
  match q.trapped with
  | some (p', _, _) => if p < p' then { q with trapped := some (p, c, stn) } else q
  | none => { q with trapped := some (p, c, stn) }

/-- A record of the chain at its station (R334): it stays, waits to recirculate in the order in which records were first
admitted (R346), or leaves; a trapped record ends the admission of its run (R335). -/
def Relay.station (r : Relay) (x : RelayRec) : Relay :=
  match r.run? x.run with
  | none => r
  | some q =>
      let b := r.bank x.bank
      let e := x.look b (b.class q.slot)
      let r := r.counts e.events
      match e.after with
      | .stays => { r with chain := r.chain ++ [e.record] }
      | .again => { r with recirc := insertBy (·.first) e.record r.recirc }
      | .leaves =>
          let r := { r with leaving := r.leaving ++ [e.record] }
          match e.record.left with
          | some (.trapped s) => r.modRun x.run (RelayRun.trap x.pos 0x62 s)
          | _ => r

/-- Every record of the chain is at its station (R340). -/
def Relay.stations (r : Relay) : Relay := r.chain.foldl Relay.station { r with chain := [] }

/-- Every record of the chain moves on by one station (R340). -/
def Relay.move (r : Relay) : Relay :=
  { r with chain := r.chain.map fun x => { x with station := x.station + 1 } }

/-- A pass is admitted at station 0 (R339, R340). -/
def Relay.enter (r : Relay) (x : RelayRec) : Relay := { r.count 1 with chain := r.chain ++ [{ x with station := 0 }] }

/-- Change a Relay of the device. -/
def State.modRelay (s : State) (k : Nat) (f : Relay → Relay) : State := s.modCluster k fun c => { c with relay := f c.relay }

/-- A run still admits positions. -/
def RelayRun.admits (q : RelayRun) : Bool := q.trapped.isNone && q.next < q.vl

/-- A record at its admission: its fields from the strip's registers (R333). -/
def State.newRecord (s : State) (k : Nat) (q : RelayRun) (order : Nat) : RelayRec :=
  let r := (s.cluster k).relay
  let nf := ((r.bank r.act).class q.slot).nf
  let t := s.strip q.ctx q.stripb
  { run := q.id, pos := q.next
    fields := Vector.ofFn fun f => if f.val < nf then BitVec.ofNat 32 ((t.reg (q.va + f.val)).get 4 q.next) else 0
    flag := false, rc := 0, bank := r.act, first := order, start := 0, station := 0, left := none }

/-- A run goes past the detached lanes before its next position (R333). -/
def State.skipDetached (s : State) (q : RelayRun) : Nat → RelayRun
  | 0 => q
  | n + 1 =>
      let q := s.skipDetached q n
      if q.next < q.vl && (s.strip q.ctx q.stripb).isDetached q.next then
        { q with next := q.next + 1, gone := q.next :: q.gone }
      else q

/-- Admit the next position of a run (R333, R340): detached lanes are skipped; an empty class slot ends the run there. -/
def State.admitNext (s : State) (k : Nat) (q : RelayRun) : State :=
  let q := s.skipDetached q q.vl
  let s := s.modRelay k fun r => { r.modRun q.id (fun _ => q) with turn := (q.ctx, q.stripb) }
  let r := (s.cluster k).relay
  if !q.admits then s
  else if ((r.bank r.act).class q.slot).nf = 0 then s.modRelay k fun r => r.modRun q.id (RelayRun.trap q.next 0x68 0)
  else
    let x := s.newRecord k q s.nextId
    State.modRelay { s with nextId := s.nextId + 1 } k fun r =>
      ((r.count 0).modRun q.id fun q => { q with next := q.next + 1 }).enter x

/-- A run comes after another in ascending order of context number, and of STRIPB within a context. -/
def RelayRun.after (t : Nat × Nat) (q : RelayRun) : Bool := t.1 < q.ctx || (t.1 == q.ctx && t.2 < q.stripb)

/-- The run whose turn it is: the next, in ascending order of context number, that admits (R340). -/
def Relay.nextRun (r : Relay) : Option RelayRun :=
  let rs := sortBy (fun q => q.ctx * 2 ^ 64 + q.stripb) (r.runs.filter RelayRun.admits)
  match rs.find? (RelayRun.after r.turn) with
  | some q => some q
  | none => rs.head?

/-- One cycle of a Relay (R340, R346): the records of the chain move on; a recirculating pass is admitted, else a new record when
`new`; and every record is looked up at its station (DEDUCED, log 52). -/
def State.relayCycle (s : State) (k : Nat) (new : Bool) : State :=
  let s := s.modRelay k Relay.move
  let s := match (s.cluster k).relay.recirc with
    | x :: rest => s.modRelay k fun r => Relay.enter { r with recirc := rest } x
    | [] =>
        match (s.cluster k).relay.nextRun with
        | some q => if new then s.admitNext k q else s
        | none => s
  s.modRelay k Relay.stations

/-- Write the outputs of a record of a strip (R335). -/
def Strip.relayOut (x : RelayRec) (c : RelayClass) (vd : Nat) (t : Strip) : Strip :=
  let bits := fun (t : Strip) (keep flag : Bool) =>
    let t := match c.keep with | some m => t.putMask m [(x.pos, keep)] | none => t
    match c.flag with | some m => t.putMask m [(x.pos, flag)] | none => t
  match x.left with
  | some .normally =>
      bits ((List.range c.nf).foldl (fun t f => t.setReg (vd + f) fun r => r.put 4 x.pos (x.field f).toNat) t) true x.flag
  | some .dropped => bits t false false
  | _ => t

/-- The first record that has left the chain writes its outputs (R335) (DEDUCED, log 52). -/
def State.relayLeave (s : State) (k : Nat) : State :=
  match (s.cluster k).relay.leaving with
  | [] => s
  | x :: rest =>
      let s := s.modRelay k fun r =>
        Relay.modRun { r with leaving := rest } x.run fun q =>
          if x.left matches some (.trapped _) then q else { q with gone := x.pos :: q.gone }
      match (s.cluster k).relay.run? x.run with
      | none => s
      | some q =>
          let c := ((s.cluster k).relay.bank x.bank).class q.slot
          s.modStrip q.ctx q.stripb (Strip.relayOut x c q.vd)

/-- The records that have not written their outputs. -/
def Relay.records (r : Relay) : List RelayRec := r.chain ++ r.recirc ++ r.leaving
/-- Whether a run has records that have not left (R335). -/
def Relay.inFlight (r : Relay) (q : RelayRun) : Bool := r.records.any (·.run == q.id)
/-- Whether every admitted record of a run has left and it admits no more (R335). -/
def Relay.over (r : Relay) (q : RelayRun) : Bool := !q.admits && !r.inFlight q

/-- The copy-back of a commit can go on: no record of the old bank remains in the chain (R337). -/
def Relay.mayCopy (r : Relay) : Bool :=
  match r.commit with
  | none => false
  | some m => !r.records.any (·.bank == m.old)

/-- The run of a strip. -/
def State.runOfStrip (s : State) (c b : Nat) : Option RelayRun :=
  (s.cluster (c / 16)).relay.runs.find? fun q => q.ctx == c && q.stripb == b

/-- Cycles without new records until no record of a run is in the chain: at most four passes of eight stations each (R334). -/
def State.settleRun (s : State) (k : Nat) (q : RelayRun) : Nat → State
  | 0 => s
  | n + 1 =>
      let r := (s.cluster k).relay
      if !r.inFlight q then s
      else if r.leaving.any (·.run == q.id) then (s.relayLeave k).settleRun k q n
      else (s.relayCycle k false).settleRun k q n

/-- Let T rise over the numbers completed directly above it (R65). -/
def Timeline.advance : Nat → Timeline → Timeline
  | 0, t => t
  | n + 1, t =>
      if t.done.contains (t.t + 1) then
        Timeline.advance n { t with t := t.t + 1, done := t.done.filter (· != t.t + 1) }
      else t
/-- The operation with a number has completed (R65). -/
def Timeline.complete (t : Timeline) (n : Nat) : Timeline :=
  Timeline.advance (t.done.length + 1) { t with done := n :: t.done }

/-- A timeline of a context. -/
def Ctx.timeline (x : Ctx) (k : TL) : Timeline := x.tl[k.toNat]?.getD Timeline.zero
/-- Change a timeline of a context. -/
def Ctx.modTl (x : Ctx) (k : TL) (f : Timeline → Timeline) : Ctx :=
  { x with tl := x.tl.setIfInBounds k.toNat (f (x.timeline k)) }

/-- What an operation posts is made in its context (R65). -/
def Ctx.posted (tk : Option Ticket) (x : Ctx) : Ctx :=
  match tk with
  | none => x
  | some k => x.modTl k.tl fun t => t.complete k.num

/-- A strip whose run stops goes on from a position (R327, R335). -/
def Strip.from (p : Nat) (t : Strip) : Strip := { t with vstart := p }

/-- A context stops (R335): its runs admit no more, their records leave and write, and VSTART of each strip is the first
position not admitted, or the lowest trapped one. Their numbers stay with the strips. -/
def State.stopRuns (s : State) (c : Nat) : State :=
  let k := c / 16
  ((s.cluster k).relay.runs.filter (·.ctx == c)).foldl (fun s q =>
    let r := (s.cluster k).relay
    let s := s.settleRun k q (40 * (r.records.length + 1))
    match (s.cluster k).relay.run? q.id with
    | none => s
    | some q =>
        let p := match q.trapped with | some (p, _, _) => p | none => q.next
        let s := s.modRelay k fun r => { r with runs := r.runs.filter (·.id != q.id) }
        s.modStrip c q.stripb (Strip.from p)) s

/-- The multiplies of a context that have begun complete before it stops (R327). -/
def State.stopMatrix (s : State) (c : Nat) : State :=
  let k := c / 16
  let mine := (s.cluster k).matq.filter (·.ctx == c)
  let s := s.modCluster k fun u => { u with matq := u.matq.filter (·.ctx != c) }
  mine.foldl (fun s m => s.modCtx c (Ctx.posted m.post)) s

/-- The old bank becomes a copy of the active one, and the commit counts (R337, R339). -/
def Relay.copyBack (r : Relay) : Relay :=
  let b := r.bank r.act
  Relay.count { r.modBank (!r.act) (fun _ => b) with commit := none } 4

/-- Cycles without new records until no record of the old bank of a commit remains (R337). -/
def State.settleOld (s : State) (k : Nat) : Nat → State
  | 0 => s
  | n + 1 =>
      let r := (s.cluster k).relay
      if r.mayCopy then s
      else if r.leaving.isEmpty then (s.relayCycle k false).settleOld k n
      else (s.relayLeave k).settleOld k n

/-- A commit of a context that has issued completes before it stops (R196, R327, R337). -/
def State.stopCommit (s : State) (c : Nat) : State :=
  let k := c / 16
  match (s.cluster k).relay.commit with
  | none => s
  | some m =>
      if m.ctx != c then s
      else
        let s := s.settleOld k (40 * ((s.cluster k).relay.records.length + 1))
        (s.modRelay k Relay.copyBack).modCtx c (Ctx.posted m.post)

/-- A context stops (R327, R335): what it has begun in the matrix unit and at the Relay's control port completes, and its Relay
runs end. -/
def State.stopOps (s : State) (c : Nat) : State := ((s.stopCommit c).stopRuns c).stopMatrix c

end Sys2Proof.Machine
end

