-- ==== Sys2Proof/Machine/Save.lean ====
section
/-! DEFINITION. The device's own accesses to a job's memory, and the save area of a context: its layout, a save and a
restore (R33, R68, R437 to R440). -/

namespace Sys2Proof.Machine

/-- The physical address and leaf of a virtual address in a job's table (R441, R442). -/
def State.xlate (s : State) (root va : Nat) : Option (Nat × Page) :=
  match walkFrom s va root walkLevels with
  | .leaf e bits => let p : Page := ⟨e, bits, false⟩; if p.space = 2 then none else some (p.paddr s va, p)
  | _ => none

/-- Bytes as the device reads them: of a peer's word that no core here holds, or a word of this device that a peer holds, a
free value (the device asks, and what comes is the peer's). -/
def State.deviceBytes (s : State) (pa n : Nat) : List Byte :=
  if s.owns pa && !s.words.any fun (w, _) => pa < w + 4 && w < pa + n && s.peerHolds w then Memory.readBytes s.mem pa n
  else
    (List.range n).map fun i =>
      let w := wordOf (pa + i)
      if (if s.owns pa then !s.peerHolds w else s.cores.any fun (_, c) => c.l1.any fun l => l.tracked && holdsWord l.key w) then
        Memory.read s.mem (pa + i)
      else (Config.freeWord (s.now * 2 ^ 57 + pa + i)).setWidth 8

/-- Bytes of a job's memory as the device reads them, page by page; nothing where a page is not mapped. -/
def State.vaRead (s : State) (root : Nat) : Nat → Nat → Nat → Option (List Byte)
  | 0, _, n => if n = 0 then some [] else none
  | fuel + 1, va, n =>
      if n = 0 then some [] else
      let k := min n (4096 - va % 4096)
      match s.xlate root va with
      | none => none
      | some (pa, _) => (s.vaRead root fuel (va + k) (n - k)).map fun r => s.deviceBytes pa k ++ r

/-- Write bytes of a job's memory as the device writes them (WT, at the home); bytes of unmapped pages are not
written (DEDUCED, log 42). -/
def State.vaWrite (s : State) (root : Nat) : Nat → Nat → List Byte → State
  | 0, _, _ => s
  | fuel + 1, va, bs =>
      if bs.isEmpty then s else
      let k := 4096 - va % 4096
      let s := match s.xlate root va with
        | none => s
        | some (pa, _) => s.homeStoreRun pa (bs.take k)
      s.vaWrite root fuel (va + k) (bs.drop k)

/-- Pages a run of bytes may touch, as fuel. -/
def pagesOf (n : Nat) : Nat := n / 4096 + 2

/-- Read bytes of the memory of the job of a context. -/
def State.jobRead (s : State) (id : BitVec 32) (va n : Nat) : Option (List Byte) :=
  (s.jobById id).bind fun j => s.vaRead j.root (pagesOf n) va n
/-- Write bytes of the memory of a job (DEDUCED, log 42). -/
def State.jobWrite (s : State) (id : BitVec 32) (va : Nat) (bs : List Byte) : State :=
  match s.jobById id with
  | none => s
  | some j => s.vaWrite j.root (pagesOf bs.length) va bs
/-- A little-endian number of a job's memory, 0 where it is not mapped. -/
def State.jobNat (s : State) (id : BitVec 32) (va n : Nat) : Nat := leNat ((s.jobRead id va n).getD [])

/-- A 64-bit word's bytes. -/
def bytes8 (x : Word) : List Byte := leBytes 8 x.toNat
/-- A post as number and timeline of the header and of queue entries (R438). -/
def postNum (p : Option Ticket) : Nat := match p with | some t => t.num | none => 0
/-- The timeline of a post. -/
def postTl (p : Option Ticket) : Nat := match p with | some t => t.tl.toNat | none => 0
/-- n zero bytes. -/
def zeros (n : Nat) : List Byte := List.replicate n 0

/-- A register directory: high-water lengths and tags (R438). -/
def directory (v : Vector VReg 32) (m : Vector MReg 16) (t : List TReg) : List Byte :=
  (v.toList.map fun r => BitVec.ofNat 8 r.hw) ++ (m.toList.map fun r => BitVec.ofNat 8 r.hw)
    ++ (t.map fun r => BitVec.ofNat 8 r.hw) ++ zeros (16 - t.length)
    ++ (v.toList.map fun r => r.tag.setWidth 8) ++ (t.map fun r => r.tag.setWidth 8) ++ zeros (32 - t.length)

/-- The pieces of a save of vector and mask registers: dirty registers to their high-water length, scale arrays of
scaled tags (R42, R68, R438, R439). -/
def regPieces (base : Nat) (v : Vector VReg 32) (m : Vector MReg 16) : List (Nat × List Byte) :=
  ((List.range 32).zip v.toList).flatMap (fun (k, r) =>
    if r.hw = 0 then [] else
      (base + 0x2000 + 1024 * k, leBytes (64 * r.hw) r.bytes.toNat)
        :: (if r.tag.getLsbD 5 then [(base + 0x1000 + 64 * k, leBytes 64 r.scale.toNat)] else []))
  ++ ((List.range 16).zip m.toList).flatMap (fun (k, r) =>
    if r.hw = 0 then [] else [(base + 0xA000 + 1024 * k, leBytes (64 * r.hw) r.bits.toNat)])

/-- The pieces of a save of tiles (R438). -/
def tilePieces (t : Vector TReg 8) : List (Nat × List Byte) :=
  ((List.range 8).zip t.toList).flatMap fun (k, r) =>
    if r.hw = 0 then [] else
      (0xE000 + 8192 * k, leBytes (128 * r.hw) r.bytes.toNat)
        :: (if r.tag.getLsbD 5 then [(0x1800 + 16 * k, leBytes 16 r.scale.toNat)] else [])

/-- The pieces of strip record k (R439). -/
def stripPieces (k : Nat) (t : Strip) : List (Nat × List Byte) :=
  let base := 0x1E000 + 0x20000 * k
  let head := leBytes 8 t.stripb ++ leBytes 2 t.vl ++ leBytes 2 t.vstart ++ leBytes 2 t.vtype.toNat
    ++ leBytes 1 t.flags.toNat ++ zeros 1 ++ bytes8 t.pc ++ (t.lpc.toList.flatMap fun x => leBytes 4 x.toNat)
    ++ leBytes 4 t.pops ++ leBytes 4 t.pushes ++ bytes8 (t.recv.getD 0) ++ zeros 8
  [(base, head), (base + 0x40, t.snap.toList.flatMap bytes8), (base + 0x240, directory t.v t.m []),
   (base + 0x300, leBytes 1024 t.detached.toNat)]
  ++ regPieces base t.v t.m
  ++ t.lanePcs.map fun (p, pc) => (base + 0xE000 + 8 * p, bytes8 pc)

/-- Stream slot i (R438). -/
def streamBytes (st : Stream) : List Byte :=
  let q := match st.kind with | .network q => q | _ => 0
  let kind := match st.kind with | .walk => 0 | .satchel => 1 | .network _ => 2
  leBytes 1 st.v.toNat ++ leBytes 1 (if st.parked then 1 else 0) ++ leBytes 1 kind ++ leBytes 1 q
    ++ leBytes 1 st.tag.toNat ++ zeros 3 ++ leBytes 8 st.taken ++ (st.shape.take 18).flatMap bytes8

/-- A block-queue entry (R438). -/
def entryBytes (e : BlockEntry) : List Byte :=
  bytes8 e.start ++ leBytes 8 e.n ++ leBytes 4 e.seed.toNat ++ leBytes 4 e.fctl.toNat ++ leBytes 8 (postNum e.post)
    ++ leBytes 8 (postTl e.post) ++ zeros 24 ++ e.snap.toList.flatMap bytes8

/-- The strips of a context in ascending STRIPB: the strip records of a save (R33). -/
def Ctx.ordered (x : Ctx) : List Strip := sortBy (·.stripb) x.strips

/-- Offsets of the poisoned words among n words of w bytes that a save writes from an offset on (R440). -/
def poisonFrom (o w n m : Nat) : List Nat := (setBits n m).map fun i => o + w * i
/-- Offsets of the poisoned words of the vector registers of a region of the save area (R438, R440). -/
def regPoison (base : Nat) (v : Vector VReg 32) : List Nat :=
  ((List.range 32).zip v.toList).flatMap fun (k, r) => poisonFrom (base + 0x2000 + 1024 * k) 4 (16 * r.hw) r.poison.toNat

/-- Offsets in the save area of the words that a save writes from poisoned register words: scalar and vector registers, and
snapshots of strips and of queued blocks (R438 to R440). -/
def Ctx.poisonOffsets (x : Ctx) : List Nat :=
  let strips := x.ordered.take 4
  poisonFrom 0x100 8 64 x.spoison.toNat ++ regPoison 0 x.v
  ++ ((List.range strips.length).zip strips).flatMap (fun (k, t) =>
    let base := 0x1E000 + 0x20000 * k
    poisonFrom (base + 0x40) 8 64 t.snapP.toNat ++ regPoison base t.v)
  ++ ((List.range x.queue.length).zip x.queue).flatMap fun (i, e) =>
    poisonFrom (0x9E000 + 576 * i + 64) 8 64 e.snapP.toNat

/-- A register word that the save writes holds poison (R440). -/
def Ctx.holdsPoison (x : Ctx) : Bool := !x.poisonOffsets.isEmpty

/-- The pieces of a save: offset in the save area and bytes (R438). -/
def savePieces (x : Ctx) (trapped : Bool) (pc : Word) : List (Nat × List Byte) :=
  let strips := x.ordered.take 4
  let header := leBytes 4 0x4D345341 ++ leBytes 1 1 ++ leBytes 1 x.queue.length ++ leBytes 1 (2 ^ strips.length - 1)
    ++ leBytes 1 ((if trapped then 1 else 0) + (if x.revoked then 2 else 0) + (if x.holdsPoison then 4 else 0))
    ++ bytes8 (x.run.map (·.entry.start) |>.getD 0) ++ leBytes 8 (x.run.map (·.entry.n) |>.getD 0)
    ++ leBytes 8 (x.run.map (·.next) |>.getD 0)
    ++ leBytes 8 (x.run.map (fun r => postNum r.entry.post) |>.getD 0)
    ++ leBytes 1 (x.run.map (fun r => postTl r.entry.post) |>.getD 0) ++ zeros 23
  let ctl := [x.vl.toNat, x.vtype.toNat, x.stripb.toNat, x.seed.toNat, x.fctl.toNat, x.fmtst.toNat, x.mgrant.toNat,
    x.rq.length] ++ (x.tsh.toList.map (·.toNat)) ++ [x.cause.toNat, x.epc.toNat, x.tval.toNat, pc.toNat]
  let numbers := (List.range 64).map fun k => ((x.pend.find? fun p => p.1.toNat == k).map (·.2)).getD 0
  let mask := x.pend.foldl (fun m p => m ||| 2 ^ p.1.toNat) 0
  [(0x40, header), (0x80, directory x.v x.m x.t.toList),
   (0x100, (List.range 64).flatMap fun k => bytes8 (x.sreg (BitVec.ofNat 6 k))),
   (0x300, leBytes 8 mask), (0x400, numbers.flatMap (leBytes 8)), (0x600, ctl.flatMap (leBytes 8)),
   (0x700, x.tl.toList.flatMap fun t => leBytes 8 t.p ++ leBytes 8 t.t),
   (0x800, x.rq.flatMap bytes8), (0x880, x.bps.toList.flatMap bytes8)]
  ++ ((List.range 4).map fun i => (0xC00 + 256 * i, match x.streams[i]? with | some st => streamBytes st | none => [0xFF]))
  ++ regPieces 0 x.v x.m ++ tilePieces x.t
  ++ ((List.range strips.length).zip strips).flatMap (fun (k, t) => stripPieces k t)
  ++ ((List.range x.queue.length).zip x.queue).map fun (i, e) => (0x9E000 + 576 * i, entryBytes e)

/-- Write the pieces of a save at the save area of a context's unit (R440) (DEDUCED, log 29). -/
def State.writeSave (s : State) (c : Nat) (ps : List (Nat × List Byte)) : State :=
  let base := slotSave (s.slot c)
  ps.foldl (fun s (o, bs) => s.jobWrite (slotJob (s.slot c)) (base + o) bs) s

/-- Mark the line of a job's memory that holds an address poisoned, or take the mark away (R440, R460). -/
def State.jobPoison (s : State) (id : BitVec 32) (p : Bool) (va : Nat) : State :=
  match (s.jobById id).bind fun j => s.xlate j.root va with
  | none => s
  | some (pa, _) => if s.owns pa then s.setPoison pa p else s

/-- A word of a save area stands in a poisoned line; none when no line is poisoned (R440). -/
def State.savedPoison (s : State) (job : BitVec 32) (base : Nat) : Option (Nat → Bool) :=
  if s.poison.isEmpty then none
  else some fun o => match (s.jobById job).bind fun j => s.xlate j.root (base + o) with
    | none => false
    | some (pa, _) => s.poisoned pa

/-- Set STATE of a slot and put the change into the Steward's event ring (R426, R427). -/
def State.setSlotState (s : State) (c : Nat) (st : BitVec 2) : State :=
  let r := s.slot c
  let r : BitVec 512 := (r &&& ~~~ (6#512)) ||| ((st.setWidth 512) <<< 1)
  let e : SlotEvent := ⟨c, st⟩
  State.modDie { s with bind := aset s.bind c r } (dieOf c) fun d => { d with ring := d.ring ++ [e] }

/-- The number engine operations, claims and keys carry for a unit that is saved at an address. -/
def savedTag (base : Nat) : Nat := 2 ^ 20 + base

/-- A number replaced by another. -/
def swapNo (a b n : Nat) : Nat := if n = a then b else n

/-- The unit that engine operations, accumulator claims, keys and requests in flight belong to moves from one number to another. -/
def State.retag (s : State) (a b : Nat) : State :=
  { s with
    cores := s.cores.map fun (k, c) => (k, { c with copies := c.copies.map fun p => { p with ctx := swapNo a b p.ctx } })
    clusters := s.clusters.map fun (k, c) => (k, { c with
      holders := c.holders.map fun h => h.map (swapNo a b)
      matq := c.matq.map fun m => { m with ctx := swapNo a b m.ctx }
      drains := c.drains.map fun d => { d with ctx := swapNo a b d.ctx }
      relay := { c.relay with
        commit := c.relay.commit.map fun (m : RelayCommit) => { m with ctx := swapNo a b m.ctx } } })
    keys := s.keys.map fun (n, k) => (n, if k.held then { k with holder := swapNo a b k.holder } else k)
    farKeys := s.farKeys.map fun (c, n) => (swapNo a b c, n)
    requests := s.requests.map fun r => { r with party := { r.party with ctx := swapNo a b r.party.ctx } } }

/-- The context, running or saved, with a number. -/
def State.owner (s : State) (n : Nat) : Ctx := if n < 2 ^ 20 then s.ctx n else aget Ctx.zero s.residue (n - 2 ^ 20)
/-- Change the context, running or saved, with a number. -/
def State.modOwner (s : State) (n : Nat) (f : Ctx → Ctx) : State :=
  if n < 2 ^ 20 then s.modCtx n f else { s with residue := aset s.residue (n - 2 ^ 20) (f (s.owner n)) }

/-- Unpin the frames of a context's backing region (R106). -/
def State.unpinRegion (s : State) (core region : Nat) : State :=
  let fs := (s.core core).frames.filter fun (f : Frame) => f.region == region
  fs.foldl (fun (s : State) f => s.unpin core f) s

/-- A peer's request gets the key: TENURE rises and it is sent its GRANT (R296, R399). -/
def State.grantPeer (s : State) (n w : Nat) (rest : List Nat) : State :=
  let d := (w - 2 ^ 20) / 2 ^ 16
  let s := s.modKey n fun k =>
    { k with held := true, granted := none, remoteHolder := some d, tenure := k.tenure + 1, queue := rest }
  s.sendOrDrop 0x25 { noMsg with
    src := s.dev, dst := d, tag := BitVec.ofNat 16 w, addr := (s.key n).tenure.setWidth 64 }

/-- A key whose tenure has ended goes to the first of its waiting queue (R296, R297). -/
def State.releaseKey (s : State) (n : Nat) : State :=
  match (s.key n).queue with
  | [] => s.modKey n fun k => { k with held := false, granted := none, remoteHolder := none }
  | w :: r =>
      if w < 2 ^ 20 then s.modKey n fun k => { k with held := false, granted := some w, remoteHolder := none }
      else s.grantPeer n w r

/-- A context leaves the waiting queue of a key; what it had been granted goes to the next (R298). -/
def State.leaveKey (s : State) (c n : Nat) : State :=
  let was := (s.key n).granted
  let s := s.modKey n fun k => { k with queue := k.queue.filter (· != c) }
  if was == some c then s.releaseKey n else s

/-- A request for a peer's key outlives the party that waited for it: the key is released once it is granted (R298). -/
def RemoteReq.orphan (n : Nat) (r : RemoteReq) : RemoteReq :=
  if r.party.ctx == n && r.mtype == 0x08 && r.addr < 2 ^ 20 && r.answer.isNone then { r with party := homeParty } else r

/-- A context leaves the waiting queues of all keys, of this device and of peers (R298). -/
def State.leaveKeys (s : State) (c : Nat) : State :=
  let s := s.keys.foldl (fun s (n, k) => if k.queue.contains c then s.leaveKey c n else s) s
  { s with requests := s.requests.map (RemoteReq.orphan c) }

/-- What a home has asked of peers for a context that stops goes on for the home itself, and answers that have come go: the
instruction asks again when it issues again (R133, R196). -/
def RemoteReq.leave (c : Nat) (r : RemoteReq) : Option RemoteReq :=
  if r.party.ctx == c && 0x10 ≤ r.mtype.toNat && r.mtype.toNat < 0x20 then
    (if r.answer.isSome then none else some { r with party := homeParty })
  else some r

/-- Stop and save a context: write its save area, leave key queues, unpin its frames, and set
STATE to 0b10 (R36, R106, R162, R298, R430). The residue keeps what the save area has no place for (DEDUCED, log 29). -/
def State.saveCtx (s : State) (c : Nat) (trapped : Bool) (pc : Word) : State :=
  let x := s.ctx c
  let base := slotSave (s.slot c)
  let s := s.writeSave c (savePieces x trapped pc)
  let s := x.poisonOffsets.foldl (fun (s : State) o => s.jobPoison (slotJob (s.slot c)) true (base + o)) s
  let s : State := { s with
    residue := aset s.residue base { x with wait := none, waiters := [], pc := pc }
    requests := s.requests.filterMap (RemoteReq.leave c) }
  let s := (s.leaveKeys c).releaseLines (·.ctx == c) (coreOf c)
  let s := s.unpinRegion (coreOf c) (slotSpBase (s.slot c))
  let s := (s.retag c (savedTag base)).setSlotState c 2
  let s : State := { s with bind := aset s.bind c (s.slot c &&& ~~~ (8#512)) }
  s.setCtx c Ctx.zero

/-- A strip as it stops (R36, R240, R268): a serial region in progress goes back to the start of its lane. -/
def Strip.stopped (t : Strip) : Strip :=
  match t.region with
  | none => { t with wait := none, laneWait := [], late := [] }
  | some r =>
      { t with
        late := []
        v := r.undoV
        m := r.undoM
        snap := r.undoS
        snapP := r.undoP
        flags := r.undoFlags
        vstart := r.lane
        recv := some r.recv
        pc := r.pop
        region := none
        wait := none
        laneWait := [] }

/-- Stop a context at its boundaries and save it without a trap record (R36, R162, R426) (DEDUCED, log 29). -/
def State.preempt (s : State) (c : Nat) : State :=
  let s := s.stopOps c
  let x := s.ctx c
  (s.setCtx c { x with strips := x.strips.map Strip.stopped }).saveCtx c false x.pc

/-- A byte list's number at an offset. -/
def natAt (bs : List Byte) (o n : Nat) : Nat := leNat ((bs.drop o).take n)

/-- The poison of n words of w bytes that a restore reads from an offset on (R440): of a poisoned line, the words that held poison
when they were saved; all of them, when none did (DEDUCED, log 29). -/
def restorePoison (bad : Option (Nat → Bool)) (o w n old : Nat) : Nat :=
  match bad with
  | none => 0
  | some bad =>
      let line := fun i => (o + w * i) / 128
      (List.range n).foldl (fun m i =>
        if bad (o + w * i) && (bit old i || !(List.range n).any fun k => line k == line i && bit old k) then m ||| 2 ^ i else m) 0

/-- The registers of a saved region: bytes up to the directory's length, zero above; poison as the save area has it (R68,
R440). -/
def restoreRegs (rd : Nat → Nat → List Byte) (bad : Option (Nat → Bool)) (base dir : Nat) (old : Vector VReg 32) (oldm : Vector MReg 16) :
    Vector VReg 32 × Vector MReg 16 :=
  let d := rd dir 128
  let v := (List.range 32).foldl (fun (v : Vector VReg 32) k =>
    let hw := natAt d k 1
    let tag : Tag := BitVec.ofNat 6 (natAt d (64 + k) 1)
    let o := old[k]?.getD VReg.zero
    v.setIfInBounds k
      { bytes := if hw = 0 then 0 else BitVec.ofNat 8192 (leNat (rd (base + 0x2000 + 1024 * k) (64 * hw)))
        tag := tag
        scale := if hw = 0 then 0
          else if tagScaled tag then BitVec.ofNat 512 (leNat (rd (base + 0x1000 + 64 * k) 64)) else o.scale
        hw := hw
        poison := BitVec.ofNat 256 (restorePoison bad (base + 0x2000 + 1024 * k) 4 (16 * hw) o.poison.toNat) }) old
  let m := (List.range 16).foldl (fun (m : Vector MReg 16) k =>
    let hw := natAt d (32 + k) 1
    m.setIfInBounds k ⟨if hw = 0 then 0 else BitVec.ofNat 8192 (leNat (rd (base + 0xA000 + 1024 * k) (64 * hw))), hw⟩) oldm
  (v, m)

/-- The tiles of a save. -/
def restoreTiles (rd : Nat → Nat → List Byte) (old : Vector TReg 8) : Vector TReg 8 :=
  let d := rd 0x80 128
  (List.range 8).foldl (fun (t : Vector TReg 8) k =>
    let hw := natAt d (48 + k) 1
    let tag : Tag := BitVec.ofNat 6 (natAt d (96 + k) 1)
    let o := old[k]?.getD TReg.zero
    t.setIfInBounds k
      { bytes := if hw = 0 then 0 else BitVec.ofNat 65536 (leNat (rd (0xE000 + 8192 * k) (128 * hw)))
        tag := tag
        scale := if hw = 0 then 0
          else if tagScaled tag then BitVec.ofNat 128 (leNat (rd (0x1800 + 16 * k) 16)) else o.scale
        hw := hw }) old

/-- A strip from its record, over the strip as it was saved; it waits for a lane group (R23, R35, R439). -/
def restoreStrip (rd : Nat → Nat → List Byte) (bad : Option (Nat → Bool)) (k : Nat) (old : Strip) : Strip :=
  let base := 0x1E000 + 0x20000 * k
  let h := rd base 64
  let (v, m) := restoreRegs rd bad base (base + 0x240) old.v old.m
  let det := leNat (rd (base + 0x300) 1024)
  { old with
    stripb := natAt h 0 8
    vl := natAt h 8 2
    vstart := natAt h 10 2
    vtype := BitVec.ofNat 10 (natAt h 12 2)
    flags := BitVec.ofNat 7 (natAt h 14 1)
    pc := w64 (natAt h 16 8)
    lpc := Vector.ofFn fun i => BitVec.ofNat 32 (natAt h (24 + 4 * i.val) 4)
    pops := natAt h 40 4
    pushes := natAt h 44 4
    recv := old.recv.map fun _ => w64 (natAt h 48 8)
    snap := Vector.ofFn fun i => w64 (natAt (rd (base + 0x40) 512) (8 * i.val) 8)
    snapP := BitVec.ofNat 64 (restorePoison bad (base + 0x40) 8 64 old.snapP.toNat)
    detached := BitVec.ofNat 8192 det
    lanePcs := old.lanePcs.map fun (p, _) => (p, w64 (leNat (rd (base + 0xE000 + 8 * p) 8)))
    v := v
    m := m
    resting := true
    wait := none
    laneWait := [] }

/-- A TSHn value that R54 accepts. -/
def tshOk (x : Nat) : Bool :=
  let ew := x % 8
  x < 2 ^ 24 && x / 8 % 32 == 0 && x / 2 ^ 14 % 4 == 0 && ew ≤ 3 && (x / 2 ^ 16 % 256 + 1) * 4 * 2 ^ ew ≤ 1024

/-- A VTYPE that a strip head can set (R49, R74, R243). -/
def vtypeOk (x : Nat) : Bool := x < 2 ^ 10 && x % 16 != 15 && tagLegal (BitVec.ofNat 6 (x / 16))

/-- The tag of a stream slot in use is no reserved one (R56, R74). -/
def streamOk (b : List Byte) : Bool :=
  natAt b 0 1 ≥ 32 || (natAt b 4 1 < 64 && tagLegal (BitVec.ofNat 6 (natAt b 4 1)))

/-- The control registers of a strip record lie within their widths (R44, R439, R440). -/
def stripOk (h : List Byte) : Bool :=
  natAt h 8 2 < 2 ^ 14 && natAt h 10 2 < 2 ^ 13 && vtypeOk (natAt h 12 2) && natAt h 14 1 < 2 ^ 7

/-- The restore checks (R8, R44, R56, R74, R440): MAGIC and VER, lengths, tags, control registers of the context and of its
strip records. -/
def saveOk (rd : Nat → Nat → List Byte) (dirs : List Nat) : Bool :=
  let h := rd 0x40 64
  let c := rd 0x600 160
  let r := fun i => natAt c (8 * i) 8
  natAt h 0 4 == 0x4D345341 && natAt h 4 1 == 1 && natAt h 5 1 ≤ 4
  && dirs.all (fun o =>
      let d := rd o 128
      (List.range 48).all (fun i => natAt d i 1 ≤ 16) && (List.range 8).all (fun i => natAt d (48 + i) 1 ≤ 64)
      && (List.range 40).all fun i => natAt d (64 + i) 1 < 64 && tagLegal (BitVec.ofNat 6 (natAt d (64 + i) 1)))
  && r 0 < 2 ^ 14 && vtypeOk (r 1) && r 3 < 2 ^ 32 && r 4 < 32 && r 4 % 8 ≤ 5 && r 5 < 128 && r 6 < 2 ^ 11 && r 7 < 32
  && (List.range 8).all (fun i => tshOk (r (8 + i)) || r (8 + i) == 0) && r 16 < 256
  && (List.range 4).all (fun i => streamOk (rd (0xC00 + 256 * i) 16))
  && (List.range (dirs.length - 1)).all fun k => stripOk (rd (0x1E000 + 0x20000 * k) 64)

/-- A post from the number and the timeline of a save area, when there was one; the area holds no scope, so its release is at
the widest (R438). -/
def savedTicket (n tl : Nat) : Option Ticket := if n = 0 then none else some ⟨BitVec.ofNat 4 tl, n, 5⟩

/-- A block-queue entry with nothing in it. -/
def BlockEntry.zero : BlockEntry := ⟨0, 0, 0, 0, none, Vector.replicate 64 0, 0⟩

/-- A running block with nothing in it. -/
def BlockRun.zero : BlockRun where
  entry := BlockEntry.zero
  next := 0
  flags := 0
  carries := []
  lastB := none
  lastVl := 0
  lastVtype := 0
  lastV := Vector.replicate 32 VReg.zero
  lastM := Vector.replicate 16 MReg.zero
  headWait := none
  stores := []

/-- A stream from its slot of a save area (R438). -/
def savedStream (b : List Byte) : Option Stream :=
  if natAt b 0 1 ≥ 32 then none
  else
    some {
      v := BitVec.ofNat 5 (natAt b 0 1)
      parked := natAt b 1 1 == 1
      kind := if natAt b 2 1 = 0 then .walk else if natAt b 2 1 = 1 then .satchel else .network (natAt b 3 1)
      tag := BitVec.ofNat 6 (natAt b 4 1)
      taken := natAt b 8 8
      shape := (List.range 18).map fun i => w64 (natAt b (16 + 8 * i) 8)
      pc := 0
      attached := []
      unbound := false }

/-- A context from its save area (R440, R447): what the area holds, over the residue; nothing when a check fails. -/
def State.restored (s : State) (job : BitVec 32) (base : Nat) : Option Ctx :=
  let rd := fun o n => (s.jobRead job (base + o) n).getD (zeros n)
  let x := aget Ctx.zero s.residue base
  let h := rd 0x40 64
  let nstrips := (setBits 4 (natAt h 6 1)).length
  if !saveOk rd (0x80 :: (List.range nstrips).map fun k => 0x1E000 + 0x20000 * k + 0x240) then none
  else
    let ctl := rd 0x600 160
    let r := fun i => natAt ctl (8 * i) 8
    let bad := s.savedPoison job base
    let (v, m) := restoreRegs rd bad 0 0x80 x.v x.m
    let mask := leNat (rd 0x300 8)
    let old := x.ordered
    let strips := (List.range nstrips).map fun k => restoreStrip rd bad k (old[k]?.getD Strip.zero)
    some { x with
      s := Vector.ofFn fun i => w64 (natAt (rd 0x100 512) (8 * i.val) 8)
      spoison := BitVec.ofNat 64 (restorePoison bad 0x100 8 64 x.spoison.toNat) &&& ~~~ 1#64
      pend := (List.range 64).filterMap fun k =>
        if bit mask k then some (BitVec.ofNat 6 k, natAt (rd 0x400 512) (8 * k) 8) else none
      v := v
      m := m
      t := restoreTiles rd x.t
      tl := Vector.ofFn fun i =>
        let b := rd (0x700 + 16 * i.val) 16
        { p := natAt b 0 8, t := natAt b 8 8, done := ((x.tl[i.val]?.getD Timeline.zero).done) }
      rq := (List.range (min (r 7) 16)).map fun i => w64 (natAt (rd 0x800 128) (8 * i) 8)
      vl := BitVec.ofNat 14 (r 0)
      vtype := BitVec.ofNat 10 (r 1)
      stripb := w64 (r 2)
      seed := BitVec.ofNat 32 (r 3)
      fctl := BitVec.ofNat 5 (r 4)
      fmtst := BitVec.ofNat 7 (r 5)
      mgrant := BitVec.ofNat 11 (r 6)
      tsh := Vector.ofFn fun i => BitVec.ofNat 24 (r (8 + i.val))
      cause := BitVec.ofNat 8 (r 16)
      epc := w64 (r 17)
      tval := w64 (r 18)
      pc := w64 (r 19)
      lrow := if w64 (r 19) == x.pc then x.lrow else 0
      bps := Vector.ofFn fun i => w64 (natAt (rd 0x880 64) (8 * i.val) 8 % 2 ^ 57)
      strips := strips
      run := match x.run with
        | some b => some { b with
            entry := { b.entry with start := w64 (natAt h 8 8), n := natAt h 16 8 }
            next := natAt h 24 8 }
        | none =>
            if natAt h 16 8 = 0 then none
            else
              some { BlockRun.zero with
                entry := { BlockEntry.zero with
                  start := w64 (natAt h 8 8), n := natAt h 16 8, post := savedTicket (natAt h 32 8) (natAt h 40 1) }
                next := natAt h 24 8 }
      queue := (List.range (natAt h 5 1)).map fun i =>
        let b := rd (0x9E000 + 576 * i) 576
        { start := w64 (natAt b 0 8)
          n := natAt b 8 8
          seed := BitVec.ofNat 32 (natAt b 16 4)
          fctl := BitVec.ofNat 5 (natAt b 20 4)
          post := match x.queue[i]? with | some e => e.post | none => savedTicket (natAt b 24 8) (natAt b 32 8)
          snap := Vector.ofFn fun i => w64 (natAt b (64 + 8 * i.val) 8)
          snapP := BitVec.ofNat 64 (restorePoison bad (0x9E000 + 576 * i + 64) 8 64
            ((x.queue[i]?.getD BlockEntry.zero).snapP.toNat)) }
      streams := if x.streams.isEmpty then (List.range 4).filterMap fun i => savedStream (rd (0xC00 + 256 * i) 160) else x.streams
      revoked := bit (natAt h 7 1) 1
      wait := none }

end Sys2Proof.Machine
end

