-- ==== Sys2Proof/Machine/Sched.lean ====
section
/-! DEFINITION. The five levels of work (R37 to R40), handles and counters (R415, R416), what the Concierge allocates,
the completion and the cancel of units and levels, edges and eligibility (R418 to R422), and the waiting units (R423). -/

namespace Sys2Proof.Machine

/-- A handle (R415). -/
def handle (kind slot lidx unit sub : Nat) : Word :=
  w64 (kind * 2 ^ 60 + slot % 2 ^ 16 * 2 ^ 44 + lidx % 2 ^ 16 * 2 ^ 28 + unit % 2 ^ 12 * 2 ^ 16 + sub % 16)

/-- KIND of a handle. -/
def hKind (h : Word) : Nat := (h.extractLsb' 60 4).toNat
/-- JOB of a handle: the slot. -/
def hJob (h : Word) : Nat := (h.extractLsb' 44 16).toNat
/-- LIDX of a handle. -/
def hLidx (h : Word) : Nat := (h.extractLsb' 28 16).toNat
/-- UNITNO of a handle. -/
def hUnit (h : Word) : Nat := (h.extractLsb' 16 12).toNat

/-- A handle's unused fields are zero (R415). -/
def handleForm (h : Word) : Bool :=
  let k := hKind h
  1 ≤ k && k ≤ 6 && h.extractLsb' 4 12 == 0 && (k == 1 || hUnit h == 0) && (k == 6 || h.extractLsb' 0 4 == 0)
    && (k != 5 || hLidx h == 0)

/-- The counter a handle names. -/
def State.counter (s : State) (h : Word) : Option Counter := s.counters.find? (·.handle == h)
/-- Change a counter. -/
def State.modCounter (s : State) (h : Word) (f : Counter → Counter) : State :=
  { s with counters := s.counters.map fun c => if c.handle == h then f c else c }
/-- The counter a job may reach by a handle (R308, R415). -/
def State.jobCounter (s : State) (slot : Nat) (h : Word) : Option Counter :=
  if handleForm h && hJob h == slot then s.counter h else none

/-- The launch of a job slot and index. -/
def State.launch (s : State) (slot lidx : Nat) : Option Launch := s.launches.find? fun l => l.job == slot && l.lidx == lidx
/-- Change a launch. -/
def State.modLaunch (s : State) (slot lidx : Nat) (f : Launch → Launch) : State :=
  { s with launches := s.launches.map fun l => if l.job == slot && l.lidx == lidx then f l else l }
/-- Change a unit of a launch. -/
def State.modUnit (s : State) (slot lidx no : Nat) (f : Unit' → Unit') : State :=
  s.modLaunch slot lidx fun l => { l with units := l.units.map fun u => if u.no == no then f u else u }

/-- The live job in a slot (R415). -/
def State.jobAt (s : State) (slot : Nat) : Option Job := s.jobs.find? fun j => j.live && jobSlot j.id == slot

/-- The launch and unit a context runs, or that is saved at an address. -/
def State.unitOf (s : State) (n : Nat) : Option (Launch × Unit') :=
  if n < 2 ^ 20 then
    let r := s.slot n
    (s.launch (jobSlot (slotJob r)) (slotLidx r)).bind fun l =>
      (l.units.find? fun u => u.no == slotUnit r).map fun u => (l, u)
  else
    s.launches.findSome? fun l =>
      (l.units.find? fun u => u.allocated && u.savea == w64 (n - 2 ^ 20)).map fun u => (l, u)

/-- A launch that lies in a graph and a phase: a handler serves a context and lies in none (R431) (DEDUCED, log 27). -/
def Launch.counted (l : Launch) : Bool := l.serves.isNone

/-- The counter of a unit. -/
def unitHandle (l : Launch) (u : Unit') : Word := handle 1 l.job l.lidx u.no 0

/-- A field of a page-table entry written as memory (R442). -/
def State.setEntry (s : State) (pa e : Nat) : State := { s with mem := Memory.writeN s.mem (s.phys pa) 8 e }

/-- A fresh 64 KiB of DRAM: its address (R95: 96 GiB a die) (DESIGN CHOICE, log 32). -/
def State.takePage (s : State) : Nat × State :=
  let p := s.nextPage
  let q := p + 65536
  (p, { s with nextPage := if unpopulated q then q / 2 ^ 37 * 2 ^ 37 + 2 ^ 37 else q })

/-- Map one page at a level, making the tables it needs from fresh pages (R441, R442). -/
def State.mapAt (s : State) (stop table va leaf : Nat) : List (Nat × Nat × Nat) → State
  | [] => s
  | (level, lo, w) :: r =>
      let at' := table + (va / 2 ^ lo % 2 ^ w) * 8
      if level ≤ stop then s.setEntry at' leaf
      else
        let e := Memory.readN s.mem (s.phys at') 8
        if bit e 63 && !bit e 62 then s.mapAt stop (leafPaddr e) va leaf r
        else
          let (t, s) := s.takePage
          (s.setEntry at' (2 ^ 63 + t)).mapAt stop t va leaf r

/-- Attributes of a leaf of the Concierge: valid, a leaf, with the low bits W, X, ORI and OW as given. -/
def leafOf (pa attrs : Nat) : Nat := 2 ^ 63 + 2 ^ 62 + pa + attrs

/-- Map n fresh pages of 64 KiB from a virtual address of a job (device global space). -/
def State.mapFresh (s : State) (root va attrs : Nat) : Nat → State
  | 0 => s
  | n + 1 =>
      let (pa, s) := s.takePage
      (s.mapAt 1 root va (leafOf pa attrs) walkLevels).mapFresh root (va + 65536) attrs n

/-- Read-write (W). -/
def attrW : Nat := 64
/-- Executable, read-only (X). -/
def attrX : Nat := 32

/-- Allocate bytes of a job's address space in fresh pages, with a guard of 64 KiB below: the address
(DESIGN CHOICE, log 32). -/
def State.allocVa (s : State) (slot bytes attrs : Nat) : Nat × State :=
  match s.jobAt slot with
  | none => (0, s)
  | some j =>
      let n := (bytes + 65535) / 65536
      let va := j.nextVa + 65536
      let s := s.modJob j.id fun j => { j with nextVa := va + n * 65536 }
      (va, s.mapFresh j.root va attrs n)

/-- The dies of a mask, all four when it is 0 (R413). -/
def diesOf (mask : Nat) : List Nat := if mask % 16 = 0 then [0, 1, 2, 3] else setBits 4 mask

/-- A unit that waits for a context: its age (R423). -/
def Unit'.age (u : Unit') : Option Nat :=
  match u.status with
  | .waiting a => some a
  | .saved a => some a
  | _ => none

/-- Ask the Stewards of dies to bind. -/
def State.callStewards (s : State) (dies : List Nat) : State := dies.foldl (fun s d => s.later (.stewardBind d)) s

/-- A launch is eligible (R420): no edges and its phase is the current one of its job, or its completion edges are
satisfied and every unit of each streaming predecessor has bound once, and its phase has come. -/
def State.mayRun (s : State) (l : Launch) : Bool :=
  match s.jobAt l.job with
  | none => false
  | some j =>
      l.serves.isSome || (l.phase ≤ j.phase && l.edges.all fun e =>
        if e.streaming then
          match s.launch l.job e.pred with
          | some p => p.units.all (·.everBound) || p.ended.isSome
          | none => true
        else e.satisfied)

/-- Launches that have become eligible take their age, and their Stewards are called (R420, R423). -/
def State.updateEligible (s : State) : State :=
  s.launches.foldl (fun s l =>
    if l.eligible.isNone && l.ended.isNone && s.mayRun l then
      let s := s.modLaunch l.job l.lidx fun l =>
        { l with eligible := some s.now, units := l.units.map fun u =>
            match u.status with | .waiting _ => { u with status := .waiting s.now } | _ => u }
      s.callStewards (diesOf l.dies)
    else s) s

/-- The next phase of a job that has not ended, after a phase of it has (R40, R420). -/
def State.nextPhase (s : State) (slot : Nat) : Nat → Nat → Option Nat
  | 0, _ => none
  | n + 1, p =>
      match (s.launches.filterMap fun l => if l.job == slot && l.phase > p then some l.phase else none).min? with
      | none => none
      | some q =>
          match s.counter (handle 4 slot q 0 0) with
          | some c => if c.status == .running then some q else s.nextPhase slot n q
          | none => some q

/-- The phase of a job after a phase of it has ended (R420): the next one opens. -/
def State.openPhase (s : State) (slot phase : Nat) : State :=
  match s.jobAt slot with
  | none => s
  | some j =>
      if j.phase != phase then s
      else
        match s.nextPhase slot s.launches.length phase with
        | none => s
        | some p => s.modJob j.id fun j => { j with phase := p }

/-- The level above a level, with the launch that opened it (R37). -/
def State.parentOf (s : State) (h : Word) : Option Word :=
  let slot := hJob h
  match hKind h with
  | 1 => some (handle 2 slot (hLidx h) 0 0)
  | 2 => (s.launch slot (hLidx h)).bind fun l => if l.counted then some (handle 3 slot l.graph 0 0) else none
  | 3 => (s.launches.find? fun l => l.job == slot && l.graph == hLidx h).map fun l => handle 4 slot l.phase 0 0
  | 4 => some (handle 5 slot 0 0 0)
  | _ => none

/-- What follows when a level ends (R38, R419 to R422): a launch's edges are flushed, its streaming watermarks closed,
launches after a cancelled one end cancelled, a phase's end opens the next. -/
def State.levelEnded (s : State) (h : Word) (st : CStatus) : State :=
  let slot := hJob h
  match hKind h with
  | 2 =>
      let s := s.modLaunch slot (hLidx h) fun l => { l with ended := some st }
      s.launches.foldl (fun s l =>
        if l.job != slot then s else
        ((List.range l.edges.length).zip l.edges).foldl (fun s (i, e) =>
          if e.pred == hLidx h then s.later (.edgeFlush slot l.lidx i) else s) s) s
  | 4 => (s.openPhase slot (hLidx h)).updateEligible
  | _ => s

/-- A member of a level has ended: its count falls by one, and at zero the level ends in its turn (R38, R40). -/
def State.levelDown (s : State) (h : Word) (cancelled : Bool) : Nat → State
  | 0 => s
  | n + 1 =>
      match s.counter h with
      | none => s
      | some c =>
          if c.status != .running then s else
          let v := c.value - 1
          let bad := c.tainted || cancelled
          let st : CStatus := if v = 0 then (if bad then .cancelled else .complete) else .running
          let s := s.modCounter h fun c => { c with value := v, tainted := bad, status := st }
          if v = 0 then
            let s := s.levelEnded h st
            match s.parentOf h with
            | some p => s.levelDown p (st == .cancelled) n
            | none => s
          else s

/-- A counter as it is made. -/
def Counter.fresh (h : Word) (v : Nat) : Counter := ⟨h, v, .running, false⟩
/-- Add a counter. -/
def State.addCounter (s : State) (c : Counter) : State := { s with counters := s.counters ++ [c] }

/-- One more member of a level. -/
def State.levelUp (s : State) (h : Word) : State := s.modCounter h fun c => { c with value := c.value + 1 }

/-- The physical ranges of a run of virtual addresses of a job, page by page (R441). -/
def State.ranges (s : State) (root : Nat) : Nat → Nat → Nat → List (Nat × Nat)
  | 0, _, _ => []
  | fuel + 1, va, n =>
      if n = 0 then [] else
      match walkFrom s va root walkLevels with
      | .leaf e bits =>
          let k := min n (2 ^ bits - va % 2 ^ bits)
          let pa := (⟨e, bits, false⟩ : Page).paddr s va
          (pa, pa + k) :: s.ranges root fuel (va + k) (n - k)
      | _ =>
          let k := min n (4096 - va % 4096)
          s.ranges root fuel (va + k) (n - k)

/-- The physical ranges of a key's region (R295). -/
def State.keyRanges (s : State) (k : Key) : List (Nat × Nat) :=
  match s.jobAt k.job with
  | none => []
  | some j =>
      let n := (k.lenm1.toNat + 1) * 128
      s.ranges j.root (n / 4096 + 2) (k.base.toNat * 128) n

/-- Write to the home the words of a key's region that a core holds, and release the key (R297). -/
def State.giveKey (s : State) (n core : Nat) : State :=
  ((s.keyRanges (s.key n)).foldl (fun s (lo, hi) => s.flushRange core lo hi) s).releaseKey n

/-- An entry that a unit's end has released is freed, unless a waiter takes the key (R417). -/
def Key.freed (k : Key) : Key := if !k.held && k.granted.isNone then { k with valid := false } else k
/-- The keys of peers that a unit holds are released (R298, R399), once what its core holds dirty or registered is home; no
answer is waited for. -/
def State.releaseFarKeys (s : State) (c core : Nat) : State :=
  let s' : State := if s.farKeys.any (·.1 == c) then s.dropAll core else s
  let s' : State := { s' with farKeys := s.farKeys.filter (·.1 != c) }
  (s.farKeys.filter (·.1 == c)).foldl (fun s (_, n) =>
    let m := { noMsg with src := s.dev, dst := n / 4096 % 256, tag := BitVec.ofNat 16 s.nextTag, aux := 1, addr := w64 n }
    State.sendOrDrop { s with nextTag := s.nextTag + 1 } 0x08 m) s'

/-- Every key that a context holds is released as `rrel` would (R39, R298). -/
def State.releaseKeysOf (s : State) (c core : Nat) : State :=
  let s := s.releaseFarKeys c core
  s.keys.foldl (fun s (n, k) =>
    if k.held && k.holder == c && k.remoteHolder.isNone then (s.giveKey n core).modKey n Key.freed else s) s

/-- The accumulator bands a unit holds become free (R39, R316). -/
def State.freeBands (s : State) (c : Nat) : State :=
  { s with clusters := s.clusters.map fun (k, x) =>
      (k, { x with holders := x.holders.map fun h => if h == some c then none else h }) }

/-- What a unit's commit would have posted goes with the unit (R37). -/
def RelayCommit.forget (c : Nat) (m : RelayCommit) : RelayCommit := if m.ctx == c then { m with post := none } else m
/-- A unit's commits post nothing more. -/
def State.forgetCommits (s : State) (c : Nat) : State :=
  { s with clusters := s.clusters.map fun (k, x) =>
      (k, { x with relay := { x.relay with commit := x.relay.commit.map (RelayCommit.forget c) } }) }

/-- A unit leaves its context: the slot becomes complete, keys and bands are released, and the Steward is called; a
handler's completion comes back to the context it serves (R37, R298, R427, R431). The keys of a unit that is switched out are
released from the core on which it last ran. -/
def State.endUnit (s : State) (n : Nat) (l : Launch) (u : Unit') (st : CStatus) : State :=
  let core := coreOf (if n < 2 ^ 20 then n else u.home.getD 0)
  let s := ((s.releaseKeysOf n core).freeBands n).forgetCommits n
  let s := s.modUnit l.job l.lidx u.no fun u =>
    { u with status := if st == .cancelled then .cancelled else .complete, allocated := false }
  let s := if n < 2 ^ 20 then
      let s := s.unpinRegion core (slotSpBase (s.slot n))
      let s := (s.setSlotState n 3).setCtx n Ctx.zero
      let s : State := { s with
        bind := aset s.bind n (s.slot n &&& ~~~ (8#512))
        requests := ((s.leaveKeys n).requests.filterMap (RemoteReq.leave n)).filter fun r => r.party.ctx != n }
      (s.leaveKeys n).later (.stewardBind (dieOf n))
    else { s with residue := adel s.residue (n - 2 ^ 20) }
  let s := s.modCounter (unitHandle l u) fun c => { c with value := 0, status := st }
  let s := s.levelDown (handle 2 l.job l.lidx 0 0) (st == .cancelled) 4
  match l.serves with
  | some v => if v.event then s else s.later (.handlerComplete v.ctx)
  | none => s

/-- A unit begins an operation that its counter counts (R37). -/
def State.opBegin (s : State) (n : Nat) : State :=
  match s.unitOf n with
  | some (l, u) => s.levelUp (unitHandle l u)
  | none => s

/-- A stop of the unit by a cancel (R39): blocks and queued copies are abandoned, tokens are not written and posts not
made; drains and Relay runs go with it; no trap (DEDUCED, log 57). -/
def State.abandon (s : State) (n : Nat) : State :=
  { s with
    cores := s.cores.map fun (k, c) => (k, { c with copies := c.copies.filter fun (p : Copy) => p.ctx != n })
    clusters := s.clusters.map fun (k, c) => (k, { c with
      matq := c.matq.filter fun (m : MatOp) => m.ctx != n
      drains := c.drains.filter fun (d : Drain) => d.ctx != n
      relay := { c.relay with
        runs := c.relay.runs.filter fun (r : RelayRun) => r.ctx != n
        chain := c.relay.chain.filter fun (r : RelayRec) =>
          !(c.relay.runs.any fun (q : RelayRun) => q.ctx == n && q.id == r.run)
        recirc := c.relay.recirc.filter fun (r : RelayRec) =>
          !(c.relay.runs.any fun (q : RelayRun) => q.ctx == n && q.id == r.run)
        leaving := c.relay.leaving.filter fun (r : RelayRec) =>
          !(c.relay.runs.any fun (q : RelayRun) => q.ctx == n && q.id == r.run) } }) }

/-- The context that holds a unit stopped in place, STATE 0b10 (R426). -/
def State.heldIn (s : State) (l : Launch) (u : Unit') : Option Nat :=
  (List.range Config.ctxCount).find? fun c =>
    slotState (s.slot c) == 2 && jobSlot (slotJob (s.slot c)) == l.job && slotLidx (s.slot c) == l.lidx
      && slotUnit (s.slot c) == u.no

/-- Cancel one unit (R39): nothing when it has ended (DEDUCED, log 57). -/
def State.cancelUnit (s : State) (l : Launch) (u : Unit') : State :=
  let stopped := fun s : State =>
    let n := savedTag u.savea.toNat
    let at' := s.heldIn l u
    let s := (s.abandon n).endUnit n l u .cancelled
    match at' with
    | some c => (s.setSlotState c 3).later (.stewardBind (dieOf c))
    | none => s
  match u.status with
  | .complete | .cancelled => s
  | .waiting _ => s.endUnit (2 ^ 20) l u .cancelled
  | .saved _ => stopped s
  | .bound c => if slotState (s.slot c) == 2 then stopped s else (s.abandon c).endUnit c l u .cancelled

/-- The units beneath a level that a handle names (R37, R39). -/
def State.beneath (s : State) (h : Word) : List (Launch × Unit') :=
  let slot := hJob h
  (s.launches.filter fun l => l.job == slot && (match hKind h with
    | 1 | 2 => l.lidx == hLidx h
    | 3 => l.graph == hLidx h
    | 4 => l.counted && l.phase == hLidx h
    | _ => true)).flatMap fun l =>
      (l.units.filter fun u => hKind h != 1 || u.no == hUnit h).map fun u => (l, u)

/-- Whether a graph or phase counter lies beneath a level (R37). -/
def State.isBeneath (s : State) (h : Word) (c : Counter) : Bool :=
  let slot := hJob h
  hJob c.handle == slot
  && (match hKind h, hKind c.handle with
    | 5, 4 => true
    | 5, 3 => true
    | 4, 3 => s.launches.any fun l => l.job == slot && l.graph == hLidx c.handle && l.phase == hLidx h
    | _, _ => false)

/-- A counter that a cancel above it has ended. -/
def Counter.cancel (c : Counter) : Counter :=
  if c.status == .running then { c with value := 0, status := .cancelled } else c

/-- The open graphs and phases beneath a cancelled level end cancelled with it (R39). -/
def State.closeBeneath (s : State) (h : Word) : State :=
  { s with counters := s.counters.map fun c => if s.isBeneath h c then c.cancel else c }

/-- Cancel a level or an arrival counter (R39, R40, R310): 0 cancelled now, 1 already complete, 2 already cancelled
(DEDUCED, log 57). -/
def State.cancelLevel (s : State) (h : Word) : Nat × State :=
  match s.counter h with
  | none => (1, s)
  | some c =>
      match c.status with
      | .complete => (1, s)
      | .cancelled => (2, s)
      | .running =>
          if hKind h = 6 then (0, s.modCounter h fun c => { c with status := .cancelled })
          else
            let s := s.modCounter h fun c => { c with tainted := true }
            let s := (s.beneath h).foldl (fun s (l, u) =>
              match s.launch l.job l.lidx with
              | none => s
              | some l' =>
                  match l'.units.find? fun v => v.no == u.no with
                  | some u' => s.cancelUnit l' u'
                  | none => s) s
            let s := s.closeBeneath h
            match s.counter h with
            | none => (0, s)
            | some c =>
                if c.status == .running then
                  let s := s.modCounter h fun c => { c with value := 0, status := .cancelled }
                  let s := s.levelEnded h .cancelled
                  match s.parentOf h with
                  | some p => (0, s.levelDown p true 4)
                  | none => (0, s)
                else (0, s)

/-- Whether the operations of a halted unit have all completed (R37, R221). -/
def State.unitIdle (s : State) (c : Nat) : Bool :=
  let x := s.ctx c
  x.halted && x.queue.isEmpty && x.run.isNone
    && !(s.cores.any fun (_, k) => k.copies.any fun p => p.ctx == c)
    && !(s.clusters.any fun (_, k) => k.drains.any (fun d => d.ctx == c) || k.matq.any (fun m => m.ctx == c)
          || k.relay.runs.any fun r => r.ctx == c)

/-- An operation of a unit has completed; the last one of a halted unit completes the unit, or delivers a fault that
is still held, late, at the halt (R37, R120, R221). -/
def State.settleUnit (s : State) (n : Nat) : State :=
  if n ≥ 2 ^ 20 || slotState (s.slot n) != 1 || !s.unitIdle n then s
  else
    let x := s.ctx n
    match x.held with
    | h :: _ => s.later (.trapDelivery ⟨n, .ctl⟩ h.code h.tval true)
    | [] =>
      match x.imprecise with
      | (k, t) :: _ => s.later (.trapDelivery ⟨n, .ctl⟩ k t true)
      | [] =>
        match s.unitOf n with
        | some (l, u) => s.endUnit n l u .complete
        | none => (s.setSlotState n 3).setCtx n Ctx.zero

/-- An operation that the unit's counter counted has completed (R37). -/
def State.opEnd (s : State) (n : Nat) : State :=
  match s.unitOf n with
  | some (l, u) => (s.modCounter (unitHandle l u) fun c => { c with value := c.value - 1 }).settleUnit n
  | none => s.settleUnit n

end Sys2Proof.Machine
end

