-- ==== Sys2Proof/Machine/Code.lean ====
section
/-! DEFINITION. Instruction lines: their fetch (R174, R175, R229), valid targets (R176), and the entries of kernels
(R379, R391, R431). -/

namespace Sys2Proof.Machine

/-- The 32 halfwords of a line from its bytes (R7, R174). -/
def halvesOf (bs : List Byte) : List Half := (List.range 32).map fun i => BitVec.ofNat 16 (leNat ((bs.drop (2 * i)).take 2))

/-- The line of an instruction address. -/
def lineOf (pc : Word) : Word := pc &&& ~~~ (63#64)
/-- The head's index in its line. -/
def headOf (pc : Word) : Nat := (pc.toNat % 64) / 2

/-- The published run of lowered Lortar code of a context's job that holds an address (R368, R387). -/
def State.runAt (s : State) (c : Nat) (a : Nat) : Option (Job × Translation) :=
  (s.jobOf c).bind fun j =>
    (j.translations.find? fun t => t.published && t.base ≤ a && a < t.base + t.len).map fun t => (j, t)

/-- Translate a line for an instruction fetch (R176, R441, R442). -/
def State.fetchPage (s : State) (c : Nat) (a : Word) : R Nat :=
  let va := (lineOf a).toNat
  if a.toNat ≥ 2 ^ 57 then .trap 0x20 a s
  else if Config.spWindow ≤ va then .trap 0x21 a s
  else
    (s.pageOf c va true).bind fun (p, k) s =>
      match p with
      | none => .trap k a s
      | some p =>
          let pa := p.paddr s va
          if p.space = 2 then .trap 0x21 a s
          else if unpopulated pa then .trap 0x20 a s
          else
            match p.refuses s c .fetch with
            | some k => .trap k a s
            | none => .ok pa s

/-- An instruction cache takes a line as a tracked copy; the line it has held longest goes when it is full (R229)
(DESIGN CHOICE, log 67). -/
def State.fillIcache (s : State) (core : Nat) (key : LineKey) (bs : List Byte) : State :=
  let s := s.useL2 (nodeOfCore core) (core / 16 % 4) key true
  let s := s.modCore core fun c =>
    { c with icache := ((key.base, bs) :: c.icache.filter (·.1 != key.base)).take Config.icacheLines }
  s.unrecord.record core key

/-- The 128-byte line of an instruction fetch: the copy of the core's instruction cache, else the current values, read as a
tracked load reads them (R145, R229). -/
def State.codeLine (s : State) (c : Nat) (a : Word) (pa : Nat) : R (List Byte) :=
  let core := coreOf c
  let key := rowLine pa
  match afind? (s.core core).icache key.base with
  | some bs => (s.consume pa a).andThen fun s => .ok bs s
  | none =>
      if s.owns pa then
        let asked := if s.words.isEmpty then R.done s
          else s.peersFirst (.trackedLoad false) core key (rowElem a 4 .load 1) (footprint key)
        asked.andThen fun s => (s.consume pa a).andThen fun s =>
          let s := s.nodeRequest none core (.trackedLoad false) key (footprint key)
          let bs := Memory.readBytes s.mem key.base 128
          .ok bs (s.fillIcache core key bs)
      else
        (R.gather (List.range 32) s fun i s => s.peerLoad core key (rowElem a 4 .load 3) (key.base + 4 * i)).bind fun ws s =>
          let bs := ws.flatMap fun w => leBytes 4 w
          .ok bs (if s.dies.any fun (_, d) => d.l2.any fun x => x.tracked && x.key == key then s.fillIcache core key bs else s)

/-- The 64 bytes of the instruction line at an address (R174, R229). -/
def State.fetchBytes (s : State) (c : Nat) (a : Word) : R (List Byte) :=
  (s.fetchPage c a).bind fun pa s => (s.codeLine c a pa).bind fun bs s => .ok ((bs.drop (pa % 128)).take 64) s

/-- The halfwords of the instruction line at an address (R174, R229). -/
def State.fetchLine (s : State) (c : Nat) (a : Word) : R (List Half) :=
  (s.fetchBytes c a).bind fun bs s => .ok (halvesOf bs) s

/-- Halfword h of a line. -/
def halfAt (hs : List Half) (h : Nat) : Half := hs[h]?.getD 0

/-- The total of TL of the first n heads, nothing when one of them is zero or overruns (R174, R176). -/
def tailsBefore (hs : List Half) : Nat → Option Nat
  | 0 => some 0
  | i + 1 =>
      match tailsBefore hs i with
      | none => none
      | some t =>
          let h := halfAt hs i
          if h = 0 || i + 1 + t + headTl h > 32 then none else some (t + headTl h)

/-- The conditions of R176 on the line of a target. -/
def targetOk (hs : List Half) (h : Nat) : Bool :=
  match tailsBefore hs h with
  | none => false
  | some t => h < 32 - t

/-- CheckTarget (R176): the causes of a transfer's target, in their order, with TVAL the target. A run of lowered code is
entered at its lines. -/
def State.checkTarget (s : State) (c : Nat) (a : Word) : R PUnit :=
  if a.getLsbD 0 then .trap 0x22 a s
  else if a.toNat ≥ 2 ^ 57 then .trap 0x20 a s
  else if (s.runAt c a.toNat).isSome then
    (s.fetchPage c a).andThen fun s => if a.toNat % 64 = 0 then R.done s else .trap 0x03 a s
  else
    match s.fetchLine c a with
    | .trap k _ s => .trap k a s
    | .stall w s => .stall w s
    | .ok hs s => if targetOk hs (headOf a) then R.done s else .trap 0x03 a s

/-- A fetched instruction (R174): nothing at the end of the heads of a line, an overrun, or a head with its tail and the
next address (R175). -/
inductive Fetched where
  | endOfHeads
  | overrun
  | head (h : Half) (tail : List Half) (next : Word)
  deriving DecidableEq, Repr

/-- The instruction at head i of a line at an address (R174, R175). -/
def fetchHead (hs : List Half) (line : Word) (i : Nat) : Fetched :=
  match tailsBefore hs i with
  | none => .overrun
  | some t =>
      let h := halfAt hs i
      if i ≥ 32 - t || h = 0 then .endOfHeads
      else
        let n := headTl h
        if i + 1 + t + n > 32 then .overrun
        else
          let after := i + 1 ≥ 32 - (t + n) || halfAt hs (i + 1) = 0
          .head h ((hs.drop (32 - t - n)).take n) (if after then line + 64 else line + w64 (2 * (i + 1)))

/-- The base of the section of a kind in a loaded image (R377, R379). -/
def Image.base (g : Image) (kind : Nat) : Nat := ((g.sections.find? (·.kind == kind)).map (·.base)).getD 0

/-- Lortar words of a kernel: from its LOFF to the next higher one, the last to the end of section 3 (R470). -/
def Image.words (g : Image) (k : Kernel) : Nat :=
  let len := ((g.sections.find? (·.kind == 3)).map (·.len)).getD 0
  let ends := g.kernels.filterMap fun q => if k.loff.toNat < q.loff.toNat && q.loff != BitVec.allOnes 64 then some q.loff.toNat else none
  ((ends.min?).getD len - k.loff.toNat) / 8

/-- The first gap of n bytes between runs in rising order, from an address up to the heap's end (R388). -/
def firstFit (n limit : Nat) : Nat → List (Nat × Nat) → Option Nat
  | at', [] => if at' + n ≤ limit then some at' else none
  | at', (b, l) :: r => if at' + n ≤ b then some at' else firstFit n limit (b + l) r

/-- A free run of a job's code heap, lowest address first (R388). -/
def Job.freeRun (j : Job) (n : Nat) : Option Nat :=
  let runs := sortBy (·.1) (j.translations.map fun t => (t.base, t.len))
  firstFit n (j.heapBase + j.heapBytes) j.heapBase runs

/-- The address of the stub of function-table entry n (R384). -/
def Image.stub (g : Image) (n : Nat) : Word := w64 (g.stubBase + 64 * n)

/-- Write an address into the TARGET field of every function-table entry of a kernel, ascending (R387, R390). -/
def State.setTargets (s : State) (id : BitVec 32) (g : Image) (kidx : Nat) (target : Nat → Word) : State :=
  ((List.range g.entries.length).zip g.entries).foldl (fun s (n, k) =>
    if k = kidx then s.jobWrite id (g.base 6 + 16 * n) (bytes8 (target n)) else s) s

/-- The aligned 64-bit words of a run of a job's memory. -/
def State.wordsIn (s : State) (id : BitVec 32) (va n : Nat) : List Nat :=
  (List.range (n / 8)).map fun i => s.jobNat id (va + 8 * i) 8

/-- The words of a kernel of an image (R350). -/
def State.kernelWords (s : State) (id : BitVec 32) (g : Image) (k : Kernel) : List Nat :=
  s.wordsIn id (g.base 3 + k.loff.toNat) (8 * g.words k)
/-- Bytes of the lowered code of a kernel with these words, in whole granules (R369, R386) (DEDUCED, log 37). -/
def loweredLen (ws : List Nat) : Nat := roundUp ((ws.length + 1 + Config.moreLines ws) * 64) 4096

/-- What keeps a translation of a job live once all its contexts are stopped (R389): the words of the save areas of its
units, which hold every address named there, and the words of their stacks in use. -/
def State.liveAddrs (s : State) (j : Job) : List Nat :=
  s.launches.flatMap fun l =>
    if l.job != jobSlot j.id then [] else
    l.units.flatMap fun u =>
      if !u.allocated then [] else
      let sp := s.jobNat j.id (u.savea.toNat + 0x110) 8
      s.wordsIn j.id u.savea.toNat 0xA0000 ++ s.wordsIn j.id (roundUp sp 8) (u.stack.toNat - sp)

/-- Contexts of a job that run. -/
def State.runningOf (s : State) (id : BitVec 32) : List Nat :=
  s.bind.filterMap fun (c, r) => if slotState r == 1 && slotJob r == id then some c else none

/-- Evict cold translations, oldest publication first, until a run of n bytes is free (R390). -/
def State.evict (s : State) (id : BitVec 32) (g : Image) (n : Nat) (live : List Nat) : List Translation → State
  | [] => s
  | t :: r =>
      match s.jobById id with
      | none => s
      | some j =>
          if (j.freeRun n).isSome then s
          else if live.any fun a => t.base ≤ a && a < t.base + t.len then s.evict id g n live r
          else
            let s := s.setTargets id g t.kidx g.stub
            (s.modJob id fun j => { j with translations := j.translations.filter (· != t) }).evict id g n live r

/-- Reclaim (R390): every context of the job stops as a pre-emption stops it, liveness is judged, cold translations are
evicted, and the contexts are resumed. -/
def State.reclaim (s : State) (j : Job) (g : Image) (n : Nat) : State :=
  let cs := s.runningOf j.id
  let s := cs.foldl State.preempt s
  let s := s.evict j.id g n (s.liveAddrs j) (sortBy (·.order) j.translations)
  cs.foldl (fun s c => s.later (.go c)) s

/-- The address of the published translation of a kernel, made now when there is none (R386, R387, R391); no address
when the code heap has no room. -/
def State.translate (s : State) (id : BitVec 32) (kidx : Nat) : Option Nat × State :=
  match s.jobById id with
  | none => (none, s)
  | some j =>
      match j.translations.find? (·.kidx == kidx), j.image with
      | some t, _ => (some t.base, s)
      | none, none => (none, s)
      | none, some g =>
          match g.kernels[kidx]? with
          | none => (none, s)
          | some k =>
              let ws := s.kernelWords id g k
              let n := loweredLen ws
              let s := if (j.freeRun n).isSome then s else
                s.reclaim j g n
              match (s.jobById id).bind fun (j : Job) => j.freeRun n with
              | none => (none, s)
              | some b =>
                  let s := s.jobWrite id b ((List.range n).map (Config.loweredByte ws b))
                  let s := s.modJob id fun j =>
                    { j with translations := j.translations ++ [⟨kidx, b, n, true, s.nextId⟩] }
                  let s : State := { s with nextId := s.nextId + 1 }
                  (some b, s.setTargets id g kidx fun _ => w64 b)

/-- The entry of a kernel of a job: the native one when it is selected (R379), otherwise its translation (R391). -/
def State.kernelEntry (s : State) (id : BitVec 32) (kidx : Nat) : Option Word × State :=
  match (s.jobById id).bind fun (j : Job) => j.image.bind fun (g : Image) => g.kernels[kidx]?.map fun k => (g, k) with
  | none => (none, s)
  | some (g, k) =>
      if k.native then (some (w64 (g.base 4) + k.noff), s)
      else
        let (a, s) := s.translate id kidx
        (a.map w64, s)

end Sys2Proof.Machine
end

