-- ==== Sys2Proof/Machine/Ops.lean ====
section
/-! DEFINITION. The named operations that meanings share: timelines and posts (R65, R66, R158, R178), faults held for a
context (R120, R161), taking a cause and going back from one (R430 to R440), the binding and the stopping of contexts
(R36, R67, R427), transfers (R176), and the issue of an instruction with its gates and its settling (R16, R168, R187,
R195). -/

namespace Sys2Proof.Machine

/-- Write bytes of the save area of a unit that is saved (R66: what completes while a context is switched out). -/
def State.savedWrite (s : State) (n o : Nat) (bs : List Byte) : State :=
  match s.unitOf n with
  | none => s
  | some (l, _) =>
      match s.jobAt l.job with
      | none => s
      | some j => s.jobWrite j.id (n - 2 ^ 20 + o) bs

/-- A ticket's operation has completed: its number is eligible to advance T (R65, R119). -/
def State.complete (s : State) (n : Nat) (tk : Option Ticket) : State :=
  match tk with
  | none => s
  | some k =>
      let s := s.modOwner n fun x => x.modTl k.tl fun t => t.complete k.num
      if n < 2 ^ 20 then s
      else s.savedWrite n (0x708 + 16 * k.tl.toNat) (leBytes 8 ((s.owner n).timeline k.tl).t)

/-- A copy has completed: its token register receives its number, or 0 without one, and stands for its completion until
it is first read (R66, R119, R158). -/
def State.tokenDone (s : State) (n : Nat) (token : Option SReg) (tk : Option Ticket) : State :=
  match token with
  | none => s
  | some k =>
      let v := w64 (postNum tk)
      let scp : Scope := match tk with | some t => t.scp | none => 0
      let s := s.modOwner n fun x =>
        { x.setSreg k v with
          pend := x.pend.filter (·.1 != k)
          tokenScopes := (k, scp) :: x.tokenScopes.filter (·.1 != k) }
      if n < 2 ^ 20 then s
      else
        let mask := (s.owner n).pend.foldl (fun m p => m ||| 2 ^ p.1.toNat) 0
        (s.savedWrite n (0x100 + 8 * k.toNat) (bytes8 v)).savedWrite n 0x300 (leBytes 8 mask)

/-- Take a number for a post gate (R65): the ticket. -/
def State.ticketFor (s : State) (p : PostGate) : Ticket := ⟨p.tl, (s.myCtx.timeline p.tl).p + 1, p.scp⟩
/-- A strip in a serial region has made the post of an instruction (R268). -/
def Strip.postedAt (pc : Word) (t : Strip) : Strip := if t.region.isSome then { t with posted := pc :: t.posted } else t
/-- P rises when the instruction issues (R65). -/
def State.tookPost (s : State) (k : Ticket) : State :=
  (s.modCtx s.me fun x => x.modTl k.tl fun t => { t with p := k.num }).modMyStrip (Strip.postedAt s.cur.pc)

/-- The context's first timeline wait in issue order, of those still waiting, is that of a party; so is any when none waits
(R345). -/
def Ctx.firstWaiter (x : Ctx) (p : Place) : Bool := x.waiters.head?.all (· == p)

/-- A fault held for the context is delivered at a party's wait for a timeline to reach a value (R120, R290, R345). -/
def Ctx.heldAt (x : Ctx) (p : Place) (tl : TL) (thr : Nat) : Option HeldFault :=
  x.held.find? fun h => (h.tl == some tl && h.num ≤ thr) || (h.anyWait && x.firstWaiter p)

/-- Wait until T of a timeline reaches a value, then acquire at a scope; faults held for such a wait come first (R120,
R158, R178, R290, R345). -/
def State.waitTimeline (s : State) (tl : TL) (thr : Nat) (scp : Scope) : R PUnit :=
  match s.myCtx.heldAt s.cur.party.place tl thr with
  | some h => .trap h.code h.tval (s.deliverHeld h)
  | none =>
      s.syncPoint.andThen fun s =>
        if (s.myCtx.timeline tl).t < thr then .stall (.timeline tl thr) s
        else R.done (s.acquire (coreOf s.me) scp.toNat)

/-- Wait at a wait gate (R168, R178). -/
def State.waitGate (s : State) (g : Gates) : R PUnit :=
  match g.wait with
  | none => R.done s
  | some w => (s.rdS w.thr).bind fun thr s => s.waitTimeline w.tl thr.toNat w.scp

/-- Transfer to a target that passes its checks; it is fetched anew (R176, R229). -/
def State.jump (s : State) (a : Word) : R PUnit :=
  (s.checkTarget s.me a).andThen fun s => R.done (State.refetch { s with cur := { s.cur with next := a } })

/-- CTXID of a context (R48). -/
def State.ctxid (s : State) (c : Nat) : Nat := s.dev * 2 ^ 10 + c

/-- Causes after which a context goes on at the next address (R223, R224, R431). -/
def resumesNext (c : Code) : Bool := c == 0xE0 || 0xF0 ≤ c.toNat

/-- The 64 bytes of a trap record (R437). -/
structure TrapRecord where
  cause : Code
  flags : Nat
  striprec : Nat
  ctx : Nat
  epc : Word
  tval : Word
  stripb : Nat
  vstart : Nat
  lane : Nat
  lpc : Word
  engno : Nat
  engtl : Nat

/-- A trap record as the device writes it, with DISP = 1 (R437). -/
def TrapRecord.bytes (r : TrapRecord) : List Byte :=
  [r.cause] ++ leBytes 1 r.flags ++ leBytes 1 r.striprec ++ leBytes 1 1 ++ leBytes 4 r.ctx ++ bytes8 r.epc
    ++ bytes8 r.tval ++ leBytes 8 r.stripb ++ leBytes 4 r.vstart ++ leBytes 4 r.lane ++ bytes8 r.lpc
    ++ leBytes 8 r.engno ++ leBytes 1 r.engtl ++ zeros 7

/-- Whether a cause is a fault of a block found after the `halt` of its context (R221); a breakpoint is no fault (R225, R226)
(DEDUCED, log 28). -/
def State.afterHalt (s : State) (code : Code) : Bool :=
  s.cur.party.place != .ctl && s.myCtx.halted && code != 0xC0 && code != 0xC1

/-- The record of a cause that the issuing party raises (R34, R221, R437) (DEDUCED, log 28). -/
def State.recordOf (s : State) (code : Code) (tval : Word) : TrapRecord :=
  let p := s.cur.party
  let inStrip := p.place != .ctl
  let t := (s.myStrip).stopped
  let lane := match p.place with | .lane _ q => some q | _ => none
  let idx := ((s.myCtx.ordered.findIdx? fun u => u.stripb == placeStripb p.place).getD 0)
  { cause := code
    flags := (if s.cur.late || s.afterHalt code then 1 else 0) + (if inStrip then 2 else 0) + (if lane.isSome then 4 else 0)
      + (if s.cur.engine.isSome then 16 else 0)
    striprec := if inStrip then idx else 0
    ctx := s.ctxid p.ctx
    epc := if s.afterHalt code then s.myCtx.haltPc else s.cur.pc
    tval := tval
    stripb := if inStrip then placeStripb p.place else 0
    vstart := if inStrip then t.vstart else 0
    lane := lane.getD 0
    lpc := if lane.isSome then s.cur.pc else 0
    engno := match s.cur.engine with | some h => h.num | none => 0
    engtl := match s.cur.engine with | some h => (h.tl.map (·.toNat)).getD 0 | none => 0 }

/-- NAME of the handler (R431). -/
def trapName : List Byte := [0x74, 0x72, 0x61, 0x70] ++ zeros 28
/-- The kernel index of a job's handler (R431) (DEDUCED, log 27). -/
def Image.handler (g : Image) : Option Nat :=
  g.kernels.findIdx? fun k => k.name == trapName && k.sig == 0x10200000000000CC

/-- A unit before it is placed. -/
def Unit'.fresh (no : Nat) (args : List Word) (age : Nat) : Unit' :=
  { no := no, args := args, argp := 0, stack := 0, tblk := 0, savea := 0, status := .waiting age, allocated := false
    lastBind := 0, home := none, everBound := false }

/-- Launch the handler of a job as one unit at priority 7 on the die of a context, its argument block in fresh memory of the job
(R374, R431, R432); it takes the next launch index of the job and lies in no graph. Nothing when the job has none, or its
translation, its index or its counters find no room (DEDUCED, log 27). -/
def State.launchHandler (s : State) (c : Nat) (l : Launch) (u : Unit') (record save : Word) (event : Bool) :
    Option State :=
  match s.jobAt l.job with
  | none => none
  | some j =>
      match j.image.bind fun (g : Image) => g.handler.bind fun k => g.kernels[k]?.map fun q => (k, q) with
      | none => none
      | some (k, q) =>
          if j.nextLidx > 65535 || (s.counters.filter fun c => hJob c.handle == l.job).length + 2 > 65536 then none else
          match s.kernelEntry j.id k with
          | (none, _) => none
          | (some e, s) =>
              let (a, s) := s.allocVa l.job 64 attrW
              let s := s.jobWrite j.id a (bytes8 record ++ bytes8 save ++ List.replicate 48 0)
              let h : Launch :=
                { job := l.job, lidx := j.nextLidx, entry := e, prio := 7, dies := 2 ^ dieOf c, gang := false
                  quant := 0, graph := 65536, phase := 0, seed := 0, edges := [], relay := q.flags.getLsbD 1
                  stackBytes := if q.stack = 0 then 2 ^ 20 else q.stack
                  spbase := 0, splen := 0
                  units := [{ Unit'.fresh 0 [record, save, 0, 0, 0, 0, 0, 0] s.now with argp := w64 a }]
                  eligible := some s.now, serves := some ⟨c, l.lidx, u.no, record, event⟩, ended := none }
              let s := s.modJob j.id fun j => { j with nextLidx := j.nextLidx + 1 }
              let s := (s.addCounter (Counter.fresh (handle 2 l.job h.lidx 0 0) 1)).addCounter
                (Counter.fresh (handle 1 l.job h.lidx 0 0) 1)
              some (State.later { s with launches := s.launches ++ [h] } (.stewardBind (dieOf c)))

/-- What follows a delivery (R431, R433): the handler, or what stands for it. Cause 0xE0 is the Concierge's. -/
def State.deliver (s : State) (c : Nat) (code : Code) : State :=
  if code == 0xE0 then s else
  match s.unitOf c with
  | none => s
  | some (l, u) =>
      let debug := code == 0xC0 || code == 0xC1
      let base := w64 (slotSave (s.slot c))
      match l.serves with
      | some v =>
          if debug then s
          else
            let s := s.modTele fun t => { t with hfault := t.hfault + 1 }
            let s := if v.event then s else s.jobWrite (slotJob (s.slot c)) (v.record.toNat + 3) [1]
            s.cancelUnit l u
      | none =>
          match s.launchHandler c l u base base false with
          | some s => s
          | none => if debug then s else s.later (.handlerComplete c)

/-- Take a cause (R430): the context stops and is saved, the trap record is written, STATE becomes 0b10, CAUSE, EPC and
TVAL take the record's values, and the handler is launched (DEDUCED, log 26). -/
def State.takeCause (s : State) (code : Code) (tval : Word) : State :=
  let c := s.me
  let s := s.stopOps c
  let x := s.ctx c
  let r := s.recordOf code tval
  let pc := if s.cur.party.place == .ctl then (if resumesNext code then s.cur.next else s.cur.pc) else x.pc
  let job := slotJob (s.slot c)
  let base := slotSave (s.slot c)
  let s := s.modTele fun t =>
    { t with
      pcons := if code == 0xA0 then t.pcons + 1 else t.pcons
      crcmm := if code == 0xA1 then t.crcmm + 1 else t.crcmm }
  let s := s.setCtx c { x with cause := code, epc := r.epc, tval := tval, strips := x.strips.map Strip.stopped }
  let s := (s.saveCtx c true pc).jobWrite job base r.bytes
  s.deliver c code

/-- A fresh bind of a context as its bind record says (R67, R427). -/
def State.bindFresh (s : State) (c : Nat) : State :=
  let r := s.slot c
  let args := (List.range 8).map fun i => w64 (s.jobNat (slotJob r) ((r.extractLsb' 384 64).toNat + 8 * i) 8)
  let x := Ctx.zero
  let x := (x.setSreg 2 (r.extractLsb' 256 64)).setSreg 3 (r.extractLsb' 320 64)
  let x := ((List.range 8).zip args).foldl (fun (x : Ctx) (i, a) => x.setSreg (BitVec.ofNat 6 (4 + i)) a) x
  let x := { x with seed := r.extractLsb' 160 32, pc := r.extractLsb' 448 64 }
  ((s.setCtx c x).setSlotState c 1).acquire (coreOf c) 4

/-- Resume a context from its save area (R162, R427, R440); a restore that fails a check raises cause 0x02 with PC = EPC,
and the context stays saved. -/
def State.resumeCtx (s : State) (c : Nat) : State :=
  let job := slotJob (s.slot c)
  let base := slotSave (s.slot c)
  match s.restored job base with
  | some x =>
      let s := (s.setCtx c { x with wants := s.now }).retag (savedTag base) c
      let s : State := { s with residue := adel s.residue base }
      (s.setSlotState c 1).acquire (coreOf c) 4
  | none =>
      let pc := w64 (s.jobNat job (base + 0x600 + 152) 8)
      let r : TrapRecord := ⟨0x02, 0, 0, s.ctxid c, pc, 0, 0, 0, 0, 0, 0, 0⟩
      let s := s.jobWrite job base r.bytes
      let s := s.jobWrite job (base + 0x47) [BitVec.ofNat 8 (s.jobNat job (base + 0x47) 1 ||| 1)]
      s.deliver c 0x02

/-- What GO does (R427): a fresh bind from STATE 0b00 or 0b11, a resumption from 0b10, nothing but a count at 0b01. GO is
clear afterwards. A unit that has halted, and whose operations all completed while it was switched out, completes (R37, R221). -/
def State.goCtx (s : State) (c : Nat) : State :=
  let s : State := { s with bind := aset s.bind c (s.slot c &&& ~~~ (1#512)) }
  if slotState (s.slot c) == 1 then s.modTele fun t => { t with goign := t.goign + 1 }
  else if slotState (s.slot c) == 2 then
    let s := s.resumeCtx c
    if (s.ctx c).halted then s.settleUnit c else s
  else s.bindFresh c

/-- Instructions that a serial region refuses (R268), but for width-changing `vcvt` and reads of bound registers. -/
def regionBans : Instr → Bool
  | .vcompress _ _ | .vexpand _ _ | .vslideup _ _ | .vslidedn _ _ | .vgather _ _ | .vredsum _ _ | .vfredo _ _
  | .vfredt _ _ | .vredmin _ _ | .vredmax _ _ | .vunpk _ _ | .mand _ _ | .mor _ _ | .mxor _ _ | .mnot _ _ | .mmv _ _
  | .msbf _ _ | .msif _ _ | .msof _ _ | .mcnt _ _ | .many _ _ | .mfirst _ _ | .vlset _ _ | .vloop _ _ | .vbany _ _
  | .vbnone _ _ | .vdetach _ _ | .vrejoin _ | .vend _ | .vqpop _ _ | .tld _ _ | .tst _ _ | .tmma _ _ | .tmmaS _ _
  | .tdrain _ _ | .tcvt _ _ | .tzero _ _ | .rrun _ _ => true
  | _ => false

/-- The serial region in which the issuing strip is (R268). -/
def State.myRegion (s : State) : Option Region :=
  match s.cur.party.place with
  | .strip _ => s.myStrip.region
  | _ => none

/-- A strip in a region with one more wait gate met (R168, R268). -/
def Strip.gatedAt (pc : Word) (t : Strip) : Strip :=
  { t with region := t.region.map fun r => { r with gated := r.gated ++ [pc] } }

/-- The wait gate of an instruction of a serial region holds the strip once, before the first lane that runs it (R268). -/
def State.regionGates (s : State) (g : Gates) (r : Region) : R PUnit :=
  if r.gated.contains s.cur.pc then R.done s
  else (s.waitGate g).andThen fun s => R.done (s.modMyStrip (Strip.gatedAt s.cur.pc))

/-- The post gate that acts when an instruction completes for a lane of the strip: in a serial region for the last lane, once
(R268) (DEDUCED, log 19). -/
def State.lanePost (s : State) (g : Gates) (lane : Nat) : Option PostGate :=
  if lane + 1 < s.myStrip.vl || s.myStrip.posted.contains s.cur.pc then none else g.post

/-- The post gate that acts when the instruction completes (R168, R178, R268). -/
def State.duePost (s : State) (g : Gates) : Option PostGate :=
  match s.myRegion with
  | some r => s.lanePost g r.lane
  | none => g.post

/-- The snapshot registers that an instruction of a strip reads beside scalar sources of its form: a head's watermark address, a
vector instruction's SB, the base, stride and scale operands of an access, a tile's operands (R18, R231, R274, R313). -/
def snapReads : Instr → List SReg
  | .setvlW _ o => [o.sx]
  | .vadd _ o | .vsub _ o | .vmul _ o | .vmulh _ o | .vmin _ o | .vmax _ o | .vand _ o | .vor _ o | .vxor _ o
  | .vsll _ o | .vsrl _ o | .vsra _ o | .vsadd _ o | .vssub _ o | .vdiv _ o | .vrem _ o | .vfadd _ o | .vfsub _ o
  | .vfmul _ o | .vfdiv _ o | .vfma _ o | .vfms _ o | .vfmin _ o | .vfmax _ o | .vmseq _ o | .vmsne _ o | .vmslt _ o
  | .vmsle _ o | .vmsltu _ o | .vmsleu _ o | .vmfeq _ o | .vmflt _ o | .vmfle _ o | .vmv _ o | .vslideup _ o
  | .vslidedn _ o | .vmerge _ o | .vredsum _ o | .vfredo _ o | .vfredt _ o | .vredmin _ o | .vredmax _ o
  | .vcvt _ o | .vpilgrim _ o | .vdetach _ o | .vbindn _ o => if o.bs == 1 && o.im == 0 then [o.sb] else []
  | .vld _ o | .vst _ o | .vlds _ o | .vsts _ o | .vldx _ o | .vstx _ o | .vldff _ o | .vtld _ o | .vtst _ o =>
      [o.sa, o.sb]
  | .vaadd _ o | .vafadd _ o | .vamin _ o | .vamax _ o | .vafmin _ o | .vafmax _ o | .vrsadd _ o | .vrsfadd _ o => [o.sy]
  | .tld _ o | .tst _ o | .tmma _ o | .tmmaS _ o | .tdrain _ o | .tcvt _ o | .tzero _ o => [o.sa, o.sb]
  | _ => []

/-- An instruction of a strip reads a poisoned word of its snapshot (R462). -/
def State.snapPoisoned (s : State) (i : Instr) : Bool :=
  match s.cur.party.place with
  | .strip _ => (snapReads i).any s.myStrip.snapBad
  | _ => false

/-- Perform an instruction whose post gate, if one acts, has a number left: its own checks and effects, then the number is taken
and, unless the effects carry the ticket on to a later completion (`own`), posted; a post gate synchronises first (R65, R161,
R178). -/
def State.posting (s : State) (post : Option PostGate) (own : Bool) (body : Option Ticket → State → R PUnit) : R PUnit :=
  match post with
  | none => body none s
  | some p =>
      if (s.myCtx.timeline p.tl).p + 1 ≥ 2 ^ 64 then .trap 0x85 0 s
      else
        s.syncPoint.andThen fun s =>
          let k := s.ticketFor p
          (body (some k) s).andThen fun s =>
            let s := s.tookPost k
            R.done (if own then s else s.complete s.me (some k))

/-- Issue an instruction (R187, R168, R178): its form, its wait gate, the number of its post gate; then its own checks and
effects. `own` says that the effects carry the ticket on to a later completion; otherwise the post is made here. -/
def State.issueR (s : State) (i : Instr) (own : Bool) (body : Option Ticket → State → R PUnit) : R PUnit :=
  match formCause i false s.cur.party.place with
  | some c => .trap c 0 s
  | none =>
      if s.snapPoisoned i then .trap 0xA0 0 s else
      let g := gatesOf i
      match s.myRegion with
      | some r =>
          if regionBans i then .trap 0x10 0 s
          else (s.regionGates g r).andThen fun s => s.posting (s.duePost g) own body
      | none => (s.waitGate g).andThen fun s => s.posting (s.duePost g) own body

/-- A lane's program counter is set. -/
def Strip.setLanePc (t : Strip) (p : Nat) (pc : Word) : Strip :=
  { t with lanePcs := t.lanePcs.map fun x => if x.1 == p then (p, pc) else x, laneWait := t.laneWait.filter (·.1 != p) }

/-- A breakpoint's pass of the strip itself or of a lane is used up when the strip or lane has issued; in a serial region, which
goes back to its vqpop, when the matched instruction has (R225, R268) (DEDUCED, log 29). -/
def Strip.unpassed (q : Option Nat) (pc : Word) (t : Strip) : Strip :=
  { t with bpPass := t.bpPass.filter fun e => e.1 != q || (t.region.isSome && e.2 != pc) }

/-- A party no longer waits at a timeline (R345). -/
def Ctx.goesOn (p : Place) (x : Ctx) : Ctx := { x with waiters := x.waiters.filter (· != p) }

/-- The issuing party goes on at the next address (R175); the one-issue pass of a breakpoint is used up (R225). -/
def State.advance (s : State) : State :=
  let s := s.modCtx s.me (Ctx.goesOn s.cur.party.place)
  match s.cur.party.place with
  | .ctl => s.modCtx s.me fun x => { x with pc := s.cur.next, wait := none, bpPass := none }
  | .strip _ => s.modMyStrip fun t => Strip.unpassed none s.cur.pc { t with pc := s.cur.next, wait := none, late := [] }
  | .lane _ p => s.modMyStrip fun t => (t.setLanePc p s.cur.next).unpassed (some p) s.cur.pc

/-- A party waits, at a timeline behind those of its context that do already (R345). -/
def Ctx.waitsAt (p : Place) (w : WaitCond) (x : Ctx) : Ctx :=
  match w with
  | .timeline _ _ => if x.waiters.contains p then x else { x with waiters := x.waiters ++ [p] }
  | _ => Ctx.goesOn p x

/-- The issuing party stalls: it has not issued, and issues again from the start (R16, R196). -/
def State.park (s : State) (w : WaitCond) : State :=
  let s := (s.modCtx s.me (Ctx.waitsAt s.cur.party.place w)).holdBackTo s.cur.pc
  match s.cur.party.place with
  | .ctl => s.modCtx s.me fun x => { x with wait := some w }
  | .strip _ => s.modMyStrip fun t => { t with wait := some w }
  | .lane _ p => s.modMyStrip fun t => { t with laneWait := (p, w) :: t.laneWait.filter (·.1 != p) }

/-- What an issue leads to: the next address, a stall, or the cause taken (R195, R430). -/
def State.settle (r : R PUnit) : State :=
  match r with
  | .ok _ s => s.dropAnswers.advance
  | .stall w s => s.park w
  | .trap c t s => s.dropAnswers.takeCause c t

/-- A meaning whose post, if it has one, is made when the instruction has performed. -/
def issue (i : Instr) (s : State) (body : State → R PUnit) : Host.Outcome State Fault Refusal :=
  .next (State.settle (s.issueR i false fun _ s => body s))

/-- A meaning that starts an operation which carries the ticket. -/
def issueOwn (i : Instr) (s : State) (body : Option Ticket → State → R PUnit) : Host.Outcome State Fault Refusal :=
  .next (State.settle (s.issueR i true body))

end Sys2Proof.Machine
end

