-- ==== Sys2Proof/Machine/Control.lean ====
section
/-! DEFINITION. Control registers (R44 to R48, R54, R55, R59, R68, R212 to R214), the reply queue's read (R217), system
calls (R224), software causes and breakpoints (R223, R226). -/

namespace Sys2Proof.Machine

/-- A control register: its places, whether it may be written, its width (R44). -/
structure CReg where
  places : Places
  rw : Bool
  width : Nat
  deriving DecidableEq, Repr

/-- The control registers of R44. -/
def creg? (n : Nat) : Option CReg :=
  if n = 0x00 then some ⟨⟨true, true, true⟩, false, 18⟩
  else if n = 0x01 then some ⟨⟨true, true, false⟩, false, 14⟩
  else if n = 0x02 then some ⟨⟨true, true, false⟩, false, 10⟩
  else if n = 0x03 then some ⟨⟨false, true, false⟩, true, 13⟩
  else if n = 0x04 then some ⟨⟨true, true, true⟩, false, 64⟩
  else if n = 0x05 then some ⟨⟨true, false, false⟩, true, 32⟩
  else if n = 0x06 then some ⟨⟨true, false, false⟩, true, 5⟩
  else if n = 0x07 then some ⟨⟨true, false, false⟩, true, 7⟩
  else if n = 0x08 then some ⟨⟨true, false, false⟩, false, 11⟩
  else if n = 0x09 then some ⟨⟨true, false, false⟩, false, 32⟩
  else if n = 0x0A then some ⟨⟨true, false, false⟩, false, 24⟩
  else if 0x10 ≤ n && n ≤ 0x17 then some ⟨⟨true, false, false⟩, true, 24⟩
  else if 0x20 ≤ n && n ≤ 0x3F then some ⟨⟨true, false, false⟩, false, 14⟩
  else if n = 0x40 then some ⟨⟨true, false, false⟩, false, 8⟩
  else if n = 0x41 || n = 0x42 then some ⟨⟨true, false, false⟩, false, 64⟩
  else if n = 0x48 then some ⟨⟨true, false, false⟩, false, 5⟩
  else if 0x50 ≤ n && n ≤ 0x5F then some ⟨⟨true, true, false⟩, false, 64⟩
  else if 0x60 ≤ n && n ≤ 0x63 then some ⟨⟨false, true, false⟩, false, 32⟩
  else none

/-- The cause of an access from a place the map does not list (R45). -/
def cregPlace (p : Places) : Place → Option Code
  | .ctl => if p.c then none else some 0x01
  | .strip _ => if p.b then none else some 0x04
  | .lane _ _ => if p.w then none else some 0x08

/-- A mask of the dirty registers of a list of high-water lengths (R68). -/
def dirtyMask (l : List Nat) : Nat := ((List.range l.length).zip l).foldl (fun m (k, h) => if h > 0 then m + 2 ^ k else m) 0

/-- VDIRTY (R68) (DEDUCED, log 60). -/
def Ctx.vdirty (x : Ctx) : Nat := dirtyMask (x.v.toList.map (·.hw))
/-- MTDIRTY (R68) (DEDUCED, log 60). -/
def Ctx.mtdirty (x : Ctx) : Nat := dirtyMask (x.m.toList.map (·.hw) ++ x.t.toList.map (·.hw))

/-- Positions of a Relay run's destination that are final (R52, R335): those before the first record still to leave. -/
def RelayRun.final (r : RelayRun) : Nat := ((List.range r.vl).find? fun p => !r.gone.contains p).getD r.vl

/-- VPROGn (R52): the progress index of vn of the strip in flight with the lowest STRIPB, 0x2000 when no block runs, and also
while a block runs of which no strip is in flight, for which R52 gives no value (DESIGN CHOICE, log 10). An instruction of the
model completes whole, so only a load or atomic that stalls midway and a Relay run in flight lag behind. -/
def State.vprog (s : State) (n : Nat) : Nat :=
  let x := s.myCtx
  if x.run.isNone then 0x2000
  else
    match x.ordered.filter (!·.resting) with
    | [] => 0x2000
    | t :: _ =>
        match t.late.find? (·.1 == n), (s.cluster (clusterOf s.me)).relay.runs.find? fun r =>
            r.ctx == s.me && r.stripb == t.stripb && r.vd ≤ n && n < r.vd + 8 with
        | some (_, p), _ => p
        | none, some r => r.final
        | none, none => vlmax t.vtype

/-- The value of a control register where it may be read (R44, R46, R212). -/
def State.creg (s : State) (n : Nat) : Word :=
  let x := s.myCtx
  let strip := s.cur.party.place != .ctl
  let t := s.myStrip
  if n = 0x00 then w64 (s.ctxid s.me)
  else if n = 0x01 then (if strip then w64 t.vl else x.vl.setWidth 64)
  else if n = 0x02 then (if strip then t.vtype.setWidth 64 else x.vtype.setWidth 64)
  else if n = 0x03 then w64 t.vstart
  else if n = 0x04 then (if strip then w64 t.stripb else x.stripb)
  else if n = 0x05 then x.seed.setWidth 64
  else if n = 0x06 then x.fctl.setWidth 64
  else if n = 0x07 then x.fmtst.setWidth 64
  else if n = 0x08 then x.mgrant.setWidth 64
  else if n = 0x09 then w64 x.vdirty
  else if n = 0x0A then w64 x.mtdirty
  else if n < 0x18 then (x.tsh[n - 0x10]?.getD 0).setWidth 64
  else if n < 0x40 then w64 (s.vprog (n - 0x20))
  else if n = 0x40 then x.cause.setWidth 64
  else if n = 0x41 then x.epc
  else if n = 0x42 then x.tval
  else if n = 0x48 then w64 x.rq.length
  else if n < 0x60 then w64 (x.timeline (BitVec.ofNat 4 (n - 0x50))).t
  else (t.lpc[n - 0x60]?.getD 0).setWidth 64

/-- `crd` (R45, R212). -/
def execCrd (g : Gates) (o : FormC) (s : State) : Host.Outcome State Fault Refusal :=
  issue (.crd g o) s fun s =>
    match creg? o.code.toNat with
    | none => .trap 0x01 0 s
    | some r =>
        match cregPlace r.places s.cur.party.place with
        | some c => .trap c 0 s
        | none => s.wrS o.sx (s.creg o.code.toNat)

/-- Write a control register whose value has passed its checks (R50, R55, R213). -/
def State.setCreg (s : State) (n : Nat) (v : Word) : State :=
  if n = 0x03 then s.modMyStrip fun t => { t with vstart := v.toNat, recv := none }
  else s.modCtx s.me fun x =>
    if n = 0x05 then { x with seed := v.setWidth 32 }
    else if n = 0x06 then { x with fctl := v.setWidth 5 }
    else if n = 0x07 then { x with fmtst := v.setWidth 7 }
    else
      { x with
        tsh := x.tsh.setIfInBounds (n - 0x10) (v.setWidth 24)
        t := x.t.setIfInBounds (n - 0x10) { (x.t[n - 0x10]?.getD TReg.zero) with tag := 0 } }

/-- `cwr` (R213): the checks in their order. -/
def execCwr (g : Gates) (o : FormC) (s : State) : Host.Outcome State Fault Refusal :=
  issue (.cwr g o) s fun s =>
    let n := o.code.toNat
    match creg? n with
    | none => .trap 0x01 0 s
    | some r =>
        match cregPlace r.places s.cur.party.place with
        | some c => .trap c 0 s
        | none =>
            if !r.rw then .trap 0x02 0 s
            else
              (s.rdS o.sx).bind fun v s =>
                let x := v.toNat
                let tsh := 0x10 ≤ n && n ≤ 0x17
                if x ≥ 2 ^ r.width then .trap 0x02 0 s
                else if tsh && (x / 2 ^ 14 % 4 != 0 || x / 8 % 32 != 0) then .trap 0x02 0 s
                else if n = 0x06 && x % 8 > 5 then .trap 0x02 0 s
                else if tsh && !tshOk x then .trap 0x0B 0 s
                else R.done (s.setCreg n v)

/-- `rqget` (R29, R64, R217). -/
def execRqget (g : Gates) (o : FormC) (s : State) : Host.Outcome State Fault Refusal :=
  issue (.rqget g o) s fun s =>
    match s.myCtx.rq with
    | [] => if !s.myCtx.queue.isEmpty || s.myCtx.run.isSome then .stall .replyEntry s else .trap 0x84 0 s
    | v :: r =>
        (s.dstReady o.sx).andThen fun s => R.done ((s.modCtx s.me fun x => { x with rq := r }).setS o.sx v)

/-- A system call's service as a happening (R409); nothing for a number the Concierge does not provide. -/
def serviceOf (n : Nat) (c : Caller) : Option Event :=
  if n = 0x00 then some (.syscallVersion c) else if n = 0x01 then some (.syscallLaunch c)
  else if n = 0x02 then some (.syscallWait c) else if n = 0x03 then some (.syscallCancel c)
  else if n = 0x10 then some (.syscallTranslate c) else if n = 0x20 then some (.openQueue c)
  else if n = 0x21 then some (.closeQueue c) else if n = 0x22 then some (.openGroup c)
  else if n = 0x23 then some (.openWindow c) else if n = 0x24 then some (.exposeRegion c)
  else if n = 0x30 then some (.syscallExit c) else none

/-- The poison of a saved s register goes, and its line's when no other saved register of the line holds poison (R462). -/
def State.mendSaved (s : State) (c : Nat) (k : Nat) : State :=
  let base := slotSave (s.slot c)
  let x := aget Ctx.zero s.residue base
  if !x.spoison.getLsbD k then s
  else
    let p := x.spoison &&& ~~~ (1#64 <<< k)
    let s : State := { s with residue := aset s.residue base { x with spoison := p } }
    if (List.range 16).any fun i => p.getLsbD (k / 16 * 16 + i) then s
    else s.jobPoison (slotJob (s.slot c)) false (base + 0x100 + 8 * k)

/-- Write a saved context's s register in its save area. -/
def State.setSavedS (s : State) (c : Nat) (k : Nat) (v : Word) : State :=
  State.mendSaved (s.jobWrite (slotJob (s.slot c)) (slotSave (s.slot c) + 0x100 + 8 * k) (bytes8 v)) c k
/-- A saved context's s register. -/
def State.savedS (s : State) (c : Nat) (k : Nat) : Word :=
  w64 (s.jobNat (slotJob (s.slot c)) (slotSave (s.slot c) + 0x100 + 8 * k) 8)
/-- The Concierge answers a native context: results into s4 and s5 of its saved state, and the context is resumed at the
next address (R224). -/
def State.answerNative (s : State) (c : Nat) (r0 : Word) (r1 : Option Word) : State :=
  let s := s.setSavedS c 4 r0
  let s := match r1 with | some v => s.setSavedS c 5 v | none => s
  if slotState (s.slot c) == 2 then s.resumeCtx c else s

/-- `scall` (R224): the release of R161, cause 0xE0, and the service asked for. -/
def execScall (g : Gates) (o : FormI) (s : State) : Host.Outcome State Fault Refusal :=
  let c := s.me
  match s.issueR (.scall g o) false fun _ s => s.syncPoint.andThen fun s => .trap 0xE0 0 s with
  | .trap k t s =>
      let s := State.settle (.trap k t s)
      if k != 0xE0 then .next s
      else
        match serviceOf o.imm.toNat (.native c) with
        | some e => .next (s.later e)
        | none => .next (s.answerNative c (BitVec.allOnes 64) none)
  | r => .next (State.settle r)

/-- `trap` (R223). -/
def execTrap (g : Gates) (o : FormC) (s : State) : Host.Outcome State Fault Refusal :=
  issue (.trap g o) s fun s => (s.rdS o.sx).bind fun v s => .trap o.code v s

/-- `bkpt` (R226, R227). -/
def execBkpt (tl : BitVec 3) (s : State) : Host.Outcome State Fault Refusal :=
  issue (.bkpt tl) s fun s => .trap 0xC1 0 s

end Sys2Proof.Machine
end

