-- ==== Sys2Proof/Machine/Vec.lean ====
section
/-! DEFINITION. What vector instructions share (R231 to R241): the second source, the checks of groups, the taking of
stream groups, tag checks, and the writing of results; integer arithmetic on codes (R249). -/

namespace Sys2Proof.Machine

/-- The second source of form V: a vector group, or a code for every position (R233). -/
inductive Src where
  | vec (v : Nat)
  | code (x : Nat)
  deriving DecidableEq, Repr

/-- The second source of an instruction at w bytes (R233). -/
def State.second (s : State) (o : FormV) (w : Nat) : Src :=
  if o.bs == 0 then .vec o.vb.toNat
  else if o.im == 1 then .code (wrap (8 * w) o.sb.toInt)
  else .code ((if o.sb = 0 then 0 else s.myStrip.snap[o.sb.toNat]?.getD 0).toNat % 2 ^ (8 * w))

/-- The second source at a position. -/
def Src.at (x : Src) (t : Strip) (w p : Nat) : Nat :=
  match x with
  | .vec v => t.el v w p
  | .code c => c
/-- The vector group of a second source. -/
def Src.regs : Src → List Nat
  | .vec v => [v]
  | .code _ => []

/-- The scalar operand SB of a strip (R194). -/
def State.snapS (s : State) (k : SReg) : Word := if k = 0 then 0 else s.myStrip.snap[k.toNat]?.getD 0

/-- A strip as it had taken groups before (R287). -/
def Strip.consumedAs (t0 t : Strip) : Strip := { t with consumed := t0.consumed }

/-- Go back to the streams, and the buffer and queues they take from, of an earlier state: an instruction that did not
complete has taken no group (R116, R195, R196). -/
def State.backTo (s s0 : State) : State :=
  let x0 := s0.myCtx
  let s := State.modCtx { s with jobs := s0.jobs } s.me fun x =>
    { x with streams := x0.streams, satchel := x0.satchel, satchelTag := x0.satchelTag }
  s.modMyStrip (Strip.consumedAs s0.myStrip)

/-- The result of an instruction that has taken stream groups: unless it completes, they are put back. -/
def R.orBack (r : R α) (s0 : State) : R α :=
  match r with
  | .ok a s => .ok a s
  | .trap c t s => .trap c t (s.backTo s0)
  | .stall w s => .stall w (s.backTo s0)

/-- The checks of an instruction's groups, each with its grouping (R51), of a bound destination (R117), and the taking of
the groups of bound sources (R116); then what the instruction does. -/
def State.vgroups (s : State) (srcs : List (Nat × Nat)) (dst : Option (Nat × Nat)) (body : State → R PUnit) : R PUnit :=
  if (srcs ++ dst.toList).any fun r => r.1 % r.2 != 0 then .trap 0x0C 0 s
  else if dst.any fun r => s.myCtx.groupBound s.myStrip.stripb r.1 r.2 then .trap 0x0D 0 s
  else (((s.takeGroups (srcs.map (·.1))).andThen body).orBack s)

/-- Whether a strip writes anything: VSTART is below VL, or a lane of a serial region runs (R50, R239, R268)
(DEDUCED, log 13). -/
def Strip.begins (t : Strip) : Bool :=
  match t.region with
  | some r => !r.inactive
  | none => t.vstart < t.vl

/-- Results at the positions that are attached: a detached lane's element is never written (R31, R272). -/
def Strip.attachedOnly (t : Strip) (xs : List (Nat × Nat)) : List (Nat × Nat) := xs.filter fun x => !t.isDetached x.1

/-- Write results at positions of a group with a tag and flags; the instruction completes (R31, R50, R58, R61, R72, R286). -/
def State.putLanes (s : State) (vd w g : Nat) (tag : Tag) (xs : List (Nat × Nat)) (fl : Flags) : State :=
  let s := s.modCtx s.me fun x => x.unpark vd g
  let s := s.modMyStrip fun t =>
    if t.begins then
      { ((t.putEls vd w ((t.attachedOnly xs).map fun x => (x.1, codeOf tag x.2))).tagGroup vd g tag) with vstart := 0 } else
      { t with vstart := 0 }
  s.addFlags fl

/-- Write bits of a mask register; the instruction completes (R50, R53). -/
def State.putBits (s : State) (k : MNum) (bs : List (Nat × Bool)) (fl : Flags) : State :=
  State.addFlags (s.modMyStrip fun t => { (if bs.isEmpty then t else t.putMask k bs) with vstart := 0 }) fl

/-- The active positions of an elementwise instruction (R234). -/
def State.positions (s : State) (o : FormV) : List Nat := s.myStrip.active o.msk o.mreg
/-- The active positions of a strip-wide instruction, which treats a VSTART below VL as 0 (R234, R239). -/
def Strip.wideActive (t : Strip) (msk : BitVec 1) (mk : MNum) : List Nat :=
  t.wide.filter fun p => (msk == 0 || t.mbit mk p) && !t.isDetached p

/-- Results of an elementwise instruction: none when a source element holds poison (R462). -/
def State.mapLanes (s : State) (ps : List Nat) (srcs : List Nat) (vd w g : Nat) (tag : Tag)
    (f : Strip → Nat → Nat × Flags) : R PUnit :=
  let t := s.myStrip
  if t.poisonedAt srcs w ps then .trap 0xA0 0 s
  else
    let rs := ps.map fun p => (p, f t p)
    R.done (s.putLanes vd w g tag (rs.map fun r => (r.1, r.2.1)) (rs.foldl (fun a r => a ||| r.2.2) 0))

/-- Sources carry a tag, every member the same (R57). -/
def State.tagsAre (s : State) (srcs : List Nat) (tag : Tag) : Bool :=
  let t := s.myStrip
  srcs.all fun v => t.groupTag v t.grp == some tag

/-- Rounding flags of the strip's FCTL: FTZ (R59). -/
def State.ftz (s : State) : Bool := ftzOf s.fctlOf

/-- A code of n bits read as R249 reads it. -/
def vInt (sg : Bool) (n x : Nat) : Int := if sg then sgn n x else (x : Int)
/-- Least value of n bits. -/
def loOf (sg : Bool) (n : Nat) : Int := if sg then -(2 ^ (n - 1) : Int) else 0
/-- Greatest value of n bits. -/
def hiOf (sg : Bool) (n : Nat) : Int := if sg then 2 ^ (n - 1) - 1 else 2 ^ n - 1

/-- `vadd` on codes. -/
def ivAdd (_ : Bool) (n a b : Nat) : Nat := (a + b) % 2 ^ n
/-- `vsub` on codes. -/
def ivSub (_ : Bool) (n a b : Nat) : Nat := wrap n ((a : Int) - b)
/-- `vmul` on codes. -/
def ivMul (_ : Bool) (n a b : Nat) : Nat := (a * b) % 2 ^ n
/-- `vmulh` on codes: the floor of the product divided by 2^w. -/
def ivMulh (sg : Bool) (n a b : Nat) : Nat := wrap n ((vInt sg n a * vInt sg n b) / (2 ^ n : Int))
/-- `vmin` on codes. -/
def ivMin (sg : Bool) (n a b : Nat) : Nat := if vInt sg n a ≤ vInt sg n b then a else b
/-- `vmax` on codes. -/
def ivMax (sg : Bool) (n a b : Nat) : Nat := if vInt sg n a ≤ vInt sg n b then b else a
/-- `vand` on codes. -/
def ivAnd (_ : Bool) (_ a b : Nat) : Nat := a &&& b
/-- `vor` on codes. -/
def ivOr (_ : Bool) (_ a b : Nat) : Nat := a ||| b
/-- `vxor` on codes. -/
def ivXor (_ : Bool) (_ a b : Nat) : Nat := a ^^^ b
/-- `vsll` on codes. -/
def ivSll (_ : Bool) (n a b : Nat) : Nat := a * 2 ^ (b % n) % 2 ^ n
/-- `vsrl` on codes. -/
def ivSrl (_ : Bool) (n a b : Nat) : Nat := a / 2 ^ (b % n)
/-- `vsra` on codes: the floor. -/
def ivSra (_ : Bool) (n a b : Nat) : Nat := wrap n (sgn n a / (2 ^ (b % n) : Int))
/-- `vsadd` on codes. -/
def ivSadd (sg : Bool) (n a b : Nat) : Nat := wrap n (max (loOf sg n) (min (hiOf sg n) (vInt sg n a + vInt sg n b)))
/-- `vssub` on codes. -/
def ivSsub (sg : Bool) (n a b : Nat) : Nat := wrap n (max (loOf sg n) (min (hiOf sg n) (vInt sg n a - vInt sg n b)))
/-- `vdiv` on codes: truncating; all ones for a zero divisor; overflow gives the dividend (R199). -/
def ivDiv (sg : Bool) (n a b : Nat) : Nat := if b = 0 then 2 ^ n - 1 else wrap n ((vInt sg n a).tdiv (vInt sg n b))
/-- `vrem` on codes: the dividend for a zero divisor (R199). -/
def ivRem (sg : Bool) (n a b : Nat) : Nat := if b = 0 then a else wrap n ((vInt sg n a).tmod (vInt sg n b))

/-- Integer formats of an operation (R249). -/
def okInt (f : Nat) (sc : Bool) : Bool := isIntFmt f && !sc
/-- f32, bf16 and f16 (R250). -/
def okWide (f : Nat) (sc : Bool) : Bool := isWideFmt f && !sc
/-- Integers and f32, bf16, f16 (R263). -/
def okIntWide (f : Nat) (sc : Bool) : Bool := okInt f sc || okWide f sc
/-- Any format (R256, R262). -/
def okAny (f : Nat) (_ : Bool) : Bool := f ≤ 26

/-- The operation format of a form V instruction of the issuing strip (R232). -/
def State.vformat (s : State) (o : FormV) (ok : Nat → Bool → Bool) : Except Code Tag :=
  s.myStrip.opFormat o.fv o.sc o.fmt ok true

end Sys2Proof.Machine
end

