-- ==== Sys2Proof/Machine/VecMem.lean ====
section
/-! DEFINITION. Vector loads and stores, MAJ 0x20 (R275 to R281), and vector atomics and reduction stores, MAJ 0x27 (R303,
R304). -/

namespace Sys2Proof.Machine

/-- VSTART of the issuing strip is set (R277). -/
def State.stopAt (s : State) (p : Nat) : State := s.modMyStrip fun t => { t with vstart := p }

/-- An access for each position in turn: it retires position by position, and stops with VSTART at the first that faults or
stalls (R277). -/
def State.overPositions : List Nat → State → (Nat → State → R PUnit) → R PUnit
  | [], s, _ => R.done s
  | p :: r, s, f =>
      match f p s with
      | .ok _ s => State.overPositions r s.dropAnswers f
      | .trap c t s => .trap c t (s.stopAt p)
      | .stall w s => .stall w (s.stopAt p)

/-- One element of the destination of a load (R72, R277). -/
def State.loaded (s : State) (vd w g : Nat) (tag : Tag) (p x : Nat) : State :=
  (s.modCtx s.me fun x => x.unpark vd g).modMyStrip fun t => t.putEl vd w p (codeOf tag x)

/-- Progress indices of a group of g registers whose instruction has retired the positions below p (R52). -/
def Strip.lateFrom (vd w g p : Nat) (t : Strip) : Strip :=
  { t with late := (List.range g).map fun i => (vd + i, min (1024 / w) (p - i * (1024 / w))) }

/-- A load that stalls midway: the progress index of each register it writes stands at the first element that has not retired
(R52). -/
def R.lagging (r : R PUnit) (vd w g : Nat) : R PUnit :=
  match r with
  | .stall c s => .stall c (s.modMyStrip fun t => Strip.lateFrom vd w g t.vstart t)
  | r => r

/-- The instruction has completed for every position: VSTART is 0, and a load gives its destination its tag
(R50, R58) (DEDUCED, log 13). -/
def State.completed (s : State) (load : Option (Nat × Nat × Tag)) : State :=
  s.modMyStrip fun t =>
    match load with
    | some (vd, g, tag) => if t.begins then { (t.tagGroup vd g tag) with vstart := 0 } else { t with vstart := 0 }
    | none => { t with vstart := 0 }

/-- The format of a vector access (R276); `scaled` says that a scaled format is accepted. -/
def State.mformat (s : State) (o : FormM) (store scaled : Bool) : Except Code Tag :=
  match s.myStrip.opFormat o.fv o.sc o.fmt okAny true with
  | .error c => .error c
  | .ok tag => if o.fv == 0 && tagScaled tag && !store && !scaled then .error 0x05 else .ok tag

/-- The scopes an access names: none when it is weak (R94, R278). -/
def scopesOf (ord : BitVec 2) (scp : Scope) : List Nat := if ord == 0 then [] else [scp.toNat]

/-- What an ordering modifier asks before an access: a store's fault held for the context is delivered first (R161). -/
def State.ordBefore (s : State) (ord : BitVec 2) : R PUnit := if ord == 0 then R.done s else s.syncPoint
/-- What an ordering modifier does after an access: an acquire (R158, R278). -/
def State.ordAfter (s : State) (ord : BitVec 2) (scp : Scope) : State :=
  if ord.getLsbD 0 then s.acquire (coreOf s.me) scp.toNat else s

/-- How the addresses of a vector access are made (R275). -/
inductive AddrMode where
  | unit
  | strided
  | indexed
  deriving DecidableEq, Repr

/-- The element width that a column access is held against its page with: none, so that cause 0x23 is raised, for e2m1 data at
another width than 8 bits and for bit-plane data of a unit access (R98) (DEDUCED, log 63). -/
def oriWidth (m : AddrMode) (f w : Nat) : Nat := if (f = 15 && w != 1) || (m == .unit && isBpFmt f) then 0 else w

/-- The element access of a vector access of data in a format: the scopes of its gates, and of its ordering modifier, are held
against the space (R94, R98). -/
def memElem (o : FormM) (m : AddrMode) (f : Nat) (gates : List Nat) (va : Word) (w : Nat) (k : Access) : Elem :=
  ⟨va, w, k, o.or == 1, oriWidth m f w, o.pol, scopesOf o.ord o.scp, gates⟩

/-- The unit address of element e (R97, R275). -/
def unitAddr (col : Bool) (base : Word) (e w : Nat) : Word :=
  if col then
    let b := base.toNat
    let sq := 16384 / w
    let j := b % sq / 128 + e
    w64 (b / sq * sq + j / (128 / w) * sq + j % (128 / w) * 128 + b % 128)
  else base + w64 (e * w)

/-- The registers of an index group (R275). -/
def Strip.indexGroup (t : Strip) : Nat := max 1 (t.grp * 4 / t.ewB)

/-- The checks of an index group (R275). -/
def Strip.indexCause (t : Strip) (vi : Nat) : Option Code :=
  let g := t.indexGroup
  if g > 8 || vi % g != 0 then some 0x0C
  else match t.groupTag vi g with
    | some tag => if tag == 5 || tag == 6 then none else some 0x05
    | none => some 0x05

/-- Idx(p) (R275). -/
def Strip.index (t : Strip) (vi p : Nat) : Word :=
  let x := t.el vi 4 p
  if (t.reg vi).tag == 5 then BitVec.ofInt 64 (sgn 32 x) else w64 x

/-- A(p) of a strip as it stands when the instruction issues (R275). -/
def Strip.vaddr (t : Strip) (o : FormM) (m : AddrMode) (p : Nat) : Word :=
  let reg := fun (k : SReg) => if k = 0 then 0 else t.snap[k.toNat]?.getD 0
  let base := reg o.sa
  let e := t.stripb + p
  match m with
  | .unit => unitAddr (o.or == 1) base e t.ewB
  | .strided => base + w64 e * reg o.sb
  | .indexed => base + t.index o.vi.toNat p

/-- Position p is the first of its scale slot among the positions of an instruction (R58, R279). -/
def firstOfSlot (ps : List Nat) (p : Nat) : Bool := (ps.find? fun q => q / 32 == p / 32) == some p

/-- A scale slot of a destination receives a byte (R58, R279, R281). -/
def State.gotScale (s : State) (vd p v : Nat) : State :=
  s.modMyStrip fun t => t.setReg (vd + p / 32 / 32) fun r => r.putScale (p / 32 % 32) v

/-- The scale byte of position p's slot of a scaled `vld`, read at the slot's first active position before it is written, and the
same for a vtld by its own reading (R279, R281). -/
def State.slotScale (s : State) (ps : List Nat) (p : Nat) (read : State → R Nat) : R (Option Nat) :=
  if firstOfSlot ps p then (read s).bind fun v s => .ok (some v) s else .ok none s

/-- The scale byte of the slot of position p in memory (R279). -/
def State.vldScale (s : State) (o : FormM) (p : Nat) : R Nat :=
  s.readElem s.me ⟨s.snapS o.sb + w64 ((s.myStrip.stripb + 32 * (p / 32)) / 32), 1, .load, false, 1, o.pol, [], []⟩

/-- The checks that `vld` to `vstx` make before the first position: format, groups, tags (R51, R275, R276). -/
def State.accessChecks (s : State) (o : FormM) (m : AddrMode) (store scaled : Bool) (k : Tag → State → R PUnit) : R PUnit :=
  fromE (s.mformat o store scaled) s fun tag =>
    if o.fv == 0 && scaled && o.sb != 0 && !tagScaled tag then .trap 0x02 0 s
    else
      let g := s.myStrip.grp
      let vd := o.vd.toNat
      let srcs := (if store then [vd] else []) ++ (if m == .indexed then [o.vi.toNat] else [])
      if vd % g != 0 then .trap 0x0C 0 s
      else if !store && s.myCtx.groupBound s.myStrip.stripb vd g then .trap 0x0D 0 s
      else
        ((s.takeGroups srcs).andThen fun s =>
          let t := s.myStrip
          let own := t.groupTag vd g
          if store && (own.isNone || (o.fv == 1 && own.map tagFmt != some (tagFmt tag))) then .trap 0x05 0 s
          else
            match (if m == .indexed then t.indexCause o.vi.toNat else none) with
            | some c => .trap c 0 s
            | none => k tag s).orBack s

/-- Position p of a vector load of a strip t as it stood at issue: the element, and with the first active position of a slot of
a scaled format the slot's scale (R277, R279). -/
def State.loadAt (g : Gates) (o : FormM) (m : AddrMode) (tag : Tag) (t : Strip) (ps : List Nat) (p : Nat) (s : State) :
    R PUnit :=
  (s.readElem s.me (memElem o m (tagFmt tag) g.scopes (t.vaddr o m p) t.ewB .load)).bind fun v s =>
    (s.slotScale (if tagScaled tag then ps else []) p fun s => s.vldScale o p).bind fun sc s =>
      let s := s.loaded o.vd.toNat t.ewB t.grp tag p v
      R.done (match sc with | some x => s.gotScale o.vd.toNat p x | none => s)

/-- The place of a located byte that a lane stores: its physical address, or for a scratchpad page 2^60 and its backing
byte (R26). -/
def Target.place : Target → Nat
  | .pad _ off paddr _ => 2 ^ 60 + paddr + off
  | .phys pa _ => pa

/-- A lane of the block has stored a byte: the highest lane's value is kept, and whether a lower lane has stored since (R26). -/
def laneByte (lane place : Nat) (v : Byte) : List LaneByte → List LaneByte
  | [] => [⟨place, lane, v, false⟩]
  | b :: r =>
      if b.place = place then (if lane < b.lane then { b with overtaken := true } else ⟨place, lane, v, false⟩) :: r
      else b :: laneByte lane place v r

/-- The running block has stored bytes from one of its lanes (R26). -/
def BlockRun.stored (lane place n x : Nat) (r : BlockRun) : BlockRun :=
  { r with stores := (List.range n).foldl (fun l i => laneByte lane (place + i) (BitVec.ofNat 8 (x / 2 ^ (8 * i))) l) r.stores }

/-- The lane at position p of the strip has stored an element (R26). -/
def State.laneStored (s : State) (p : Nat) (e : Elem) (x : Nat) : R PUnit :=
  (s.locate s.me e).bind fun t s =>
    R.done (s.modCtx s.me fun c => { c with run := c.run.map (BlockRun.stored (s.myStrip.stripb + p) t.place e.n x) })

/-- The lane at position p of the strip stores an element (R26, R277). -/
def State.laneStore (s : State) (p : Nat) (e : Elem) (x : Nat) : R PUnit :=
  (s.writeElem s.me e x).andThen fun s => s.laneStored p e x

/-- Position p of a vector store (R72, R277). -/
def State.storeAt (g : Gates) (o : FormM) (m : AddrMode) (tag : Tag) (t : Strip) (p : Nat) (s : State) : R PUnit :=
  s.laneStore p (memElem o m (tagFmt tag) g.scopes (t.vaddr o m p) t.ewB .store) (codeOf tag (t.el o.vd.toNat t.ewB p))

/-- A vector load (R277 to R279). -/
def State.vload (s : State) (g : Gates) (o : FormM) (m : AddrMode) (scaledOk : Bool) : R PUnit :=
  s.accessChecks o m false scaledOk fun tag s =>
    let t := s.myStrip
    let w := t.ewB
    let gr := t.grp
    let vd := o.vd.toNat
    let ps := t.active o.msk o.mreg
    let scaled := tagScaled tag
    match ps with
    | [] => (s.ordBefore o.ord).andThen fun s => R.done ((s.ordAfter o.ord o.scp).completed (some (vd, gr, tag)))
    | p :: _ =>
        if scaled && t.stripb % 32 != 0 then .trap 0x22 (t.vaddr o m p) (s.stopAt p)
        else
          (s.ordBefore o.ord).andThen fun s =>
            ((State.overPositions ps s (State.loadAt g o m tag t ps)).lagging vd w gr).andThen fun s =>
              R.done ((s.ordAfter o.ord o.scp).completed (some (vd, gr, tag)))

/-- A vector store (R277 to R279). -/
def State.vstore (s : State) (g : Gates) (o : FormM) (m : AddrMode) : R PUnit :=
  s.accessChecks o m true false fun _ s =>
    let t := s.myStrip
    let w := t.ewB
    let vd := o.vd.toNat
    let ps := t.active o.msk o.mreg
    if t.poisonedAt [vd] w ps then .trap 0xA0 0 s
    else
      (s.ordBefore o.ord).andThen fun s =>
        (State.overPositions ps s (State.storeAt g o m (t.reg vd).tag t)).andThen fun s => R.done (s.completed none)

/-- `vld` (R279). -/
def execVld (g : Gates) (o : FormM) (s : State) : Host.Outcome State Fault Refusal :=
  issue (.vld g o) s fun s => s.vload g o .unit true
/-- `vst` (R279). -/
def execVst (g : Gates) (o : FormM) (s : State) : Host.Outcome State Fault Refusal :=
  issue (.vst g o) s fun s => s.vstore g o .unit
/-- `vlds` (R279). -/
def execVlds (g : Gates) (o : FormM) (s : State) : Host.Outcome State Fault Refusal :=
  issue (.vlds g o) s fun s => s.vload g o .strided false
/-- `vsts` (R279). -/
def execVsts (g : Gates) (o : FormM) (s : State) : Host.Outcome State Fault Refusal :=
  issue (.vsts g o) s fun s => s.vstore g o .strided
/-- `vldx` (R279). -/
def execVldx (g : Gates) (o : FormM) (s : State) : Host.Outcome State Fault Refusal :=
  issue (.vldx g o) s fun s => s.vload g o .indexed false
/-- `vstx` (R279). -/
def execVstx (g : Gates) (o : FormM) (s : State) : Host.Outcome State Fault Refusal :=
  issue (.vstx g o) s fun s => s.vstore g o .indexed

/-- The loads of `vldff`: the position at which it stops short, from its first one (R280). -/
def State.firstFault (g : Gates) (o : FormM) (tag : Tag) (t : Strip) : List Nat → Bool → State → R (Option Nat)
  | [], _, s => .ok none s
  | p :: r, first, s =>
      match s.readElem s.me (memElem o .unit (tagFmt tag) g.scopes (t.vaddr o .unit p) t.ewB .load) with
      | .ok v s => State.firstFault g o tag t r false (s.loaded o.vd.toNat t.ewB t.grp tag p v)
      | .stall w s => .stall w s
      | .trap c t s => if (c == 0x20 || c == 0x21) && !first then .ok (some p) s else .trap c t (s.stopAt p)

/-- `vldff` (R280): positions from VSTART, in a region the one lane that runs; detached lanes are not accessed (R31). -/
def execVldff (g : Gates) (o : FormM) (s : State) : Host.Outcome State Fault Refusal :=
  issue (.vldff g o) s fun s =>
    fromE (s.mformat o false false) s fun tag =>
      let t := s.myStrip
      let gr := t.grp
      let vd := o.vd.toNat
      if vd % gr != 0 then .trap 0x0C 0 s
      else if s.myCtx.groupBound t.stripb vd gr then .trap 0x0D 0 s
      else
        let ps := t.active 0 0
        (State.firstFault g o tag t ps true s).bind fun f s =>
          let stop := f.getD t.vl
          let all := match t.region with | some _ => ps | none => (List.range t.vl).drop t.vstart
          R.done ((s.putBits o.mreg (all.map fun p => (p, p < stop)) 0).modMyStrip fun u =>
            if t.begins then u.tagGroup vd gr tag else u)

/-- The words of a shape record in a register (R109). -/
def Strip.record (t : Strip) (v : Nat) : List Word := (List.range 18).map fun i => w64 ((t.reg v).get 8 i)

/-- The shape record of a tensor access (R109, R113, R115, R281) (DEDUCED, log 14). -/
def State.shapeIn (s : State) (v : Nat) (k : Shape → State → R α) : R α :=
  let t := s.myStrip
  if (t.reg v).tag != 25 then .trap 0x05 0 s
  else if t.poisonedAt [v] 8 (List.range 18) then .trap 0xA0 0 s
  else
    match Shape.check (t.record v) with
    | .error n => .trap 0x27 (w64 n) s
    | .ok h => k h s

/-- The width in bits a tensor format counts in `vtld` and `vtst`: 4 for e2m1 (R281). -/
def tensorBits (f : Nat) : Nat := if f = 15 then 4 else fmtBits f

/-- The checks of `vtld` and `vtst` (R281), and the causes of R114 that come before anything is written. -/
def State.tensorAccess (s : State) (g : Gates) (o : FormM) (store : Bool) (k : Shape → TensorAcc → List Nat → State → R PUnit) :
    R PUnit :=
  let vd := o.vd.toNat
  ((s.takeGroups ((if store then [vd] else []) ++ [o.vi.toNat])).andThen fun s =>
    s.shapeIn o.vi.toNat fun h s =>
      let t := s.myStrip
      let f := tagFmt h.ftag
      if tensorBits f != 8 * t.ewB then .trap 0x0F 0 s
      else if !h.orientOk (o.or == 1) then .trap 0x23 0 s
      else if vd % t.grp != 0 then .trap 0x0C 0 s
      else if !store && s.myCtx.groupBound t.stripb vd t.grp then .trap 0x0D 0 s
      else if store && (t.groupTag vd t.grp).map tagFmt != some f then .trap 0x05 0 s
      else
        let ps := t.active o.msk o.mreg
        match h.firstOutside [0] (ps.map fun p => t.stripb + p) with
        | some (y, x) => .trap 0x28 (w64 (y * 65536 + x)) s
        | none =>
            if store && t.poisonedAt [vd] t.ewB ps then .trap 0xA0 0 s
            else k h ⟨o.or == 1, o.pol, scopesOf o.ord o.scp, g.scopes⟩ ps s).orBack s

/-- The columns of the view block of position p that the view of a vector register has (R111, R112) (DEDUCED, log 14). -/
def State.viewBlock (s : State) (p : Nat) : List Nat :=
  let t := s.myStrip
  ((List.range 32).map fun i => (t.stripb + p) / 32 * 32 + i).filter fun x => t.stripb ≤ x && x < t.stripb + t.vl

/-- The scale of the slot of position p of a scaled tensor load: that of the view block of the slot's first position (R112,
R281). The view is one row of VL elements (R111): those from STRIPB on (DEDUCED, log 14). -/
def State.vtldScale (s : State) (h : Shape) (a : TensorAcc) (p : Nat) : R Nat :=
  s.loadScale s.me h a ((s.viewBlock (p / 32 * 32)).map fun x => (0, x))

/-- Position p of a tensor load of a strip t as it stood at issue (R111, R281). -/
def State.tensorAt (h : Shape) (a : TensorAcc) (vd : Nat) (t : Strip) (ps : List Nat) (p : Nat) (s : State) : R PUnit :=
  (s.loadTensor s.me h a 0 (t.stripb + p)).bind fun v s =>
    (s.slotScale (if tagScaled h.ftag then ps else []) p fun s => s.vtldScale h a p).bind fun sc s =>
      let s := s.loaded vd t.ewB t.grp h.ftag p v
      R.done (match sc with | some x => s.gotScale vd p x | none => s)

/-- `vtld` (R281). -/
def execVtld (g : Gates) (o : FormM) (s : State) : Host.Outcome State Fault Refusal :=
  issue (.vtld g o) s fun s => s.tensorAccess g o false fun h a ps s =>
    let t := s.myStrip
    let vd := o.vd.toNat
    (s.ordBefore o.ord).andThen fun s =>
      ((State.overPositions ps s (State.tensorAt h a vd t ps)).lagging vd t.ewB t.grp).andThen fun s =>
        R.done ((s.ordAfter o.ord o.scp).completed (some (vd, t.grp, h.ftag)))

/-- Position p of a tensor store; of elements that share no byte the block keeps which lane stored them (R26, R281). -/
def State.storeTensorAt (s : State) (h : Shape) (a : TensorAcc) (p x : Nat) : R PUnit :=
  let i := h.index 0 (s.myStrip.stripb + p)
  let f := tagFmt h.ftag
  (s.storeTensor s.me h a 0 (s.myStrip.stripb + p) x).andThen fun s =>
    if !h.inside i || isBpFmt f || f = 15 then R.done s
    else s.laneStored p (a.elem h (h.addr i) .store) (codeOf h.ftag x)

/-- `vtst` (R281). -/
def execVtst (g : Gates) (o : FormM) (s : State) : Host.Outcome State Fault Refusal :=
  issue (.vtst g o) s fun s => s.tensorAccess g o true fun h a ps s =>
    let t := s.myStrip
    (s.ordBefore o.ord).andThen fun s =>
      (State.overPositions ps s fun p s => s.storeTensorAt h a p (t.el o.vd.toNat t.ewB p)).andThen fun s =>
        R.done (s.completed none)

/-- The checks of vector atomics and reduction stores (R303, R304): widths, groups, tags; `fp` says f32. -/
def State.atomicChecks (s : State) (o : FormX) (fp : Bool) (dst : Option Nat) (k : Tag → State → R PUnit) : R PUnit :=
  let w := s.myStrip.ewB
  let g := s.myStrip.grp
  let vz := o.sz.toNat
  let vi := o.vi.toNat
  if !(w == 4 || (w == 8 && !fp)) then .trap 0x0F 0 s
  else
    s.vgroups [(vz, g), (vi, 1)] (dst.map fun d => (d, g)) fun s =>
      let t := s.myStrip
      match t.groupTag vz g with
      | none => .trap 0x05 0 s
      | some tag =>
          if (if fp then tag != 8 else !(isIntFmt tag.toNat && fmtBits tag.toNat == 8 * w)) then .trap 0x05 0 s
          else
            match t.indexCause vi with
            | some c => .trap c 0 s
            | none =>
                if t.poisonedAt [vz] w (t.active o.msk o.mreg) then .trap 0xA0 0 s else k tag s

/-- The access of position p of a vector atomic or reduction store, of a strip as it stands at issue (R275, R303, R304). -/
def Strip.atomicAt (t : Strip) (g : Gates) (o : FormX) (p : Nat) : Elem :=
  let base := if o.sy = 0 then 0 else t.snap[o.sy.toNat]?.getD 0
  ⟨base + t.index o.vi.toNat p, t.ewB, .atomic, false, t.ewB, o.pol, [o.scp.toNat], g.scopes⟩

/-- A vector atomic (R303): `min` gives the operation for a tag that compares signed or unsigned. -/
def State.vatomic (s : State) (g : Gates) (o : FormX) (fp : Bool) (min : Bool → Nat) : R PUnit :=
  let vd := o.sx.toNat
  s.atomicChecks o fp (some vd) fun tag s =>
    let t := s.myStrip
    let w := t.ewB
    let m := min (isSignedFmt tag.toNat)
    (s.ordBefore o.ord).andThen fun s =>
      ((State.overPositions (t.active o.msk o.mreg) s fun p s =>
        (s.atomicElem s.me (t.atomicAt g o p) m (t.el o.sz.toNat w p) 0).bind fun (old, fl) s =>
          R.done ((s.loaded vd w t.grp tag p old).addFlags fl)).lagging vd w t.grp).andThen fun s =>
            R.done ((s.ordAfter o.ord o.scp).completed (some (vd, t.grp, tag)))

/-- A vector reduction store (R304). -/
def State.vreduce (s : State) (g : Gates) (o : FormX) (fp : Bool) : R PUnit :=
  s.atomicChecks o fp none fun _ s =>
    let t := s.myStrip
    (State.overPositions (t.active o.msk o.mreg) s fun p s =>
      s.reduceElem s.me (t.atomicAt g o p) fp (t.el o.sz.toNat t.ewB p)).andThen fun s => R.done (s.completed none)

/-- `vaadd` (R303). -/
def execVaadd (g : Gates) (o : FormX) (s : State) : Host.Outcome State Fault Refusal :=
  issue (.vaadd g o) s fun s => s.vatomic g o false fun _ => 0
/-- `vafadd` (R303). -/
def execVafadd (g : Gates) (o : FormX) (s : State) : Host.Outcome State Fault Refusal :=
  issue (.vafadd g o) s fun s => s.vatomic g o true fun _ => 10
/-- `vamin` (R303). -/
def execVamin (g : Gates) (o : FormX) (s : State) : Host.Outcome State Fault Refusal :=
  issue (.vamin g o) s fun s => s.vatomic g o false fun sg => if sg then 4 else 6
/-- `vamax` (R303). -/
def execVamax (g : Gates) (o : FormX) (s : State) : Host.Outcome State Fault Refusal :=
  issue (.vamax g o) s fun s => s.vatomic g o false fun sg => if sg then 5 else 7
/-- `vafmin` (R303). -/
def execVafmin (g : Gates) (o : FormX) (s : State) : Host.Outcome State Fault Refusal :=
  issue (.vafmin g o) s fun s => s.vatomic g o true fun _ => 11
/-- `vafmax` (R303). -/
def execVafmax (g : Gates) (o : FormX) (s : State) : Host.Outcome State Fault Refusal :=
  issue (.vafmax g o) s fun s => s.vatomic g o true fun _ => 12
/-- `vrsadd` (R304). -/
def execVrsadd (g : Gates) (o : FormX) (s : State) : Host.Outcome State Fault Refusal :=
  issue (.vrsadd g o) s fun s => s.vreduce g o false
/-- `vrsfadd` (R304). -/
def execVrsfadd (g : Gates) (o : FormX) (s : State) : Host.Outcome State Fault Refusal :=
  issue (.vrsfadd g o) s fun s => s.vreduce g o true

end Sys2Proof.Machine
end

