-- ==== Sys2Proof/Machine/ScalarMem.lean ====
section
/-! DEFINITION. Scalar loads and stores, MAJ 0x21 (R283), the far fence, MAJ 0x25 (R160, R299), and scalar atomics, MAJ
0x26 (R300, R301). -/

namespace Sys2Proof.Machine

/-- The address of form S (R283, R306). -/
def formAddr (b : Word) (o : FormS) : Word := b + o.off.signExtend 64

/-- The element access of a scalar access: along rows; the scopes of its gates, and of its ordering modifier, are held against
the space (R94, R283). -/
def scalarElem (g : Gates) (va : Word) (n : Nat) (k : Access) (pol ord : BitVec 2) (scp : Scope) : Elem :=
  ⟨va, n, k, false, n, pol, scopesOf ord scp, g.scopes⟩

/-- A value of n bytes as a load writes it, sign-extended or zero-extended (R283). -/
def extended (sg : Bool) (n v : Nat) : Word := if sg then BitVec.ofInt 64 (sgn (8 * n) v) else w64 v

/-- A scalar load (R283). -/
def State.sload (s : State) (g : Gates) (o : FormS) (n : Nat) (sg : Bool) : R PUnit :=
  (s.rdS o.sy).bind fun b s => (s.dstReady o.sx).andThen fun s => (s.ordBefore o.ord).andThen fun s =>
    (s.readElem s.me (scalarElem g (formAddr b o) n .load o.pol o.ord o.scp)).bind fun v s =>
      R.done ((s.setS o.sx (extended sg n v)).ordAfter o.ord o.scp)

/-- A scalar store, which of a wayfarer lane is a lane's (R26, R283). -/
def State.sstore (s : State) (g : Gates) (o : FormS) (n : Nat) : R PUnit :=
  (s.rdS o.sy).bind fun b s => (s.rdS o.sx).bind fun v s => (s.ordBefore o.ord).andThen fun s =>
    let e := scalarElem g (formAddr b o) n .store o.pol o.ord o.scp
    let x := v.toNat % 2 ^ (8 * n)
    match s.cur.party.place with
    | .lane _ p => s.laneStore p e x
    | _ => s.writeElem s.me e x

/-- `lb` (R283). -/
def execLb (g : Gates) (o : FormS) (s : State) : Host.Outcome State Fault Refusal :=
  issue (.lb g o) s fun s => s.sload g o 1 true
/-- `lbu` (R283). -/
def execLbu (g : Gates) (o : FormS) (s : State) : Host.Outcome State Fault Refusal :=
  issue (.lbu g o) s fun s => s.sload g o 1 false
/-- `lw` (R283). -/
def execLw (g : Gates) (o : FormS) (s : State) : Host.Outcome State Fault Refusal :=
  issue (.lw g o) s fun s => s.sload g o 4 true
/-- `lwu` (R283). -/
def execLwu (g : Gates) (o : FormS) (s : State) : Host.Outcome State Fault Refusal :=
  issue (.lwu g o) s fun s => s.sload g o 4 false
/-- `ld` (R283). -/
def execLd (g : Gates) (o : FormS) (s : State) : Host.Outcome State Fault Refusal :=
  issue (.ld g o) s fun s => s.sload g o 8 false
/-- `sb` (R283). -/
def execSb (g : Gates) (o : FormS) (s : State) : Host.Outcome State Fault Refusal :=
  issue (.sb g o) s fun s => s.sstore g o 1
/-- `sw` (R283). -/
def execSw (g : Gates) (o : FormS) (s : State) : Host.Outcome State Fault Refusal :=
  issue (.sw g o) s fun s => s.sstore g o 4
/-- `sd` (R283). -/
def execSd (g : Gates) (o : FormS) (s : State) : Host.Outcome State Fault Refusal :=
  issue (.sd g o) s fun s => s.sstore g o 8

/-- The cores of this device in the instance of a scope that holds a core (R149). -/
def scopeCores (core : Nat) (scope : Nat) : List Nat :=
  if scope ≤ 1 then [core]
  else if scope = 2 then (List.range 4).map fun i => core / 4 * 4 + i
  else if scope = 3 then (List.range 64).map fun i => core / 64 * 64 + i
  else List.range 256

/-- The serialisation point of a core: its stores are accepted as they issue, and it drops the unregistered words of its
untracked lines (R129, R160). -/
def State.serialise (s : State) (core : Nat) : State :=
  if (s.core core).l1.isEmpty then s else s.acquire core 2

/-- `fence.far` (R160, R299). At scope 5 the points are set in the cores of this device: R399 has no message for a fence, so what
it sets in other devices' cores, and a peer's fence here, stays open (DESIGN CHOICE, log 68). -/
def execFenceFar (g : Gates) (o : FormC) (s : State) : Host.Outcome State Fault Refusal :=
  issue (.fenceFar g o) s fun s =>
    s.syncPoint.andThen fun s =>
      let s := s.acquire (coreOf s.me) o.code.toNat
      R.done ((scopeCores (coreOf s.me) o.code.toNat).foldl State.serialise s)

/-- The compare value of `acas`, nothing to read for the others (R300). -/
def State.compareOf (s : State) : Option SReg → R Word
  | none => .ok 0 s
  | some k => s.rdS k

/-- A scalar atomic (R300): operation `min`, the register of the compare value if it has one, and whether the old value
is sign-extended. -/
def State.satomic (s : State) (g : Gates) (o : FormX) (min : Nat) (cmp : Option SReg) (sg : Bool) : R PUnit :=
  let n := if o.w64 == 1 then 8 else 4
  (s.rdS o.sy).bind fun a s => (s.rdS o.sz).bind fun b s => (s.compareOf cmp).bind fun c s =>
    (s.dstReady o.sx).andThen fun s => (s.ordBefore o.ord).andThen fun s =>
      let e : Elem := ⟨a, n, .atomic, false, n, o.pol, [o.scp.toNat], g.scopes⟩
      (s.atomicElem s.me e min (b.toNat % 2 ^ (8 * n)) (c.toNat % 2 ^ (8 * n))).bind fun (old, fl) s =>
        R.done (((s.setS o.sx (extended sg n old)).addFlags fl).ordAfter o.ord o.scp)

/-- `aadd` (R300). -/
def execAadd (g : Gates) (o : FormX) (s : State) : Host.Outcome State Fault Refusal :=
  issue (.aadd g o) s fun s => s.satomic g o 0 none true
/-- `aand` (R300). -/
def execAand (g : Gates) (o : FormX) (s : State) : Host.Outcome State Fault Refusal :=
  issue (.aand g o) s fun s => s.satomic g o 1 none true
/-- `aor` (R300). -/
def execAor (g : Gates) (o : FormX) (s : State) : Host.Outcome State Fault Refusal :=
  issue (.aor g o) s fun s => s.satomic g o 2 none true
/-- `axor` (R300). -/
def execAxor (g : Gates) (o : FormX) (s : State) : Host.Outcome State Fault Refusal :=
  issue (.axor g o) s fun s => s.satomic g o 3 none true
/-- `amin` (R300). -/
def execAmin (g : Gates) (o : FormX) (s : State) : Host.Outcome State Fault Refusal :=
  issue (.amin g o) s fun s => s.satomic g o 4 none true
/-- `amax` (R300). -/
def execAmax (g : Gates) (o : FormX) (s : State) : Host.Outcome State Fault Refusal :=
  issue (.amax g o) s fun s => s.satomic g o 5 none true
/-- `aminu` (R300). -/
def execAminu (g : Gates) (o : FormX) (s : State) : Host.Outcome State Fault Refusal :=
  issue (.aminu g o) s fun s => s.satomic g o 6 none false
/-- `amaxu` (R300). -/
def execAmaxu (g : Gates) (o : FormX) (s : State) : Host.Outcome State Fault Refusal :=
  issue (.amaxu g o) s fun s => s.satomic g o 7 none false
/-- `aswap` (R300). -/
def execAswap (g : Gates) (o : FormX) (s : State) : Host.Outcome State Fault Refusal :=
  issue (.aswap g o) s fun s => s.satomic g o 8 none true
/-- `acas` (R300). -/
def execAcas (g : Gates) (o : FormX) (s : State) : Host.Outcome State Fault Refusal :=
  issue (.acas g o) s fun s => s.satomic g o 9 (some o.sw) true
/-- `afadd` (R300). -/
def execAfadd (g : Gates) (o : FormX) (s : State) : Host.Outcome State Fault Refusal :=
  issue (.afadd g o) s fun s => s.satomic g o 10 none false
/-- `afmin` (R301). -/
def execAfmin (g : Gates) (o : FormX) (s : State) : Host.Outcome State Fault Refusal :=
  issue (.afmin g o) s fun s => s.satomic g o 11 none false
/-- `afmax` (R301). -/
def execAfmax (g : Gates) (o : FormX) (s : State) : Host.Outcome State Fault Refusal :=
  issue (.afmax g o) s fun s => s.satomic g o 12 none false

end Sys2Proof.Machine
end

