-- ==== Sys2Proof/Machine/Streams.lean ====
section
/-! DEFINITION. Binding streams to vector registers, MAJ 0x22 (R116, R117, R173, R284 to R287). -/

namespace Sys2Proof.Machine

/-- The stream bound to a register and not parked, whichever strips are attached (R285, R287). -/
def Ctx.boundStream (x : Ctx) (v : VNum) : Option Stream := x.streams.find? fun st => st.v == v && !st.parked
/-- The stream parked on a register (R285). -/
def Ctx.parkedStream (x : Ctx) (v : VNum) : Option Stream := x.streams.find? fun st => st.v == v && st.parked

/-- Change the streams of a register. -/
def Ctx.modStream (x : Ctx) (v : VNum) (f : Stream → Stream) : Ctx :=
  { x with streams := x.streams.map fun st => if st.v == v then f st else st }

/-- A strip is attached to a stream (R285). -/
def Stream.attach (b : Nat) (st : Stream) : Stream := { st with attached := st.attached ++ [b] }
/-- A parked stream is resumed by a bind in a strip (R286). -/
def Stream.resume (b : Nat) (pc : Word) (tag : Tag) (st : Stream) : Stream :=
  { st with parked := false, unbound := false, attached := [b], pc := pc, tag := tag }

/-- A strip has taken no group of a stream that it binds (R287); the bind completes (R50). -/
def Strip.forget (v : VNum) (t : Strip) : Strip := { t with consumed := t.consumed.filter (·.1 != v), vstart := 0 }

/-- A bound stream whose attached strips have all ended without `vunbind`: it has ended, unless a strip of the block still to
come executes its bind (R285) (DEDUCED, log 18). -/
def Stream.idle (st : Stream) : Bool := !st.parked && !st.unbound && st.attached.isEmpty

/-- Streams end: their unread elements, the bytes of the stream buffer or of a receive queue, are discarded (R285). -/
def State.endStreams (s : State) (c : Nat) (p : Stream → Bool) : State :=
  let ends := (s.ctx c).streams.filter p
  let s := ends.foldl (fun (s : State) (st : Stream) =>
    match st.kind with
    | .network q => s.modJob (slotJob (s.slot c)) fun j =>
        { j with queues := j.queues.map fun (k, rq) => (k, if k == q then { rq with bytes := [] } else rq) }
    | _ => s) s
  s.modCtx c fun x =>
    { x with
      streams := x.streams.filter (!p ·)
      satchel := if ends.any (·.kind == .satchel) then [] else x.satchel }

/-- A new stream (R284): a parked one on the register goes first, and a context holds at most four (R286, R287). -/
def State.newStream (s : State) (v : VNum) (kind : StreamKind) (tag : Tag) (shape : List Word) : R PUnit :=
  let s := s.modCtx s.me fun x => x.unpark v.toNat 1
  let s := if s.myCtx.streams.length ≥ 4 then s.endStreams s.me Stream.idle else s
  if s.myCtx.streams.length ≥ 4 then .trap 0x11 0 s
  else
    let st : Stream :=
      { v := v, parked := false, kind := kind, tag := tag, taken := 0, shape := shape, pc := s.cur.pc
        attached := [s.myStrip.stripb], unbound := false }
    R.done ((s.modCtx s.me fun x => { x with streams := x.streams ++ [st] }).modMyStrip (Strip.forget v))

/-- What a bind does (R285 to R287): a later strip's execution of the same bind attaches it; a register bound otherwise
raises 0x0D; a parked stream that `same` accepts is resumed, under a tag of which `width` holds; else a new stream. -/
def State.bindStream (s : State) (v : VNum) (same : Stream → Bool) (tag : Stream → Tag) (width : Tag → Bool)
    (make : State → R PUnit) : R PUnit :=
  if v.toNat % s.myStrip.grp != 0 then .trap 0x0C 0 s
  else
    let b := s.myStrip.stripb
    match s.myCtx.boundStream v with
    | some st =>
        if st.pc == s.cur.pc && !st.attached.contains b then
          R.done ((s.modCtx s.me fun x => x.modStream v (Stream.attach b)).modMyStrip (Strip.forget v))
        else if st.idle then make (s.endStreams s.me (· == st))
        else .trap 0x0D 0 s
    | none =>
        match s.myCtx.parkedStream v with
        | some st =>
            if same st then
              (if !width (tag st) then .trap 0x0F 0 s
               else
                R.done ((s.modCtx s.me fun x => x.modStream v (Stream.resume b s.cur.pc (tag st))).modMyStrip
                  (Strip.forget v)))
            else make s
        | none => make s

/-- `vbind` (R284, R286). -/
def execVbind (g : Gates) (o : FormV) (s : State) : Host.Outcome State Fault Refusal :=
  issue (.vbind g o) s fun s =>
    let w := 8 * s.myStrip.ewB
    s.bindStream o.vd (fun st => st.kind == .walk && o.va == o.vd) (·.tag) (fun t => tensorBits (tagFmt t) == w) fun s =>
      ((s.takeGroups [o.va.toNat]).andThen fun s =>
        s.shapeIn o.va.toNat fun h s =>
          if tensorBits (tagFmt h.ftag) != w then .trap 0x0F 0 s
          else if !h.orientOk false && !h.orientOk true then .trap 0x23 0 s
          else s.newStream o.vd .walk h.ftag (s.myStrip.record o.va.toNat)).orBack s

/-- `vbindz` (R284, R286). -/
def execVbindz (g : Gates) (o : FormV) (s : State) : Host.Outcome State Fault Refusal :=
  issue (.vbindz g o) s fun s =>
    let ok := s.myStrip.ewB == 1
    s.bindStream o.vd (·.kind == .satchel) (·.tag) (fun _ => ok) fun s =>
      if !ok then .trap 0x0F 0 s
      else State.newStream (s.modCtx s.me fun x => { x with satchelTag := none }) o.vd .satchel s.myStrip.fmt []

/-- `vbindn` (R284, R286): the queue's number, then the width of the format it names. -/
def execVbindn (g : Gates) (o : FormV) (s : State) : Host.Outcome State Fault Refusal :=
  issue (.vbindn g o) s fun s =>
    let q := s.snapS o.sb
    let tag : Tag := o.sc ++ o.fmt
    let ok := fun t : Tag => widthOk (tagFmt t) s.myStrip.ewB
    if q.toNat ≥ 16 then .trap 0x02 0 s
    else
      s.bindStream o.vd (·.kind == .network q.toNat) (fun _ => tag) ok fun s =>
        if !ok tag then .trap 0x0F 0 s else s.newStream o.vd (.network q.toNat) tag []

/-- A strip gives a stream up: it is parked at the commit point (R285). -/
def Stream.giveUp (b : Nat) (st : Stream) : Stream :=
  { st with attached := st.attached.filter (· != b), unbound := true }

/-- `vunbind` (R285, R287): the mask says which positions of the strip's last group were elements. -/
def execVunbind (g : Gates) (o : FormV) (s : State) : Host.Outcome State Fault Refusal :=
  issue (.vunbind g o) s fun s =>
    let t := s.myStrip
    match s.myCtx.bound t.stripb o.vd.toNat with
    | none => .trap 0x0D 0 s
    | some _ =>
        let last := ((t.consumed.find? (·.1 == o.vd)).map (·.2)).getD 0
        let bs := if o.msk == 1 && t.begins then (List.range t.vl).map fun p => (p, last.getLsbD p) else []
        R.done ((s.modCtx s.me fun x => x.modStream o.vd (Stream.giveUp t.stripb)).putBits o.mreg bs 0)

end Sys2Proof.Machine
end

