-- ==== Sys2Proof/Machine/Engine.lean ====
section
/-! DEFINITION. How engine operations reach memory for the unit that issued them, whether it runs or is switched out: reads
as untracked loads and writes as WT stores of lines (R118, R127, R288, R443, R461, R462, R466). -/

namespace Sys2Proof.Machine

/-- Where a byte of an engine operation lies: in a scratchpad page, at a physical address of the domain, or in a network
window (DEDUCED, log 56). -/
inductive EngineLoc where
  | pad (region page off paddr ow : Nat)
  | phys (pa : Nat)
  | window (win off : Nat)
  deriving DecidableEq, Repr

/-- The job of a unit, by the number of its context or of its save area. -/
def State.ownerJob (s : State) (n : Nat) : Option Job :=
  if n < 2 ^ 20 then s.jobOf n else (s.unitOf n).bind fun q => s.jobAt q.1.job

/-- The scratchpad backing base and pages of a unit (R105, R413). -/
def State.ownerPad (s : State) (n : Nat) : Nat × Nat :=
  if n < 2 ^ 20 then (slotSpBase (s.slot n), slotSpLen (s.slot n))
  else match s.unitOf n with
    | some (l, u) => (l.spbase.toNat + u.no * l.splen * 4096, l.splen)
    | none => (0, 0)

/-- The page of an address for an engine operation (R412, R441, R446). -/
def State.enginePage (s : State) (n va : Nat) : R Page :=
  match (s.owner n).slots.find? fun x => x.va == va / 2 ^ x.bits * 2 ^ x.bits with
  | some x => .ok ⟨x.leaf.toNat, x.bits, true⟩ s
  | none =>
      match s.ownerJob n with
      | none => .trap 0x20 (w64 va) s
      | some j =>
          match walkFrom s va j.root walkLevels with
          | .leaf e bits => .ok ⟨e, bits, false⟩ s
          | .cause k => .trap k (w64 va) s
          | .mig => .stall (.migration (w64 va)) s

/-- Where an address of an engine operation lies, with the checks of a copy (R93, R95, R103, R105, R288). -/
def State.engineAt (s : State) (core n : Nat) (va : Nat) (write : Bool) : R EngineLoc :=
  if va ≥ 2 ^ 57 then .trap 0x20 (w64 va) s
  else if Config.spWindow ≤ va then
    let (region, len) := s.ownerPad n
    let page := (va - Config.spWindow) / 4096
    if page ≥ len then .trap 0x20 (w64 va) s
    else
      (s.enginePage n (region + page * 4096)).bind fun p s =>
        let pa := p.paddr s (region + page * 4096)
        if p.space != 2 && unpopulated pa then .trap 0x20 (w64 va) s
        else if p.space != 0 || p.masked s (4 * core) (if write then .copyWrite else .copyRead) then .trap 0x21 (w64 va) s
        else .ok (.pad region page (va % 4096) pa p.ow) s
  else
    (s.enginePage n va).bind fun p s =>
      let pa := p.paddr s va
      if p.space = 2 then .ok (.window (pa / 2 ^ 48 % 256) (pa % 2 ^ 48)) s
      else if unpopulated pa then .trap 0x20 (w64 va) s
      else
        match p.refuses s (4 * core) (if write then .copyWrite else .copyRead) with
        | some k => .trap k (w64 va) s
        | none => .ok (.phys pa) s

/-- Act as another party, and be the one before again. -/
def State.asParty (s : State) (l : Latch) (f : State → R α) : R α :=
  match f { s with cur := l } with
  | .ok a t => .ok a { t with cur := s.cur }
  | .trap c v t => .trap c v { t with cur := s.cur }
  | .stall w t => .stall w { t with cur := s.cur }

/-- The party that stands for an engine operation of a unit in its requests to peers (R398). -/
def engineParty (n : Nat) : Latch := ⟨⟨n, .ctl⟩, 0, 0, none, false⟩

/-- Ask a peer for an engine operation, apart from what other operations ask. -/
def State.engineAsk (s : State) (n id : Nat) (t : BitVec 8) (m : Msg) (pa : Nat) : R (BitVec 8 × Msg) :=
  let key := pa + 2 ^ 64 * (2 * id + 1)
  (s.asParty (engineParty n) fun s => s.ask t m (rowLine (pa % 2 ^ 64)) key).bind fun a s =>
    .ok a { s with requests := s.requests.filter fun r => !(r.addr == key && r.mtype == t && r.party.ctx == n) }

/-- Before an engine operation goes on with words of a line of this device, requests on them that are in progress end, and each
peer that holds one gives it up or sends a copy, all of them asked at once (R133, R134, R347). -/
def State.engineFirst (s : State) (n id : Nat) (req : HomeReq) (pa k : Nat) : R PUnit :=
  if s.words.isEmpty then R.done s
  else
    let key := rowLine pa
    let ws := (List.range ((pa % 4 + k + 3) / 4)).map fun i => wordOf pa + 4 * i
    match s.inProgress (engineParty n).party ws with
    | some r => .stall (.remote r.tag) s
    | none =>
        let one := fun (q : BitVec 8 × Nat) (s : State) =>
          let aux := if q.1 == 0x11 || q.1 == 0x12 then s.dev else 0
          let m := { noMsg with dst := q.2, aux := BitVec.ofNat 8 aux, pol := 1, addr := lineAddr key }
          s.ask q.1 m key (key.base + 2 ^ 200 * (q.2 + 1) + 2 ^ 64 * (2 * id + 1))
        (s.asParty (engineParty n) fun t => t.askAll one (s.peerAsks req (homeNode pa) ws)).andThen fun s =>
          R.done { s with
            requests := s.requests.filter fun r =>
              !(r.party == (engineParty n).party && r.line == key && r.addr ≥ 2 ^ 64 && r.mtype.toNat / 16 == 1) }

/-- The bytes of a peer's line with those of the words that this device holds current (R131, R132). -/
def State.heldOver (s : State) (base : Nat) (bs : List Byte) : List Byte :=
  ((List.range bs.length).zip bs).map fun (i, b) =>
    let w := wordOf (base + i)
    let mine := s.dies.any (fun (_, d) => d.l2.any fun x => x.tracked && holdsWord x.key w)
      || s.cores.any fun (_, c) => c.l1.any (·.regs.contains w)
    if mine then Memory.read s.mem (base + i) else b

/-- The words of a peer's line that this device owns or has registered go to their home before a copy writes there (R134). -/
def State.homeFirst (s : State) (pa k : Nat) : State :=
  ((List.range ((pa % 4 + k + 3) / 4)).map fun i => wordOf pa + 4 * i).foldl (fun s w => s.nearFirst none w) s

/-- n free bytes: what a peer reached over Ultra Ethernet answers. -/
def State.freeBytes (s : State) (n : Nat) : List Byte × State :=
  ((List.range n).map fun i => (Config.freeWord (s.fresh + i)).setWidth 8, { s with fresh := s.fresh + n })

/-- The window a copy reaches, when its table has it and the bytes lie below LEN (R443). -/
def State.windowOf (s : State) (n win off k : Nat) : Option Window :=
  (s.ownerJob n).bind fun j =>
    (afind? j.windows win).bind fun (w : Window) => if off + k ≤ w.len then some w else none

/-- Bytes of a pinned frame, or of its backing page while the unit is switched out. -/
def State.padBytes (s : State) (core n region page off paddr ow k : Nat) : List Byte × State :=
  if n < 2 ^ 20 then
    let s := s.pin core region page paddr ow
    match s.frameOf core region page paddr with
    | some f => (Memory.readBytes f.data off k, s)
    | none => (zeros k, s)
  else (Memory.readBytes s.mem (paddr + off) k, s)

/-- Read k bytes within one line for an engine operation: the bytes and whether they are poisoned (R127, R461, R462)
(DEDUCED, log 56). -/
def State.engineRead (s : State) (core n id va k : Nat) : R (List Byte × Bool) :=
  (s.engineAt core n va false).bind fun l s =>
    match l with
    | .pad region page off paddr ow =>
        let (bs, s) := s.padBytes core n region page off paddr ow k
        .ok (bs, s.poisoned paddr) s
    | .phys pa =>
        if s.owns pa then
          (s.engineFirst n id .untrackedLoad pa k).andThen fun s =>
            if s.badCheck.contains (pa / 128 * 128) then .trap 0xA1 (w64 va) (s.poisonLine pa)
            else .ok (Memory.readBytes s.mem pa k, s.poisoned pa) s
        else
          (s.engineAsk n id 0x30 { noMsg with addr := w64 (pa / 128 * 128) } pa).bind fun (t, m) s =>
            if t == 0x31 then
              .ok (((s.heldOver (pa / 128 * 128) (lineOfBits m.line)).drop (pa % 128)).take k, m.poison) s
            else .trap m.aux (w64 va) s
    | .window win off =>
        match s.windowOf n win off k with
        | none => .trap 0x20 (w64 va) s
        | some w =>
            let (bs, s) := s.freeBytes k
            .ok (bs, false) (s.emit (.uetRead w.port w.fabric w.rkey (w.rbase + off) k))

/-- Write bytes into a pinned frame, or into its backing page while the unit is switched out. -/
def State.padPut (s : State) (core n region page off paddr ow : Nat) (bs : List Byte) : State :=
  if n < 2 ^ 20 then
    (s.pin core region page paddr ow).padWrite core region page paddr off bs.length (leNat bs)
  else s.homeStoreBytes (paddr + off) bs

/-- Write n whole words from an aligned address at the home (R127). -/
def State.homeStoreWords (s : State) (pa n : Nat) (bs : List Byte) : State :=
  (List.range n).foldl (fun s i => s.homeStore (pa + 4 * i) 4 (leNat ((bs.drop (4 * i)).take 4))) s

/-- Write bytes within one line for an engine operation: accepted at the home (R127, R462), or sent through a window, where the
completion that brings the operation here stands for the acknowledgement (R151, R443) (DEDUCED, log 56). -/
def State.engineWrite (s : State) (core n id va : Nat) (bs : List Byte) (poison : Bool) : R PUnit :=
  (s.engineAt core n va true).bind fun l s =>
    match l with
    | .pad region page off paddr ow =>
        let s := s.padPut core n region page off paddr ow bs
        R.done (if poison then s.setPoison paddr true else s)
    | .phys pa =>
        if s.owns pa then
          (s.engineFirst n id .throughStore pa bs.length).andThen fun s =>
            if bs.length = 128 then R.done (s.homeStoreLine pa bs poison)
            else
              let s := if pa % 4 = 0 && bs.length % 4 = 0 then s.homeStoreWords pa (bs.length / 4) bs else s.homeStoreBytes pa bs
              R.done (if poison then s.setPoison pa true else s)
        else
          let m := msgBytes { noMsg with addr := w64 (pa / 128 * 128), poison := poison } (pa % 128) bs.length (leNat bs)
          ((s.homeFirst pa bs.length).engineAsk n id 0x32 m pa).bind fun (t, a) s =>
            if t == 0x33 then
              R.done (((List.range bs.length).zip bs).foldl (fun s (i, b) =>
                (s.acceptedAt none (some core) (pa + i) 1 b.toNat).forgetCopies core (wordOf (pa + i))) s)
            else .trap a.aux (w64 va) s
    | .window win off =>
        match s.windowOf n win off bs.length with
        | none => .trap 0x20 (w64 va) s
        | some w =>
            if poison then .trap 0xA0 (w64 va) s
            else R.done (s.emit (.uetWrite w.port w.fabric w.rkey (w.rbase + off) bs))

/-- The parts of a run of bytes that lie within single lines: address and length. -/
def lineParts : Nat → Nat → Nat → List (Nat × Nat)
  | 0, _, _ => []
  | fuel + 1, va, n =>
      if n = 0 then [] else
      let k := min n (128 - va % 128)
      (va, k) :: lineParts fuel (va + k) (n - k)

/-- Read a run of bytes for an engine operation, and whether a line of it is poisoned. -/
def State.engineBytes (s : State) (core n id va len : Nat) : R (List Byte × Bool) :=
  (R.gather (lineParts (len / 128 + 2) va len) s fun (a, k) s => s.engineRead core n id a k).bind fun rs s =>
    .ok (rs.flatMap (·.1), rs.any (·.2)) s

/-- Write a run of bytes for an engine operation. -/
def State.enginePut (s : State) (core n id va : Nat) (bs : List Byte) (poison : Bool) : R PUnit :=
  R.each (lineParts (bs.length / 128 + 2) va bs.length) s fun (a, k) s =>
    s.engineWrite core n id a ((bs.drop (a - va)).take k) poison

/-- Change an engine operation of a core. -/
def State.modCopy (s : State) (core id : Nat) (f : Copy → Copy) : State :=
  s.modCore core fun c => { c with copies := c.copies.map fun p => if p.id == id then f p else p }
/-- An engine operation of a core by its number. -/
def State.copyOf (s : State) (core id : Nat) : Option Copy := (s.core core).copies.find? (·.id == id)

/-- An engine operation of the copy table counts as complete (R66, R119, R120): its slot is free, its token is written,
its number is eligible, and its unit counts it no longer. -/
def State.finishCopy (s : State) (core : Nat) (p : Copy) : State :=
  let s := s.modCore core fun c => { c with copies := c.copies.filter (·.id != p.id) }
  (((s.tokenDone p.ctx p.token p.post).complete p.ctx p.post).opEnd p.ctx)

/-- Hold a fault of an engine operation for its context (R120). -/
def State.holdFault (s : State) (n : Nat) (h : HeldFault) : State :=
  s.modOwner n fun x => { x with held := x.held ++ [h] }

/-- A copy or a collective stops at a fault (R120, R294): the cause is held for the timeline's wait, the token's read, or,
with neither, the next timeline wait. -/
def State.failCopy (s : State) (core : Nat) (p : Copy) (c : Code) (t : Word) : State :=
  let h : HeldFault :=
    { code := c, tval := t, num := postNum p.post, tl := p.post.map (·.tl), token := p.token
      anyWait := p.post.isNone && p.token.isNone }
  (s.holdFault p.ctx h).finishCopy core p

end Sys2Proof.Machine
end

