-- ==== Sys2Proof/Machine/Porter.lean ====
section
/-! DEFINITION. Copies, Satchel copies and collectives, MAJ 0x23, and what their engines do (R118 to R125, R288 to R294,
R343 to R345). -/

namespace Sys2Proof.Machine

/-- The token field of an engine operation: none for s0 (R66). -/
def tokenOf (k : SReg) : Option SReg := if k = 0 then none else some k

/-- An engine operation's token becomes pending (R66). -/
def Ctx.pending (x : Ctx) (k : SReg) (id : Nat) : Ctx :=
  if k = 0 then x else { (x.forgetToken k) with pend := (k, id) :: x.pend.filter (·.1 != k) }

/-- Put an engine operation of the issuing context into the copy table (R118); it counts in its unit (R37). -/
def State.startCopy (s : State) (kind : CopyKind) (token : SReg) (tk : Option Ticket) : State :=
  let c := s.me
  let p : Copy :=
    { id := s.nextId, ctx := c, job := jobSlot (slotJob (s.slot c)), kind := kind
      token := tokenOf token, post := tk, given := 0, pos := 0, block := none }
  let s : State := { s with nextId := s.nextId + 1 }
  let s := s.modCore (coreOf c) fun k => { k with copies := k.copies ++ [p] }
  ((s.modCtx c fun x => x.pending token p.id).opBegin c)

/-- An engine operation of no bytes completes as it issues (R288): its token is written and its number is complete. -/
def State.emptyCopy (s : State) (token : SReg) (tk : Option Ticket) : State :=
  ((s.modCtx s.me fun x => x.forgetToken token).tokenDone s.me (tokenOf token) tk).complete s.me tk

/-- Whether the copy table of the issuing core has a free slot (R118). -/
def State.slotFree (s : State) : Bool := (s.core (coreOf s.me)).copies.length < Config.copyTable

/-- The first address of a run whose space does not admit a scope (R92, R94, R151), page by page; where a page is not mapped, the
engine finds the fault itself (DEDUCED, log 20). -/
def State.firstNarrow (s : State) (root scp : Nat) : Nat → Nat → Nat → Option Nat
  | 0, _, _ => none
  | fuel + 1, va, n =>
      if n = 0 || va ≥ 2 ^ 57 then none
      else if Config.spWindow ≤ va then (if 1 < scp then some va else none)
      else
        match walkFrom s va root walkLevels with
        | .leaf e bits =>
            if spaceScope ((⟨e, bits, false⟩ : Page).space) < scp then some va
            else
              let k := min n (2 ^ bits - va % 2 ^ bits)
              s.firstNarrow root scp fuel (va + k) (n - k)
        | _ =>
            let k := min n (4096 - va % 4096)
            s.firstNarrow root scp fuel (va + k) (n - k)

/-- The first address of n bytes whose space does not admit the scope of a post gate (R94) (DEDUCED, log 20). -/
def State.beyondScope (s : State) (tk : Option Ticket) (va n : Nat) : Option Word :=
  match tk, s.jobOf s.me with
  | some k, some j => (s.firstNarrow j.root k.scp.toNat (n / 4096 + 2) va n).map w64
  | _, _ => none

/-- `pcopy` (R94, R288): the gate's scope is that of its writes (DEDUCED, log 20). -/
def execPcopy (g : Gates) (o : FormE) (s : State) : Host.Outcome State Fault Refusal :=
  issueOwn (.pcopy g o) s fun tk s =>
    (s.rdS o.sy).bind fun dst s => (s.rdS o.sz).bind fun src s => (s.rdS o.sw).bind fun n s =>
      (s.dstReady o.sx).andThen fun s =>
        match [dst, src, n].find? fun v => v.toNat % 4 != 0 with
        | some v => .trap 0x22 v s
        | none =>
            if n.toNat > 2 ^ 36 then .trap 0x26 n s
            else
              match s.beyondScope tk dst.toNat n.toNat with
              | some a => .trap 0x25 a s
              | none =>
                  if !s.slotFree then .stall .copySlot s
                  else if n = 0 then R.done (s.emptyCopy o.sx tk)
                  else R.done (s.startCopy (.copy dst.toNat src.toNat n.toNat) o.sx tk)

/-- `pcopyz` (R94, R289): its accesses are the reads of its blocks; its length has the limit of every copy. -/
def execPcopyz (g : Gates) (o : FormE) (s : State) : Host.Outcome State Fault Refusal :=
  issueOwn (.pcopyz g o) s fun tk s =>
    (s.rdS o.sz).bind fun src s => (s.rdS o.sw).bind fun n s =>
      (s.dstReady o.sx).andThen fun s =>
        match [src, n].find? fun v => v.toNat % 128 != 0 with
        | some v => .trap 0x22 v s
        | none =>
            if n.toNat > 2 ^ 36 then .trap 0x26 n s
            else
              match s.beyondScope tk src.toNat n.toNat with
              | some a => .trap 0x25 a s
              | none =>
                  if !s.slotFree then .stall .copySlot s
                  else if n = 0 then R.done (s.emptyCopy o.sx tk)
                  else R.done (s.startCopy (.satchel src.toNat n.toNat) o.sx tk)

/-- Copies of the lines of a copy from where it stands up to a number of bytes, each chunk within one source and one
destination line (R118, R288) (DEDUCED, log 21). -/
def State.copyLines (s : State) (core : Nat) (p : Copy) (dst src upto : Nat) : Nat → Nat → R PUnit
  | 0, _ => R.done s
  | fuel + 1, pos =>
      if upto ≤ pos then R.done s else
      let k := min (upto - pos) (min (128 - (src + pos) % 128) (128 - (dst + pos) % 128))
      (s.engineAt core p.ctx (src + pos) false).bind fun a s =>
        (s.engineAt core p.ctx (dst + pos) true).bind fun b s =>
          match a, b with
          | .window _ _, .window _ _ => .trap 0x26 (w64 (dst + pos)) s
          | _, _ =>
              (s.engineRead core p.ctx p.id (src + pos) k).bind fun (bs, bad) s =>
                (s.engineWrite core p.ctx p.id (dst + pos) bs bad).andThen fun s =>
                  (s.modCopy core p.id fun p => { p with pos := pos + k }).copyLines core p dst src upto fuel (pos + k)

/-- COPY_COMPLETE (R119): the copy moves what it has not moved; then it completes, or stops at its fault (R120). It goes
on later when a peer has not answered (DEDUCED, log 21). -/
def execCopyComplete (core : Nat) (id : Nat) (s : State) : Host.Outcome State Fault Refusal :=
  match s.copyOf core id with
  | none => .next s
  | some p =>
      match p.kind with
      | .copy dst src n =>
          (match s.copyLines core p dst src n (n / 4 + 1) p.pos with
          | .ok _ s => .next (s.finishCopy core p)
          | .trap c t s => .next (s.failCopy core p c t)
          | .stall _ s => .next s)
      | _ => .next s

/-- COPY_FAULT (R120): a copy meets a fault after it has written some of its lines (DEDUCED, log 21). -/
def execCopyFault (core : Nat) (id : Nat) (written : Nat) (code : Code) (addr : Word) (s : State) :
    Host.Outcome State Fault Refusal :=
  match s.copyOf core id with
  | none => .next s
  | some p =>
      match p.kind with
      | .copy dst src n =>
          (match s.copyLines core p dst src (min n written) (n / 4 + 1) p.pos with
          | .ok _ s => .next (s.failCopy core p code addr)
          | .trap c t s => .next (s.failCopy core p c t)
          | .stall _ s => .next (s.failCopy core p code addr))
      | _ => .next (s.failCopy core p code addr)

/-- A Satchel block's header (R121). -/
structure Satchel where
  magic : Nat
  vmaj : Nat
  ftag : Nat
  mode : Nat
  nout : Nat
  check : Nat
  npay : Nat
  lcnt : List Nat
  deriving DecidableEq, Repr

/-- The header in the first 40 bytes of a block (R121). -/
def Satchel.ofBytes (bs : List Byte) : Satchel :=
  { magic := natAt bs 0 2, vmaj := natAt bs 2 1, ftag := natAt bs 4 1, mode := natAt bs 5 1, nout := natAt bs 6 2 + 1
    check := natAt bs 8 4, npay := natAt bs 12 4, lcnt := (List.range 12).map fun i => natAt bs (16 + 2 * i) 2 }

/-- NSYM (R121). -/
def Satchel.nsym (h : Satchel) : Nat := h.lcnt.sum
/-- Bytes of a block with its padding (R121). -/
def Satchel.size (h : Satchel) : Nat := roundUp (40 + h.nsym + h.npay) 128
/-- Σ LCNT[L] × 2^(12 − L) (R123). -/
def codeSpace : Nat → List Nat → Nat
  | _, [] => 0
  | l, c :: r => c * 2 ^ (12 - l) + codeSpace (l + 1) r

/-- A header that fails R123, apart from its symbol list. -/
def Satchel.bad (h : Satchel) : Bool :=
  h.magic != 0x5A7C || h.vmaj != 1 || h.mode > 1
    || !(h.ftag == 0 || h.ftag == 1 || h.ftag == 2 || (11 ≤ h.ftag && h.ftag ≤ 16))
    || (h.mode == 1 && codeSpace 1 h.lcnt != 4096 && h.nsym != 1)
    || (h.mode == 0 && (h.npay != h.nout || h.nsym != 0))

/-- Canonical codes: code, length and symbol of each, the codes of one length from `code` up (R122). -/
def assignLevel (l : Nat) : Nat → Nat → List Byte → List (Nat × Nat × Byte)
  | 0, _, _ => []
  | _, _, [] => []
  | n + 1, code, sym :: r => (code, l, sym) :: assignLevel l n (code + 1) r

/-- The canonical codes of every length from `l` on (R122). -/
def assignCodes (code l : Nat) (syms : List Byte) : List Nat → List (Nat × Nat × Byte)
  | [] => []
  | n :: r => assignLevel l n code syms ++ assignCodes (2 * (code + n)) (l + 1) (syms.drop n) r

/-- The codes of a block: the one symbol of a block has the 1-bit code 0, whatever its LCNT (R122). -/
def Satchel.codes (h : Satchel) (syms : List Byte) : List (Nat × Nat × Byte) :=
  if h.nsym = 1 then syms.map fun b => (0, 1, b) else assignCodes 0 1 syms h.lcnt

/-- The bits of a payload, bit 7 of byte 0 first (R122). -/
def payloadBits (bs : List Byte) : List Bool := bs.flatMap fun b => (List.range 8).map fun i => b.getLsbD (7 - i)

/-- Decode symbols bit by bit: the symbols and the bits left over (R122). -/
def decodeSymbols (codes : List (Nat × Nat × Byte)) (code l : Nat) : Nat → List Bool → List Byte × List Bool
  | 0, bits => ([], bits)
  | _, [] => ([], [])
  | n + 1, b :: r =>
      let code := 2 * code + (if b then 1 else 0)
      let l := l + 1
      match codes.find? fun c => c.1 == code && c.2.1 == l with
      | some c =>
          let (out, left) := decodeSymbols codes 0 0 n r
          (c.2.2 :: out, left)
      | none => decodeSymbols codes code l (n + 1) r

/-- The decoded bytes of a block, and whether it is a check mismatch (R122, R123). -/
def Satchel.decoded (h : Satchel) (syms payload : List Byte) : List Byte × Bool :=
  let (out, wrong) :=
    if h.mode = 0 then (payload, false)
    else
      let (out, left) := decodeSymbols (h.codes syms) 0 0 h.nout (payloadBits payload)
      (out, out.length != h.nout || left.length ≥ 8)
  (out, wrong || (crc32c out).toNat != h.check)

/-- What the decompression path finds at a block: a header failure, a check mismatch found before a byte is delivered
(R289), or a block with its bytes and whether its check fails. -/
inductive BlockView where
  | header
  | mismatch
  | block (h : Satchel) (out : List Byte) (wrong : Bool)

/-- Read the block at an address with a number of bytes left in the copy (R121 to R123, R289). -/
def State.satchelBlock (s : State) (core : Nat) (p : Copy) (va left : Nat) : R (BlockView × Bool) :=
  (s.engineBytes core p.ctx p.id va (min left 128)).bind fun (bs, bad) s =>
    let h := Satchel.ofBytes bs
    if h.bad then .ok (.header, bad) s
    else if h.size > left then .ok (.mismatch, bad) s
    else
      (s.engineBytes core p.ctx p.id va h.size).bind fun (bs, bad) s =>
        let syms := (bs.drop 40).take h.nsym
        if syms.eraseDups.length != syms.length then .ok (.header, bad) s
        else
          let (out, wrong) := h.decoded syms ((bs.drop (40 + h.nsym)).take h.npay)
          .ok (.block h out wrong, bad) s

/-- A block's name: its copy and its address. -/
def blockName (id va : Nat) : Nat := id * 2 ^ 64 + va

/-- A copy of a context's Satchel channel (R289). -/
def Copy.feeds (ctx : Nat) (p : Copy) : Bool :=
  p.ctx == ctx && (match p.kind with | .satchel _ _ => true | _ => false)

/-- Bytes at the front of a context's stream buffer that a read which waits for more has taken (R343). -/
def Ctx.satchelTaken (x : Ctx) : Nat :=
  match x.ordered with
  | [] => 0
  | t :: _ =>
      match t.wait with
      | some (.streamTurn _ v) =>
          (match x.bound t.stripb v.toNat with
            | some st => if st.kind == .satchel then min t.vl x.satchelBytes.length else 0
            | none => 0)
      | _ => 0

/-- The stream buffer with its first k bytes and, of the rest, the runs that stay. -/
def keepRuns (stays : SatchelRun → Bool) : Nat → List SatchelRun → List SatchelRun
  | _, [] => []
  | k, r :: rs =>
      if stays r || r.bytes.length ≤ k then r :: keepRuns stays (k - r.bytes.length) rs
      else if k = 0 then keepRuns stays 0 rs
      else { r with bytes := r.bytes.take k } :: keepRuns stays 0 rs

/-- A Satchel copy fails at a block (R125, R290, R344, R345): the bytes of it and of later blocks that no read has taken leave the
buffer, the cause is held for the next timeline wait, and the copies of the channel count as complete. `failing` names the blocks
whose bytes go. -/
def State.satchelFail (s : State) (core : Nat) (p : Copy) (code : Code) (va : Nat) (failing : List Nat) : State :=
  let s := s.modOwner p.ctx fun x =>
    { x with satchel := keepRuns (fun r => !failing.contains r.block) x.satchelTaken x.satchel, checks := [] }
  let s := s.holdFault p.ctx
    { code := code, tval := w64 va, num := postNum p.post, tl := p.post.map (·.tl), token := none, anyWait := true }
  ((s.core core).copies.filter (Copy.feeds p.ctx)).foldl (fun s q => s.finishCopy core q) s

/-- Bytes that the stream buffer holds (R124). -/
def satchelBuffer : Nat := 4096
/-- Bytes that the decompression path decodes in a cycle (R124). -/
def satchelRate : Nat := 32

/-- Room in the stream buffer of a unit (R124). -/
def State.satchelRoom (s : State) (n : Nat) : Nat :=
  satchelBuffer - ((s.owner n).satchelBytes.length - (s.owner n).satchelTaken)

/-- Bytes of a block enter the buffer: they join the run of their block (R124). -/
def addRun (r : SatchelRun) (l : List SatchelRun) : List SatchelRun :=
  match l.getLast? with
  | some q => if q.block == r.block then l.dropLast ++ [{ q with bytes := q.bytes ++ r.bytes }] else l ++ [r]
  | none => [r]

/-- The Satchel copy with blocks still to decode that is first in its channel (R289). -/
def Core.decoding (c : Core) (n : Nat) : Option (Copy × Nat × Nat) :=
  c.copies.findSome? fun p =>
    match p.kind with
    | .satchel src len => if p.ctx == n && p.pos < len then some (p, src, len) else none
    | _ => none

/-- A copy whose last block has passed its check is complete (R124). -/
def State.satchelPassed (s : State) (core : Nat) (id : Nat) : State :=
  match s.copyOf core id with
  | some p =>
      (match p.kind with
        | .satchel _ len => if len ≤ p.pos && !(s.owner p.ctx).checks.any (·.id == id) then s.finishCopy core p else s
        | _ => s)
  | none => s

/-- One cycle passes for the checks of a channel, in the order of their blocks: one that is due two cycles after its block's last
byte is decided (R343, R344). -/
def State.satchelChecks (s : State) (core n : Nat) : State :=
  match (s.owner n).checks with
  | [] => s
  | c :: r =>
      if c.due > 1 then
        s.modOwner n fun x => { x with checks := x.checks.map fun c => { c with due := c.due - 1 } }
      else
        match s.copyOf core c.id with
        | none => s.modOwner n fun x => { x with checks := r }
        | some p =>
            if c.wrong then
              let later := r.map fun c => blockName c.id c.place
              let now := match (s.core core).decoding n with | some (q, src, _) => [blockName q.id (src + q.pos)] | none => []
              s.satchelFail core p 0x60 c.place (blockName c.id c.place :: later ++ now)
            else
              (s.modOwner n fun x => { x with checks := r.map fun c => { c with due := c.due - 1 } }).satchelPassed core c.id

/-- The block a copy is at is read and decoded, once the checks before it are decided where it fails (R121 to R123). -/
def State.satchelRead (s : State) (core : Nat) (p : Copy) (src len : Nat) : State :=
  let va := src + p.pos
  let waits := !(s.owner p.ctx).checks.isEmpty
  match s.satchelBlock core p va (len - p.pos) with
  | .stall _ s => s
  | .trap c t s' => if waits then s else s'.failCopy core p c t
  | .ok (_, true) s' => if waits then s else s'.failCopy core p 0xA0 (w64 va)
  | .ok (.header, false) s' => if waits then s else s'.satchelFail core p 0x61 va []
  | .ok (.mismatch, false) s' => if waits then s else s'.satchelFail core p 0x60 va []
  | .ok (.block h out wrong, false) s =>
      s.modCopy core p.id fun p => { p with block := some ⟨h.size, BitVec.ofNat 6 h.ftag, out, wrong⟩ }

/-- Bytes of the block a copy is at enter the stream buffer, at most 32 in a cycle; with its last byte the block's check begins, two
cycles long (R124, R343). -/
def State.satchelDecode (s : State) (core : Nat) (p : Copy) (src : Nat) (b : SatchelBlock) : State :=
  let va := src + p.pos
  let k := min (min satchelRate (s.satchelRoom p.ctx)) (b.bytes.length - p.given)
  let run : SatchelRun := ⟨blockName p.id va, b.tag, (b.bytes.drop p.given).take k⟩
  let s := s.modOwner p.ctx fun x => if k = 0 then x else { x with satchel := addRun run x.satchel }
  if p.given + k < b.bytes.length then s.modCopy core p.id fun p => { p with given := p.given + k }
  else
    let s := s.modOwner p.ctx fun x => { x with checks := x.checks ++ [⟨p.id, va, 2, b.wrong⟩] }
    s.modCopy core p.id fun p => { p with pos := p.pos + b.size, given := 0, block := none }

/-- One cycle of the decompression path for a unit's channel: checks, then decoding (R124, R289, R343). -/
def State.satchelCycle (s : State) (core n : Nat) : State :=
  let s := s.satchelChecks core n
  match (s.core core).decoding n with
  | none => s
  | some (p, src, len) =>
      let s := match p.block with | none => s.satchelRead core p src len | some _ => s
      match (s.core core).decoding n with
      | some (p, src, _) => (match p.block with | some b => s.satchelDecode core p src b | none => s)
      | none => s

/-- The Satchel copy at the front of a context's channel, with its core (R290). -/
def State.satchelFront (s : State) (ctx : Nat) : Option (Nat × Copy) :=
  s.cores.findSome? fun k => (k.2.copies.find? fun p => p.feeds ctx).map fun p => (k.1, p)

/-- Whether the decompression path can act on a channel: a check is to be decided, or a block to be decoded into room there is
(R124). -/
def State.satchelMoves (s : State) (core n : Nat) : Bool :=
  !(s.owner n).checks.isEmpty || (((s.core core).decoding n).isSome && 0 < s.satchelRoom n)

/-- SATCHEL_CHECK (R124, R343, R344): one cycle of the decompression path of a context's core. -/
def execSatchelCheck (ctx : Nat) (s : State) : Host.Outcome State Fault Refusal :=
  match s.satchelFront ctx with
  | none => .next s
  | some (k, _) => .next (s.satchelCycle k ctx)

/-- A collective descriptor (R292). -/
structure Coll where
  op : Nat
  ftag : Nat
  group : Nat
  root : Nat
  src : Nat
  dst : Nat
  count : Nat
  wctr : Word
  deriving DecidableEq, Repr

/-- The fields of a descriptor (R292). -/
def Coll.ofBytes (bs : List Byte) : Coll :=
  { op := natAt bs 0 1, ftag := natAt bs 1 1, group := natAt bs 2 1, root := natAt bs 3 1, src := natAt bs 8 8
    dst := natAt bs 16 8, count := natAt bs 24 8, wctr := w64 (natAt bs 32 8) }

/-- Bytes of an element of a collective: formats moved as bytes count 1 (R292). -/
def Coll.width (d : Coll) : Nat := if d.ftag = 15 || isBpFmt d.ftag then 1 else fmtBits d.ftag / 8

/-- The values R292 admits, in a group of n members. -/
def Coll.ok (d : Coll) (bs : List Byte) (n : Nat) : Bool :=
  d.op ≤ 4 && natAt bs 4 4 == 0 && natAt bs 40 8 == 0 && natAt bs 48 8 == 0 && natAt bs 56 8 == 0
    && (if d.op ≤ 1 then d.ftag == 5 || d.ftag == 6 || d.ftag == 8 || d.ftag == 9 else 1 ≤ d.ftag && d.ftag ≤ 23)
    && d.group < 16 && (if d.op = 3 then d.root < n else d.root == 0) && 1 ≤ d.count && d.count ≤ 2 ^ 32

/-- Bytes that a rank reads of its source (R292). -/
def Coll.sourceBytes (d : Coll) (n rank : Nat) : Nat :=
  let c := d.count * d.width
  if d.op = 1 || d.op = 4 then n * c else if d.op = 3 then (if rank = d.root then c else 0) else c
/-- Bytes that a rank writes of its destination (R292). -/
def Coll.resultBytes (d : Coll) (n : Nat) : Nat :=
  if d.op = 2 || d.op = 4 then n * (d.count * d.width) else d.count * d.width

/-- Whether n bytes lie in device global or domain space, page by page (R292); what no page maps is left to the run. -/
def State.collSpace (s : State) (n : Nat) : Nat → Nat → Nat → R Bool
  | 0, _, _ => .ok true s
  | fuel + 1, va, len =>
      if len = 0 || va ≥ 2 ^ 57 then .ok true s
      else if Config.spWindow ≤ va then .ok false s
      else
        match s.enginePage n va with
        | .ok p s =>
            if p.space = 2 then .ok false s
            else
              let k := min len (2 ^ p.bits - va % 2 ^ p.bits)
              s.collSpace n fuel (va + k) (len - k)
        | .trap _ _ s =>
            let k := min len (4096 - va % 4096)
            s.collSpace n fuel (va + k) (len - k)
        | .stall w s => .stall w s

/-- One more collective has issued on a group of a job (R293). -/
def State.issuedOn (s : State) (job group : Nat) : State :=
  match s.jobAt job with
  | none => s
  | some j => s.modJob j.id fun j =>
      { j with groups := j.groups.map fun (k, (g : Group)) => (k, if k == group then { g with issued := g.issued + 1 } else g) }

/-- `coll` (R291 to R293). -/
def execColl (g : Gates) (o : FormE) (s : State) : Host.Outcome State Fault Refusal :=
  issueOwn (.coll g o) s fun tk s =>
    (s.rdS o.sy).bind fun a s => (s.dstReady o.sx).andThen fun s =>
      if a.toNat % 64 != 0 then .trap 0x22 a s
      else if tk.any fun (t : Ticket) => t.scp.toNat < 4 then .trap 0x25 0 s
      else
        (s.readRun s.me a.toNat 64 1).bind fun bs s =>
          let d := Coll.ofBytes bs
          let gr := (s.jobOf s.me).bind fun j => afind? j.groups d.group
          match gr with
          | none => .trap 0x26 a s
          | some gr =>
              let slot := jobSlot (slotJob (s.slot s.me))
              if !d.ok bs gr.members.length then .trap 0x26 a s
              else if d.wctr != 0 && (hKind d.wctr != 6 || (s.jobCounter slot d.wctr).isNone) then .trap 0x26 a s
              else if d.src % d.width != 0 then .trap 0x22 (w64 d.src) s
              else if d.dst % d.width != 0 then .trap 0x22 (w64 d.dst) s
              else
                let n := gr.members.length
                let src := max 1 (d.sourceBytes n gr.rank)
                let dst := d.resultBytes n
                (s.collSpace s.me (src / 4096 + 2) d.src src).bind fun okS s =>
                  (s.collSpace s.me (dst / 4096 + 2) d.dst dst).bind fun okD s =>
                    if !okS || !okD then .trap 0x26 a s
                    else if !s.slotFree then .stall .copySlot s
                    else R.done ((s.startCopy (.coll bs gr.issued) o.sx tk).issuedOn slot d.group)

/-- Element i of a list of bytes at w bytes. -/
def elemAt (w : Nat) (bs : List Byte) (i : Nat) : Nat := natAt bs (w * i) w

/-- The sum of codes in ascending rank (R88, R292). -/
def Coll.sum (d : Coll) : List Nat → Nat
  | [] => 0
  | a :: r => r.foldl (fun a b => if isIntFmt d.ftag then (a + b) % 2 ^ fmtBits d.ftag else (addAt d.ftag a b).1) a

/-- The bytes a collective writes at DST for a rank, from the sources in ascending rank (R292). -/
def Coll.result (d : Coll) (rank : Nat) (srcs : List (List Byte)) : List Byte :=
  let w := d.width
  let c := d.count
  let part := fun (bs : List Byte) (i : Nat) => (bs.drop (i * c * w)).take (c * w)
  if d.op = 0 then (List.range c).flatMap fun i => leBytes w (d.sum (srcs.map fun b => elemAt w b i))
  else if d.op = 1 then (List.range c).flatMap fun i => leBytes w (d.sum (srcs.map fun b => elemAt w b (rank * c + i)))
  else if d.op = 2 then srcs.flatMap fun b => part b 0
  else if d.op = 3 then part (srcs[d.root]?.getD []) 0
  else srcs.flatMap fun b => part b rank

/-- A happening waits. -/
def State.holdBack (s : State) (e : Event) : State := { s with heldBack := s.heldBack ++ [e] }

/-- A contribution that does not carry what this member's collective carries (R293). -/
def Coll.differs (d : Coll) (n : Nat) (c : Contribution) : Bool :=
  c.op != d.op || c.ftag != d.ftag || c.count != d.count || c.root != d.root || c.bytes.length != d.sourceBytes n c.rank

/-- The k-th collective of a group runs once its counter has ended and every member's k-th contribution is there (R292 to R294). -/
def State.collRun (s : State) (core : Nat) (p : Copy) (bs : List Byte) (k : Nat) (sent : List Contribution) : State :=
  let others := sent.filter (·.k == k)
  let d := Coll.ofBytes bs
  let ctr := if d.wctr = 0 then none else s.counter d.wctr
  match ctr.map fun (c : Counter) => c.status with
  | some .running => s.holdBack (.collectiveRun core p.id sent)
  | some .cancelled => s.finishCopy core p
  | _ =>
      let scope := match p.post with | some t => t.scp.toNat | none => 4
      let s := if d.wctr = 0 then s else s.acquire core scope
      match (s.ownerJob p.ctx).bind fun j => afind? j.groups d.group with
      | none => s.failCopy core p 0x26 0
      | some gr =>
          let n := gr.members.length
          let ranks := (List.range n).filter (· != gr.rank)
          let there := ranks.all fun q => others.any (·.rank == q)
          if !there then s
          else if others.any fun c => c.rank < n && d.differs n c then s.failCopy core p 0x26 0
          else
            match s.engineBytes core p.ctx p.id d.src (d.sourceBytes n gr.rank) with
            | .stall _ s => s.holdBack (.collectiveRun core p.id sent)
            | .trap c t s => s.failCopy core p c t
            | .ok (mine, bad) s =>
                if bad && gr.members.any (·.1 == 1) then s.failCopy core p 0xA0 (w64 d.src)
                else
                  let srcs := (List.range n).map fun q =>
                    if q = gr.rank then mine else ((others.find? (·.rank == q)).map (·.bytes)).getD []
                  match s.enginePut core p.ctx p.id d.dst (d.result gr.rank srcs) bad with
                  | .stall _ s => s.holdBack (.collectiveRun core p.id sent)
                  | .trap c t s => s.failCopy core p c t
                  | .ok _ s =>
                      (s.emit (.contribution d.group gr.rank k d.op d.ftag d.count d.root mine)).finishCopy core p

/-- COLLECTIVE_RUN (R294). -/
def execCollectiveRun (core : Nat) (id : Nat) (others : List Contribution) (s : State) :
    Host.Outcome State Fault Refusal :=
  let me := Event.collectiveRun core id others
  let s : State := { s with heldBack := s.heldBack.filter (· != me) }
  match s.copyOf core id with
  | none => .next s
  | some p =>
      match p.kind with
      | .coll bs k => .next (s.collRun core p bs k others)
      | _ => .next s

/-- A collective that waits can go on: its counter has ended, and no peer owes it an answer. -/
def State.collReady (s : State) (core id : Nat) : Bool :=
  match s.copyOf core id with
  | none => true
  | some p =>
      match p.kind with
      | .coll bs _ =>
          let d := Coll.ofBytes bs
          let running := d.wctr != 0 && (s.counter d.wctr).any fun c => c.status == .running
          !running && !s.requests.any fun r => r.party.ctx == p.ctx && r.addr ≥ 2 ^ 64 && r.answer.isNone
      | _ => true

/-- The ranks of the members of a collective that Ultra Ethernet reaches (R293). -/
def State.farMembers (s : State) (p : Copy) (group : Nat) : List Nat :=
  match (s.ownerJob p.ctx).bind fun j => afind? j.groups group with
  | some (g : Group) => (List.range g.members.length).filter fun r => (g.members[r]?.map (·.1)) == some 1
  | none => []

/-- UET_DELIVERY_FAILURE (R294, R403, R443): a copy or a collective whose delivery fails on every retry stops. A copy names the
address it had reached, a collective the rank of the member that cannot be reached, which is a free value among those that Ultra
Ethernet reaches (DESIGN CHOICE, log 56). -/
def execUetDeliveryFailure (core : Nat) (id : Nat) (s : State) : Host.Outcome State Fault Refusal :=
  match s.copyOf core id with
  | none => .next s
  | some p =>
      match p.kind with
      | .copy dst _ _ => .next (s.failCopy core p 0x20 (w64 (dst + p.pos)))
      | .satchel src _ => .next (s.failCopy core p 0x20 (w64 (src + p.pos)))
      | .coll bs _ =>
          let far := s.farMembers p (Coll.ofBytes bs).group
          match far[(Config.freeDouble s.fresh).toNat % far.length]? with
          | some r => .next (State.failCopy { s with fresh := s.fresh + 1 } core p 0x20 (w64 r))
          | none => .next s

/-- The rank in a collective's group of a device of the domain (R293). -/
def State.memberRank (s : State) (p : Copy) (dev : Nat) : Option Nat :=
  match p.kind with
  | .coll bs _ =>
      ((s.ownerJob p.ctx).bind fun j => afind? j.groups (natAt bs 2 1)).bind fun (g : Group) =>
        g.members.findIdx? fun m => m.1 == 0 && m.2.1.toNat == dev
  | _ => none

/-- Collectives with a member that can no longer be reached stop, with its rank in TVAL (R294, R403). -/
def State.loseMember (s : State) (dev : Nat) : State :=
  (s.cores.flatMap fun (k, c) => c.copies.filterMap fun p => (s.memberRank p dev).map fun r => (k, p, r)).foldl
    (fun s (k, p, r) => s.failCopy k p 0x20 (w64 r)) s

end Sys2Proof.Machine
end

