-- ==== Sys2Proof/Machine/Sync.lean ====
section
/-! DEFINITION. Region hand-over, MAJ 0x24 (R159, R295 to R298), barriers and work counters, MAJ 0x28 (R305 to R310). -/

namespace Sys2Proof.Machine

/-- The entry of a key number of this device (R295). -/
def keyEntry (n : Word) : Nat := n.toNat % 4096
/-- The device of a key number (R295). -/
def keyDevice (n : Word) : Nat := n.toNat / 4096 % 256

/-- The widest scope that the space of an address admits, where it is mapped (R92, R94) (DEDUCED, log 53). -/
def State.admitted (s : State) (va : Nat) : R Nat :=
  if Config.spWindow ≤ va then .ok 1 s
  else (s.pageOf s.me va false).bind fun (p, _) s =>
    .ok (match p with | some p => spaceScope p.space | none => 7) s

/-- The check of a key of this device (R295): in use, and written for the job of the context (DEDUCED, log 53). -/
def State.keyOk (s : State) (n : Nat) : Bool := (s.key n).valid && (s.key n).job == jobSlot (slotJob (s.slot s.me))

/-- The issuing context holds a key of this device (R295) (DEDUCED, log 53). -/
def State.holdsKey (s : State) (n : Nat) : Bool :=
  let k := s.key n
  k.held && k.holder == s.me && k.remoteHolder.isNone

/-- Join a key's waiting queue (R296). -/
def Key.join (c : Nat) (k : Key) : Key := if k.queue.contains c then k else { k with queue := k.queue ++ [c] }
/-- A context begins a tenure (R296). -/
def Key.take (c : Nat) (k : Key) : Key :=
  { k with
    held := true, holder := c, tenure := k.tenure + 1, granted := none, remoteHolder := none
    queue := k.queue.filter (· != c) }

/-- Whether a key is free for a context: granted to it, or free with nobody before it. -/
def Key.freeFor (c : Nat) (k : Key) : Bool := !k.held && (k.granted == some c || (k.granted.isNone && k.queue.isEmpty))

/-- `racq` (R159, R296). Of a key of another device neither BASE, LENM1 nor SCOPE comes back with the GRANT, which carries TENURE
(R398): the whole L1 is dropped and the acquire is at scope 5, the widest (DESIGN CHOICE, log 53). -/
def execRacq (g : Gates) (o : FormA) (s : State) : Host.Outcome State Fault Refusal :=
  issue (.racq g o) s fun s =>
    (s.rdS o.sx).bind fun n s => (s.dstReady o.sy).andThen fun s => s.syncPoint.andThen fun s =>
      let core := coreOf s.me
      if n.toNat ≥ 2 ^ 20 then .trap 0x8A 0 s
      else if keyDevice n == s.dev then
        let e := keyEntry n
        if !s.keyOk e then .trap 0x8A 0 s
        else
          (s.admitted ((s.key e).base.toNat * 128)).bind fun widest s =>
            if (s.key e).scope.toNat > widest then .trap 0x25 0 s
            else if s.holdsKey e then .trap 0x89 0 s
            else if (s.key e).freeFor s.me then
              let s := s.modKey e (Key.take s.me)
              let s := s.setS o.sy ((s.key e).tenure.setWidth 64)
              let s := (s.keyRanges (s.key e)).foldl (fun s (lo, hi) => s.dropRange core lo hi) s
              R.done (s.acquire core (s.key e).scope.toNat)
            else .stall (.key e) (s.modKey e (Key.join s.me))
      else
        if s.farKeys.contains (s.me, n.toNat) then .trap 0x89 0 s
        else
          (s.ask 0x08 { noMsg with dst := keyDevice n, addr := n } (rowLine 0) n.toNat).bind fun (t, m) s =>
          if t == 0x25 then
            let s : State := { s with farKeys := s.farKeys ++ [(s.me, n.toNat)] }
            R.done (((s.setS o.sy (m.addr &&& 0xFFFFFFFF#64)).dropAll core).acquire core 5)
          else .trap m.aux 0 s

/-- `rrel` (R159, R297). -/
def execRrel (g : Gates) (o : FormA) (s : State) : Host.Outcome State Fault Refusal :=
  issue (.rrel g o) s fun s =>
    (s.rdS o.sx).bind fun n s =>
      let core := coreOf s.me
      if n.toNat ≥ 2 ^ 20 then .trap 0x8A 0 s
      else if keyDevice n == s.dev then
        let e := keyEntry n
        if !s.keyOk e then .trap 0x8A 0 s
        else if !s.holdsKey e then .trap 0x89 0 s
        else s.syncPoint.andThen fun s => R.done (s.giveKey e core)
      else if !s.farKeys.contains (s.me, n.toNat) then .trap 0x89 0 s
      else
        s.syncPoint.andThen fun s =>
          ((s.dropAll core).ask 0x08 { noMsg with dst := keyDevice n, aux := 1, addr := n } (rowLine 0) (n.toNat + 2 ^ 20)).bind fun (t, m) s =>
            let s : State := { s with farKeys := s.farKeys.filter (· != (s.me, n.toNat)) }
            if t == 0x22 then .trap m.aux 0 s else R.done s

/-- The fields of a barrier object: PH, ARR, EXP (R305). -/
structure Barrier where
  ph : Nat
  arr : Nat
  exp : Nat
  deriving DecidableEq, Repr

/-- A barrier object in memory (R305). -/
def State.barrier (s : State) (pa : Nat) : Barrier :=
  ⟨Memory.readN s.mem (pa + 8) 8, Memory.readN s.mem (pa + 4) 4, Memory.readN s.mem pa 4⟩

/-- A drop counts while EXP is above 0 (R306). -/
def Barrier.drop (b : Barrier) : Barrier := { b with exp := b.exp - 1 }

/-- The drops of a cycle in request order: the object after, and which of them underflow (R306). -/
def Barrier.drops : Nat → Barrier → Barrier × List Bool
  | 0, b => (b, [])
  | n + 1, b =>
      if b.exp = 0 then
        let (c, l) := Barrier.drops n b
        (c, true :: l)
      else
        let (c, l) := Barrier.drops n b.drop
        (c, false :: l)

/-- What a home atomic unit does in one cycle with the arrivals and the drops that reach it for an object (R306): the
object after, and which of the drops underflow. -/
def Barrier.cycle (b : Barrier) (arrivals drops : Nat) : Barrier × List Bool :=
  let (c, under) := b.drops drops
  let c := { c with arr := (c.arr + arrivals) % 2 ^ 32 }
  let applied := arrivals + (under.filter (!·)).length
  (if applied > 0 && c.arr ≥ c.exp then { c with ph := (c.ph + 1) % 2 ^ 64, arr := 0 } else c, under)

/-- Write a barrier object as the atomic unit of its home does (R134). -/
def State.putBarrier (s : State) (core : Option Nat) (pa : Nat) (b : Barrier) : State :=
  let d := match core with | some k => nodeOfCore k | none => homeNode pa
  let s := (wordsOf pa 16).foldl (fun s w => s.requestWord core d 0 .atomic w) s
  (pieces pa 16 (b.exp + 2 ^ 32 * b.arr + 2 ^ 64 * b.ph)).foldl (fun s (a, n, x) => s.putBytes core a n x true) s

/-- Where a barrier object lies (R305, R306): a multiple of 16, in device global or domain space; in the scratchpad window it
raises cause 0x21 whatever the scope. -/
def State.barrierAt (s : State) (g : Gates) (va : Word) (k : Access) (scp : Scope) : R Nat :=
  if va.toNat % 16 = 0 && Config.spWindow ≤ va.toNat && va.toNat < 2 ^ 57 then .trap 0x21 va s
  else
    (s.locate s.me ⟨va, 16, k, false, 16, 0, [scp.toNat], g.scopes⟩).bind fun t s =>
      match t with
      | .pad _ _ _ _ => .trap 0x21 va s
      | .phys pa _ => .ok pa s

/-- The access of a barrier's event at its home. -/
def barrierElem (va : Word) : Elem := ⟨va, 16, .atomic, false, 16, 1, [], []⟩

/-- Peers that hold words of a barrier object come first (R134) (DEDUCED, log 54). -/
def State.barrierPeers (s : State) (req : HomeReq) (pa : Nat) (va : Word) : R PUnit :=
  s.peersFirst req (coreOf s.me) (rowLine pa) (barrierElem va) (wordsOf pa 16)

/-- Write a barrier object of a peer that this core owns. -/
def State.putOwnedBarrier (s : State) (core pa : Nat) (b : Barrier) : State :=
  (pieces pa 16 (b.exp + 2 ^ 32 * b.arr + 2 ^ 64 * b.ph)).foldl (fun s (a, n, x) => s.putBytes (some core) a n x false) s

/-- `bararv` and `bardrop`: one event in a cycle of its home (R306). No message of R399 carries the event to a peer: there the
core obtains the object's line in M, and the event acts on it as its home would (DESIGN CHOICE, log 54). -/
def State.arrive (s : State) (g : Gates) (o : FormS) (drop : Bool) : R PUnit :=
  (s.rdS o.sy).bind fun b s => (s.dstReady o.sx).andThen fun s => s.syncPoint.andThen fun s =>
    let va := formAddr b o
    let core := coreOf s.me
    (s.barrierAt g va .atomic o.scp).bind fun pa s =>
      let mine := s.owns pa
      let asked := if mine then s.barrierPeers .atomic pa va
        else s.ownPeer core (rowLine pa) { barrierElem va with pol := 0 } pa fun k s => .trap k va s
      asked.andThen fun s => (R.each (wordsOf pa 16) s fun w s => s.consume w va).andThen fun s =>
        let old := s.barrier pa
        let (new, under) := old.cycle (if drop then 0 else 1) (if drop then 1 else 0)
        if under.any id then .trap 0x86 0 s
        else
          R.done ((if mine then s.putBarrier (some core) pa new else s.putOwnedBarrier core pa new).setS o.sx (w64 old.ph))

/-- `bararv` (R306). -/
def execBararv (g : Gates) (o : FormS) (s : State) : Host.Outcome State Fault Refusal :=
  issue (.bararv g o) s fun s => s.arrive g o false
/-- `bardrop` (R306). -/
def execBardrop (g : Gates) (o : FormS) (s : State) : Host.Outcome State Fault Refusal :=
  issue (.bardrop g o) s fun s => s.arrive g o true

/-- `barwait` (R306): the phase word is read where it is current. -/
def execBarwait (g : Gates) (o : FormS) (s : State) : Host.Outcome State Fault Refusal :=
  issue (.barwait g o) s fun s =>
    (s.rdS o.sy).bind fun b s => (s.rdS o.sx).bind fun v s => s.syncPoint.andThen fun s =>
      let va := formAddr b o
      (s.barrierAt g va .load o.scp).bind fun pa s =>
        if s.owns pa then
          (s.barrierPeers .untrackedLoad pa va).andThen fun s => (R.each (wordsOf pa 16) s fun w s => s.consume w va).andThen fun s =>
            if v.toNat < (s.barrier pa).ph then R.done (s.acquire (coreOf s.me) o.scp.toNat)
            else .stall (.barrier (pa + 8) v.toNat) s
        else
          (s.readElem s.me (rowElem (va + 8) 8 .load 3)).bind fun ph s =>
            if v.toNat < ph then R.done (s.acquire (coreOf s.me) o.scp.toNat)
            else .stall (.watermark (pa + 8) v.toNat) s

/-- An event of a party that reaches a home with others in one cycle: a drop that underflows raises 0x86 in its context,
and an applied event writes the old phase into its register (R306) (DEDUCED, log 54). -/
def State.barrierResult (s : State) (old : Nat) (e : BarrierEvent) (under : Bool) : State :=
  if slotState (s.slot e.ctx) != 1 then s
  else if under then s.later (.trapDelivery ⟨e.ctx, .ctl⟩ 0x86 0 false)
  else s.modCtx e.ctx fun x => x.setSreg e.sx (w64 old)

/-- BARRIER_EVENTS_APPLY (R306): the events of one cycle on one object of a job. -/
def execBarrierEventsApply (job : Nat) (addr : Word) (events : List BarrierEvent) (s : State) :
    Host.Outcome State Fault Refusal :=
  match (s.jobAt job).bind fun j => s.xlate j.root addr.toNat with
  | none => .next s
  | some (pa, _) =>
      if addr.toNat % 16 != 0 || !s.owns pa then .next s
      else
        let old := s.barrier pa
        let drops := events.filter (·.drop)
        let arrivals := events.filter (!·.drop)
        let (new, under) := old.cycle arrivals.length drops.length
        let s := s.putBarrier none pa new
        let s := arrivals.foldl (fun s e => s.barrierResult old.ph e false) s
        .next ((drops.zip under).foldl (fun s (e, u) => s.barrierResult old.ph e u) s)

/-- The slot of the job of the issuing context (R415). -/
def State.myJobSlot (s : State) : Nat := jobSlot (slotJob (s.slot s.me))

/-- The counter that an instruction names (R308, R415): a handle that names none the context may use raises 0x88. -/
def State.namedCounter (s : State) (o : FormS) (k : Word → Counter → State → R PUnit) : R PUnit :=
  (s.rdS o.sy).bind fun b s =>
    let h := formAddr b o
    match s.jobCounter s.myJobSlot h with
    | none => .trap 0x88 0 s
    | some c => k h c s

/-- An arrival on a counter (R309). -/
def Counter.arrive (n : Nat) (c : Counter) : Counter :=
  { c with value := c.value - n, status := if c.value - n = 0 then .complete else c.status }

/-- `wcarr` (R309). -/
def execWcarr (g : Gates) (o : FormS) (s : State) : Host.Outcome State Fault Refusal :=
  issue (.wcarr g o) s fun s =>
    s.namedCounter o fun h c s =>
      if hKind h != 6 then .trap 0x88 0 s
      else
        (s.rdS o.sx).bind fun n s =>
          if c.status != .running then R.done s
          else if n.toNat > c.value then .trap 0x87 0 s
          else s.syncPoint.andThen fun s => R.done (s.modCounter h (Counter.arrive n.toNat))

/-- Whether a level contains the unit of a context (R37, R310, R410). -/
def State.contains (s : State) (n : Nat) (h : Word) : Bool :=
  match s.unitOf n with
  | none => false
  | some (l, u) =>
      match hKind h with
      | 1 => hLidx h == l.lidx && hUnit h == u.no
      | 2 => hLidx h == l.lidx
      | 3 => hLidx h == l.graph
      | 4 => l.counted && hLidx h == l.phase
      | 5 => true
      | _ => false

/-- What a wait on an ended counter writes (R310). -/
def statusWord (c : CStatus) : Word := if c == .cancelled then 1 else 0

/-- `wcwait` (R310). -/
def execWcwait (g : Gates) (o : FormS) (s : State) : Host.Outcome State Fault Refusal :=
  issue (.wcwait g o) s fun s =>
    s.namedCounter o fun h c s =>
      if s.contains s.me h then .trap 0x88 0 s
      else
        (s.dstReady o.sx).andThen fun s => s.syncPoint.andThen fun s =>
          if c.status == .running then .stall (.counter h) s
          else R.done ((s.setS o.sx (statusWord c.status)).acquire (coreOf s.me) o.scp.toNat)

/-- A unit that its own `wccancel` has ended goes no further (R39). -/
def State.settleLive (s : State) (r : R PUnit) : State :=
  match r with
  | .ok _ t => if slotState (s.slot s.me) == 1 && slotState (t.slot s.me) != 1 then t else State.settle r
  | _ => State.settle r

/-- `wccancel` (R39, R40, R310). -/
def execWccancel (g : Gates) (o : FormS) (s : State) : Host.Outcome State Fault Refusal :=
  .next (s.settleLive (s.issueR (.wccancel g o) false fun _ s =>
    s.namedCounter o fun h _ s =>
      (s.dstReady o.sx).andThen fun s =>
        let (n, t) := s.cancelLevel h
        if slotState (s.slot s.me) == 1 && slotState (t.slot s.me) != 1 then R.done t
        else R.done (t.setS o.sx (w64 n))))

end Sys2Proof.Machine
end

