-- ==== Sys2Proof/Machine/MemEvents.lean ====
section
/-! DEFINITION. Happenings of the memory system: requests handled at a home (R133, R134), drops (R136), leases (R129),
fills of scratchpad frames (R105), and soft errors (R461). -/

namespace Sys2Proof.Machine

/-- A request for a line cannot go on yet (R133, R349): another on its words is in progress, or what the home has asked of peers for
the line, or for room in its set of the remote filter, is not answered. -/
def State.homeAsks (s : State) (line : LineKey) : Bool :=
  (s.inProgress homeParty (footprint line)).isSome || s.requests.any fun r =>
    r.party == homeParty && r.answer.isNone && (r.line == line || remoteSet r.line == remoteSet line)

/-- HOME_REQUEST (R133 to R135): a core's request for a line of this device; it waits for what peers hold of the line (R134), for
requests in progress on its words, and for room in the remote filter (R349). A load or an ownership request that is answered
brings the line into the core's L1; an SIS store registers the line's first word. -/
def execHomeRequest (core : Nat) (req : HomeReq) (line : LineKey) (s : State) : Host.Outcome State Fault Refusal :=
  let me := Event.homeRequest core req line
  let s : State := { s with heldBack := s.heldBack.filter (· != me) }
  let first := (footprint line).headD line.base
  let ws := if req == .sisStore then [first] else footprint line
  let asks := s.peerAsks req (nodeOfCore core) ws
  if !s.owns line.base then .next s
  else if (s.inProgress homeParty ws).isSome then .next { s with heldBack := s.heldBack ++ [me] }
  else if !asks.isEmpty then
    let s := if s.homeAsks line then s
      else asks.foldl (fun s (t, d) => s.tellPeer (if t == 0x10 then t else 0x13) line d) s
    .next { s with heldBack := s.heldBack ++ [me] }
  else
    match s.remoteRoom core req line ws with
    | .stall _ s => .next { s with heldBack := s.heldBack ++ [me] }
    | .trap _ _ s => .next s
    | .ok _ s =>
        match req with
        | .trackedLoad own => .next (s.loadLine core line (if own then 0 else 3) first)
        | .untrackedLoad => .next (s.loadLine core line 1 first)
        | .ownStore => .next (s.ownLine core line)
        | .throughStore => .next (s.homeRequest core .throughStore line ws)
        | .sisStore => .next (s.sisRegister core line first)
        | .atomic => .next (s.homeRequest core .atomic line ws)

/-- CORE_DROP_LINE (R136). -/
def execCoreDropLine (core : Nat) (line : LineKey) (s : State) : Host.Outcome State Fault Refusal :=
  .next (s.dropLine core line)

/-- L2_DROP_LINE (R136): a line of this device leaves the node; of a line of a peer the home is told, with the data when it
is dirty, once no die of this device holds it. A line that a scratchpad frame pins stays (R106). -/
def execL2DropLine (die : Nat) (line : LineKey) (s : State) : Host.Outcome State Fault Refusal := .next (s.l2Drop die line)

/-- A line whose lease has ended: its unregistered words are invalid (R129). -/
def L1Line.expire (line : LineKey) (l : L1Line) : Option L1Line :=
  if l.key == line && l.st == .U then pruneU { l with copies := [] } else some l

/-- U_LINE_LEASE_EXPIRY (R129). -/
def execULineLeaseExpiry (core : Nat) (line : LineKey) (s : State) : Host.Outcome State Fault Refusal :=
  .next (s.modCore core fun c => { c with l1 := c.l1.filterMap (L1Line.expire line) })

/-- SCRATCHPAD_FRAME_FILL (R105): a frame is pinned and filled for a page of a running context's window. -/
def execScratchpadFrameFill (ctx : Nat) (page : Nat) (s : State) : Host.Outcome State Fault Refusal :=
  let r := s.slot ctx
  if slotState r != 1 || page ≥ slotSpLen r then .next s
  else
    match s.enginePage ctx (slotSpBase r + page * 4096) with
    | .ok p s =>
        if p.space != 0 then .next s
        else .next (s.pin (coreOf ctx) (slotSpBase r) page (p.paddr s (slotSpBase r + page * 4096)) p.ow)
    | _ => .next s

/-- A vector register with one poisoned word more (R461, R462). -/
def VReg.poisonWord (w : Nat) (r : VReg) : VReg := { r with poison := r.poison ||| (1#256 <<< w) }

/-- The vector registers of a context in which an error lies: those of its oldest strip, or the VLC's own. -/
def Ctx.poisonVector (x : Ctx) (v w : Nat) : Ctx :=
  match x.ordered with
  | t :: _ => x.modStrip t.stripb fun u => u.setReg v (VReg.poisonWord w)
  | [] => { x with v := x.v.setIfInBounds v (VReg.poisonWord w (x.v[v]?.getD VReg.zero)) }

/-- SOFT_ERROR (R461): a correctable one is counted; another poisons its line or register word, and is logged. -/
def execSoftError (site : ErrorSite) (correctable : Bool) (s : State) : Host.Outcome State Fault Refusal :=
  if correctable then .next (s.modTele fun t => { t with ce := t.ce + 1 })
  else
    match site with
    | .line base => .next (s.poisonLine base)
    | .scalarReg c r =>
        let s := s.modTele fun t => { t with ue := t.ue + 1 }
        .next (s.modCtx c fun x => { x with spoison := if r = 0 then x.spoison else x.spoison ||| (1#64 <<< r.toNat) })
    | .vectorWord c v w =>
        let s := s.modTele fun t => { t with ue := t.ue + 1 }
        .next (s.modCtx c fun x => x.poisonVector v.toNat w)

end Sys2Proof.Machine
end

