-- ==== Sys2Proof/Machine/Scalar.lean ====
section
/-! DEFINITION. The control-thread instructions of MAJ 0x00 to 0x08 (R199 to R222): arithmetic, transfers, floating
point, dispatch of blocks, timelines and ends. -/

namespace Sys2Proof.Machine

/-- A result of two scalar sources (R194). -/
def State.binS (s : State) (sx sy sz : SReg) (f : Word → Word → Word) : R PUnit :=
  (s.rdS sy).bind fun a s => (s.rdS sz).bind fun b s => s.wrS sx (f a b)
/-- A result of a scalar source and an immediate (R200). -/
def State.immS (s : State) (sx sy : SReg) (imm : BitVec 20) (f : Word → Word → Word) : R PUnit :=
  (s.rdS sy).bind fun a s => s.wrS sx (f a (imm.signExtend 64))
/-- A result of one scalar source (R201). -/
def State.unS (s : State) (sx sy : SReg) (f : Word → Word) : R PUnit := (s.rdS sy).bind fun a s => s.wrS sx (f a)

/-- The shift amount of R199: bits 5:0. -/
def shamt (b : Word) : Nat := b.toNat % 64
/-- 1 when a condition holds, else 0. -/
def boolWord (b : Bool) : Word := if b then 1 else 0
/-- Left shift (R199). -/
def sllW (a b : Word) : Word := a <<< shamt b
/-- Logical right shift (R199). -/
def srlW (a b : Word) : Word := a >>> shamt b
/-- Arithmetic right shift (R199). -/
def sraW (a b : Word) : Word := a.sshiftRight (shamt b)
/-- Signed division, truncating; all ones for a zero divisor, the dividend on overflow (R199). -/
def divW (a b : Word) : Word := if b = 0 then BitVec.allOnes 64 else a.sdiv b
/-- Unsigned division; all ones for a zero divisor (R199). -/
def divuW (a b : Word) : Word := if b = 0 then BitVec.allOnes 64 else a.udiv b
/-- Signed remainder with the sign of the dividend; the dividend for a zero divisor (R199). -/
def remW (a b : Word) : Word := if b = 0 then a else a.srem b
/-- Unsigned remainder; the dividend for a zero divisor (R199). -/
def remuW (a b : Word) : Word := if b = 0 then a else a.umod b
/-- Leading zero bits, searched down from bit n (R201). -/
def clzFrom (a : Word) : Nat → Nat
  | 0 => 64
  | n + 1 => if a.getLsbD n then 63 - n else clzFrom a n
/-- One bits among the low n (R201). -/
def popFrom (a : Word) : Nat → Nat
  | 0 => 0
  | n + 1 => (if a.getLsbD n then 1 else 0) + popFrom a n

/-- `nop` (R219). -/
def execNop (g : Gates) (s : State) : Host.Outcome State Fault Refusal := issue (.nop g) s R.done
/-- `fence.near`: no effect of its own in a machine whose stores are accepted as they issue (R160, R220). -/
def execFenceNear (g : Gates) (s : State) : Host.Outcome State Fault Refusal := issue (.fenceNear g) s R.done

/-- The control thread of a context has executed `halt`. -/
def Ctx.halt (pc : Word) (x : Ctx) : Ctx := { x with halted := true, haltPc := pc }
/-- A halted unit whose operations have completed is complete (R37, R221). -/
def State.settleHalt (s : State) (c : Nat) : State :=
  if (s.ctx c).halted && slotState (s.slot c) == 1 then s.opEnd c else s

/-- `halt` (R221): a store's fault held for the context is delivered first (R161). -/
def execHalt (g : Gates) (s : State) : Host.Outcome State Fault Refusal :=
  let c := s.me
  .next ((State.settle (s.issueR (.halt g) false fun _ s =>
    s.syncPoint.andThen fun s => R.done (s.modCtx s.me (Ctx.halt s.cur.pc)))).settleHalt c)

/-- Whether blocks of a context are queued or running. -/
def Ctx.hasBlocks (x : Ctx) : Bool := !x.queue.isEmpty || x.run.isSome

/-- `vsync` (R216). -/
def execVsync (g : Gates) (s : State) : Host.Outcome State Fault Refusal :=
  issue (.vsync g) s fun s =>
    if s.myCtx.hasBlocks then .stall .blocksDone s
    else s.syncPoint.andThen fun s => R.done (s.acquire (coreOf s.me) 0)

/-- `tlwait`: the wait gate alone (R218). -/
def execTlwait (g : Gates) (s : State) : Host.Outcome State Fault Refusal := issue (.tlwait g) s R.done

/-- The lane that executes `wexit` ends; it stays detached until the `vrejoin` (R222, R245). -/
def Strip.endLane (p : Nat) (t : Strip) : Strip := { t with lanePcs := t.lanePcs.filter (·.1 != p) }

/-- `wexit` (R222). -/
def execWexit (g : Gates) (s : State) : Host.Outcome State Fault Refusal :=
  issue (.wexit g) s fun s =>
    match s.cur.party.place with
    | .lane _ p => R.done (s.modMyStrip (Strip.endLane p))
    | _ => R.done s

/-- `add` (R199). -/
def execAdd (g : Gates) (o : FormB) (s : State) : Host.Outcome State Fault Refusal :=
  issue (.add g o) s fun s => s.binS o.sx o.sy o.sz (· + ·)
/-- `sub` (R199). -/
def execSub (g : Gates) (o : FormB) (s : State) : Host.Outcome State Fault Refusal :=
  issue (.sub g o) s fun s => s.binS o.sx o.sy o.sz (· - ·)
/-- `and` (R199). -/
def execAnd (g : Gates) (o : FormB) (s : State) : Host.Outcome State Fault Refusal :=
  issue (.and g o) s fun s => s.binS o.sx o.sy o.sz (· &&& ·)
/-- `or` (R199). -/
def execOr (g : Gates) (o : FormB) (s : State) : Host.Outcome State Fault Refusal :=
  issue (.or g o) s fun s => s.binS o.sx o.sy o.sz (· ||| ·)
/-- `xor` (R199). -/
def execXor (g : Gates) (o : FormB) (s : State) : Host.Outcome State Fault Refusal :=
  issue (.xor g o) s fun s => s.binS o.sx o.sy o.sz (· ^^^ ·)
/-- `sll` (R199). -/
def execSll (g : Gates) (o : FormB) (s : State) : Host.Outcome State Fault Refusal :=
  issue (.sll g o) s fun s => s.binS o.sx o.sy o.sz sllW
/-- `srl` (R199). -/
def execSrl (g : Gates) (o : FormB) (s : State) : Host.Outcome State Fault Refusal :=
  issue (.srl g o) s fun s => s.binS o.sx o.sy o.sz srlW
/-- `sra` (R199). -/
def execSra (g : Gates) (o : FormB) (s : State) : Host.Outcome State Fault Refusal :=
  issue (.sra g o) s fun s => s.binS o.sx o.sy o.sz sraW
/-- `slt` (R199). -/
def execSlt (g : Gates) (o : FormB) (s : State) : Host.Outcome State Fault Refusal :=
  issue (.slt g o) s fun s => s.binS o.sx o.sy o.sz fun a b => boolWord (a.slt b)
/-- `sltu` (R199). -/
def execSltu (g : Gates) (o : FormB) (s : State) : Host.Outcome State Fault Refusal :=
  issue (.sltu g o) s fun s => s.binS o.sx o.sy o.sz fun a b => boolWord (a.ult b)
/-- `mul` (R199). -/
def execMul (g : Gates) (o : FormB) (s : State) : Host.Outcome State Fault Refusal :=
  issue (.mul g o) s fun s => s.binS o.sx o.sy o.sz (· * ·)
/-- `div` (R199). -/
def execDiv (g : Gates) (o : FormB) (s : State) : Host.Outcome State Fault Refusal :=
  issue (.div g o) s fun s => s.binS o.sx o.sy o.sz divW
/-- `divu` (R199). -/
def execDivu (g : Gates) (o : FormB) (s : State) : Host.Outcome State Fault Refusal :=
  issue (.divu g o) s fun s => s.binS o.sx o.sy o.sz divuW
/-- `rem` (R199). -/
def execRem (g : Gates) (o : FormB) (s : State) : Host.Outcome State Fault Refusal :=
  issue (.rem g o) s fun s => s.binS o.sx o.sy o.sz remW
/-- `remu` (R199). -/
def execRemu (g : Gates) (o : FormB) (s : State) : Host.Outcome State Fault Refusal :=
  issue (.remu g o) s fun s => s.binS o.sx o.sy o.sz remuW

/-- `addi` (R200). -/
def execAddi (g : Gates) (o : FormI) (s : State) : Host.Outcome State Fault Refusal :=
  issue (.addi g o) s fun s => s.immS o.sx o.sy o.imm (· + ·)
/-- `andi` (R200). -/
def execAndi (g : Gates) (o : FormI) (s : State) : Host.Outcome State Fault Refusal :=
  issue (.andi g o) s fun s => s.immS o.sx o.sy o.imm (· &&& ·)
/-- `ori` (R200). -/
def execOri (g : Gates) (o : FormI) (s : State) : Host.Outcome State Fault Refusal :=
  issue (.ori g o) s fun s => s.immS o.sx o.sy o.imm (· ||| ·)
/-- `xori` (R200). -/
def execXori (g : Gates) (o : FormI) (s : State) : Host.Outcome State Fault Refusal :=
  issue (.xori g o) s fun s => s.immS o.sx o.sy o.imm (· ^^^ ·)
/-- `slli` (R200). -/
def execSlli (g : Gates) (o : FormI) (s : State) : Host.Outcome State Fault Refusal :=
  issue (.slli g o) s fun s => s.immS o.sx o.sy o.imm sllW
/-- `srli` (R200). -/
def execSrli (g : Gates) (o : FormI) (s : State) : Host.Outcome State Fault Refusal :=
  issue (.srli g o) s fun s => s.immS o.sx o.sy o.imm srlW
/-- `srai` (R200). -/
def execSrai (g : Gates) (o : FormI) (s : State) : Host.Outcome State Fault Refusal :=
  issue (.srai g o) s fun s => s.immS o.sx o.sy o.imm sraW

/-- `mov` (R201). -/
def execMov (g : Gates) (o : FormA) (s : State) : Host.Outcome State Fault Refusal :=
  issue (.mov g o) s fun s => s.unS o.sx o.sy id
/-- `not` (R201). -/
def execNot (g : Gates) (o : FormA) (s : State) : Host.Outcome State Fault Refusal :=
  issue (.not g o) s fun s => s.unS o.sx o.sy fun a => ~~~a
/-- `clz` (R201). -/
def execClz (g : Gates) (o : FormA) (s : State) : Host.Outcome State Fault Refusal :=
  issue (.clz g o) s fun s => s.unS o.sx o.sy fun a => w64 (clzFrom a 64)
/-- `cpop` (R201). -/
def execCpop (g : Gates) (o : FormA) (s : State) : Host.Outcome State Fault Refusal :=
  issue (.cpop g o) s fun s => s.unS o.sx o.sy fun a => w64 (popFrom a 64)

/-- `li` (R202). -/
def execLi (g : Gates) (o : FormW) (s : State) : Host.Outcome State Fault Refusal :=
  issue (.li g o) s fun s => s.wrS o.sx (o.imm.signExtend 64)
/-- `lea` (R202). -/
def execLea (g : Gates) (o : FormW) (s : State) : Host.Outcome State Fault Refusal :=
  issue (.lea g o) s fun s => s.wrS o.sx (s.cur.pc + o.imm.signExtend 64)

/-- The target of a transfer with an offset in halfwords (R182). -/
def State.target (s : State) (off : Word) : Word := s.cur.pc + 2 * off

/-- A conditional branch (R203): a branch that is not taken checks nothing of its target. -/
def State.branch (s : State) (o : FormJ) (cond : Word → Word → Bool) : R PUnit :=
  (s.rdS o.sx).bind fun a s => (s.rdS o.sy).bind fun b s =>
    if cond a b then s.jump (s.target (o.off.signExtend 64)) else R.done s

/-- `beq` (R203). -/
def execBeq (g : Gates) (o : FormJ) (s : State) : Host.Outcome State Fault Refusal :=
  issue (.beq g o) s fun s => s.branch o (· == ·)
/-- `bne` (R203). -/
def execBne (g : Gates) (o : FormJ) (s : State) : Host.Outcome State Fault Refusal :=
  issue (.bne g o) s fun s => s.branch o (· != ·)
/-- `blt` (R203). -/
def execBlt (g : Gates) (o : FormJ) (s : State) : Host.Outcome State Fault Refusal :=
  issue (.blt g o) s fun s => s.branch o fun a b => a.slt b
/-- `bge` (R203). -/
def execBge (g : Gates) (o : FormJ) (s : State) : Host.Outcome State Fault Refusal :=
  issue (.bge g o) s fun s => s.branch o fun a b => !a.slt b
/-- `bltu` (R203). -/
def execBltu (g : Gates) (o : FormJ) (s : State) : Host.Outcome State Fault Refusal :=
  issue (.bltu g o) s fun s => s.branch o fun a b => a.ult b
/-- `bgeu` (R203). -/
def execBgeu (g : Gates) (o : FormJ) (s : State) : Host.Outcome State Fault Refusal :=
  issue (.bgeu g o) s fun s => s.branch o fun a b => !a.ult b

/-- `jmp` (R204). -/
def execJmp (g : Gates) (o : FormL) (s : State) : Host.Outcome State Fault Refusal :=
  issue (.jmp g o) s fun s => s.jump (s.target (o.off.signExtend 64))

/-- A call to a target: the next address goes to s1 once the target has passed its checks (R204). -/
def State.callTo (s : State) (a : Word) : R PUnit :=
  let back := s.cur.next
  (s.jump a).andThen fun s => s.wrS 1 back

/-- `call` (R204). -/
def execCall (g : Gates) (o : FormL) (s : State) : Host.Outcome State Fault Refusal :=
  issue (.call g o) s fun s => s.callTo (s.target (o.off.signExtend 64))
/-- `jr` (R204). -/
def execJr (g : Gates) (o : FormA) (s : State) : Host.Outcome State Fault Refusal :=
  issue (.jr g o) s fun s => (s.rdS o.sx).bind fun a s => s.jump a
/-- `callr` (R204). -/
def execCallr (g : Gates) (o : FormA) (s : State) : Host.Outcome State Fault Refusal :=
  issue (.callr g o) s fun s => (s.rdS o.sx).bind fun a s => s.callTo a

/-- `callt` (R205, R206): the entry's two fields are WIS loads of 8 bytes. -/
def execCallt (g : Gates) (o : FormA) (s : State) : Host.Outcome State Fault Refusal :=
  issue (.callt g o) s fun s =>
    (s.rdS o.sx).bind fun e s => (s.rdS o.sy).bind fun sig s =>
      if e.toNat % 16 != 0 then .trap 0x22 e s
      else
        (s.readElem s.me (rowElem e 8 .load 3)).bind fun tgt s =>
          (s.readElem s.me (rowElem (e + 8) 8 .load 3)).bind fun found s =>
            if w64 found != sig then .trap 0x07 e s else s.callTo (w64 tgt)

/-- A context's queue with a dispatch entry put at its end (R17); a VLC that had no block wants a lane group from now on (R24). -/
def Ctx.enqueue (now : Nat) (e : BlockEntry) (x : Ctx) : Ctx :=
  { x with queue := x.queue ++ [e], wants := if x.run.isNone && x.queue.isEmpty then now else x.wants }

/-- `vblk` (R17, R47, R215): the ticket is posted at the block's commit point. It is a release, which takes a store's fault held
for the context first (R20, R161). -/
def execVblk (g : Gates) (o : FormA) (s : State) : Host.Outcome State Fault Refusal :=
  issueOwn (.vblk g o) s fun tk s =>
    (s.rdS o.sx).bind fun a s => (s.rdS o.sy).bind fun n s =>
      if a.toNat % 64 != 0 then .trap 0x22 a s
      else s.syncPoint.andThen fun s =>
        if s.myCtx.queue.length ≥ Config.blockQueue then .stall .blockSlot s
        else
        let x := s.myCtx
        R.done ((s.modCtx s.me (Ctx.enqueue s.now ⟨a, n.toNat, x.seed, x.fctl, tk, x.s, x.spoison⟩)).opBegin s.me)

/-- Scalar floating-point arithmetic (R208). -/
def State.fop (s : State) (op : FOp) (o : FormF) : R PUnit :=
  (s.rdS o.sy).bind fun a s => (s.rdS o.sz).bind fun b s =>
    let c := s.fctlOf
    let (x, f) := farith op o.fmt.toNat (arithMode o.rnd c) (ftzOf c) a.toNat b.toNat 0
    (s.wrS o.sx (w64 x)).andThen fun s => R.done (s.addFlags f)

/-- `fadd` (R208). -/
def execFadd (g : Gates) (o : FormF) (s : State) : Host.Outcome State Fault Refusal :=
  issue (.fadd g o) s fun s => s.fop .add o
/-- `fsub` (R208). -/
def execFsub (g : Gates) (o : FormF) (s : State) : Host.Outcome State Fault Refusal :=
  issue (.fsub g o) s fun s => s.fop .sub o
/-- `fmul` (R208). -/
def execFmul (g : Gates) (o : FormF) (s : State) : Host.Outcome State Fault Refusal :=
  issue (.fmul g o) s fun s => s.fop .mul o
/-- `fdiv` (R208). -/
def execFdiv (g : Gates) (o : FormF) (s : State) : Host.Outcome State Fault Refusal :=
  issue (.fdiv g o) s fun s => s.fop .div o

/-- Scalar floating-point comparison (R209). -/
def State.fcmp (s : State) (op : FCmp) (o : FormF) : R PUnit :=
  (s.rdS o.sy).bind fun a s => (s.rdS o.sz).bind fun b s =>
    let (x, f) := fcompare op o.fmt.toNat (ftzOf s.fctlOf) a.toNat b.toNat
    (s.wrS o.sx (boolWord x)).andThen fun s => R.done (s.addFlags f)

/-- `feq` (R209). -/
def execFeq (g : Gates) (o : FormF) (s : State) : Host.Outcome State Fault Refusal :=
  issue (.feq g o) s fun s => s.fcmp .eq o
/-- `flt` (R209). -/
def execFlt (g : Gates) (o : FormF) (s : State) : Host.Outcome State Fault Refusal :=
  issue (.flt g o) s fun s => s.fcmp .lt o
/-- `fle` (R209). -/
def execFle (g : Gates) (o : FormF) (s : State) : Host.Outcome State Fault Refusal :=
  issue (.fle g o) s fun s => s.fcmp .le o

/-- A code of a format as a scalar register holds it: sign-extended for an i-format, zero-extended otherwise (R207,
R210). -/
def codeWord (f c : Nat) : Word := if isSignedFmt f then BitVec.ofInt 64 (sgn (fmtBits f) c) else w64 c

/-- `fcvt` (R210). -/
def execFcvt (g : Gates) (o : FormF) (s : State) : Host.Outcome State Fault Refusal :=
  issue (.fcvt g o) s fun s =>
    let d := o.fmt.toNat
    let f := o.sz.toNat % 32
    if !convertible f d then .trap 0x05 0 s
    else
      (s.rdS o.sy).bind fun a s =>
        let c := s.fctlOf
        let u := (pilgrim s.seedOf 0 0).toNat
        let (x, fl) := convert f none d none (effMode o.rnd c) u (effSat o.satm c) (ftzOf c) a.toNat
        (s.wrS o.sx (codeWord d x)).andThen fun s => R.done (s.addFlags fl)

end Sys2Proof.Machine
end

