-- ==== Sys2Proof/Machine/Matrix.lean ====
section
/-! DEFINITION. Tiles, the matrix unit and accumulator claims, MAJ 0x30 to 0x32 (R89, R314 to R328). -/

namespace Sys2Proof.Machine

/-- Rows of tile x's shape (R54). -/
def tshRows (x : BitVec 24) : Nat := (x.extractLsb' 8 6).toNat + 1
/-- Columns of a tile's shape (R54). -/
def tshCols (x : BitVec 24) : Nat := (x.extractLsb' 16 8).toNat + 1
/-- Element width of a tile's shape, in bits (R54). -/
def tshBits (x : BitVec 24) : Nat := 4 * 2 ^ (x.extractLsb' 0 3).toNat

/-- The shape register of a tile. -/
def Ctx.shapeOf (x : Ctx) (k : TNum) : BitVec 24 := x.tsh[k.toNat]?.getD 0
/-- A tile of a context. -/
def Ctx.tile (x : Ctx) (k : TNum) : TReg := x.t[k.toNat]?.getD TReg.zero
/-- Change a tile. -/
def Ctx.modTile (x : Ctx) (k : TNum) (f : TReg → TReg) : Ctx := { x with t := x.t.setIfInBounds k.toNat (f (x.tile k)) }

/-- Tile element (y, x) at b bits (R54, R72, R319). -/
def TReg.get (r : TReg) (b y x : Nat) : Nat := r.bytes.toNat / 2 ^ (1024 * y + b * x) % 2 ^ b
/-- Write a tile element. -/
def TReg.put (r : TReg) (b y x v : Nat) : TReg :=
  let k := 2 ^ (1024 * y + b * x)
  { r with bytes := BitVec.ofNat 65536 (r.bytes.toNat - r.get b y x * k + v % 2 ^ b * k) }
/-- Write the elements of a row from column 0; the high-water row rises (R68). -/
def TReg.putRow (r : TReg) (b y : Nat) (vs : List Nat) : TReg :=
  let r := ((List.range vs.length).zip vs).foldl (fun (r : TReg) (x, v) => r.put b y x v) r
  { r with hw := max r.hw (y + 1) }
/-- Clear all bytes of a row (R320). -/
def TReg.clearRow (r : TReg) (y : Nat) : TReg :=
  { r with
    bytes := BitVec.ofNat 65536 (r.bytes.toNat - r.bytes.toNat / 2 ^ (1024 * y) % 2 ^ 1024 * 2 ^ (1024 * y))
    hw := max r.hw (y + 1) }
/-- Scale entry of the block of row i and column block g (R58, R322). -/
def TReg.scaleAt (r : TReg) (i g : Nat) : Nat := r.scale.toNat / 2 ^ (8 * (i / 32 * 8 + g)) % 256
/-- Write a scale entry (R319). -/
def TReg.putScale (r : TReg) (e v : Nat) : TReg :=
  let n := r.scale.toNat
  { r with scale := BitVec.ofNat 128 (n - n / 2 ^ (8 * e) % 256 * 2 ^ (8 * e) + v % 256 * 2 ^ (8 * e)) }
/-- A tile with a tag. -/
def TReg.tagged (tag : Tag) (r : TReg) : TReg := { r with tag := tag }

/-- A strip's instruction has completed (R50). -/
def State.finished (s : State) : State := s.modMyStrip fun t => { t with vstart := 0 }

/-- Rows of a tile instruction still to do: from VSTART on (R319, R327) (DEDUCED, log 17). -/
def State.rowsLeft (s : State) (rows : Nat) : List Nat := (List.range rows).drop s.myStrip.vstart

/-- The checks of `tld` and `tst` (R113 to R115, R319). -/
def State.tileAccess (s : State) (g : Gates) (o : FormT) (store : Bool) (k : Shape → TensorAcc → State → R PUnit) : R PUnit :=
  ((s.takeGroups [o.va.toNat]).andThen fun s =>
    s.shapeIn o.va.toNat fun h s =>
      let sh := s.myCtx.shapeOf o.tx
      let f := tagFmt h.ftag
      if tensorBits f != tshBits sh then .trap 0x0F 0 s
      else if !h.orientOk (o.or == 1) then .trap 0x23 0 s
      else if store && tagFmt (s.myCtx.tile o.tx).tag != f then .trap 0x05 0 s
      else
        match h.firstOutside (s.rowsLeft (tshRows sh)) (List.range (tshCols sh)) with
        | some (y, x) => .trap 0x28 (w64 (y * 65536 + x)) s
        | none => k h ⟨o.or == 1, o.pol, [], g.scopes⟩ s).orBack s

/-- The scale entries that row y of a scaled tile load fills, with their numbers: those of the row's blocks of the view, when the
row is its blocks' first (R112, R114, R319) (DEDUCED, log 17). -/
def State.rowScales (s : State) (h : Shape) (a : TensorAcc) (rows cols y : Nat) : R (List Nat) :=
  if tagScaled h.ftag && y % 32 == 0 then
    R.gather (List.range ((cols + 31) / 32)) s fun bx s =>
      s.loadScale s.me h a ((List.range (min 32 (rows - y))).flatMap fun dy =>
        (List.range (min 32 (cols - 32 * bx))).map fun dx => (y + dy, 32 * bx + dx))
  else .ok [] s

/-- A row of a tile load is written: its elements, the tag, and the scale entries it fills (R319). -/
def TReg.loadRow (b y : Nat) (tag : Tag) (vs es : List Nat) (r : TReg) : TReg :=
  ((List.range es.length).zip es).foldl (fun (r : TReg) (x, e) => r.putScale (y / 32 * 8 + x) e) ((r.putRow b y vs).tagged tag)

/-- Row y of a tile load (R319). -/
def State.tileRow (s : State) (h : Shape) (a : TensorAcc) (tx : TNum) (sh : BitVec 24) (y : Nat) : R PUnit :=
  (R.gather (List.range (tshCols sh)) s fun x s => s.loadTensor s.me h a y x).bind fun vs s =>
    (s.rowScales h a (tshRows sh) (tshCols sh) y).bind fun es s =>
      R.done (s.modCtx s.me fun x => x.modTile tx (TReg.loadRow (tshBits sh) y h.ftag vs es))

/-- `tld` (R319): the row is the unit of progress. -/
def execTld (g : Gates) (o : FormT) (s : State) : Host.Outcome State Fault Refusal :=
  issue (.tld g o) s fun s => s.tileAccess g o false fun h a s =>
    let sh := s.myCtx.shapeOf o.tx
    (State.overPositions (s.rowsLeft (tshRows sh)) s fun y s => s.tileRow h a o.tx sh y).andThen fun s => R.done s.finished

/-- `tst` (R319). -/
def execTst (g : Gates) (o : FormT) (s : State) : Host.Outcome State Fault Refusal :=
  issue (.tst g o) s fun s => s.tileAccess g o true fun h a s =>
    let sh := s.myCtx.shapeOf o.tx
    let b := tshBits sh
    (State.overPositions (s.rowsLeft (tshRows sh)) s fun y s =>
      R.each (List.range (tshCols sh)) s fun x s =>
        s.storeTensor s.me h a y x ((s.myCtx.tile o.tx).get b y x)).andThen fun s => R.done s.finished

/-- `tzero` (R320). -/
def execTzero (g : Gates) (o : FormT) (s : State) : Host.Outcome State Fault Refusal :=
  issue (.tzero g o) s fun s =>
    let sh := s.myCtx.shapeOf o.tx
    if o.fmt != 0 && tensorBits o.fmt.toNat != tshBits sh then .trap 0x0F 0 s
    else
      let ys := s.rowsLeft (tshRows sh)
      R.done ((s.modCtx s.me fun x => x.modTile o.tx fun r =>
        (ys.foldl TReg.clearRow r).tagged (o.fmt.setWidth 6)).finished)

/-- The MODE of a pair of operand tags; nothing for a pair that R321 does not list. -/
def pairMode (a b : Tag) : Option AccMode :=
  let fa := tagFmt a
  let fb := tagFmt b
  let wide := fun f => f == 9 || f == 10
  let f8 := fun f => 11 ≤ f && f ≤ 14
  let ib := fun f => f == 1 || isBpFmt f
  if !tagLegal a || !tagLegal b then none
  else if wide fa && wide fb then some .fp
  else if f8 fa && (f8 fb || fb == 15) then some .fp
  else if fa == 15 && (f8 fb || fb == 15) then some .fp
  else if ib fa && ib fb then some (if tagScaled a || tagScaled b then .fp else .int)
  else none

/-- First accumulator row of the grant (R63, R314). -/
def Ctx.band (x : Ctx) : Nat := (x.mgrant.extractLsb' 9 2).toNat
/-- Rows of the grant (R63). -/
def Ctx.rowsGranted (x : Ctx) : Nat := (x.mgrant.extractLsb' 0 9).toNat

/-- A fresh accumulator row (R315). -/
def AccRow.zero : AccRow := ⟨0, .none, 0⟩
/-- Row r of the grant of a context (R314). -/
def State.accRow (s : State) (c r : Nat) : AccRow :=
  aget AccRow.zero (s.cluster (clusterOf c)).rows (64 * (s.owner c).band + r)
/-- A physical row of a cluster. -/
def State.physRow (s : State) (k r : Nat) : AccRow := aget AccRow.zero (s.cluster k).rows r
/-- Change a physical row of a cluster. -/
def State.modRow (s : State) (k r : Nat) (f : AccRow → AccRow) : State :=
  s.modCluster k fun c => { c with rows := aset c.rows r (f (aget AccRow.zero c.rows r)) }
/-- Value j of a row; +0 where MODE is none (R314). -/
def AccRow.get (r : AccRow) (j : Nat) : Nat := if r.mode == .none then 0 else r.vals.toNat / 2 ^ (32 * j) % 2 ^ 32
/-- Write value j of a row. -/
def AccRow.put (r : AccRow) (j v : Nat) : AccRow :=
  let n := r.vals.toNat
  let k := 2 ^ (32 * j)
  { r with vals := BitVec.ofNat 2048 (n - n / k % 2 ^ 32 * k + v % 2 ^ 32 * k) }

/-- A context has multiplies in the matrix unit, or drains, that have not completed: an instruction on accumulator rows waits for
them, and so does one that begins only when older ones have completed (R318). -/
def State.matrixBusy (s : State) (c : Nat) : Bool :=
  let u := s.cluster (clusterOf c)
  u.matq.any (fun m => m.ctx == c) || u.drains.any fun d => d.ctx == c

/-- The claim that an instruction on accumulator rows needs (R314, R317, R318, R322): the revoked mark, the rows, and the end of
the operations before it. -/
def State.claim (s : State) (row0 m : Nat) (k : State → R PUnit) : R PUnit :=
  let x := s.myCtx
  if x.revoked then .trap 0x66 0 s
  else if x.rowsGranted = 0 || row0 + m > x.rowsGranted then .trap 0x65 0 s
  else if s.matrixBusy s.me then .stall .drained s
  else k s

/-- An operand of a group: decoded, scaled, flushed under FTZ when its format is a floating one (R71, R75, R77, R87). -/
def operandV (f : Nat) (scale : Option Nat) (ftz : Bool) (c : Nat) : FVal × Flags :=
  let v := valueOf f c
  let v := match scale with | some e => scaleV v (scaleExp e) | none => v
  flushIn (ftz && !(isIntFmt f || isBpFmt f)) v

/-- A value of a group sum; a NaN in it has set NV (R89). -/
def nvOf (v : FVal) : Flags := if v.isNan then fNV else 0

/-- The exact sum of a group's products, in ascending k (R89). -/
def groupSum : List (FVal × FVal) → FVal
  | [] => .fin (Dy.zero false)
  | [(a, b)] => (mulV a b).1
  | (a, b) :: r => (addV (mulV a b).1 (groupSum r) .rne).1

/-- One group added to an FP accumulator, rounded once (R89). -/
def accGroup (ftz : Bool) (fa fb : Nat) (ea eb : Option Nat) (ab : List (Nat × Nat)) (acc : Nat) : Nat × Flags :=
  let ops := ab.map fun (a, b) => (operandV fa ea ftz a, operandV fb eb ftz b)
  let fl := ops.foldl (fun f (x, y) => f ||| x.2 ||| y.2) 0
  let sum := groupSum (ops.map fun (x, y) => (x.1, y.1))
  let (old, f0) := flushIn ftz (decodeF 8 acc)
  let (v, f1) := addV old sum .rne
  let (c, f2) := finish 8 .rne ftz v f1
  (c, fl ||| nvOf sum ||| f0 ||| f2)

/-- The operands of a multiply: MODE, formats, and for output (i, j) and k the two codes and the two scale codes of the
group of k (R322, R323). -/
structure Mma where
  mode : AccMode
  fa : Nat
  fb : Nat
  m : Nat
  n : Nat
  depth : Nat
  a : Nat → Nat → Nat
  b : Nat → Nat → Nat
  sa : Nat → Nat → Option Nat
  sb : Nat → Nat → Option Nat

/-- The indices of group g (R89). -/
def Mma.group (p : Mma) (g : Nat) : List Nat := (List.range (min 32 (p.depth - 32 * g))).map fun k => 32 * g + k

/-- Output (i, j) from an accumulator value (R322) (DEDUCED, log 15). -/
def Mma.value (p : Mma) (ftz : Bool) (i j acc : Nat) : Nat × Flags :=
  let gs := List.range ((p.depth + 31) / 32)
  match p.mode with
  | .int =>
      let s := gs.foldl (fun (x : Int) g => (p.group g).foldl (fun x k => x + intVal p.fa (p.a i k) * intVal p.fb (p.b j k)) x) (acc : Int)
      (wrap 32 s, 0)
  | _ =>
      gs.foldl (fun (acc, fl) g =>
        let (c, f) := accGroup ftz p.fa p.fb (p.sa i g) (p.sb j g) ((p.group g).map fun k => (p.a i k, p.b j k)) acc
        (c, fl ||| f)) (acc, 0)

/-- A row with its outputs and MODE, TOUCH set (R322). -/
def AccRow.take (mode : AccMode) (vs : List Nat) (r : AccRow) : AccRow :=
  let r := { r with mode := mode, touch := r.touch ||| BitVec.ofNat 64 (2 ^ vs.length - 1) }
  ((List.range vs.length).zip vs).foldl (fun (r : AccRow) (j, v) => r.put j v) r

/-- The claim of m rows with the MODE check (R322): every row's MODE is none or that of the operands. -/
def State.claimMode (s : State) (row0 m : Nat) (mode : AccMode) (k : State → R PUnit) : R PUnit :=
  s.claim row0 m fun s =>
    if (List.range m).any fun i =>
        let r := s.accRow s.me (row0 + i)
        r.mode != .none && r.mode != mode then .trap 0x05 0 s
    else k s

/-- The whole effect of a multiply on rows of the grant (R322); the operation is in the matrix unit's queue until it completes
there (R324). -/
def State.multiply (s : State) (row0 : Nat) (p : Mma) (tk : Option Ticket) : State :=
  let c := s.me
  let ftz := s.ftz
  let outs := (List.range p.m).map fun i =>
    (i, (List.range p.n).map fun j => p.value ftz i j ((s.accRow c (row0 + i)).get j))
  let base := 64 * s.myCtx.band + row0
  let s := outs.foldl (fun s (i, vs) => s.modRow (clusterOf c) (base + i) (AccRow.take p.mode (vs.map (·.1)))) s
  let fl := outs.foldl (fun f (_, vs) => vs.foldl (fun f v => f ||| v.2) f) (0 : Flags)
  ((s.modCluster (clusterOf c) fun k => { k with matq := k.matq ++ [⟨c, tk⟩] }).addFlags fl).finished

/-- The scale codes of a tile's blocks, none for an unscaled tile (R322). -/
def TReg.scales (r : TReg) (i g : Nat) : Option Nat := if tagScaled r.tag then some (r.scaleAt i g) else none

/-- `tmma` (R321, R322) (DEDUCED, log 17). -/
def execTmma (g : Gates) (o : FormT) (s : State) : Host.Outcome State Fault Refusal :=
  issueOwn (.tmma g o) s fun tk s =>
    let x := s.myCtx
    let a := x.tile o.tx
    let b := x.tile o.ty
    let named : Tag := o.sc ++ o.fmt
    if o.fmt != 0 && (a.tag != named || b.tag != named) then .trap 0x05 0 s
    else
      match pairMode a.tag b.tag with
      | none => .trap 0x05 0 s
      | some mode =>
          let hx := x.shapeOf o.tx
          let hy := x.shapeOf o.ty
          let fa := tagFmt a.tag
          let fb := tagFmt b.tag
          if tshCols hx != tshCols hy then .trap 0x12 0 s
          else if tshBits hx != tensorBits fa || tshBits hy != tensorBits fb then .trap 0x12 0 s
          else
            let row0 := (s.snapS o.sb).toNat
            s.claimMode row0 (tshRows hx) mode fun s =>
              R.done (s.multiply row0
                { mode := mode, fa := fa, fb := fb, m := tshRows hx, n := tshRows hy, depth := tshCols hx
                  a := a.get (tshBits hx), b := b.get (tshBits hy), sa := a.scales, sb := b.scales } tk)

/-- Element j of a row line of B: at byte j × w, or at the nibble of R72 (R323). -/
def rowElement (f : Nat) (row : Nat) (j : Nat) : Nat := row / 2 ^ (tensorBits f * j) % 2 ^ tensorBits f

/-- `tmma.s` (R323): elements of tX lie at the width of its tag (DEDUCED, log 17). -/
def execTmmaS (g : Gates) (o : FormT) (s : State) : Host.Outcome State Fault Refusal :=
  issueOwn (.tmmaS g o) s fun tk s =>
    let a := s.myCtx.tile o.tx
    let f : Tag := o.fmt.setWidth 6
    match pairMode a.tag f with
    | none => .trap 0x05 0 s
    | some mode =>
        if tagScaled a.tag then .trap 0x05 0 s
        else if s.myStrip.ewB != 4 then .trap 0x0F 0 s
        else
          ((s.takeGroups [o.va.toNat]).andThen fun s =>
            let t := s.myStrip
            let vi := o.va.toNat
            match t.indexCause vi with
            | some c => .trap c 0 s
            | none =>
                let hx := s.myCtx.shapeOf o.tx
                let ks := List.range t.vl
                if t.vl > tshCols hx then .trap 0x12 0 s
                else if t.poisonedAt [vi] 4 ks then .trap 0xA0 0 s
                else
                  let row0 := (s.snapS o.sb).toNat
                  s.claimMode row0 (tshRows hx) mode fun s =>
                    (R.gather ks s fun k s =>
                      let va := s.snapS o.sa + t.index vi k * 128
                      if va.toNat % 128 != 0 then .trap 0x22 va s
                      else
                        (R.gather (List.range 32) s fun i s =>
                          s.readElem s.me { rowElem (va + w64 (4 * i)) 4 .load o.pol with gates := g.scopes }).bind fun ws s =>
                            .ok (joinWords ws) s.dropAnswers).bind fun rows s =>
                      let fb := tagFmt f
                      R.done (s.multiply row0
                        { mode := mode, fa := tagFmt a.tag, fb := fb, m := tshRows hx, n := 64, depth := t.vl
                          a := a.get (tensorBits (tagFmt a.tag)), b := fun j k => rowElement fb (rows[k]?.getD 0) j
                          sa := fun _ _ => none, sb := fun _ _ => none } tk)).orBack s

/-- `tcvt` (R326): rows from VSTART on (R327). -/
def execTcvt (g : Gates) (o : FormT) (s : State) : Host.Outcome State Fault Refusal :=
  issue (.tcvt g o) s fun s =>
    let f := o.fmt.toNat
    let sh := s.myCtx.shapeOf o.tx
    if tensorBits f != tshBits sh then .trap 0x0F 0 s
    else if tshCols sh > 64 then .trap 0x12 0 s
    else
      let sb := s.snapS o.sb
      let row0 := sb.toNat % 2 ^ 32
      s.claim row0 (tshRows sh) fun s =>
        let fctl := s.fctlOf
        let tile := s.myCtx.tile o.tx
        let ys := s.rowsLeft (tshRows sh)
        let outs := ys.map fun i =>
          let r := s.accRow s.me (row0 + i)
          (i, (List.range (tshCols sh)).map fun c =>
            let u := (pilgrim s.seedOf (sb.extractLsb' 32 32) (BitVec.ofNat 32 (i * 256 + c))).toNat
            convert (if r.mode == .int then 5 else 8) none f (if o.sc == 1 then some (tile.scaleAt i (c / 32)) else none)
              (effMode o.rnd fctl) u (effSat o.satm fctl) (ftzOf fctl) (r.get c))
        let tag : Tag := o.sc ++ o.fmt
        let s := s.modCtx s.me fun x => x.modTile o.tx fun r =>
          (outs.foldl (fun (r : TReg) (i, vs) => r.putRow (tshBits sh) i (vs.map (·.1))) r).tagged tag
        let fl := outs.foldl (fun f (_, vs) => vs.foldl (fun f v => f ||| v.2) f) (0 : Flags)
        R.done ((s.addFlags fl).finished)

/-- Lengths of the run of free bands that starts at each band. -/
def freeRunAt (h : Vector (Option Nat) 4) (f : Nat) : Nat :=
  ((List.range (4 - f)).find? fun i => (h[f + i]?.getD none).isSome).getD (4 - f)

/-- The bands of a context's claim. -/
def Ctx.bands (x : Ctx) : List Nat := (List.range (x.rowsGranted / 64)).map fun i => x.band + i

/-- A context's accumulators are no longer revoked (R317). -/
def Ctx.unmark (x : Ctx) : Ctx := { x with revoked := false }

/-- Claim up to n bands for the issuing context, the lowest run of free ones (R315): nothing when none is free. -/
def State.takeBands (s : State) (n : Nat) : Option State :=
  let k := clusterOf s.me
  let h := (s.cluster k).holders
  let longest := (List.range 4).foldl (fun m f => max m (freeRunAt h f)) 0
  let n := min n longest
  (if n = 0 then none else (List.range 4).find? fun f => n ≤ freeRunAt h f).map fun f =>
    let bands := (List.range n).map fun i => f + i
    let c := s.me
    let s := s.modCluster k fun u =>
      { u with
        holders := bands.foldl (fun h b => h.setIfInBounds b (some c)) u.holders
        rows := u.rows.filter fun r => !bands.contains (r.1 / 64) }
    s.modCtx c fun x => { x with mgrant := BitVec.ofNat 11 (f * 512 + 64 * n) }

/-- `mattach` (R315). -/
def execMattach (g : Gates) (o : FormA) (s : State) : Host.Outcome State Fault Refusal :=
  issue (.mattach g o) s fun s =>
    (s.rdS o.sx).bind fun q s =>
      let s := s.modCtx s.me Ctx.unmark
      let n := q.toNat
      if s.myCtx.rowsGranted != 0 || !(n == 64 || n == 128 || n == 192 || n == 256) then .trap 0x64 q s
      else
        match s.takeBands (n / 64) with
        | none => R.done (s.modCtx s.me fun x => { x with mgrant := 0 })
        | some s => R.done s

/-- A context's bands are free and their contents gone (R316). -/
def State.giveBands (s : State) (n : Nat) : State :=
  State.freeBands { s with clusters := s.clusters.map fun (k, u) =>
    (k, { u with rows := u.rows.filter fun r => (u.holders[r.1 / 64]?.getD none) != some n }) } n

/-- `mdetach` (R316). -/
def execMdetach (g : Gates) (s : State) : Host.Outcome State Fault Refusal :=
  issue (.mdetach g) s fun s =>
    let c := s.me
    let u := s.cluster (clusterOf c)
    if s.myCtx.hasBlocks || u.matq.any (fun m => m.ctx == c) || u.drains.any (fun d => d.ctx == c) then .stall .matrix s
    else R.done ((s.giveBands c).modCtx c fun x => { x.unmark with mgrant := 0 })

/-- MATRIX_OPERATION_COMPLETE (R324): the operation at the front of a cluster's queue is done; its post is made. -/
def execMatrixOperationComplete (cluster : Nat) (s : State) : Host.Outcome State Fault Refusal :=
  match (s.cluster cluster).matq with
  | [] => .next s
  | m :: r => .next (((s.modCluster cluster fun k => { k with matq := r }).complete m.ctx m.post).settleUnit m.ctx)

/-- The unit whose claim an ACCUMULATOR_REVOKE for a number takes: the context's save area once it is switched out, nothing while it
runs (R317). -/
def State.revokeOf (s : State) (ctx : Nat) : Option Nat :=
  let n := if ctx < 2 ^ 20 then savedTag (slotSave (s.slot ctx)) else ctx
  if (ctx < 2 ^ 20 && slotState (s.slot ctx) != 2) || (s.owner n).rowsGranted = 0 then none else some n

/-- A unit has multiplies or drains that have not completed: its revocation waits (R316, R317, R328). -/
def State.claimBusy (s : State) (n : Nat) : Bool :=
  s.clusters.any fun (_, k) => k.matq.any (fun m => m.ctx == n) || k.drains.any fun d => d.ctx == n

/-- ACCUMULATOR_REVOKE (R317): the claim of a unit that is switched out, once its operations are done: bands are free, MGRANT is 0
in the saved image, and the context is marked. One that holds no claim has none to lose. -/
def execAccumulatorRevoke (ctx : Nat) (s : State) : Host.Outcome State Fault Refusal :=
  let me := Event.accumulatorRevoke ctx
  let s : State := { s with heldBack := s.heldBack.filter (· != me) }
  match s.revokeOf ctx with
  | none => .next s
  | some n =>
      if s.claimBusy n then .next { s with heldBack := s.heldBack ++ [me] }
      else
        let s := (s.giveBands n).modOwner n fun x => { x with mgrant := 0, revoked := true }
        let s := s.savedWrite n 0x630 (zeros 8)
        let flags := (match s.unitOf n with
          | some (l, _) => (match s.jobAt l.job with | some j => s.jobNat j.id (n - 2 ^ 20 + 0x47) 1 | none => 0)
          | none => 0)
        .next (s.savedWrite n 0x47 [BitVec.ofNat 8 (flags ||| 2)])

/-- `tdrain` (R325). -/
def execTdrain (g : Gates) (o : FormT) (s : State) : Host.Outcome State Fault Refusal :=
  issueOwn (.tdrain g o) s fun tk s =>
    let a := s.snapS o.sa
    let stride := s.snapS o.sb
    let x := s.myCtx
    if a.toNat % 4 != 0 then .trap 0x22 a s
    else if stride.toNat % 4 != 0 then .trap 0x22 stride s
    else if Config.spWindow ≤ a.toNat && a.toNat < Config.spEnd then .trap 0x21 a s
    else if x.revoked then .trap 0x66 0 s
    else if x.rowsGranted = 0 then .trap 0x65 0 s
    else if s.matrixBusy s.me then .stall .drained s
    else
      (match tk with | some _ => s.admitted a.toNat | none => .ok 7 s).bind fun widest s =>
        if tk.any fun (t : Ticket) => t.scp.toNat > widest then .trap 0x25 a s
        else
          let c := s.me
          let d : Drain :=
            { id := s.nextId, ctx := c, job := s.myJobSlot, addr := a, stride := stride, band := x.band
              rows := x.rowsGranted, post := tk }
          let s : State := { s with nextId := s.nextId + 1 }
          R.done (((s.modCluster (clusterOf c) fun k => { k with drains := k.drains ++ [d] }).opBegin c).finished)

/-- Where a drain's contribution lies (R325): no scratchpad and no network window. -/
def State.drainAt (s : State) (k n : Nat) (va : Nat) : R Nat :=
  (s.engineAt (4 * k) n va true).bind fun l s =>
    match l with
    | .phys pa => .ok pa s
    | _ => .trap 0x21 (w64 va) s

/-- One contribution of a drain at its home (R91, R304, R325) (DESIGN CHOICE, log 51). -/
def State.contribute (s : State) (k : Nat) (d : Drain) (va : Nat) (fp : Bool) (x : Nat) : R PUnit :=
  (s.drainAt k d.ctx va).bind fun pa s =>
    if s.owns pa then
      (s.engineFirst d.ctx d.id .atomic pa 4).andThen fun s =>
        let s := (s.mergeCheck pa).requestWord none (homeNode pa) 0 .atomic pa
        R.done (s.putBytes none pa 4 (reduced fp 4 (s.current pa 4) x) true)
    else
      let m := msgBytes { noMsg with addr := w64 (pa / 128 * 128), fp := fp } (pa % 128) 4 x
      (s.engineAsk d.ctx d.id 0x07 m pa).bind fun (t, a) s => if t == 0x22 then .trap a.aux (w64 va) s else R.done s

/-- A value leaves its row: it and its TOUCH bit are 0, and a row with no touched value has MODE none (R325). -/
def AccRow.leave (j : Nat) (r : AccRow) : AccRow :=
  let t := r.touch &&& ~~~ (1#64 <<< j)
  { (r.put j 0) with touch := t, mode := if t = 0 then .none else r.mode }

/-- The touched values of a drain in ascending order (R325). -/
def State.touched (s : State) (k : Nat) (d : Drain) : List (Nat × Nat) :=
  (List.range d.rows).flatMap fun r =>
    ((List.range 64).filter fun j => (s.physRow k (64 * d.band + r)).touch.getLsbD j).map fun j => (r, j)

/-- The address of a value of a drain (R325). -/
def Drain.at' (d : Drain) (r j : Nat) : Nat := (d.addr + w64 r * d.stride + w64 (4 * j)).toNat

/-- Send the values of a drain, each leaving its row once it is accepted (R325). -/
def State.drainValues (s : State) (k : Nat) (d : Drain) (vs : List (Nat × Nat)) : R PUnit :=
  R.each vs s fun (r, j) s =>
    let row := s.physRow k (64 * d.band + r)
    (s.contribute k d (d.at' r j) (row.mode == .fp) (row.get j)).andThen fun s =>
      R.done (s.modRow k (64 * d.band + r) (AccRow.leave j))

/-- A drain counts as complete (R325) (DESIGN CHOICE, log 51). -/
def State.finishDrain (s : State) (k : Nat) (d : Drain) : State :=
  let s := s.modCluster k fun u => { u with drains := u.drains.filter (·.id != d.id) }
  (s.complete d.ctx d.post).opEnd d.ctx

/-- A drain stops at a fault, held for the next timeline wait (R325). -/
def State.failDrain (s : State) (k : Nat) (d : Drain) (c : Code) (t : Word) : State :=
  (s.holdFault d.ctx
    { code := c, tval := t, num := postNum d.post, tl := d.post.map (·.tl), token := none, anyWait := true }).finishDrain k d

/-- The drain of a unit by its number, with its cluster. -/
def State.drainOf (s : State) (n id : Nat) : Option (Nat × Drain) :=
  s.clusters.findSome? fun (k, u) => (u.drains.find? fun d => d.ctx == n && d.id == id).map fun d => (k, d)

/-- DRAIN_COMPLETE (R325): the contributions not yet made; then the drain completes, or stops at a fault. It goes on later
when a peer has not answered. -/
def execDrainComplete (ctx : Nat) (id : Nat) (s : State) : Host.Outcome State Fault Refusal :=
  match s.drainOf ctx id with
  | none => .next s
  | some (k, d) =>
      match s.drainValues k d (s.touched k d) with
      | .ok _ s => .next (s.finishDrain k d)
      | .trap c t s => .next (s.failDrain k d c t)
      | .stall _ s => .next s

/-- DRAIN_CONTRIBUTION_FAULT (R325): a contribution faults after a number of them have been accepted. -/
def execDrainContributionFault (ctx : Nat) (id : Nat) (accepted : Nat) (code : Code) (s : State) :
    Host.Outcome State Fault Refusal :=
  match s.drainOf ctx id with
  | none => .next s
  | some (k, d) =>
      let vs := s.touched k d
      let next := match vs[accepted]? with | some (r, j) => d.at' r j | none => d.addr.toNat
      match s.drainValues k d (vs.take accepted) with
      | .ok _ s => .next (s.failDrain k d code (w64 next))
      | .trap c t s => .next (s.failDrain k d c t)
      | .stall _ s => .next (s.failDrain k d code (w64 next))

end Sys2Proof.Machine
end

