-- ==== Sys2Proof/Machine/Relay.lean ====
section
/-! DEFINITION. The Relay's instructions, MAJ 0x38 and 0x39, and the happenings of its chain (R329 to R340, R346). -/

namespace Sys2Proof.Machine

/-- The Relay of the issuing context's cluster. -/
def State.myRelay (s : State) : Relay := (s.cluster (clusterOf s.me)).relay

/-- The Relay is bound to the job of the issuing context (R329). -/
def State.relayMine (s : State) : Bool := s.myRelay.job == some (slotJob (s.slot s.me)).toNat

/-- A Relay instruction of a context of another job raises 0x63 (R329). -/
def State.onRelay (s : State) (k : State → R PUnit) : R PUnit := if s.relayMine then k s else .trap 0x63 0 s

/-- What `rrun` posts: the number it took at its first issue, else a new one (R335). -/
def State.runTicket (s : State) (g : Gates) (k : Option Ticket → State → R PUnit) : R PUnit :=
  match s.myStrip.kept with
  | some tk => k tk s
  | none =>
      (s.waitGate g).andThen fun s =>
        match g.post with
        | none => k none s
        | some p => if (s.myCtx.timeline p.tl).p + 1 ≥ 2 ^ 64 then .trap 0x85 0 s
                    else s.syncPoint.andThen fun s => k (some (s.ticketFor p)) s

/-- A run is admitted: the strip waits for it with what it posts. -/
def Strip.running (tk : Option Ticket) (t : Strip) : Strip := { t with kept := some tk }

/-- A run starts at the strip's VSTART (R333): its number is taken and its unit counts it at its first issue. -/
def State.startRun (s : State) (o : FormY) (slot : Nat) (tk : Option Ticket) : State :=
  let t := s.myStrip
  let q : RelayRun :=
    { id := s.nextId, ctx := s.me, stripb := t.stripb, vd := o.vd.toNat, va := o.va.toNat, slot := slot, next := t.vstart
      vl := t.vl, trapped := none, gone := List.range (min t.vstart t.vl) }
  let s : State := { s with nextId := s.nextId + 1 }
  let s := s.modRelay (clusterOf s.me) fun r => { r with runs := r.runs ++ [q] }
  let s := s.modCtx s.me fun x => x.unpark o.vd.toNat 8
  let s := if t.kept.isSome then s else ((match tk with | some k => s.tookPost k | none => s).opBegin s.me)
  s.modMyStrip (Strip.running tk)

/-- The registers of a record: eight from vA (R333). -/
def runRegs (o : FormY) : List Nat := (List.range 8).map fun f => o.va.toNat + f

/-- `rrun` at its start (R318, R333). -/
def State.beginRun (s : State) (o : FormY) (tk : Option Ticket) : R PUnit :=
  let t := s.myStrip
  if t.ewB != 4 then .trap 0x0F 0 s
  else if o.va.toNat % 8 != 0 || o.vd.toNat % 8 != 0 then .trap 0x0C 0 s
  else if s.myCtx.groupBound t.stripb o.vd.toNat 8 then .trap 0x0D 0 s
  else
    ((s.takeGroups (runRegs o)).andThen fun s =>
      let t := s.myStrip
      let slot := (s.snapS o.sa).toNat
      if t.groupTag o.va.toNat 8 != some 24 then .trap 0x05 0 s
      else if slot > 15 || t.vl > 256 || ((s.myRelay.bank s.myRelay.act).class slot).nf = 0 then .trap 0x68 0 s
      else if t.poisonedAt (runRegs o) 4 (t.active 0 0) || t.snapBad o.sa then .trap 0xA0 0 s
      else if s.matrixBusy s.me then .stall .drained s
      else R.done (s.startRun o slot tk)).orBack s

/-- The run of a strip is over (R335): its destination takes tag i32 now, so that a run in place goes on after a stop. -/
def Strip.runOver (vd : Nat) (t : Strip) : Strip :=
  { (if 0 < t.vl then t.tagGroup vd 8 5 else t) with vstart := 0, kept := none }

/-- `rrun`, its operand checks past (R333 to R335): a run that is over completes or raises its trap; a run that has not
started starts; the strip waits for its end. -/
def State.rrun (s : State) (o : FormY) (tk : Option Ticket) : R PUnit :=
  let k := clusterOf s.me
  let b := s.myStrip.stripb
  match s.runOfStrip s.me b with
  | none =>
      (s.beginRun o tk).andThen fun s => .stall (.relayRun b) s
  | some q =>
      if !s.myRelay.over q then .stall (.relayRun b) s
      else
        let s := s.modRelay k fun r => { r with runs := r.runs.filter (·.id != q.id) }
        match q.trapped with
        | some (p, c, stn) => .trap c (w64 stn) (s.modMyStrip (Strip.from p))
        | none => R.done (((s.modMyStrip (Strip.runOver o.vd.toNat)).complete s.me tk).opEnd s.me)

/-- `rrun` (R333 to R335). -/
def execRrun (g : Gates) (o : FormY) (s : State) : Host.Outcome State Fault Refusal :=
  .next (State.settle (match formCause (.rrun g o) false s.cur.party.place with
    | some c => .trap c 0 s
    | none =>
        if s.myRegion.isSome then .trap 0x10 0 s
        else s.runTicket g fun tk s => s.onRelay fun s => s.rrun o tk))

/-- The bytes of an image that the control thread reads as WIS weak loads (R336). -/
def State.image (s : State) (a n : Nat) : R (List Byte) :=
  (s.readRun s.me a n 3).bind fun bs s => .ok bs s.dropAnswers

/-- Entries a table of a kind holds (R331). -/
def tableSize (kind : Nat) : Nat :=
  match kind with
  | 1 => 4096
  | 2 => 512
  | 3 => 1024
  | _ => 0

/-- An entry of a table image, where its reserved bytes are zero and its action is valid (R331, R332). -/
def entryOf (kind stn : Nat) (b : List Byte) : Option RelayEntry :=
  let act := w64 (natAt b 16 8)
  if (kind != 2 && natAt b 8 8 != 0) || natAt b 24 1 > 1 || natAt b 25 7 != 0 || !actionOk act stn then none
  else some ⟨w64 (natAt b 0 8), w64 (natAt b 8 8), act, natAt b 24 1 == 1⟩

/-- The entries of a table image. -/
def entriesOf (kind stn : Nat) : Nat → List Byte → Option (List RelayEntry)
  | 0, _ => some []
  | n + 1, b =>
      match entryOf kind stn (b.take 32), entriesOf kind stn n (b.drop 32) with
      | some e, some r => some (e :: r)
      | _, _ => none

/-- Whether the header of a table image is valid (R331, R336). -/
def tableHead (h : List Byte) : Bool :=
  let kind := natAt h 2 1
  natAt h 0 2 == 0x7AB1 && kind ≤ 3 && natAt h 3 1 == 0 && natAt h 8 24 == 0
    && natAt h 4 2 + natAt h 6 2 ≤ tableSize kind && (kind != 0 || natAt h 4 2 == 0)

/-- A station takes entries of an image from FIRST on (R336). -/
def Station.load (kind first : Nat) (es : List RelayEntry) (t : Station) : Station :=
  let t := if kind == t.kind then t else { t with kind := kind, entries := [] }
  ((List.range es.length).zip es).foldl (fun (t : Station) (i, e) => { t with entries := aset t.entries (first + i) e }) t

/-- Change a station of a bank. -/
def RelayBank.modStation (k : Nat) (f : Station → Station) (b : RelayBank) : RelayBank :=
  { b with stations := b.stations.setIfInBounds k (f (b.station k)) }

/-- Write the shadow bank once no copy-back is in progress (R336). -/
def State.shadow (s : State) (f : RelayBank → RelayBank) : R PUnit :=
  if s.myRelay.commit.isSome then .stall .copyback s
  else R.done (s.modRelay (clusterOf s.me) fun r => r.modBank (!r.act) f)

/-- `rtw` (R331, R336). -/
def execRtw (g : Gates) (o : FormY) (s : State) : Host.Outcome State Fault Refusal :=
  issue (.rtw g o) s fun s => s.onRelay fun s =>
    (s.rdS o.sa).bind fun a s =>
      if a.toNat % 32 != 0 then .trap 0x22 a s
      else
        (s.image a.toNat 32).bind fun h s =>
          let count := natAt h 6 2
          (s.image (a.toNat + 32) (32 * count)).bind fun body s =>
            match (if tableHead h then entriesOf (natAt h 2 1) o.stn.toNat count body else none) with
            | none => .trap 0x67 a s
            | some es => s.shadow (RelayBank.modStation o.stn.toNat (Station.load (natAt h 2 1) (natAt h 4 2) es))

/-- A class image (R330): nothing where it is invalid. -/
def classOf (b : List Byte) : Option RelayClass :=
  let nf := natAt b 0 1
  let keep := natAt b 1 1
  let flag := natAt b 2 1
  let mOk := fun m => m ≤ 15 || m == 255
  let kOk := fun k => k ≤ 7 || k == 255
  let keys := (List.range 8).map fun s => (natAt b (8 + 2 * s) 1, natAt b (9 + 2 * s) 1)
  let opt := fun k => if k = 255 then none else some k
  if nf > 8 || !mOk keep || !mOk flag || natAt b 3 5 != 0 || natAt b 24 40 != 0
      || (keep == flag && keep != 255)
      || keys.any (fun k => !kOk k.1 || !kOk k.2 || (k.1 == 255 && k.2 != 255)) then none
  else
    some ⟨nf, (opt keep).map (BitVec.ofNat 4), (opt flag).map (BitVec.ofNat 4), keys.map fun k => (opt k.1, opt k.2)⟩

/-- A bank with a class slot. -/
def RelayBank.setClass (k : Nat) (c : RelayClass) (b : RelayBank) : RelayBank := { b with classes := aset b.classes k c }

/-- `rclass` (R330, R336). -/
def execRclass (g : Gates) (o : FormY) (s : State) : Host.Outcome State Fault Refusal :=
  issue (.rclass g o) s fun s => s.onRelay fun s =>
    (s.rdS o.sa).bind fun a s => (s.rdS o.sb).bind fun n s =>
      if a.toNat % 64 != 0 then .trap 0x22 a s
      else
        (s.image a.toNat 64).bind fun b s =>
          match (if n.toNat > 15 then none else classOf b) with
          | none => .trap 0x67 a s
          | some c => s.shadow (RelayBank.setClass n.toNat c)

/-- A bank with the miss action of a station, or the overflow action as station 8. -/
def RelayBank.setMiss (stn : Nat) (a : Word) (b : RelayBank) : RelayBank :=
  if stn = 8 then { b with overflow := a } else b.modStation stn fun t => { t with miss := a }

/-- `rmiss` (R332, R336). -/
def execRmiss (g : Gates) (o : FormY) (s : State) : Host.Outcome State Fault Refusal :=
  issue (.rmiss g o) s fun s => s.onRelay fun s =>
    (s.rdS o.sa).bind fun a s =>
      if !actionOk a o.stn.toNat then .trap 0x67 a s
      else s.shadow (RelayBank.setMiss o.stn.toNat a)

/-- ACT flips; the old bank's copy-back is due, with what its end posts (R337). -/
def Relay.flip (c : Nat) (tk : Option Ticket) (r : Relay) : Relay :=
  { r with act := !r.act, commit := some ⟨r.act, c, tk⟩ }

/-- `rcommit` (R337): the flip; RCOMMIT_COPYBACK ends it. -/
def execRcommit (g : Gates) (o : FormY) (s : State) : Host.Outcome State Fault Refusal :=
  issueOwn (.rcommit g o) s fun tk s => s.onRelay fun s =>
    if s.myRelay.commit.isSome then .stall .copyback s
    else R.done (s.modRelay (clusterOf s.me) (Relay.flip s.me tk))

/-- `rstat` (R339). -/
def execRstat (g : Gates) (o : FormA) (s : State) : Host.Outcome State Fault Refusal :=
  issue (.rstat g o) s fun s => s.onRelay fun s =>
    (s.rdS o.sy).bind fun n s => s.wrS o.sx (if n.toNat < 24 then w64 (aget 0 s.myRelay.counters n.toNat) else 0)

/-- RELAY_ADMISSION (R334, R340, R346). -/
def execRelayAdmission (cluster : Nat) (s : State) : Host.Outcome State Fault Refusal := .next (s.relayCycle cluster true)

/-- RELAY_RECORD_LEAVE (R335). -/
def execRelayRecordLeave (cluster : Nat) (s : State) : Host.Outcome State Fault Refusal := .next (s.relayLeave cluster)

/-- RCOMMIT_COPYBACK (R337): once no record of the old bank remains in the chain. -/
def execRcommitCopyback (cluster : Nat) (s : State) : Host.Outcome State Fault Refusal :=
  let r := (s.cluster cluster).relay
  match r.commit with
  | none => .next s
  | some m => if r.mayCopy then .next ((s.modRelay cluster Relay.copyBack).complete m.ctx m.post) else .next s

end Sys2Proof.Machine
end

