-- ==== Sys2Proof/Machine/VecArith.lean ====
section
/-! DEFINITION. Vector arithmetic and comparison, MAJ 0x14 to 0x16 (R249 to R253), and the mask instructions, MAJ 0x17
(R254, R255). -/

namespace Sys2Proof.Machine

/-- An integer operation of MAJ 0x14 other than bitwise logic (R249). -/
def State.vint (s : State) (o : FormV) (f : Bool → Nat → Nat → Nat → Nat) : R PUnit :=
  fromE (s.vformat o okInt) s fun tag =>
    let w := s.myStrip.ewB
    let g := s.myStrip.grp
    let b := s.second o w
    let srcs := o.va.toNat :: b.regs
    let sg := isSignedFmt (tagFmt tag)
    s.vgroups (srcs.map fun v => (v, g)) (some (o.vd.toNat, g)) fun s =>
      if !s.tagsAre srcs tag then .trap 0x05 0 s
      else s.mapLanes (s.positions o) srcs o.vd.toNat w g tag fun t p =>
        (f sg (8 * w) (t.el o.va.toNat w p) (b.at t w p), 0)

/-- Bitwise logic (R57, R72, R249): any tags but e2m1; the common tag, or 0. -/
def State.vlogic (s : State) (o : FormV) (f : Bool → Nat → Nat → Nat → Nat) : R PUnit :=
  let w := s.myStrip.ewB
  let g := s.myStrip.grp
  if o.fv == 1 && !widthOk o.fmt.toNat w then .trap 0x0F 0 s
  else
    let b := s.second o w
    let srcs := o.va.toNat :: b.regs
    s.vgroups (srcs.map fun v => (v, g)) (some (o.vd.toNat, g)) fun s =>
      let tags := srcs.map fun v => s.myStrip.groupTag v g
      if tags.any (·.all (tagFmt · == 15)) then .trap 0x05 0 s
      else
        let first := (tags.headD none).getD 0
        let tag := if tags.all (· == some first) then first else 0
        s.mapLanes (s.positions o) srcs o.vd.toNat w g tag fun t p =>
          (f false (8 * w) (t.el o.va.toNat w p) (b.at t w p), 0)

/-- `vadd` (R249). -/
def execVadd (g : Gates) (o : FormV) (s : State) : Host.Outcome State Fault Refusal :=
  issue (.vadd g o) s fun s => s.vint o ivAdd
/-- `vsub` (R249). -/
def execVsub (g : Gates) (o : FormV) (s : State) : Host.Outcome State Fault Refusal :=
  issue (.vsub g o) s fun s => s.vint o ivSub
/-- `vmul` (R249). -/
def execVmul (g : Gates) (o : FormV) (s : State) : Host.Outcome State Fault Refusal :=
  issue (.vmul g o) s fun s => s.vint o ivMul
/-- `vmulh` (R249). -/
def execVmulh (g : Gates) (o : FormV) (s : State) : Host.Outcome State Fault Refusal :=
  issue (.vmulh g o) s fun s => s.vint o ivMulh
/-- `vmin` (R249). -/
def execVmin (g : Gates) (o : FormV) (s : State) : Host.Outcome State Fault Refusal :=
  issue (.vmin g o) s fun s => s.vint o ivMin
/-- `vmax` (R249). -/
def execVmax (g : Gates) (o : FormV) (s : State) : Host.Outcome State Fault Refusal :=
  issue (.vmax g o) s fun s => s.vint o ivMax
/-- `vand` (R249). -/
def execVand (g : Gates) (o : FormV) (s : State) : Host.Outcome State Fault Refusal :=
  issue (.vand g o) s fun s => s.vlogic o ivAnd
/-- `vor` (R249). -/
def execVor (g : Gates) (o : FormV) (s : State) : Host.Outcome State Fault Refusal :=
  issue (.vor g o) s fun s => s.vlogic o ivOr
/-- `vxor` (R249). -/
def execVxor (g : Gates) (o : FormV) (s : State) : Host.Outcome State Fault Refusal :=
  issue (.vxor g o) s fun s => s.vlogic o ivXor
/-- `vsll` (R249). -/
def execVsll (g : Gates) (o : FormV) (s : State) : Host.Outcome State Fault Refusal :=
  issue (.vsll g o) s fun s => s.vint o ivSll
/-- `vsrl` (R249). -/
def execVsrl (g : Gates) (o : FormV) (s : State) : Host.Outcome State Fault Refusal :=
  issue (.vsrl g o) s fun s => s.vint o ivSrl
/-- `vsra` (R249). -/
def execVsra (g : Gates) (o : FormV) (s : State) : Host.Outcome State Fault Refusal :=
  issue (.vsra g o) s fun s => s.vint o ivSra
/-- `vsadd` (R249). -/
def execVsadd (g : Gates) (o : FormV) (s : State) : Host.Outcome State Fault Refusal :=
  issue (.vsadd g o) s fun s => s.vint o ivSadd
/-- `vssub` (R249). -/
def execVssub (g : Gates) (o : FormV) (s : State) : Host.Outcome State Fault Refusal :=
  issue (.vssub g o) s fun s => s.vint o ivSsub
/-- `vdiv` (R249). -/
def execVdiv (g : Gates) (o : FormV) (s : State) : Host.Outcome State Fault Refusal :=
  issue (.vdiv g o) s fun s => s.vint o ivDiv
/-- `vrem` (R249). -/
def execVrem (g : Gates) (o : FormV) (s : State) : Host.Outcome State Fault Refusal :=
  issue (.vrem g o) s fun s => s.vint o ivRem

/-- A floating-point operation of MAJ 0x15 (R250, R251): `two` and `three` say that it takes the second source and VC. -/
def State.vflt (s : State) (o : FormV) (two three : Bool) (f : Nat → RMode → Bool → Nat → Nat → Nat → Nat × Flags) :
    R PUnit :=
  fromE (s.vformat o okWide) s fun tag =>
    let w := s.myStrip.ewB
    let g := s.myStrip.grp
    let b := if two then s.second o w else .code 0
    let srcs := o.va.toNat :: b.regs ++ (if three then [o.vc.toNat] else [])
    let mode := arithMode o.rnd s.fctlOf
    let ftz := s.ftz
    s.vgroups (srcs.map fun v => (v, g)) (some (o.vd.toNat, g)) fun s =>
      if !s.tagsAre srcs tag then .trap 0x05 0 s
      else s.mapLanes (s.positions o) srcs o.vd.toNat w g tag fun t p =>
        f (tagFmt tag) mode ftz (t.el o.va.toNat w p) (b.at t w p) (if three then t.el o.vc.toNat w p else 0)

/-- An arithmetic operation as R250 computes it. -/
def fvOp (op : FOp) (f : Nat) (m : RMode) (z : Bool) (a b c : Nat) : Nat × Flags := farith op f m z a b c
/-- `vfmin` and `vfmax` (R251). -/
def fvMinMax (isMax : Bool) (f : Nat) (_ : RMode) (z : Bool) (a b _ : Nat) : Nat × Flags := fminmax isMax f z a b
/-- `vfabs` (R251). -/
def fvAbs (f : Nat) (_ : RMode) (_ : Bool) (a _ _ : Nat) : Nat × Flags := (a % signBit f true, 0)
/-- `vfneg` (R251). -/
def fvNeg (f : Nat) (_ : RMode) (_ : Bool) (a _ _ : Nat) : Nat × Flags := (a ^^^ signBit f true, 0)

/-- `vfadd` (R250). -/
def execVfadd (g : Gates) (o : FormV) (s : State) : Host.Outcome State Fault Refusal :=
  issue (.vfadd g o) s fun s => s.vflt o true false (fvOp .add)
/-- `vfsub` (R250). -/
def execVfsub (g : Gates) (o : FormV) (s : State) : Host.Outcome State Fault Refusal :=
  issue (.vfsub g o) s fun s => s.vflt o true false (fvOp .sub)
/-- `vfmul` (R250). -/
def execVfmul (g : Gates) (o : FormV) (s : State) : Host.Outcome State Fault Refusal :=
  issue (.vfmul g o) s fun s => s.vflt o true false (fvOp .mul)
/-- `vfdiv` (R250). -/
def execVfdiv (g : Gates) (o : FormV) (s : State) : Host.Outcome State Fault Refusal :=
  issue (.vfdiv g o) s fun s => s.vflt o true false (fvOp .div)
/-- `vfma` (R250). -/
def execVfma (g : Gates) (o : FormV) (s : State) : Host.Outcome State Fault Refusal :=
  issue (.vfma g o) s fun s => s.vflt o true true (fvOp .fma)
/-- `vfms` (R250). -/
def execVfms (g : Gates) (o : FormV) (s : State) : Host.Outcome State Fault Refusal :=
  issue (.vfms g o) s fun s => s.vflt o true true (fvOp .fms)
/-- `vfmin` (R251). -/
def execVfmin (g : Gates) (o : FormV) (s : State) : Host.Outcome State Fault Refusal :=
  issue (.vfmin g o) s fun s => s.vflt o true false (fvMinMax false)
/-- `vfmax` (R251). -/
def execVfmax (g : Gates) (o : FormV) (s : State) : Host.Outcome State Fault Refusal :=
  issue (.vfmax g o) s fun s => s.vflt o true false (fvMinMax true)
/-- `vfsqrt` (R250). -/
def execVfsqrt (g : Gates) (o : FormV) (s : State) : Host.Outcome State Fault Refusal :=
  issue (.vfsqrt g o) s fun s => s.vflt o false false (fvOp .sqrt)
/-- `vfabs` (R251). -/
def execVfabs (g : Gates) (o : FormV) (s : State) : Host.Outcome State Fault Refusal :=
  issue (.vfabs g o) s fun s => s.vflt o false false fvAbs
/-- `vfneg` (R251). -/
def execVfneg (g : Gates) (o : FormV) (s : State) : Host.Outcome State Fault Refusal :=
  issue (.vfneg g o) s fun s => s.vflt o false false fvNeg

/-- A comparison of MAJ 0x16 (R253). -/
def State.vcompare (s : State) (o : FormV) (ok : Nat → Bool → Bool) (f : Nat → Bool → Nat → Nat → Nat → Bool × Flags) :
    R PUnit :=
  fromE (s.vformat o ok) s fun tag =>
    let w := s.myStrip.ewB
    let g := s.myStrip.grp
    let b := s.second o w
    let srcs := o.va.toNat :: b.regs
    let ftz := s.ftz
    s.vgroups (srcs.map fun v => (v, g)) none fun s =>
      if !s.tagsAre srcs tag then .trap 0x05 0 s
      else
        let ps := s.positions o
        let t := s.myStrip
        if t.poisonedAt srcs w ps then .trap 0xA0 0 s
        else
          let rs := ps.map fun p => (p, f (tagFmt tag) ftz (8 * w) (t.el o.va.toNat w p) (b.at t w p))
          R.done (s.putBits (o.vd.setWidth 4) (rs.map fun r => (r.1, r.2.1)) (rs.foldl (fun a r => a ||| r.2.2) 0))

/-- An integer comparison under the signedness of the format (R253). -/
def icmp (f : Int → Int → Bool) (fmt : Nat) (_ : Bool) (n a b : Nat) : Bool × Flags :=
  (f (vInt (isSignedFmt fmt) n a) (vInt (isSignedFmt fmt) n b), 0)
/-- An unsigned comparison (R253). -/
def ucmp (f : Nat → Nat → Bool) (_ : Nat) (_ : Bool) (_ a b : Nat) : Bool × Flags := (f a b, 0)
/-- A floating-point comparison (R209, R253). -/
def fvCmp (op : FCmp) (fmt : Nat) (z : Bool) (_ a b : Nat) : Bool × Flags := fcompare op fmt z a b

/-- `vmseq` (R253). -/
def execVmseq (g : Gates) (o : FormV) (s : State) : Host.Outcome State Fault Refusal :=
  issue (.vmseq g o) s fun s => s.vcompare o okInt (ucmp (· == ·))
/-- `vmsne` (R253). -/
def execVmsne (g : Gates) (o : FormV) (s : State) : Host.Outcome State Fault Refusal :=
  issue (.vmsne g o) s fun s => s.vcompare o okInt (ucmp (· != ·))
/-- `vmslt` (R253). -/
def execVmslt (g : Gates) (o : FormV) (s : State) : Host.Outcome State Fault Refusal :=
  issue (.vmslt g o) s fun s => s.vcompare o okInt (icmp fun a b => a < b)
/-- `vmsle` (R253). -/
def execVmsle (g : Gates) (o : FormV) (s : State) : Host.Outcome State Fault Refusal :=
  issue (.vmsle g o) s fun s => s.vcompare o okInt (icmp fun a b => a ≤ b)
/-- `vmsltu` (R253). -/
def execVmsltu (g : Gates) (o : FormV) (s : State) : Host.Outcome State Fault Refusal :=
  issue (.vmsltu g o) s fun s => s.vcompare o okInt (ucmp fun a b => a < b)
/-- `vmsleu` (R253). -/
def execVmsleu (g : Gates) (o : FormV) (s : State) : Host.Outcome State Fault Refusal :=
  issue (.vmsleu g o) s fun s => s.vcompare o okInt (ucmp fun a b => a ≤ b)
/-- `vmfeq` (R253). -/
def execVmfeq (g : Gates) (o : FormV) (s : State) : Host.Outcome State Fault Refusal :=
  issue (.vmfeq g o) s fun s => s.vcompare o okWide (fvCmp .eq)
/-- `vmflt` (R253). -/
def execVmflt (g : Gates) (o : FormV) (s : State) : Host.Outcome State Fault Refusal :=
  issue (.vmflt g o) s fun s => s.vcompare o okWide (fvCmp .lt)
/-- `vmfle` (R253). -/
def execVmfle (g : Gates) (o : FormV) (s : State) : Host.Outcome State Fault Refusal :=
  issue (.vmfle g o) s fun s => s.vcompare o okWide (fvCmp .le)

/-- A mask instruction (R254): every position below VL, detached or not. -/
def State.maskOp (s : State) (o : FormK) (f : Strip → Nat → Bool) : R PUnit :=
  let t := s.myStrip
  R.done (s.putBits o.mx (t.wide.map fun p => (p, f t p)) 0)

/-- The first position below VL at which a mask is 1, or VL (R254). -/
def Strip.firstSet (t : Strip) (m : MNum) : Nat := ((List.range t.vl).find? fun p => t.mbit m p).getD t.vl

/-- `mand` (R254). -/
def execMand (g : Gates) (o : FormK) (s : State) : Host.Outcome State Fault Refusal :=
  issue (.mand g o) s fun s => s.maskOp o fun t p => t.mbit o.my p && t.mbit o.mz p
/-- `mor` (R254). -/
def execMor (g : Gates) (o : FormK) (s : State) : Host.Outcome State Fault Refusal :=
  issue (.mor g o) s fun s => s.maskOp o fun t p => t.mbit o.my p || t.mbit o.mz p
/-- `mxor` (R254). -/
def execMxor (g : Gates) (o : FormK) (s : State) : Host.Outcome State Fault Refusal :=
  issue (.mxor g o) s fun s => s.maskOp o fun t p => t.mbit o.my p != t.mbit o.mz p
/-- `mnot` (R254). -/
def execMnot (g : Gates) (o : FormK) (s : State) : Host.Outcome State Fault Refusal :=
  issue (.mnot g o) s fun s => s.maskOp o fun t p => !t.mbit o.my p
/-- `mmv` (R254). -/
def execMmv (g : Gates) (o : FormK) (s : State) : Host.Outcome State Fault Refusal :=
  issue (.mmv g o) s fun s => s.maskOp o fun t p => t.mbit o.my p
/-- `msbf` (R254). -/
def execMsbf (g : Gates) (o : FormK) (s : State) : Host.Outcome State Fault Refusal :=
  issue (.msbf g o) s fun s => s.maskOp o fun t p => p < t.firstSet o.my
/-- `msif` (R254). -/
def execMsif (g : Gates) (o : FormK) (s : State) : Host.Outcome State Fault Refusal :=
  issue (.msif g o) s fun s => s.maskOp o fun t p => p ≤ t.firstSet o.my
/-- `msof` (R254). -/
def execMsof (g : Gates) (o : FormK) (s : State) : Host.Outcome State Fault Refusal :=
  issue (.msof g o) s fun s => s.maskOp o fun t p => p == t.firstSet o.my

/-- A push may be made: no strip with a lower STRIPB is in flight, and the queue has room (R29). -/
def State.pushReady (s : State) (c b : Nat) : Bool :=
  (s.ctx c).rq.length < Config.replyQueue && !(s.ctx c).strips.any fun t => t.stripb < b

/-- Push an entry of the reply queue and complete, or stall until it can be pushed (R29, R255). -/
def State.reply (s : State) (post : Option PostGate) (v : Word) : R PUnit :=
  let t := s.myStrip
  if s.pushReady s.me t.stripb then
    R.done ((s.modCtx s.me fun x => { x with rq := x.rq ++ [v] }).modMyStrip fun t => { t with vstart := 0 })
  else .stall (.replyRoom t.stripb v s.cur.next post) s

/-- The number of ones of a mask below VL (R255). -/
def Strip.ones (t : Strip) (m : MNum) : Nat := ((List.range t.vl).filter fun p => t.mbit m p).length

/-- `mcnt` (R255). -/
def execMcnt (g : Gates) (o : FormK) (s : State) : Host.Outcome State Fault Refusal :=
  issue (.mcnt g o) s fun s => s.reply g.post (w64 (s.myStrip.ones o.mx))
/-- `many` (R255). -/
def execMany (g : Gates) (o : FormK) (s : State) : Host.Outcome State Fault Refusal :=
  issue (.many g o) s fun s => s.reply g.post (if s.myStrip.ones o.mx = 0 then 0 else 1)
/-- `mfirst` (R255). -/
def execMfirst (g : Gates) (o : FormK) (s : State) : Host.Outcome State Fault Refusal :=
  issue (.mfirst g o) s fun s =>
    let t := s.myStrip
    let f := t.firstSet o.mx
    s.reply g.post (if f < t.vl then w64 (t.stripb + f) else BitVec.allOnes 64)

end Sys2Proof.Machine
end

