-- ==== Sys2Proof/Machine/Lortar.lean ====
section
/-! DEFINITION. Lortar (R350 to R369, R380): each word on the native state of R368, its barrier slots on timelines, its
tensor registers in the context's register area, and its asynchronous operations. -/

namespace Sys2Proof.Machine

/-- The native register of a Lortar scalar (R368). -/
def kReg (k : BitVec 5) : SReg :=
  if k = 0 then 0 else if k.toNat ≤ 8 then BitVec.ofNat 6 (k.toNat + 3) else BitVec.ofNat 6 (k.toNat + 23)

/-- The timeline of slot bn (R368). -/
def slotTl (n : Nat) : TL := BitVec.ofNat 4 (8 + n)
/-- The issue count of a timeline of lowered code: tl7 in s23, tl(8 + n) in s(24 + n) (R368). -/
def countReg (tl : TL) : SReg := BitVec.ofNat 6 (tl.toNat + 16)

/-- Wait for what a timeline of lowered code counts (R365, R369). -/
def State.slotWait (s : State) (tl : TL) : R PUnit := s.waitTimeline tl (s.myCtx.sreg (countReg tl)).toNat 0

/-- The waits of a WAIT field (R365). -/
def State.lwaits (s : State) (w : BitVec 8) : R PUnit := R.each (setBits 8 w.toNat) s fun n s => s.slotWait (slotTl n)

/-- Wait for every outstanding asynchronous operation (R364, R369). -/
def State.waitAll (s : State) : R PUnit := R.each (List.range 9) s fun i s => s.slotWait (BitVec.ofNat 4 (7 + i))

/-- One more operation on a timeline of lowered code: its number and the issue count after (R65, R369). -/
def State.countOp (s : State) (tl : TL) : R Nat :=
  let p := (s.myCtx.timeline tl).p + 1
  if p ≥ 2 ^ 64 then .trap 0x85 0 s
  else
    let s := s.modCtx s.me fun x => (x.setSreg (countReg tl) (x.sreg (countReg tl) + 1)).modTl tl fun t => { t with p := p }
    .ok p s

/-- The timeline on which a word counts (R365, R368). -/
def barTl (b : LBar) (async : Bool) : Option TL := if b.sige = 1 then some (slotTl b.sig.toNat) else if async then some 7 else none

/-- What a word's native code leaves in the translator's scratch registers, and in the vector and mask registers and the control
registers of the blocks it runs, is open: free values, with tags and VTYPE that the machine can hold (R368, R369) (DESIGN CHOICE,
log 37). -/
def Ctx.scratched (n : Nat) (x : Ctx) : Ctx :=
  let free := fun (i : Nat) => (Config.freeDouble (n + i)).toNat
  let tag := fun (i : Nat) => let t : Tag := BitVec.ofNat 6 (free i); if tagLegal t then t else 0
  let x := (((List.range 7).map fun i => 13 + i) ++ (List.range 9).map fun i => 55 + i).foldl (fun (x : Ctx) k =>
    x.setSreg (BitVec.ofNat 6 k) (Config.freeDouble (n + k))) x
  { x with
    vl := BitVec.ofNat 14 (free 0 % 8193)
    vtype := let w := free 1 % 1024; if vtypeOk w then BitVec.ofNat 10 w else 0
    stripb := w64 (free 2)
    v := Vector.ofFn fun i =>
      { bytes := (Config.freeReg (n + i.val)).setWidth 8192, scale := (Config.freeReg (n + 32 + i.val)).setWidth 512
        tag := tag (64 + i.val), hw := free (96 + i.val) % 17, poison := 0 }
    m := Vector.ofFn fun i => { bits := (Config.freeReg (n + 64 + i.val)).setWidth 8192, hw := free (128 + i.val) % 17 } }

/-- What the blocks of `xmma` leave in the tile registers and their shapes, as `scratched` (R369) (DESIGN CHOICE, log 37). -/
def Ctx.tileScratched (n : Nat) (x : Ctx) : Ctx :=
  let free := fun (i : Nat) => (Config.freeDouble (n + i)).toNat
  { x with
    t := Vector.ofFn fun i =>
      let t : Tag := BitVec.ofNat 6 (free (144 + i.val))
      { bytes := Config.freeReg (n + 80 + i.val), scale := (Config.freeReg (n + 96 + i.val)).setWidth 128
        tag := if tagLegal t then t else 0, hw := free (152 + i.val) % 65 }
    tsh := Vector.ofFn fun i =>
      if i.val < 2 then (let w := free (160 + i.val) % 2 ^ 24; if tshOk w then BitVec.ofNat 24 w else 0)
      else x.tsh[i.val]?.getD 0 }

/-- The native code of a word has run on the registers that no Lortar code reads. -/
def State.scratched (s : State) : State :=
  { s.modCtx s.me (Ctx.scratched s.fresh) with fresh := s.fresh + 256 }

/-- The native code of `xmma` has run on the tiles. -/
def State.tileScratched (s : State) : State :=
  { s.modCtx s.me (Ctx.tileScratched s.fresh) with fresh := s.fresh + 256 }

/-- A word begins: it waits for the slots of its WAIT field, and what it signals has a number left (R65, R365, R369). -/
def State.lbegin (s : State) (b : LBar) (async : Bool) : R PUnit :=
  (s.lwaits b.wait).andThen fun s =>
    match barTl b async with
    | some tl => if (s.myCtx.timeline tl).p + 1 ≥ 2 ^ 64 then .trap 0x85 0 s else R.done s.scratched
    | none => R.done s.scratched

/-- The steps of a word in order, from the first that is not done: a word that is stopped goes on within itself (R380). -/
def lsteps (f : α → State → R PUnit) : List α → Nat → State → R PUnit
  | [], _, s => R.done s
  | a :: r, n, s =>
      if n < s.myCtx.lrow then lsteps f r (n + 1) s
      else (f a s).andThen fun s => lsteps f r (n + 1) (s.modCtx s.me fun x => { x with lrow := n + 1 })

/-- A word has no steps left. -/
def State.ldone (s : State) : State := s.modCtx s.me fun x => { x with lrow := 0 }

/-- A synchronous operation that signals a slot enters it and leaves it at once (R365). -/
def State.lsignal (s : State) (b : LBar) : R PUnit :=
  if b.sige = 0 then R.done s
  else
    let tl := slotTl b.sig.toNat
    (s.countOp tl).bind fun n s => R.done (s.complete s.me (some ⟨tl, n, 0⟩))

/-- A synchronous Lortar word (R355, R365). -/
def lsync (i : Instr) (b : LBar) (s : State) (body : State → R PUnit) : Host.Outcome State Fault Refusal :=
  issue i s fun s => (s.lbegin b false).andThen fun s => (body s).andThen fun s => s.lsignal b

/-- A result of two Lortar scalars (R359). -/
def State.lbin (s : State) (o : LFormS) (f : Word → Word → Word) : R PUnit := s.binS (kReg o.kd) (kReg o.ka) (kReg o.kb) f

/-- `kadd` (R359). -/
def execKadd (o : LFormS) (s : State) : Host.Outcome State Fault Refusal := lsync (.kadd o) o.bar s fun s => s.lbin o (· + ·)
/-- `ksub` (R359). -/
def execKsub (o : LFormS) (s : State) : Host.Outcome State Fault Refusal := lsync (.ksub o) o.bar s fun s => s.lbin o (· - ·)
/-- `kmul` (R359). -/
def execKmul (o : LFormS) (s : State) : Host.Outcome State Fault Refusal := lsync (.kmul o) o.bar s fun s => s.lbin o (· * ·)
/-- `kand` (R359). -/
def execKand (o : LFormS) (s : State) : Host.Outcome State Fault Refusal := lsync (.kand o) o.bar s fun s => s.lbin o (· &&& ·)
/-- `kor` (R359). -/
def execKor (o : LFormS) (s : State) : Host.Outcome State Fault Refusal := lsync (.kor o) o.bar s fun s => s.lbin o (· ||| ·)
/-- `kxor` (R359). -/
def execKxor (o : LFormS) (s : State) : Host.Outcome State Fault Refusal := lsync (.kxor o) o.bar s fun s => s.lbin o (· ^^^ ·)
/-- `ksll` (R359). -/
def execKsll (o : LFormS) (s : State) : Host.Outcome State Fault Refusal := lsync (.ksll o) o.bar s fun s => s.lbin o sllW
/-- `ksrl` (R359). -/
def execKsrl (o : LFormS) (s : State) : Host.Outcome State Fault Refusal := lsync (.ksrl o) o.bar s fun s => s.lbin o srlW
/-- `ksra` (R359). -/
def execKsra (o : LFormS) (s : State) : Host.Outcome State Fault Refusal := lsync (.ksra o) o.bar s fun s => s.lbin o sraW
/-- `kslt` (R359). -/
def execKslt (o : LFormS) (s : State) : Host.Outcome State Fault Refusal :=
  lsync (.kslt o) o.bar s fun s => s.lbin o fun a b => boolWord (a.slt b)
/-- `kaddi` (R359). -/
def execKaddi (o : LFormS) (s : State) : Host.Outcome State Fault Refusal :=
  lsync (.kaddi o) o.bar s fun s => s.unS (kReg o.kd) (kReg o.ka) fun a => a + o.imm.signExtend 64
/-- `kli` (R359). -/
def execKli (o : LFormS) (s : State) : Host.Outcome State Fault Refusal :=
  lsync (.kli o) o.bar s fun s => s.wrS (kReg o.kd) (o.imm.signExtend 64)

/-- A taken branch of a Lortar kernel to IMM words away (R359): the target is a word of the kernel, or 0x01 is raised. -/
def State.lbranch (s : State) (imm : BitVec 30) : R PUnit :=
  match s.runAt s.me s.cur.pc.toNat with
  | none => .trap 0x01 0 s
  | some (j, t) =>
      let words := (j.image.bind fun (g : Image) => g.kernels[t.kidx]?.map fun k => g.words k).getD 0
      let dest : Int := ((s.cur.pc.toNat - t.base) / 64 : Nat) - 1 + imm.toInt
      if dest < 0 || dest ≥ (words : Int) then .trap 0x01 0 s
      else R.done { s with cur := { s.cur with next := w64 (t.base + 64 * (dest.toNat + 1)) } }

/-- A conditional branch of Lortar (R359). -/
def State.lcond (s : State) (o : LFormS) (f : Word → Word → Bool) : R PUnit :=
  (s.rdS (kReg o.ka)).bind fun a s => (s.rdS (kReg o.kb)).bind fun b s => if f a b then s.lbranch o.imm else R.done s

/-- `kbeq` (R359). -/
def execKbeq (o : LFormS) (s : State) : Host.Outcome State Fault Refusal := lsync (.kbeq o) o.bar s fun s => s.lcond o (· == ·)
/-- `kbne` (R359). -/
def execKbne (o : LFormS) (s : State) : Host.Outcome State Fault Refusal := lsync (.kbne o) o.bar s fun s => s.lcond o (· != ·)
/-- `kblt` (R359). -/
def execKblt (o : LFormS) (s : State) : Host.Outcome State Fault Refusal :=
  lsync (.kblt o) o.bar s fun s => s.lcond o fun a b => a.slt b
/-- `kbge` (R359). -/
def execKbge (o : LFormS) (s : State) : Host.Outcome State Fault Refusal :=
  lsync (.kbge o) o.bar s fun s => s.lcond o fun a b => !a.slt b
/-- `kjmp` (R359). -/
def execKjmp (o : LFormS) (s : State) : Host.Outcome State Fault Refusal := lsync (.kjmp o) o.bar s fun s => s.lbranch o.imm

/-- C(F): the columns of a row in a format (R350). -/
def colsOf (f : Nat) : Nat := 1024 / fmtBits f

/-- `lshape` (R357). -/
def execLshape (o : LFormS) (s : State) : Host.Outcome State Fault Refusal :=
  lsync (.lshape o) o.bar s fun s =>
    (s.rdS (kReg o.ka)).bind fun m s => (s.rdS (kReg o.kb)).bind fun n s =>
      let none := m = 0 || n = 0
      let mt := if none then 0 else min m.toNat 64
      let nt := if none then 0 else min n.toNat (colsOf (o.imm.extractLsb' 0 5).toNat)
      let s := s.modCtx s.me fun x => (x.setSreg 20 (w64 mt)).setSreg 21 (w64 nt)
      (s.wrS (kReg o.kd) (w64 mt)).andThen fun s => s.wrS (kReg (o.imm.extractLsb' 5 5)) (w64 nt)

/-- `lwait` (R364). -/
def execLwait (o : LFormS) (s : State) : Host.Outcome State Fault Refusal := lsync (.lwait o) o.bar s R.done

/-- Wait for the blocks of the context, as `vsync` does (R216, R369). -/
def State.vsyncs (s : State) : R PUnit :=
  if s.myCtx.hasBlocks then .stall .blocksDone s
  else s.syncPoint.andThen fun s => R.done (s.acquire (coreOf s.me) 0)

/-- `lfence` (R364, R369): the lowering is one `fence.far` for every ORD. -/
def execLfence (o : LFormX) (s : State) : Host.Outcome State Fault Refusal :=
  lsync (.lfence o) o.bar s fun s =>
    s.waitAll.andThen fun s => s.vsyncs.andThen fun s => s.syncPoint.andThen fun s =>
      let s := s.acquire (coreOf s.me) o.scp.toNat
      R.done ((scopeCores (coreOf s.me) o.scp.toNat).foldl State.serialise s)

/-- The address of byte b of row i of tensor register x (R368): XBASE is in s12. -/
def State.xAddr (s : State) (x : BitVec 4) (i b : Nat) : Word := s.myCtx.sreg 12 + w64 (8192 * x.toNat + 128 * i + b)
/-- An access of n bytes of a tensor register (R369). -/
def State.xElem (s : State) (x : BitVec 4) (i b n : Nat) (k : Access) : Elem := rowElem (s.xAddr x i b) n k 0
/-- Read element (i, j) of a tensor register at w bytes (R350). -/
def State.xRead (s : State) (x : BitVec 4) (w i j : Nat) : R Nat := s.readElem s.me (s.xElem x i (j * w) w .load)
/-- Write element (i, j) of a tensor register at w bytes. -/
def State.xWrite (s : State) (x : BitVec 4) (w i j v : Nat) : R PUnit := s.writeElem s.me (s.xElem x i (j * w) w .store) v

/-- MT, as the last `lshape` granted it (R357, R368). -/
def State.mtOf (s : State) : Nat := (s.myCtx.sreg 20).toNat
/-- NT, as the last `lshape` granted it. -/
def State.ntOf (s : State) : Nat := (s.myCtx.sreg 21).toNat
/-- The active elements, row by row (R358, R360). -/
def activeEls (mt nt cols : Nat) : List (Nat × Nat) :=
  (List.range mt).flatMap fun i => (List.range (min nt cols)).map fun j => (i, j)

/-- Write an elementwise result for each active element (R358, R361). -/
def State.lmap (s : State) (o : LFormX) (f : Nat → Nat → State → R (Nat × Flags)) : R PUnit :=
  let w := fmtBits o.fmt.toNat / 8
  (lsteps (fun (e : Nat × Nat) s =>
    (f e.1 e.2 s).bind fun (v, fl) s => (s.xWrite o.xd w e.1 e.2 v).andThen fun s => R.done (s.addFlags fl))
    (activeEls s.mtOf s.ntOf (colsOf o.fmt.toNat)) 0 s).andThen fun s => R.done s.ldone

/-- `xbcast` (R361). -/
def execXbcast (o : LFormX) (s : State) : Host.Outcome State Fault Refusal :=
  lsync (.xbcast o) o.bar s fun s =>
    (s.rdS (kReg o.ka)).bind fun a s => s.lmap o fun _ _ s => .ok (a.toNat % 2 ^ fmtBits o.fmt.toNat, 0) s

/-- An elementwise operation of two registers: on integer codes, or on floating codes in a mode (R351, R361). -/
def State.lelem (s : State) (o : LFormX) (int : Bool → Nat → Nat → Nat → Nat)
    (flt : Nat → RMode → Bool → Nat → Nat → Nat → Nat × Flags) : R PUnit :=
  let f := o.fmt.toNat
  let w := fmtBits f / 8
  s.lmap o fun i j s =>
    (s.xRead o.xa w i j).bind fun a s => (s.xRead o.xb w i j).bind fun b s =>
      if isIntFmt f then .ok (int (isSignedFmt f) (8 * w) a b, 0) s
      else (s.xRead o.xd w i j).bind fun d s => .ok (flt f (rmOf o.rnd.toNat) false a b d) s

/-- `xadd` (R361). -/
def execXadd (o : LFormX) (s : State) : Host.Outcome State Fault Refusal :=
  lsync (.xadd o) o.bar s fun s => s.lelem o (if o.satm = 1 then ivSadd else ivAdd) (fvOp .add)
/-- `xsub` (R361). -/
def execXsub (o : LFormX) (s : State) : Host.Outcome State Fault Refusal :=
  lsync (.xsub o) o.bar s fun s => s.lelem o (if o.satm = 1 then ivSsub else ivSub) (fvOp .sub)
/-- `xmul` (R361). -/
def execXmul (o : LFormX) (s : State) : Host.Outcome State Fault Refusal :=
  lsync (.xmul o) o.bar s fun s => s.lelem o ivMul (fvOp .mul)
/-- `xfma` (R361): XA × XB + XD. -/
def execXfma (o : LFormX) (s : State) : Host.Outcome State Fault Refusal :=
  lsync (.xfma o) o.bar s fun s => s.lelem o ivMul (fvOp .fma)
/-- `xmin` (R361). -/
def execXmin (o : LFormX) (s : State) : Host.Outcome State Fault Refusal :=
  lsync (.xmin o) o.bar s fun s => s.lelem o ivMin (fvMinMax false)
/-- `xmax` (R361). -/
def execXmax (o : LFormX) (s : State) : Host.Outcome State Fault Refusal :=
  lsync (.xmax o) o.bar s fun s => s.lelem o ivMax (fvMinMax true)

/-- `xcvt` (R358, R362): a row is read whole before it is written (R369). -/
def execXcvt (o : LFormX) (s : State) : Host.Outcome State Fault Refusal :=
  lsync (.xcvt o) o.bar s fun s =>
    let d := o.ka.toNat
    let f := o.fmt.toNat
    if !convertible f d then .trap 0x05 0 s
    else
      let cols := min s.ntOf (min (colsOf d) (colsOf f))
      (lsteps (fun (i : Nat) s =>
        (R.gather (List.range cols) s fun j s => s.xRead o.xa (fmtBits f / 8) i j).bind fun vs s =>
          R.each ((List.range cols).zip vs) s fun (j, v) s =>
            let (x, fl) := convert f none d none (rmOf o.rnd.toNat) 0 (o.satm == 1) false v
            (s.xWrite o.xd (fmtBits d / 8) i j x).andThen fun s => R.done (s.addFlags fl))
        (List.range s.mtOf) 0 s).andThen fun s => R.done s.ldone

/-- The memory access of element (i, j) of `xld` and `xst` (R360). -/
def LOp.elem (q : LOp) (i j : Nat) : Elem :=
  let w := fmtBits q.form.fmt.toNat / 8
  let va := if q.form.or = 0 then q.base + w64 i * q.stride + w64 (j * w) else q.base + w64 j * q.stride + w64 (i * w)
  ⟨va, w, if q.kind = 0 then .load else .store, q.form.or == 1, w, q.form.pol, scopesOf q.form.ord q.form.scp, []⟩

/-- The active elements of an asynchronous operation, row by row (R358, R360, R363): with K = 0 `xmma` changes none. -/
def LOp.els (q : LOp) : List (Nat × Nat) :=
  if q.kind = 2 && q.stride = 0 then []
  else activeEls q.mt q.nt (if q.kind = 2 then 32 else colsOf q.form.fmt.toNat)

/-- The aligned 4-byte word that an element's effect writes, of memory for `xst` and of its row for the others (R366). -/
def LOp.word (q : LOp) (e : Nat × Nat) : Nat × Nat :=
  let w := if q.kind = 2 then 4 else fmtBits q.form.fmt.toNat / 8
  if q.kind = 1 then (0, (q.elem e.1 e.2).va.toNat / 4) else (e.1, e.2 * w / 4)

/-- An element whose effect comes at issue rather than at completion: a free choice for each aligned 4-byte word, by the first of
its elements (R366). An acquiring load acts at issue, a releasing store when the operations before it have completed (R367)
(DEDUCED, log 37). -/
def LOp.early (q : LOp) (e : Nat × Nat) : Bool :=
  if q.form.ord = 1 then true else if q.form.ord = 2 then false
  else Config.freeChoice (q.choice + (q.els.findIdx fun d => q.word d == q.word e))

/-- One output of `xmma` (R363), its columns k below K = stride's value: the product from 0 as R89 gives, added to XD. -/
def State.xmmaOne (s : State) (q : LOp) (i j : Nat) : R PUnit :=
  let f := q.form.fmt.toNat
  let w := fmtBits f / 8
  let ks := List.range q.stride.toNat
  (R.gather ks s fun k s => s.xRead q.form.xa w i k).bind fun a s =>
    (R.gather ks s fun k s => s.xRead q.form.xb w j k).bind fun b s =>
      (s.xRead q.form.xd 4 i j).bind fun old s =>
        let p : Mma :=
          { mode := if f = 1 then .int else .fp, fa := f, fb := f, m := 1, n := 1, depth := q.stride.toNat
            a := fun _ k => a[k]?.getD 0, b := fun _ k => b[k]?.getD 0, sa := fun _ _ => none, sb := fun _ _ => none }
        let (v, fl) := p.value false 0 0 0
        let new := if f = 1 then (old + v) % 2 ^ 32 else (addAt 8 old v).1
        (s.xWrite q.form.xd 4 i j new).andThen fun s =>
          R.done (s.modCtx s.me fun x => { x with fmtst := x.fmtst ||| fl })

/-- The effect of an asynchronous operation on one element (R360, R363) (DEDUCED, log 37). -/
def State.lopOne (s : State) (q : LOp) (e : Nat × Nat) : R PUnit :=
  let w := fmtBits q.form.fmt.toNat / 8
  if q.kind = 0 then
    (s.readElem s.me (q.elem e.1 e.2)).bind fun v s => s.xWrite q.form.xd w e.1 e.2 v
  else if q.kind = 1 then
    (s.xRead q.form.xd w e.1 e.2).bind fun v s => s.writeElem s.me (q.elem e.1 e.2) v
  else s.xmmaOne q e.1 e.2

/-- The checks of the memory access of an element (R277, R360). -/
def State.lopCheck (s : State) (q : LOp) (e : Nat × Nat) : R PUnit :=
  if q.kind = 2 then R.done s else (s.locate s.me (q.elem e.1 e.2)).andThen R.done

/-- A context with an operation as it stands now, in its place. -/
def Ctx.keepLop (q : LOp) (x : Ctx) : Ctx := { x with lops := x.lops.filter (·.id < q.id) ++ q :: x.lops.filter (q.id < ·.id) }
/-- Keep an operation of the issuing context as it stands now. -/
def State.keepLop (s : State) (q : LOp) : State := s.modCtx s.me (Ctx.keepLop q)

/-- Make elements of an operation in order; a stall or a cause leaves the one at hand and those after it (R380). -/
def State.lopRun (q : LOp) : List (Nat × Nat) → State → R PUnit
  | [], s => R.done s
  | e :: r, s =>
      match s.lopOne q e with
      | .ok _ s => State.lopRun q r s
      | .stall w s => .stall w (s.keepLop { q with todo := e :: r })
      | .trap c t s => .trap c t (s.keepLop { q with todo := e :: r })

/-- The issue of an operation, element by element in row order (R277, R360): each is made now, or its checks pass and it is left
for later. At a cause the elements below are done first; a stall or a cause leaves the operation where it stands (R380). -/
def State.lopIssue : List (Nat × Nat) → LOp → State → R LOp
  | [], q, s => .ok { q with rest := [] } s
  | e :: r, q, s =>
      let q := { q with rest := e :: r }
      match (if q.early e then s.lopOne q e else s.lopCheck q e) with
      | .ok _ s => State.lopIssue r (if q.early e then q else { q with todo := q.todo ++ [e] }) s
      | .stall w s => .stall w (s.keepLop q)
      | .trap c t s => (State.lopRun q q.todo s).bind fun _ s => .trap c t (s.keepLop { q with todo := [] })

/-- The operation whose issue was stopped at this word, or a new one (R380). -/
def State.lopAt (s : State) (kind : Nat) (o : LFormX) (base stride : Word) : LOp × State :=
  match s.myCtx.lops.find? fun q => q.num == 0 && q.pc == s.cur.pc with
  | some q => (q, s)
  | none =>
      let q : LOp :=
        { id := s.nextId, kind := kind, form := o, base := base, stride := stride, mt := s.mtOf, nt := s.ntOf
          choice := s.fresh, slot := (barTl o.bar true).getD 7, num := 0, pc := s.cur.pc, todo := [], rest := [] }
      let s := s.modCtx s.me fun x => { x with lops := x.lops.filter (·.num != 0) }
      ({ q with rest := q.els }, { s with nextId := s.nextId + 1, fresh := s.fresh + 2048 })

/-- Issue an asynchronous operation (R365 to R367): its checks and the elements whose effect comes at issue, then its
place in its slot. -/
def State.lasync (s : State) (kind : Nat) (o : LFormX) (base stride : Word) : R PUnit :=
  let (q, s) := s.lopAt kind o base stride
  (State.lopIssue q.rest q s).bind fun q s =>
    (s.countOp q.slot).bind fun n s =>
      let s := if o.ord = 1 then s.acquire (coreOf s.me) o.scp.toNat else s
      R.done (s.keepLop { q with num := n })

/-- `xld` (R360, R365 to R367). -/
def execXld (o : LFormX) (s : State) : Host.Outcome State Fault Refusal :=
  issue (.xld o) s fun s => (s.lbegin o.bar true).andThen fun s =>
    (s.rdS (kReg o.ka)).bind fun a s => (s.rdS (kReg o.kb)).bind fun b s =>
      (s.ordBefore o.ord).andThen fun s => s.lasync 0 o a b

/-- `xst` (R360, R365 to R367). -/
def execXst (o : LFormX) (s : State) : Host.Outcome State Fault Refusal :=
  issue (.xst o) s fun s => (s.lbegin o.bar true).andThen fun s =>
    (s.rdS (kReg o.ka)).bind fun a s => (s.rdS (kReg o.kb)).bind fun b s =>
      (s.ordBefore o.ord).andThen fun s => s.lasync 1 o a b

/-- `xmma` (R363, R369): the matrix unit's claim of the kernel stands, or its cause is raised (R317, R322). -/
def execXmma (o : LFormX) (s : State) : Host.Outcome State Fault Refusal :=
  issue (.xmma o) s fun s => (s.lbegin o.bar true).andThen fun s =>
    let s := s.tileScratched
    (s.rdS (kReg o.ka)).bind fun k s =>
      if s.myCtx.revoked then .trap 0x66 0 s
      else if s.myCtx.rowsGranted = 0 then .trap 0x65 0 s
      else s.lasync 2 o 0 (w64 (min k.toNat (colsOf o.fmt.toNat)))

/-- The party that stands for an asynchronous operation in its requests to peers: no strip has its number. -/
def LOp.latch (c : Nat) (q : LOp) : Latch := ⟨⟨c, .strip (2 ^ 64 + q.id)⟩, q.pc, q.pc, none, false⟩

/-- A context without an operation. -/
def Ctx.dropLop (id : Nat) (x : Ctx) : Ctx := { x with lops := x.lops.filter (·.id != id) }

/-- An operation that has issued may complete; a releasing store only after the operations before it (R365, R367). -/
def Ctx.lopReady (x : Ctx) (q : LOp) : Bool := q.num != 0 && (q.form.ord != 2 || x.lops.all (q.id ≤ ·.id))

/-- LORTAR_ASYNC_COMPLETE (R365): the elements that have not had their effect have it now, and the operation leaves its
slot; a cause stops the context, and the operation goes on when it has been resumed (R380). -/
def execLortarAsyncComplete (ctx : Nat) (id : Nat) (s : State) : Host.Outcome State Fault Refusal :=
  match (s.ctx ctx).lops.find? (·.id == id) with
  | none => .next s
  | some q =>
      if slotState (s.slot ctx) != 1 || !(s.ctx ctx).lopReady q then .next s
      else
        match State.lopRun q q.todo { s with cur := q.latch ctx } with
        | .ok _ s => .next ((s.dropAnswers.modCtx ctx (Ctx.dropLop id)).complete ctx (some ⟨q.slot, q.num, 0⟩))
        | .stall _ s => .next s
        | .trap c t s => .next (s.dropAnswers.later (.trapDelivery ⟨ctx, .ctl⟩ c t false))

/-- Whether a Lortar kernel holds a word of `xmma` (R369). -/
def State.usesMatrix (s : State) (j : Job) (g : Image) (k : Kernel) : Bool :=
  (s.kernelWords j.id g k).any fun w => w / 2 ^ 58 == 0x34

/-- The kernel whose lowered code runs at the latch's address. -/
def State.myKernel (s : State) : Option (Job × Image × Kernel) :=
  (s.runAt s.me s.cur.pc.toNat).bind fun (j, t) =>
    j.image.bind fun (g : Image) => g.kernels[t.kidx]?.map fun k => (j, g, k)

/-- Whether the kernel that runs claims 64 accumulator rows at its entry (R369). -/
def State.claims (s : State) : Bool := match s.myKernel with | some (j, g, k) => s.usesMatrix j g k | none => false

/-- The issue counts of lowered code as its entry sets them: no operation is outstanding (R350, R368). -/
def Ctx.emptySlots (x : Ctx) : Ctx :=
  (List.range 9).foldl (fun (x : Ctx) i =>
    let tl : TL := BitVec.ofNat 4 (7 + i)
    x.setSreg (countReg tl) (w64 (x.timeline tl).p)) x

/-- The state of a Lortar kernel at its entry: shape (0, 0), slots empty, k9 to k31 zero, XBASE at hand, FCTL = 0 (R350,
R368, R380). -/
def Ctx.lortarStart (xbase : Word) (x : Ctx) : Ctx :=
  let x := { (((x.emptySlots).setSreg 20 0).setSreg 21 0).setSreg 12 xbase with fctl := 0, lrow := 0 }
  (List.range 23).foldl (fun (x : Ctx) i => x.setSreg (BitVec.ofNat 6 (32 + i)) 0) x

/-- The words of the frame of a lowered kernel: the register (64 stands for FCTL) and its offset (R380). -/
def frameRegs : List (Nat × Nat) := (1, 0) :: (64, 8) :: (List.range 32).map fun k => (32 + k, 16 + 8 * k)

/-- A step of the entry's frame: s2 falls, then each word is stored (R380). -/
def State.frameStep (s : State) (w : Option (Nat × Nat)) : R PUnit :=
  let x := s.myCtx
  match w with
  | none => R.done (s.modCtx s.me fun x => x.setSreg 2 (x.sreg 2 - 288))
  | some (k, o) =>
      let v := if k = 64 then x.fctl.toNat else (x.sreg (BitVec.ofNat 6 k)).toNat
      s.writeElem s.me (rowElem (x.sreg 2 + w64 o) 8 .store 0) v

/-- The entry of a lowered Lortar kernel (R369, R380): the frame, then XBASE, and the claim of a kernel that multiplies. -/
def State.lortarEntry (s : State) : R PUnit :=
  (lsteps (fun w s => State.frameStep s w) (none :: frameRegs.map some) 0 s).andThen fun s =>
    (s.readElem s.me (rowElem (s.myCtx.sreg 3 + 16) 8 .load 0)).bind fun xb s =>
      let enter := fun s : State => R.done (s.modCtx s.me (Ctx.lortarStart (w64 xb)))
      if !s.claims then enter s
      else
        let s := s.modCtx s.me Ctx.unmark
        if s.myCtx.rowsGranted != 0 then .trap 0x64 64 s
        else
          match s.takeBands 1 with
          | none => R.done { s with cur := { s.cur with next := s.cur.pc } }
          | some s => enter s

/-- The steps of the exit of a lowered kernel (R369, R380). -/
inductive ExitStep where
  | detach
  | load (reg off : Nat)
  | raise
  deriving DecidableEq, Repr

/-- The steps in order: the claim ends, FCTL and the registers come back from the frame, and s2 rises (R380). -/
def exitSteps : List ExitStep :=
  .detach :: .load 64 8 :: (.load 1 0 :: ((List.range 32).map fun k => .load (32 + k) (16 + 8 * k))) ++ [.raise]

/-- A step of the exit (R369, R380). -/
def State.exitStep (s : State) (e : ExitStep) : R PUnit :=
  match e with
  | .detach => R.done (if s.claims then (s.giveBands s.me).modCtx s.me fun x => { x.unmark with mgrant := 0 } else s)
  | .raise => R.done (s.modCtx s.me fun x => x.setSreg 2 (x.sreg 2 + 288))
  | .load k o =>
      (s.readElem s.me (rowElem (s.myCtx.sreg 2 + w64 o) 8 .load 0)).bind fun v s =>
        if k = 64 then
          if v ≥ 32 || v % 8 > 5 then .trap 0x02 0 s else R.done (s.modCtx s.me fun x => { x with fctl := BitVec.ofNat 5 v })
        else R.done (s.modCtx s.me fun x => x.setSreg (BitVec.ofNat 6 k) (w64 v))

/-- The exit of a lowered Lortar kernel (R369, R380). -/
def State.lortarExit (s : State) : R PUnit :=
  (lsteps (fun e s => State.exitStep s e) exitSteps 0 s).andThen fun s =>
    let ra := s.myCtx.sreg 1
    if ra = 0 then s.syncPoint.andThen fun s => R.done (s.ldone.modCtx s.me (Ctx.halt s.cur.pc))
    else (s.jump ra).andThen fun s => R.done s.ldone

/-- `kend` (R364, R369, R380). -/
def execKend (o : LFormS) (s : State) : Host.Outcome State Fault Refusal :=
  let c := s.me
  .next ((State.settle (s.issueR (.kend o) false fun _ s =>
    (s.lbegin o.bar false).andThen fun s => s.waitAll.andThen fun s => s.vsyncs.andThen State.lortarExit)).settleHalt c)

end Sys2Proof.Machine
end

