-- ==== Sys2Proof/Machine/Traps.lean ====
section
/-! DEFINITION. Happenings at a context's slot: pre-emption (R36), the delivery of causes and events (R430 to R433), the
end of a handler (R431), GO and STOP (R427, R429), and writes of the Steward's registers (R295, R426). -/

namespace Sys2Proof.Machine

/-- A unit that has been switched out waits again, with the age of its stop (R423). -/
def State.noteStopped (s : State) (c : Nat) : State :=
  match s.unitOf c with
  | none => s
  | some (l, u) => s.modUnit l.job l.lidx u.no fun u => { u with status := .saved s.now }

/-- What a party waits for is the answer of a peer. -/
def WaitCond.isRemote : WaitCond → Bool
  | .remote _ => true
  | _ => false

/-- An instruction of the context is in execution: it has asked a peer and not gone on from the answer. It completes before the
context stops (R36, R196). -/
def State.inExecution (s : State) (c : Nat) : Bool :=
  let x := s.ctx c
  x.wait.any WaitCond.isRemote
    || x.strips.any (fun t => t.wait.any WaitCond.isRemote || t.laneWait.any fun w => w.2.isRemote)
    || s.requests.any fun r => r.party.ctx == c && r.answer.isSome

/-- A pre-emption of a running context: it is saved, its unit waits, and the Steward binds again (R36, R424); an instruction in
execution completes first (R196). -/
def State.switchOut (s : State) (c : Nat) : State :=
  if slotState (s.slot c) != 1 then s
  else if s.inExecution c then { s with heldBack := s.heldBack.filter (· != .preemptionRequest c) ++ [.preemptionRequest c] }
  else ((s.preempt c).noteStopped c).later (.stewardBind (dieOf c))

/-- PREEMPTION_REQUEST (R36, R162, R196). -/
def execPreemptionRequest (ctx : Nat) (s : State) : Host.Outcome State Fault Refusal :=
  .next (State.switchOut { s with heldBack := s.heldBack.filter (· != .preemptionRequest ctx) } ctx)

/-- STOP of a slot set or cleared. -/
def State.setStop (s : State) (c : Nat) (b : Bool) : State :=
  { s with bind := aset s.bind c (if b then s.slot c ||| 8#512 else s.slot c &&& ~~~ (8#512)) }

/-- STOP (R426, R429): a running unit is to stop; with nothing to save the request is done. -/
def execStop (ctx : Nat) (s : State) : Host.Outcome State Fault Refusal :=
  if slotState (s.slot ctx) == 1 then .next ((s.setStop ctx true).later (.preemptionRequest ctx))
  else .next (s.setStop ctx false)

/-- Whether the unit of a slot's record has ended (R429). -/
def State.slotEnded (s : State) (c : Nat) : Bool :=
  match s.unitOf c with
  | none => false
  | some (_, u) => u.status == .complete || u.status == .cancelled

/-- GO (R427): the dispatch hardware acts on the slot; a unit that a cancel has reached first runs no instruction (R429). -/
def execGo (ctx : Nat) (s : State) : Host.Outcome State Fault Refusal :=
  if s.slotEnded ctx && slotState (s.slot ctx) != 1 then
    .next (State.setSlotState { s with bind := aset s.bind ctx (s.slot ctx &&& ~~~ (1#512)) } ctx 3)
  else .next (s.goCtx ctx)

/-- The bits of a bind record that hold zero (R426: 202:192, 80:77, 26:4). -/
def slotReserved : BitVec 512 := (0x7FF#512 <<< 192) ||| (0xF#512 <<< 77) ||| (0x7FFFFF#512 <<< 4)

/-- A bind record as a write leaves it (R8, R426): reserved bits zero, STATE kept, GO and STOP as they were until the hardware
acts on them. -/
def slotWritten (old v : BitVec 512) : BitVec 512 := (v &&& ~~~ (slotReserved ||| 0xF#512)) ||| (old &&& 0xF#512)

/-- A key-rack entry as a write leaves it (R295): the RW fields; TENURE, HOLDER and HELD are kept. -/
def Key.write (job : Nat) (v : BitVec 128) (k : Key) : Key :=
  { k with
    valid := v.getLsbD 84, scope := v.extractLsb' 81 3, lenm1 := v.extractLsb' 57 24, base := v.extractLsb' 7 50, job := job }

/-- REGISTER_WRITE (R295, R426): a write of the Steward to its slot table or key rack. -/
def execRegisterWrite (r : StewardReg) (s : State) : Host.Outcome State Fault Refusal :=
  match r with
  | .key e job v => .next (s.modKey (e % 4096) (Key.write job v))
  | .slot c v =>
      let s : State := { s with bind := aset s.bind c (slotWritten (s.slot c) v) }
      let s := if v.getLsbD 3 then s.later (.stop c) else s
      .next (if v.getLsbD 0 then s.later (.go c) else s)

/-- A handler of a context that has not ended (R431); `event` says which kind. -/
def State.handlersOf (s : State) (l : Launch) (u : Unit') (event : Bool) : Nat :=
  (s.launches.filter fun h => h.job == l.job && (match h.serves with
    | some v => v.lidx == l.lidx && v.unit == u.no && v.event == event
        && h.units.any fun w => w.status != .complete && w.status != .cancelled
    | none => false)).length

/-- An event (R432): the handler runs on a copy of the record with FLAGS.EVENT = 1, and the context goes on; beyond 16
waiting ones it is counted and discarded. A handler unit has no handler of its own (R433). -/
def State.deliverEvent (s : State) (c : Nat) (code : Code) (tval : Word) : State :=
  match s.unitOf c with
  | none => s
  | some (l, u) =>
      if l.serves.isSome then s
      else if s.handlersOf l u true ≥ 16 then s.modTele fun t => { t with evdrop := t.evdrop + 1 }
      else
        let r : TrapRecord := ⟨code, 8, 0, s.ctxid c, 0, tval, 0, 0, 0, 0, 0, 0⟩
        let (a, t) := s.allocVa l.job 64 attrW
        let t := t.jobWrite (slotJob (s.slot c)) a r.bytes
        (t.launchHandler c l u (w64 a) 0 true).getD s

/-- A party that can issue: its context runs, and its strip or detached lane is there. -/
def State.partyLives (s : State) (p : Party) : Bool :=
  slotState (s.slot p.ctx) == 1 && (match p.place with
    | .ctl => true
    | .strip b => ((s.ctx p.ctx).strip? b).isSome
    | .lane b q => (s.strip p.ctx b).lanePcs.any (·.1 == q))

/-- The address after the instruction at an address, where its line can be read (R175). -/
def State.nextOf (s : State) (c : Nat) (pc : Word) : Word :=
  match s.fetchLine c pc with
  | .ok hs _ => (match fetchHead hs (lineOf pc) (headOf pc) with | .head _ _ n => n | _ => pc)
  | _ => pc

/-- The latch of a party to which a cause comes from outside an issue: EPC is its next instruction's address, or the `halt`'s
(R221, R437). -/
def State.latchFor (s : State) (p : Party) : Latch :=
  let x := s.ctx p.ctx
  let pc := if p.place == .ctl && x.halted then x.haltPc else s.pcOf p
  ⟨p, pc, s.nextOf p.ctx pc, none, false⟩

/-- A context without the store's fault that is being delivered (R161). -/
def Ctx.dropImprecise (code : Code) (tval : Word) (x : Ctx) : Ctx :=
  { x with imprecise := x.imprecise.erase (code, tval) }

/-- TRAP_DELIVERY (R430): a cause reaches a party. Event 0x24 goes to the handler alone (R432); a fault held for an engine
operation names it (R120); an imprecise one says so (R161). A context that is switched out keeps it. -/
def execTrapDelivery (p : Party) (code : Code) (tval : Word) (imprecise : Bool) (s : State) :
    Host.Outcome State Fault Refusal :=
  if code == 0x24 then .next (s.deliverEvent p.ctx code tval)
  else if !s.partyLives p then
    .next (if imprecise && slotState (s.slot p.ctx) == 2 then
      s.modOwner (savedTag (slotSave (s.slot p.ctx))) fun x =>
        { x with imprecise := x.imprecise ++ [(code, tval)] }
    else s)
  else
    let s : State := { s with cur := s.latchFor p }
    match (s.ctx p.ctx).held.find? fun h => h.code == code && h.tval == tval with
    | some h =>
        let s := s.deliverHeld h
        .next (State.takeCause { s with cur := { s.cur with late := imprecise } } code tval)
    | none =>
        let s : State := { s with cur := { s.cur with late := imprecise } }
        let s := (s.modCtx p.ctx (Ctx.dropImprecise code tval)).takeCause code tval
        .next (if code == 0xE0 then s.answerNative p.ctx (BitVec.allOnes 64) none else s)

/-- The context whose fault came after its `halt` issues the `halt` again when it goes on (R120, R221). -/
def State.rehalt (s : State) (c : Nat) : State :=
  let n := savedTag (slotSave (s.slot c))
  let flags := s.jobNat (slotJob (s.slot c)) (slotSave (s.slot c) + 1) 1
  if !(s.owner n).halted || bit flags 1 then s
  else
    let s := s.modOwner n fun x => { x with halted := false }
    match s.unitOf c with
    | some (l, u) => s.levelUp (unitHandle l u)
    | none => s

/-- DISP of a context's trap record (R437) (DEDUCED, log 26). -/
def State.disp (s : State) (c : Nat) : Nat := s.jobNat (slotJob (s.slot c)) (slotSave (s.slot c) + 3) 1

/-- The unit that a slot's record names has been switched out of it. -/
def State.movedOn (s : State) (c : Nat) : Bool :=
  match s.unitOf c with
  | some (_, u) => u.status != .bound c
  | none => false

/-- HANDLER_COMPLETE (R431): the device reads DISP and acts on it (DEDUCED, log 26). -/
def execHandlerComplete (ctx : Nat) (s : State) : Host.Outcome State Fault Refusal :=
  if slotState (s.slot ctx) != 2 || s.movedOn ctx then .next s
  else if s.disp ctx = 0 then .next ((s.rehalt ctx).resumeCtx ctx)
  else if s.disp ctx = 2 then .next s
  else
    match s.unitOf ctx with
    | some (l, u) => .next (s.cancelUnit l u)
    | none => .next (s.setSlotState ctx 3)

/-- A context that is stopped at a trap record and that no handler serves: it is held (R431, R433). -/
def State.isHeld (s : State) (c : Nat) : Bool :=
  slotState (s.slot c) == 2
  && bit (s.jobNat (slotJob (s.slot c)) (slotSave (s.slot c) + 0x47) 1) 0
  && s.jobNat (slotJob (s.slot c)) (slotSave (s.slot c)) 1 != 0xE0
  && (match s.unitOf c with
      | some (l, u) => u.status == .bound c && s.handlersOf l u false = 0
      | none => false)

end Sys2Proof.Machine
end

