-- ==== Sys2Proof/Machine/Steward.lean ====
section
/-! DEFINITION. The Steward and the command processor: allocation at the first bind (R373, R374, R427), the order of
waiting units and their placement (R423, R428), pre-emption for priority and quantum (R424, R425), the L2 mode of a die
(R104, R428), the hand-over on edges (R419 to R422). -/

namespace Sys2Proof.Machine

/-- Map the 4 KiB pages of a run of fresh DRAM (R441). -/
def State.mapSmall (s : State) (root va attrs : Nat) : Nat → State
  | 0 => s
  | n + 1 =>
      let (pa, s) := s.takePage
      (s.mapAt 0 root va (leafOf pa attrs) walkLevels).mapSmall root (va + 4096) attrs n

/-- A unit's stack of exactly n bytes with an unmapped guard of 64 KiB below it: its top (R373) (DESIGN CHOICE, log 32). -/
def State.allocStack (s : State) (slot n : Nat) : Nat × State :=
  match s.jobAt slot with
  | none => (0, s)
  | some j =>
      let full := n / 65536
      let part := n % 65536
      let low := j.nextVa + 65536
      let mid := if part = 0 then low else low + 65536
      let s := s.modJob j.id fun j => { j with nextVa := mid + full * 65536 }
      let s := s.mapSmall j.root (mid - part) attrW (part / 4096)
      (mid + full * 65536, s.mapFresh j.root mid attrW full)

/-- FTBASE of a job (R374). -/
def Job.ftBase (j : Job) : Nat := (j.image.map fun (g : Image) => g.base 6).getD 0

/-- The 64 bytes of a thread block (R374). -/
def threadBlock (self : Nat) (unit : Word) (xbase slimit ft : Nat) : List Byte :=
  leBytes 8 self ++ bytes8 unit ++ leBytes 8 xbase ++ leBytes 8 slimit ++ leBytes 8 ft ++ zeros 24

/-- A unit with its allocations. -/
def Unit'.place (stack tblk savea : Nat) (u : Unit') : Unit' :=
  { u with stack := w64 stack, tblk := w64 tblk, savea := w64 savea, allocated := true }

/-- The Concierge allocates a unit's stack, thread block, save area and Lortar register area at its first bind, and writes
the thread block (R373, R374, R427). -/
def State.allocUnit (s : State) (l : Launch) (u : Unit') : State :=
  if u.allocated then s else
  match s.jobAt l.job with
  | none => s
  | some j =>
      let (stack, s) := s.allocStack l.job l.stackBytes
      let (tblk, s) := s.allocVa l.job 64 0
      let (savea, s) := s.allocVa l.job 0xA0000 attrW
      let (xbase, s) := s.allocVa l.job 131072 attrW
      let s := s.jobWrite j.id tblk (threadBlock tblk (unitHandle l u) xbase (stack - l.stackBytes) j.ftBase)
      s.modUnit l.job l.lidx u.no (Unit'.place stack tblk savea)

/-- The bind record of a unit (R426), with GO set and STATE 0b00 for a fresh bind, 0b10 for a resumption (R427). -/
def bindRecord (job : BitVec 32) (l : Launch) (u : Unit') (saved : Bool) : BitVec 512 :=
  let f := fun (x lo : Nat) => BitVec.ofNat 512 (x * 2 ^ lo)
  f l.entry.toNat 448 ||| f u.argp.toNat 384 ||| f u.tblk.toNat 320 ||| f u.stack.toNat 256
    ||| f ((l.spbase.toNat + u.no * l.splen * 4096) % 2 ^ 57 / 4096) 211 ||| f l.splen 203 ||| f l.seed.toNat 160
    ||| f job.toNat 128 ||| f l.lidx 96 ||| f u.no 84 ||| f l.prio 81 ||| f (u.savea.toNat % 2 ^ 57 / 128) 27
    ||| f (if saved then 4 else 0) 0 ||| 1#512

/-- A unit as it is bound to a context. -/
def Unit'.bind (now c : Nat) (u : Unit') : Unit' :=
  { u with status := .bound c, lastBind := now, home := some c, everBound := true }

/-- A Relay as a bind leaves it (R329). -/
def Relay.bindTo (job : Nat) : Relay := { Relay.zero with job := some job }

/-- Bind a unit to a context: its allocations, the slot's record, the Relay of the cluster (R427, R428). -/
def State.bindUnit (s : State) (l : Launch) (u : Unit') (c : Nat) : State :=
  match s.jobAt l.job with
  | none => s
  | some j =>
      let saved := u.allocated
      let s := s.allocUnit l u
      let u := ((s.launch l.job l.lidx).bind fun l => l.units.find? fun v => v.no == u.no).getD u
      let s := s.modUnit l.job l.lidx u.no (Unit'.bind s.now c)
      let s := if l.relay && (s.cluster (clusterOf c)).relay.job.isNone then
          s.modCluster (clusterOf c) fun k => { k with relay := Relay.bindTo j.id.toNat }
        else s
      State.later { s with bind := aset s.bind c (bindRecord j.id l u saved) } (.go c)

/-- The die on which a unit of a launch is placed (R423). -/
def Launch.dieOfUnit (l : Launch) (no : Nat) : Nat :=
  let ds := diesOf l.dies
  ds[no % ds.length]?.getD 0

/-- The place of a waiting unit in the order of R423: priority, age, LIDX, UNITNO. -/
def waitKey (l : Launch) (u : Unit') : Nat :=
  (((7 - l.prio) * 2 ^ 128 + u.age.getD 0) * 2 ^ 64 + l.lidx) * 2 ^ 16 + u.no

/-- The units that wait for a context of a die, in the order of R423; none of a job that is being saved (R463)
(DEDUCED, log 30). -/
def State.waitingOn (s : State) (d : Nat) : List (Launch × Unit') :=
  sortBy (fun (l, u) => waitKey l u) (s.launches.flatMap fun l =>
    if l.eligible.isNone || l.ended.isSome || (s.jobAt l.job).any (fun j => j.ckpt.isSome) then [] else
    (l.units.filter fun u => u.age.isSome && l.dieOfUnit u.no == d).map fun u => (l, u))

/-- Contexts that a unit occupies, or that are being bound. -/
def State.busy (s : State) : List Nat :=
  s.bind.filterMap (fun (c, r) => if slotState r == 1 || r.getLsbD 0 then some c else none)
  ++ s.launches.flatMap fun l => l.units.filterMap fun u => match u.status with | .bound c => some c | _ => none

/-- The free contexts of a die, ascending. -/
def State.freeOn (s : State) (d : Nat) : List Nat :=
  let b := s.busy
  ((List.range Config.ctxPerDie).map fun i => d * Config.ctxPerDie + i).filter fun c => !b.contains c

/-- The L2 mode in which a job's units run on a die, where its wishes say (R407). -/
def Job.wish (j : Job) (d : Nat) : Option Bool :=
  if (diesOf j.wishDies).contains d then some j.partitioned else if j.partitioned then some false else none

/-- The clusters of a die whose Relay a job holds (R428). -/
def State.relaysHeld (s : State) (job d : Nat) : Nat :=
  ((List.range 16).filter fun i => (s.cluster (16 * d + i)).relay.job == some job).length

/-- The cluster in which a unit that is switched out keeps a claim (R317). -/
def State.claimOf (s : State) (u : Unit') : Option Nat :=
  s.clusters.findSome? fun (k, c) =>
    if c.holders.toList.any (· == some (savedTag u.savea.toNat)) then some k else none

/-- Whether a context suits a unit (R317, R407, R428): the Relay of its cluster, its partition, the claim the unit keeps
(DEDUCED, log 30). -/
def State.suits (s : State) (l : Launch) (u : Unit') (c : Nat) : Bool :=
  match s.jobAt l.job with
  | none => false
  | some j =>
      let d := dieOf c
      let relays := if j.relays = 0 then 16 else j.relays
      (!l.relay || (match (s.cluster (clusterOf c)).relay.job with
        | some q => q == j.id.toNat
        | none => s.relaysHeld j.id.toNat d < relays))
      && (!(s.die d).part || !j.partitioned || j.parts = 0 || bit j.parts (partitionOf c))
      && (match (if u.allocated then s.claimOf u else none) with | some k => clusterOf c == k | none => true)

/-- A context for each unit of a group, or nothing: the lowest free ones that suit (R425). A Relay that an earlier unit of the
group takes is taken into account when it is bound (DEDUCED, log 30). -/
def State.plan (s : State) : List (Launch × Unit') → List Nat → Option (List (Launch × Unit' × Nat))
  | [], _ => some []
  | (l, u) :: r, taken =>
      match (s.freeOn (l.dieOfUnit u.no)).find? fun c => !taken.contains c && s.suits l u c with
      | none => none
      | some c => (s.plan r (c :: taken)).map fun p => (l, u, c) :: p

/-- The units of a launch that wait. -/
def State.gangOf (s : State) (l : Launch) : List (Launch × Unit') :=
  match s.launch l.job l.lidx with
  | none => []
  | some l => (l.units.filter fun u => u.age.isSome).map fun u => (l, u)

/-- The running units of a die with a priority below one, those that have run longest since their last bind first, ties to
the highest context (R424). -/
def State.victims (s : State) (d prio : Nat) : List (Launch × Unit' × Nat) :=
  sortBy (fun (_, u, c) => u.lastBind * 1024 + (1023 - c)) (s.launches.flatMap fun l =>
    if l.prio ≥ prio then [] else
    l.units.filterMap fun u =>
      match u.status with
      | .bound c => if dieOf c == d && slotState (s.slot c) == 1 then some (l, u, c) else none
      | _ => none)

/-- Stop a unit; a gang is stopped all together (R424, R425). -/
def State.stopUnit (s : State) (l : Launch) (c : Nat) : State :=
  if !l.gang then s.switchOut c
  else
    l.units.foldl (fun s u => match u.status with | .bound c => s.switchOut c | _ => s) s

/-- How many contexts a group still needs on a die. -/
def State.deficit (s : State) (grp : List (Launch × Unit')) (d : Nat) : Nat :=
  (grp.filter fun (l, u) => l.dieOfUnit u.no == d).length - (s.freeOn d).length

/-- Stop a unit of lower priority for a group that finds no context, when enough of them run (R424, R425). -/
def State.makeRoom (s : State) (grp : List (Launch × Unit')) (d prio : Nat) : State :=
  let short := (List.range Config.dies).filter fun d => s.deficit grp d > 0
  if short.all fun d => s.deficit grp d ≤ (s.victims d prio).length then
    match short.findSome? fun d => (s.victims d prio).head? with
    | none => s
    | some (l, _, c) => (s.stopUnit l c).later (.stewardBind d)
  else s

/-- Relays of a die whose job has no unit running or saved in the cluster are free (R428). -/
def State.freeRelays (s : State) (d : Nat) : State :=
  (List.range 16).foldl (fun s i =>
    let k := 16 * d + i
    match (s.cluster k).relay.job with
    | none => s
    | some id =>
        let used := s.launches.any fun l => l.job == id % 2 ^ 16 && l.units.any fun u =>
          u.home.map clusterOf == some k && (match u.status with | .bound _ => true | .saved _ => true | _ => false)
        if used then s else s.modCluster k fun c => { c with relay := { c.relay with job := none } }) s

/-- The mode for which a die must be emptied first: the first waiting unit with a wish wishes another (R407, R428). -/
def State.modeAsked (s : State) (d : Nat) (ws : List (Launch × Unit')) : Option Bool :=
  match ws.findSome? fun (l, _) => (s.jobAt l.job).bind fun (j : Job) => j.wish d with
  | some m => if m == (s.die d).part then none else some m
  | none => none

/-- Whether a context of a die runs or is being bound (R104). -/
def State.dieBusy (s : State) (d : Nat) : Bool :=
  s.bind.any fun (c, r) => dieOf c == d && (slotState r == 1 || r.getLsbD 0)

/-- STEWARD_BIND (R423 to R425, R428): one decision of a die's Steward. -/
def execStewardBind (die : Nat) (s : State) : Host.Outcome State Fault Refusal :=
  let s := (s.freeRelays die).modDie die fun d => { d with ring := [] }
  match s.waitingOn die with
  | [] => .next s
  | (l, u) :: r =>
      match s.modeAsked die ((l, u) :: r) with
      | some m => .next (if s.dieBusy die then s else s.later (.l2ModeChange die m))
      | none =>
          let grp := if l.gang then s.gangOf l else [(l, u)]
          match s.plan grp [] with
          | none => .next (s.makeRoom grp die l.prio)
          | some p =>
              let s := (p.foldl (fun s (l, u, c) => s.bindUnit l u c) s).updateEligible
              .next (if r.isEmpty then s else s.later (.stewardBind die))

/-- QUANTUM_EXPIRY (R424, R425, R428): a unit whose quantum has run out is stopped for one of its priority that waits, or for
a change of the die's mode; a gang's is not. -/
def execQuantumExpiry (ctx : Nat) (s : State) : Host.Outcome State Fault Refusal :=
  match s.unitOf ctx with
  | none => .next s
  | some (l, _) =>
      let d := dieOf ctx
      let ws := s.waitingOn d
      if slotState (s.slot ctx) != 1 || l.gang then .next s
      else if (s.modeAsked d ws).isSome then .next (s.switchOut ctx)
      else if (s.freeOn d).isEmpty && ws.any (fun (w, _) => w.prio ≥ l.prio) then .next (s.switchOut ctx)
      else .next s

/-- Every line of a die's cores and of its L2 is written back and invalidated, and the die leaves every word's D (R104). -/
def State.emptyDie (s : State) (d : Nat) : State :=
  let s := (List.range 64).foldl (fun s i =>
    let k := 64 * d + i
    (s.core k).l1.foldl (fun s l => s.dropLine k l.key) s) s
  let s := s.words.foldl (fun s (w, x) => if x.d.contains d then s.nodeDrops d (rowLine w) else s) s
  let s : State := { s with cores := s.cores.map fun (k, c) => (k, if k / 64 = d then { c with icache := [] } else c) }
  (s.modDie d fun x => { x with l2 := [] }).unrecord

/-- L2_MODE_CHANGE (R104): only while no context of the die is bound. -/
def execL2ModeChange (die : Nat) (partitioned : Bool) (s : State) : Host.Outcome State Fault Refusal :=
  if s.dieBusy die then .next s
  else .next (((s.emptyDie die).modDie die fun d => { d with part := partitioned }).later (.stewardBind die))

/-- Store a 64-bit word as the command processor does, where its page is still mapped writable (R421); nothing when it is
not (DEDUCED, log 59). -/
def State.storeMark (s : State) (slot : Nat) (va v : Word) : Option State :=
  match s.jobAt slot with
  | none => none
  | some j =>
      match s.xlate j.root va.toNat with
      | some (_, p) => if bit p.leaf 6 && !bit p.leaf 5 then some (s.jobWrite j.id va.toNat (bytes8 v)) else none
      | none => none

/-- One entry of a flush list (R419): address, lines, ACT (DEDUCED, log 59). -/
def State.flushEntry (s : State) (root : Nat) (e : Nat × Nat × BitVec 8) : State :=
  let (addr, lines, act) := e
  let n := lines * 128
  (s.ranges root (n / 4096 + 2) addr n).foldl (fun s (lo, hi) =>
    s.cores.foldl (fun s (k, _) =>
      let s := if act.getLsbD 0 then s.flushRange k lo hi else s
      if act.getLsbD 1 then s.dropRange k lo hi else s) s) s

/-- An edge that is satisfied. -/
def Launch.satisfy (i : Nat) (l : Launch) : Launch :=
  { l with edges := l.edges.mapIdx fun k e => if k = i then { e with satisfied := true } else e }

/-- EDGE_FLUSH (R419 to R422): after a predecessor has ended, the edge's flush list is carried out in order; a streaming
edge's watermark is closed; a cancelled predecessor cancels the launch (DEDUCED, log 59). -/
def execEdgeFlush (job lidx edge : Nat) (s : State) : Host.Outcome State Fault Refusal :=
  match s.launch job lidx with
  | none => .next s
  | some l =>
      match l.edges[edge]?, s.jobAt job with
      | some e, some j =>
          match (s.launch job e.pred).bind fun p => p.ended with
          | none => .next s
          | some st =>
              if e.satisfied then .next s
              else
                let s := (e.flush.foldl (fun s f => s.flushEntry j.root f) s).modLaunch job lidx (Launch.satisfy edge)
                let cancel := fun s : State => (s.cancelLevel (handle 2 job lidx 0 0)).2
                if st == .cancelled then .next (cancel s).updateEligible
                else if e.streaming then
                  match s.storeMark job e.wmark (BitVec.allOnes 64) with
                  | some s => .next s.updateEligible
                  | none => .next (cancel s).updateEligible
                else .next s.updateEligible
      | _, _ => .next s

end Sys2Proof.Machine
end

