-- ==== Sys2Proof/Machine/Service.lean ====
section
/-! DEFINITION. The Concierge: its channels and the checks of a request (R404 to R406), jobs (R407, R415, R416), launches
(R413 to R418), counters, and memory (R471). -/

namespace Sys2Proof

/-- The header checks of R404. -/
def Req.headerOk (r : Req) : Bool :=
  r.magic == 0x4351 && r.len.toNat ≤ 65536 && r.zero == 0 && r.job.extractLsb' 32 32 == 0 && r.payload.length == r.len.toNat

/-- The number a payload holds at an offset. -/
def Req.nat (r : Req) (o n : Nat) : Nat := Machine.natAt r.payload o n

/-- The job a request names. -/
def Req.jobId (r : Req) : BitVec 32 := r.job.setWidth 32

end Sys2Proof

namespace Sys2Proof.Machine

/-- A channel of the Concierge. -/
def State.channel (s : State) (n : Nat) : Channel := aget Channel.zero s.channels n
/-- Change a channel. -/
def State.modChannel (s : State) (n : Nat) (f : Channel → Channel) : State :=
  { s with channels := aset s.channels n (f (s.channel n)) }

/-- Send a response on a channel (R404): the negotiated pair, the operation, TAG and JOB. -/
def State.answer (s : State) (chan : Nat) (op : BitVec 16) (tag job : Word) (status : Nat) (payload : List Byte) : State :=
  let v := (s.channel chan).version.getD (0, 0)
  s.emit (.response chan v.1 v.2 op (BitVec.ofNat 16 status) tag job payload)

/-- Answer a request (R404). -/
def State.respond (s : State) (r : Req) (status : Nat) (payload : List Byte) : State :=
  s.answer r.chan r.op r.tag r.job status payload

/-- A request on a channel (R404 to R406): header, negotiation and version pair, OP; then the operation's own checks
(DEDUCED, log 31). -/
def State.serve (s : State) (r : Req) (op : BitVec 16) (k : State → State) : State :=
  if !r.headerOk then s.respond r 4 []
  else
    match (s.channel r.chan).version with
    | none => s.respond r 2 []
    | some v =>
        if (r.vmaj, r.vmin) != v then s.respond r 1 []
        else if r.op != op then s.respond r 3 []
        else k s

/-- HELLO (R405). The Concierge supports major 1, minor 0. -/
def execHello (r : Req) (s : State) : Host.Outcome State Fault Refusal :=
  if !r.headerOk then .next (s.respond r 4 [])
  else if r.op != 1 then .next (s.respond r (if (s.channel r.chan).version.isNone then 2 else 3) [])
  else if (s.channel r.chan).version.isSome then .next (s.respond r 2 [])
  else if r.payload.length != 8 || r.nat 0 1 > r.nat 1 1 || r.nat 3 5 != 0 then .next (s.respond r 4 [])
  else if r.nat 0 1 > 1 || r.nat 1 1 < 1 then .next (s.respond r 1 [])
  else .next ((s.modChannel r.chan fun c => { c with version := some (1, 0) }).respond r 0 [])

/-- A request on a live job: what is done with it, or NOJOB; while a save of the job is in progress it waits its turn (R406,
R463). -/
def State.onJob (s : State) (r : Req) (e : Event) (k : Job → State → State) : State :=
  match s.jobById r.jobId with
  | none => s.respond r 5 []
  | some j => if j.ckpt.isSome then s.modJob j.id fun j => { j with deferred := j.deferred ++ [e] } else k j s

/-- DRAM not given yet, in bytes (R95). -/
def State.room (s : State) : Nat :=
  if s.nextPage ≥ 2 ^ 39 then 0
  else (96 * 2 ^ 30 - s.nextPage % 2 ^ 37) + (3 - s.nextPage / 2 ^ 37) * (96 * 2 ^ 30)

/-- A fresh run of DRAM of 2^bits bytes, aligned to its size. -/
def State.takeAligned (s : State) (bits : Nat) : Nat × State :=
  let p := roundUp s.nextPage (2 ^ bits)
  let p := if unpopulated (p + 2 ^ bits - 1) then p / 2 ^ 37 * 2 ^ 37 + 2 ^ 37 else p
  let q := p + 2 ^ bits
  (p, { s with nextPage := if unpopulated q then q / 2 ^ 37 * 2 ^ 37 + 2 ^ 37 else q })

/-- Map n pages of 2 MiB (R388, R441). -/
def State.mapBlocks (s : State) (root va attrs : Nat) : Nat → State
  | 0 => s
  | n + 1 =>
      let (pa, s) := s.takeAligned 21
      (s.mapAt 2 root va (leafOf pa attrs) walkLevels).mapBlocks root (va + 2 ^ 21) attrs n

/-- The first address that the Concierge gives a job; a code heap lies there. -/
def firstVa : Nat := 0x1000000000

/-- A job as JOB_CREATE makes it (R406, R407) (DEDUCED, log 31). -/
def Job.fresh (id : BitVec 32) (heap wishes root : Nat) : Job where
  id := id
  live := true
  heapBytes := heap
  heapBase := firstVa
  partitioned := wishes % 256 == 1
  parts := wishes / 2 ^ 8 % 256
  wishDies := wishes / 2 ^ 16 % 256
  relays := wishes / 2 ^ 24 % 256
  root := root
  nextVa := firstVa + heap
  buffer := []
  image := none
  cp := none
  translations := []
  nextLidx := 0
  openGraphs := []
  phase := 0
  windows := []
  exposed := []
  queues := []
  groups := []
  exitCode := none
  ckpt := none
  deferred := []

/-- The wishes of R407. -/
def wishesOk (w : Nat) : Bool :=
  w % 256 ≤ 1 && w / 2 ^ 8 % 256 < 16 && (w % 256 == 1 || w / 2 ^ 8 % 256 == 0) && w / 2 ^ 16 % 256 < 16
    && w / 2 ^ 24 % 256 ≤ 16 && w / 2 ^ 32 == 0

/-- A free slot of a job, lowest first (R415) (DEDUCED, log 31). -/
def State.freeSlot (s : State) : Option Nat :=
  ((List.range 65535).map (· + 1)).find? fun n => !s.jobs.any fun j => j.live && jobSlot j.id == n

/-- JOB_CREATE (R388, R406, R407, R415, R416). -/
def execJobCreate (r : Req) (s : State) : Host.Outcome State Fault Refusal :=
  .next (s.serve r 2 fun s =>
    let heap := if r.nat 0 8 = 0 then 2 ^ 28 else r.nat 0 8
    if r.payload.length != 16 || heap % 2 ^ 21 != 0 || heap < 2 ^ 24 || heap > 2 ^ 32 || !wishesOk (r.nat 8 8) then
      s.respond r 4 []
    else
      match s.freeSlot with
      | none => s.respond r 9 []
      | some n =>
          if s.room < heap + 2 ^ 22 then s.respond r 9 []
          else
            let gen := (aget 0 s.generations n + 1) % 2 ^ 16
            let id : BitVec 32 := BitVec.ofNat 32 (gen * 2 ^ 16 + n)
            let (root, s) := s.takePage
            let s : State := { s with
              generations := aset s.generations n gen
              jobs := s.jobs ++ [Job.fresh id heap (r.nat 8 8) root]
              counters := s.counters ++ [Counter.fresh (handle 5 n 0 0 0) 2, Counter.fresh (handle 4 n 0 0 0) 1] }
            (s.mapBlocks root firstVa attrX (heap / 2 ^ 21)).answer r.chan r.op r.tag (w64 id.toNat) 0 [])

/-- The status of a wait on a counter that has ended (R408, R410). -/
def waitStatus (c : CStatus) : Nat := if c == .cancelled then 11 else 0

/-- The payload of a WAIT's response: the exit code of the job, when the job ended by Exit (R409). -/
def exitPayload (h : Word) (code : Option Word) : List Byte :=
  if hKind h == 5 then (code.map bytes8).getD [] else []

/-- Answer the WAIT requests of a channel whose counter runs no longer (R406). -/
def State.answerWaits (s : State) (n : Nat) : State :=
  let ended := fun (h : Word) => (s.counter h).all fun c => c.status != .running
  let done := (s.channel n).waits.filter fun (_, _, h) => ended h
  let s := s.modChannel n fun c => { c with waits := c.waits.filter fun (_, _, h) => !ended h }
  done.foldl (fun s (tag, job, h) =>
    let st := match s.counter h with | some c => waitStatus c.status | none => 11
    s.answer n 0x21 tag job st (exitPayload h ((s.jobById (job.setWidth 32)).bind fun (j : Job) => j.exitCode))) s

/-- Forget the translations of a job (R415, R444). -/
def State.dropTlb (s : State) (slot : Nat) (f : TlbEntry → Bool) : State :=
  let keep := fun (e : TlbEntry) => !(e.job == slot && f e)
  { s with
    cores := s.cores.map fun (k, c) => (k, { c with itlb := c.itlb.filter keep, dtlb := c.dtlb.filter keep })
    dies := s.dies.map fun (k, d) => (k, { d with tlb := d.tlb.filter keep }) }

/-- A job's control program leaves its service core. -/
def State.unseatControl (s : State) (slot : Nat) : State :=
  { s with dies := s.dies.map fun (n, d) => (n, { d with service := d.service.filter fun x => x.2 != slot }) }

/-- The number under which the control program of a job slot asks peers (R382). -/
def controlUnit (slot : Nat) : Nat := 2 ^ 39 + slot

/-- The end of a job (R39, R406, R409, R411, R417): its level is cancelled, WAITs on it are answered, its keys, counters,
launches, Relays, translations and memory go. -/
def State.endJob (s : State) (j : Job) (code : Option Word) : State :=
  let slot := jobSlot j.id
  let s := (s.cancelLevel (handle 5 slot 0 0 0)).2
  let s := s.modJob j.id fun j => { j with exitCode := code }
  let s := s.channels.foldl (fun s (n, _) => s.answerWaits n) s
  let s := (s.dropTlb slot fun _ => true).unseatControl slot
  { s with
    keys := s.keys.map fun (n, k) =>
      (n, if k.job == slot && k.valid then
        { k with valid := false, held := false, queue := [], granted := none, remoteHolder := none } else k)
    clusters := s.clusters.map fun (k, c) =>
      (k, if c.relay.job == some j.id.toNat then { c with relay := { c.relay with job := none } } else c)
    launches := s.launches.filter fun l => l.job != slot
    reserved := adel s.reserved slot
    requests := (s.requests.filterMap (RemoteReq.leave (controlUnit slot))).filter fun r => r.party.ctx != controlUnit slot
    counters := s.counters.filter fun c => hJob c.handle != slot
    jobs := s.jobs.filter fun q => q.id != j.id }

/-- JOB_END (R406, R411). -/
def execJobEnd (r : Req) (s : State) : Host.Outcome State Fault Refusal :=
  .next (s.serve r 3 fun s =>
    if r.payload.length != 0 then s.respond r 4 []
    else s.onJob r (.jobEnd r) fun j s => (s.endJob j none).respond r 0 [])

/-- A virtual address on a page that the job maps in device global or domain space (R471); `w` asks for W = 1 and X = 0, which
the pages of thread blocks pass (R374, R471). -/
def State.pageOk (s : State) (j : Job) (w : Bool) (va : Nat) : Bool :=
  va < Config.spWindow &&
  (match walkFrom s va j.root walkLevels with
    | .leaf e bits =>
        let p : Page := ⟨e, bits, false⟩
        let tblk := s.launches.any fun l => l.job == jobSlot j.id && l.units.any fun u =>
          u.allocated && u.tblk.toNat / 65536 == va / 65536
        p.space ≤ 1 && (!w || (!bit e 5 && (bit e 6 || tblk)))
    | _ => false)

/-- A run of addresses wholly on such pages. -/
def State.rangeOk (s : State) (j : Job) (w : Bool) (va n : Nat) : Bool :=
  n = 0 || ((List.range ((va + n - 1) / 4096 - va / 4096 + 1)).all fun i => s.pageOk j w ((va / 4096 + i) * 4096))

/-- A launch record's fields (R413). -/
structure LaunchRec where
  kidx : Nat
  prio : Nat
  dies : Nat
  nunits : Nat
  flags : Nat
  quant : Nat
  graph : Word
  args : Nat
  seed : Nat
  nedge : Nat
  nctr : Nat
  nkey : Nat
  edges : Nat
  ctrs : Nat
  keys : Nat
  spbase : Nat
  splen : Nat
  zero : Nat

/-- The record from its 128 bytes (R413). -/
def launchRec (b : List Byte) : LaunchRec where
  kidx := natAt b 0 4
  prio := natAt b 4 1
  dies := natAt b 5 1
  nunits := natAt b 6 2
  flags := natAt b 8 4
  quant := natAt b 12 4
  graph := w64 (natAt b 16 8)
  args := natAt b 24 8
  seed := natAt b 32 4
  nedge := natAt b 36 1
  nctr := natAt b 37 1
  nkey := natAt b 38 1
  edges := natAt b 40 8
  ctrs := natAt b 48 8
  keys := natAt b 56 8
  spbase := natAt b 64 8
  splen := natAt b 72 2
  zero := natAt b 39 1 + natAt b 74 54

/-- The limits of R413 and R416 on the record itself. -/
def LaunchRec.ok (r : LaunchRec) (kernels : Nat) : Bool :=
  r.prio < 8 && r.dies < 16 && 1 ≤ r.nunits && r.nunits ≤ 4096 && r.flags < 8 && r.nedge ≤ 64 && r.nctr ≤ 16
    && r.nkey ≤ 16 && r.zero == 0 && r.spbase % 4096 == 0 && r.splen ≤ 128 && r.kidx < kernels
    && !(bit r.flags 1 && r.graph != 0)

/-- An edge record (R418): PRED, whether it streams, its flush list, WMARK. -/
structure EdgeRec where
  pred : Word
  streaming : Bool
  flush : List (Nat × Nat × BitVec 8)
  wmark : Word

/-- A flush entry (R418), when its fields are within their limits. -/
def flushRec (b : List Byte) : Option (Nat × Nat × BitVec 8) :=
  if natAt b 0 8 % 128 != 0 || natAt b 12 1 ≥ 8 || natAt b 13 3 != 0 then none
  else some (natAt b 0 8, natAt b 8 4, BitVec.ofNat 8 (natAt b 12 1))

/-- The n records of a size at an address. -/
def records (b : List Byte) (size n : Nat) : List (List Byte) := (List.range n).map fun i => (b.drop (size * i)).take size

/-- Read an edge record with its flush list and check it (R414, R418). -/
def State.edgeRec (s : State) (j : Job) (b : List Byte) : Option EdgeRec :=
  let nfl := natAt b 10 2
  let fl := natAt b 16 8
  let wm := natAt b 24 8
  let stream := natAt b 8 1 == 1
  if natAt b 8 1 > 1 || natAt b 9 1 != 0 || natAt b 12 4 != 0 || nfl > 256 then none
  else if !s.rangeOk j false fl (16 * nfl) then none
  else if stream && (wm % 8 != 0 || !s.pageOk j true wm) then none
  else
    ((records ((s.jobRead j.id fl (16 * nfl)).getD []) 16 nfl).mapM flushRec).map fun es => ⟨w64 (natAt b 0 8), stream, es, w64 wm⟩

/-- A key descriptor (R417): BASE / 128, LENM1, SCOPE, ENTRY, when its fields are within their limits. -/
def keyRec (b : List Byte) : Option (Nat × Nat × Nat × Nat) :=
  if natAt b 0 8 % 128 != 0 || natAt b 0 8 ≥ 2 ^ 57 || natAt b 11 1 = 0 || natAt b 11 1 > 5 || natAt b 12 2 > 4095
      || natAt b 14 2 != 0 then none
  else some (natAt b 0 8 / 128, natAt b 8 3, natAt b 11 1, natAt b 12 2)

/-- Whether a key entry can be written for a job (R417). -/
def State.keyFits (s : State) (slot : Nat) (k : Nat × Nat × Nat × Nat) : Bool :=
  let e := s.key k.2.2.2
  !e.valid || (e.job == slot && e.base.toNat == k.1 && e.lenm1.toNat == k.2.1 && e.scope.toNat == k.2.2.1)

/-- Write a key entry (R417): one that the job already holds stays as it is. -/
def State.writeKey (s : State) (slot : Nat) (k : Nat × Nat × Nat × Nat) : State :=
  if (s.key k.2.2.2).valid then s
  else
    s.modKey k.2.2.2 fun e =>
      { e with
        valid := true, base := BitVec.ofNat 50 k.1, lenm1 := BitVec.ofNat 24 k.2.1, scope := BitVec.ofNat 3 k.2.2.1
        job := slot, held := false, queue := [], granted := none, remoteHolder := none }

/-- The phase that a launch of a new graph joins: the newest one (R416). -/
def State.newestPhase (s : State) (slot : Nat) : Nat :=
  s.launches.foldl (fun p l => if l.job == slot then max p l.phase else p) 0

/-- The phase of a graph. -/
def State.phaseOf (s : State) (slot g : Nat) : Nat :=
  ((s.launches.find? fun l => l.job == slot && l.graph == g).map (·.phase)).getD 0

/-- An edge of an accepted launch: a streaming one's watermark is cleared while no unit of its predecessor has bound (R421);
one whose predecessor has ended is flushed at once (R419). -/
def State.openEdge (s : State) (slot lidx i : Nat) (e : Edge) : State :=
  match s.launch slot e.pred with
  | none => s
  | some p =>
      let s := if e.streaming && !p.units.any (·.everBound) then (s.storeMark slot e.wmark 0).getD s else s
      if p.ended.isSome then s.later (.edgeFlush slot lidx i) else s

/-- The counters of a new launch (R37, R416): its phase and graph where it opens them, itself, its units, its arrival
counters. -/
def State.openCounters (s : State) (slot lidx graph phase old : Nat) (r : LaunchRec) (vals : List Nat) : State :=
  let s := if phase = old then s else
    (s.addCounter (Counter.fresh (handle 4 slot phase 0 0) 1)).levelUp (handle 5 slot 0 0 0)
  let s := if graph = lidx then
      (s.addCounter (Counter.fresh (handle 3 slot graph 0 0) 1)).levelUp (handle 4 slot phase 0 0)
    else s
  let s := (s.addCounter (Counter.fresh (handle 2 slot lidx 0 0) r.nunits)).levelUp (handle 3 slot graph 0 0)
  { s with
    counters := s.counters
      ++ ((List.range r.nunits).map fun u => Counter.fresh (handle 1 slot lidx u 0) 1)
      ++ vals.mapIdx fun n v => ⟨handle 6 slot lidx 0 n, v, if v = 0 then .complete else .running, false⟩ }

/-- What follows the opening of a launch's counters (R416): NEWPHASE closes the phase before, LAST closes the graph. -/
def State.closeLevels (s : State) (id : BitVec 32) (slot graph phase old : Nat) (r : LaunchRec) : State :=
  let s := if phase = old then s else s.levelDown (handle 4 slot old 0 0) false 3
  if bit r.flags 2 then
    (s.modJob id fun j => { j with openGraphs := j.openGraphs.filter (· != graph) }).levelDown (handle 3 slot graph 0 0) false 4
  else s

/-- Bytes of DRAM that the units of a launch may take (R427). -/
def LaunchRec.bytes (r : LaunchRec) (stack : Nat) : Nat :=
  r.nunits * (stack + 0xA0000 + 131072 + 64 + 24 * 65536) + 64 * 65536

/-- Acceptance of a launch record of a job (R391, R413 to R418, R421): status, launch handle, and the state after. A launch
that fails leaves no trace but evictions (R390). -/
def State.accept (s : State) (j : Job) (b : List Byte) : Nat × Word × State :=
  let r := launchRec b
  let slot := jobSlot j.id
  match j.image with
  | none => (4, 0, s)
  | some g =>
    let readable := s.rangeOk j false r.args (64 * r.nunits) && s.rangeOk j false r.edges (32 * r.nedge)
      && s.rangeOk j false r.ctrs (8 * r.nctr) && s.rangeOk j false r.keys (16 * r.nkey)
    if b.length != 128 || !r.ok g.kernels.length || !readable then (4, 0, s)
    else
      let rd := fun a n => (s.jobRead j.id a n).getD []
      match (records (rd r.edges (32 * r.nedge)) 32 r.nedge).mapM (s.edgeRec j),
          (records (rd r.keys (16 * r.nkey)) 16 r.nkey).mapM keyRec, g.kernels[r.kidx]? with
      | some es, some ks, some q =>
        let named := s.jobCounter slot r.graph
        if r.graph != 0 && (hKind r.graph != 3 || named.isNone) then (5, 0, s)
        else if (r.graph != 0 && !(j.openGraphs.contains (hLidx r.graph) && named.any (·.status == .running)))
            || (s.counter (handle 5 slot 0 0 0)).any (·.status != .running) then (2, 0, s)
        else if es.any fun e => !(handleForm e.pred && hKind e.pred == 2 && hJob e.pred == slot && r.graph != 0
            && (s.launch slot (hLidx e.pred)).any fun l => l.graph == hLidx r.graph) then (5, 0, s)
        else
          let lidx := j.nextLidx
          let graph := if r.graph == 0 then lidx else hLidx r.graph
          let old := if r.graph == 0 then s.newestPhase slot else s.phaseOf slot graph
          let phase := if bit r.flags 1 then lidx else old
          let stack := if q.stack = 0 then 2 ^ 20 else q.stack
          let new := r.nunits + r.nctr + 1 + (if r.graph == 0 then 1 else 0) + (if phase = old then 0 else 1)
          if r.graph == 0 && phase = old && (s.counter (handle 4 slot old 0 0)).any (·.status != .running) then (2, 0, s)
          else if !ks.all (s.keyFits slot) || !ks.all (fun k => ks.all fun m => m.2.2.2 != k.2.2.2 || m == k)
              || (s.counters.filter fun c => hJob c.handle == slot).length + new > 65536 || lidx > 65535
              || r.bytes stack > s.room then (9, 0, s)
          else
            match s.kernelEntry j.id r.kidx with
            | (none, s) => (10, 0, s)
            | (some entry, s) =>
              let args := rd r.args (64 * r.nunits)
              let (argp, s) := s.allocVa slot (64 * r.nunits) attrW
              let s := s.jobWrite j.id argp args
              let units := (List.range r.nunits).map fun u =>
                { Unit'.fresh u ((List.range 8).map fun i => w64 (natAt args (64 * u + 8 * i) 8)) s.now with
                  argp := w64 (argp + 64 * u) }
              let edges : List Edge := es.map fun e => ⟨hLidx e.pred, e.streaming, e.flush, e.wmark, false⟩
              let l : Launch :=
                { job := slot, lidx := lidx, entry := entry, prio := r.prio, dies := r.dies, gang := bit r.flags 0
                  quant := if r.quant = 0 then 2000 else r.quant
                  graph := graph, phase := phase, seed := BitVec.ofNat 32 r.seed, edges := edges, relay := q.flags.getLsbD 1
                  stackBytes := stack, spbase := w64 r.spbase, splen := r.splen, units := units, eligible := none
                  serves := none, ended := none }
              let vals := (List.range r.nctr).map fun n => natAt (rd r.ctrs (8 * r.nctr)) (8 * n) 8
              let s := ks.foldl (fun s k => s.writeKey slot k) s
              let s := s.modJob j.id fun j =>
                { j with
                  nextLidx := lidx + 1
                  openGraphs := if r.graph == 0 then j.openGraphs ++ [lidx] else j.openGraphs }
              let s := s.openCounters slot lidx graph phase old r vals
              let s : State := { s with launches := s.launches ++ [l] }
              let s := ((List.range edges.length).zip edges).foldl (fun s (i, e) => s.openEdge slot lidx i e) s
              (0, handle 2 slot lidx 0 0, (s.closeLevels j.id slot graph phase old r).updateEligible)
      | _, _, _ => (4, 0, s)

/-- LAUNCH (R406, R413, R414). -/
def execLaunch (r : Req) (s : State) : Host.Outcome State Fault Refusal :=
  .next (s.serve r 0x20 fun s =>
    if r.payload.length != 128 then s.respond r 4 []
    else s.onJob r (.launch r) fun j s =>
      let (st, h, s) := s.accept j r.payload
      s.respond r st (if st = 0 then bytes8 h else []))

/-- WAIT (R406, R410, R411): answered once the counter runs no longer. -/
def execWait (r : Req) (s : State) : Host.Outcome State Fault Refusal :=
  .next (s.serve r 0x21 fun s =>
    if r.payload.length != 8 then s.respond r 4 []
    else
      let h := w64 (r.nat 0 8)
      match (s.jobById r.jobId).bind fun j => (s.jobCounter (jobSlot j.id) h).map fun c => (j, c) with
      | none => s.respond r 5 []
      | some (j, c) =>
          if c.status == .running then s.modChannel r.chan fun c => { c with waits := c.waits ++ [(r.tag, r.job, h)] }
          else s.respond r (waitStatus c.status) (exitPayload h j.exitCode))

/-- CANCEL (R39, R40, R406). -/
def execCancel (r : Req) (s : State) : Host.Outcome State Fault Refusal :=
  .next (s.serve r 0x22 fun s =>
    if r.payload.length != 8 then s.respond r 4 []
    else s.onJob r (.cancel r) fun j s =>
      let h := w64 (r.nat 0 8)
      match s.jobCounter (jobSlot j.id) h with
      | none => s.respond r 5 []
      | some _ =>
          let (n, s) := s.cancelLevel h
          s.respond r (if n = 0 then 0 else 12) [])

/-- The row lines of a run of addresses. -/
def linesOf (va n : Nat) : List Nat :=
  ((List.range (n / 128 + 2)).map fun i => va / 128 * 128 + 128 * i).filter fun a => 0 < n && a < va + n

/-- Bytes leave the device over a port: a line whose check value fails becomes poisoned, and the error is logged (R461). -/
def State.egress (s : State) (j : Job) (va n : Nat) : State :=
  (linesOf va n).foldl (fun s a =>
    match s.xlate j.root a with
    | some (pa, _) => if s.badCheck.contains (pa / 128 * 128) then s.poisonLine pa else s
    | none => s) s

/-- MEM_READ (R406, R461, R471). -/
def execMemRead (r : Req) (s : State) : Host.Outcome State Fault Refusal :=
  .next (s.serve r 0x30 fun s =>
    if r.payload.length != 16 then s.respond r 4 []
    else s.onJob r (.memRead r) fun j s =>
      let va := r.nat 0 8
      let n := r.nat 8 8
      if n = 0 || n > 65536 || !s.rangeOk j false va n then s.respond r 4 []
      else (s.egress j va n).respond r 0 ((s.jobRead j.id va n).getD []))

/-- A write of 0 or 1 into the DISP byte of a context that is held makes the Concierge act on it (R431). -/
def State.released (s : State) (j : Job) (lo hi : Nat) : State :=
  s.bind.foldl (fun s (c, r) =>
    let d := slotSave r + 3
    if slotJob r == j.id && lo ≤ d && d < hi && s.isHeld c && s.disp c ≤ 1 then s.later (.handlerComplete c) else s) s

/-- A control program that goes on after an `ebreak` (R434). -/
def ControlProgram.release (p : ControlProgram) : ControlProgram := { p with held := none }

/-- A write of 0 into the DISP byte of the record of a held control program resumes it (R434). -/
def State.releasedControl (s : State) (j : Job) (lo hi : Nat) : State :=
  match j.cp.bind fun (p : ControlProgram) => p.held with
  | none => s
  | some a =>
      if lo ≤ a + 3 && a + 3 < hi && s.jobNat j.id (a + 3) 1 = 0 then
        s.modJob j.id fun j => { j with cp := j.cp.map ControlProgram.release }
      else s

/-- MEM_WRITE (R406, R431, R434, R447, R471). -/
def execMemWrite (r : Req) (s : State) : Host.Outcome State Fault Refusal :=
  .next (s.serve r 0x31 fun s =>
    if r.payload.length ≤ 8 || r.payload.length > 65536 then s.respond r 4 []
    else s.onJob r (.memWrite r) fun j s =>
      let va := r.nat 0 8
      let bs := r.payload.drop 8
      if !s.rangeOk j true va bs.length then s.respond r 4 []
      else
        let s := s.jobWrite j.id va bs
        ((s.released j va (va + bs.length)).releasedControl j va (va + bs.length)).respond r 0 [])

/-- CONFIG (R395, R406). -/
def execConfig (r : Req) (s : State) : Host.Outcome State Fault Refusal :=
  .next (s.serve r 0x80 fun s =>
    let p := r.nat 0 1
    if r.payload.length != 8 || p > 7 || r.nat 1 7 > 1 then s.respond r 4 []
    else
      let m : BitVec 8 := 1#8 <<< p
      let on := s.chip.portCredits
      let c : Chip := { s.chip with portCredits := if r.nat 1 7 = 1 then on ||| m else on &&& ~~~ m }
      State.respond { s with chip := c } r 0 [])

/-- CHANNEL_LOST (R411): what the channel still had to be told is discarded; its jobs live on. -/
def execChannelLost (chan : Nat) (s : State) : Host.Outcome State Fault Refusal :=
  .next { s with channels := adel s.channels chan }

end Sys2Proof.Machine
end

