-- ==== Sys2Proof/Machine/Syscall.lean ====
section
/-! DEFINITION. System calls (R224, R386, R409, R410): their arguments and results for a native context and for the control
program; queues, groups, windows and exposed regions with their traffic (R284, R293, R443). -/

namespace Sys2Proof.Machine

/-- A native context waits for the Concierge: it is saved by cause 0xE0, and no counter is waited for yet (R224). -/
def State.inCall (s : State) (c : Nat) : Bool :=
  slotState (s.slot c) == 2 && !s.movedOn c && s.jobNat (slotJob (s.slot c)) (slotSave (s.slot c)) 1 == 0xE0
    && (aget Ctx.zero s.residue (slotSave (s.slot c))).wait.isNone

/-- The job of a caller whose call is in progress. -/
def State.callerJob (s : State) : Caller → Option Job
  | .native c => if s.inCall c then s.jobOf c else none
  | .control n => (s.jobAt n).bind fun j => if j.cp.any (fun p => p.calling && p.waits.isNone) then some j else none

/-- Argument i of a call: s4 + i, or a0 + i (R381, R409). -/
def State.arg (s : State) (c : Caller) (i : Nat) : Word :=
  match c with
  | .native n => s.savedS n (4 + i)
  | .control n => ((s.jobAt n).bind fun j => j.cp.bind fun p => p.x[10 + i]?).getD 0

/-- A control program with a call's results in a0 and a1 (R381). -/
def ControlProgram.result (r0 : Word) (r1 : Option Word) (p : ControlProgram) : ControlProgram :=
  let x := p.x.setIfInBounds 10 r0
  { p with x := match r1 with | some v => x.setIfInBounds 11 v | none => x
           calling := false, waits := none }

/-- Change the control program of the job in a slot. -/
def State.modControl (s : State) (n : Nat) (f : ControlProgram → ControlProgram) : State :=
  match s.jobAt n with
  | none => s
  | some j => s.modJob j.id fun j => { j with cp := j.cp.map f }

/-- The results of a call reach its caller, which goes on (R224, R381, R409). -/
def State.answerCall (s : State) (c : Caller) (r0 : Word) (r1 : Option Word) : State :=
  match c with
  | .native n => s.answerNative n r0 r1
  | .control n => s.modControl n (ControlProgram.result r0 r1)

/-- A call of a caller that waits for one: what the service does with its job. -/
def State.call (s : State) (c : Caller) (k : Job → State → State) : State :=
  match s.callerJob c with
  | none => s
  | some j => k j s

/-- A free value for a result that the call does not have (R409). -/
def State.freeResult (s : State) : Word × State := (Config.freeDouble s.fresh, { s with fresh := s.fresh + 1 })

/-- A call that answers with a status alone. -/
def State.status (s : State) (c : Caller) (n : Nat) : State := s.answerCall c (w64 n) none

/-- A call that answers with a status and a second result; on a failure that one is a free value. -/
def State.statusWith (s : State) (c : Caller) (n : Nat) (v : Word) : State :=
  if n = 0 then s.answerCall c 0 (some v)
  else
    let (f, s) := s.freeResult
    s.answerCall c (w64 n) (some f)

/-- SYSCALL_VERSION (R409). -/
def execSyscallVersion (c : Caller) (s : State) : Host.Outcome State Fault Refusal :=
  .next (s.call c fun _ s => s.answerCall c 0 (some 0x100))

/-- SYSCALL_LAUNCH (R409, R413, R414). -/
def execSyscallLaunch (c : Caller) (s : State) : Host.Outcome State Fault Refusal :=
  .next (s.call c fun j s =>
    let a := (s.arg c 0).toNat
    if a % 64 != 0 || !s.rangeOk j false a 128 then s.statusWith c 4 0
    else
      let (st, h, s) := s.accept j ((s.jobRead j.id a 128).getD [])
      s.statusWith c st h)

/-- A level that contains the caller (R410): for the control program the job. -/
def State.callerWithin (s : State) (c : Caller) (h : Word) : Bool :=
  match c with
  | .native n => s.contains n h
  | .control _ => hKind h == 5

/-- A native context or a control program begins to wait for a counter. -/
def State.callWaits (s : State) (c : Caller) (h : Word) : State :=
  match c with
  | .native n => s.modOwner (savedTag (slotSave (s.slot n))) fun x => { x with wait := some (.counter h) }
  | .control n => s.modControl n fun p => { p with waits := some h }

/-- SYSCALL_WAIT (R409, R410). -/
def execSyscallWait (c : Caller) (s : State) : Host.Outcome State Fault Refusal :=
  .next (s.call c fun j s =>
    let h := s.arg c 0
    match s.jobCounter (jobSlot j.id) h with
    | none => s.status c 5
    | some k =>
        if s.callerWithin c h then s.status c 5
        else if k.status == .running then s.callWaits c h
        else s.status c (waitStatus k.status))

/-- The status of a wait whose counter runs no longer, or is gone with its job. -/
def State.waitOf (s : State) (h : Word) : Nat := match s.counter h with | some k => waitStatus k.status | none => 11

/-- A native context whose wait is over is answered (R410). -/
def State.answerWaitNative (s : State) (c : Nat) : State :=
  let n := savedTag (slotSave (s.slot c))
  match (s.owner n).wait with
  | some (.counter h) =>
      (s.modOwner n fun x => { x with wait := none }).answerNative c (w64 (s.waitOf h)) none
  | _ => s

/-- A control program whose wait is over is answered (R382, R410). -/
def State.answerWaitControl (s : State) (n : Nat) : State :=
  match (s.jobAt n).bind fun j => j.cp.bind fun p => p.waits with
  | some h => s.answerCall (.control n) (w64 (s.waitOf h)) none
  | none => s

/-- SYSCALL_CANCEL (R39, R40, R409). -/
def execSyscallCancel (c : Caller) (s : State) : Host.Outcome State Fault Refusal :=
  .next (s.call c fun j s =>
    let h := s.arg c 0
    match s.jobCounter (jobSlot j.id) h with
    | none => s.status c 5
    | some _ =>
        let (n, s) := s.cancelLevel h
        s.status c (if n = 0 then 0 else 12))

/-- A cause at a `scall` whose context the call has saved (R386): the record, CAUSE and TVAL are the cause's, and the context
restarts at the `scall`. -/
def State.recause (s : State) (c : Nat) (code : Code) (tval : Word) : State :=
  let job := slotJob (s.slot c)
  let base := slotSave (s.slot c)
  let epc := w64 (s.jobNat job (base + 8) 8)
  let r : TrapRecord := ⟨code, 0, 0, s.ctxid c, epc, tval, 0, 0, 0, 0, 0, 0⟩
  let s := (s.jobWrite job base r.bytes).jobWrite job (base + 0x680) (bytes8 (code.setWidth 64) ++ bytes8 epc ++ bytes8 tval
    ++ bytes8 epc)
  s.deliver c code

/-- A cause that a call of the control program raises ends its job as Exit does (R434). -/
def State.controlCause (s : State) (n : Nat) (code : Code) : State :=
  match s.jobAt n with
  | none => s
  | some j => s.endJob j (some (w64 (2 ^ 32 + code.toNat)))

/-- A call that raises a cause (R386). -/
def State.callCause (s : State) (c : Caller) (code : Code) (tval : Word) : State :=
  match c with
  | .native n => s.recause n code tval
  | .control n => s.controlCause n code

/-- The kernel that a function-table entry names, by the entry's address (R374, R386). -/
def Job.tableEntry (j : Job) (e : Nat) : Option Nat :=
  j.image.bind fun g =>
    let ft := g.base 6
    if ft ≤ e && (e - ft) % 16 = 0 then g.entries[(e - ft) / 16]? else none

/-- SYSCALL_TRANSLATE (R386 to R392). -/
def execSyscallTranslate (c : Caller) (s : State) : Host.Outcome State Fault Refusal :=
  .next (s.call c fun j s =>
    let e := s.arg c 0
    match j.tableEntry e.toNat with
    | none => s.callCause c 0x21 e
    | some k =>
        match s.kernelEntry j.id k with
        | (some a, s) => s.answerCall c 0 (some a)
        | (none, s) => s.callCause c 0xE8 e)

/-- OPEN_QUEUE (R284, R409, R410). -/
def execOpenQueue (c : Caller) (s : State) : Host.Outcome State Fault Refusal :=
  .next (s.call c fun j s =>
    let q := (s.arg c 0).toNat
    let p := (s.arg c 1).toNat
    if q > 15 || p > 7 then s.status c 4
    else if (afind? j.queues q).isSome then s.status c 12
    else (s.modJob j.id fun j => { j with queues := aset j.queues q ⟨p, s.arg c 2, [], false⟩ }).status c 0)

/-- CLOSE_QUEUE (R284, R409): the peer is told. -/
def execCloseQueue (c : Caller) (s : State) : Host.Outcome State Fault Refusal :=
  .next (s.call c fun j s =>
    let q := (s.arg c 0).toNat
    if q > 15 then s.status c 4
    else
      match afind? j.queues q with
      | none => s.status c 2
      | some rq =>
          ((s.modJob j.id fun j => { j with queues := adel j.queues q }).emit (.queueClose rq.port rq.peer)).status c 0)

/-- A member of a group from its 16 bytes (R293), when it is well formed. -/
def memberRec (b : List Byte) : Option (Byte × Byte × Byte × Word) :=
  let k := natAt b 0 1
  let ok := natAt b 3 5 = 0
    && (if k = 0 then natAt b 2 1 = 0 && natAt b 8 8 = 0 else k = 1 && natAt b 1 1 = 0 && natAt b 2 1 ≤ 7)
  if ok then
    some (BitVec.ofNat 8 k, BitVec.ofNat 8 (natAt b 1 1), BitVec.ofNat 8 (natAt b 2 1), w64 (natAt b 8 8))
  else none

/-- OPEN_GROUP (R293). -/
def execOpenGroup (c : Caller) (s : State) : Host.Outcome State Fault Refusal :=
  .next (s.call c fun j s =>
    let g := (s.arg c 0).toNat
    let a := (s.arg c 1).toNat
    let n := (s.arg c 2).toNat
    let r := (s.arg c 3).toNat
    if g > 15 then s.status c 4
    else if n = 0 then (s.modJob j.id fun j => { j with groups := adel j.groups g }).status c 0
    else if n = 1 || n > 16384 || r ≥ n || !s.rangeOk j false a (16 * n) then s.status c 4
    else
      match (records ((s.jobRead j.id a (16 * n)).getD []) 16 n).mapM memberRec with
      | none => s.status c 4
      | some ms =>
          let me := ms[r]?.any fun m => m.1 == 0 && m.2.1.toNat == s.dev
          if !me then s.status c 4
          else if (afind? j.groups g).isSome then s.status c 12
          else (s.modJob j.id fun j => { j with groups := aset j.groups g ⟨r, 0, ms⟩ }).status c 0)

/-- Where the Concierge maps window w of a job: the spec gives no address (R443). -/
def windowVa (w : Nat) : Nat := 2 ^ 56 + w * 2 ^ 47

/-- Map the n pages of 64 KiB of a window (R443): SPACE = 0b10, PADDR the window and the offset. -/
def State.mapWindow (s : State) (root w : Nat) : Nat → State
  | 0 => s
  | n + 1 =>
      let e := 2 ^ 63 + 2 ^ 62 + 2 * 2 ^ 60 + w * 2 ^ 48 + n * 65536 + attrW
      (s.mapAt 1 root (windowVa w + n * 65536) e walkLevels).mapWindow root w n

/-- OPEN_WINDOW (R443). -/
def execOpenWindow (c : Caller) (s : State) : Host.Outcome State Fault Refusal :=
  .next (s.call c fun j s =>
    let w := (s.arg c 0).toNat
    let a := (s.arg c 1).toNat
    if w > 255 || !s.rangeOk j false a 40 then s.status c 4
    else
      let b := (s.jobRead j.id a 40).getD []
      let len := natAt b 32 8
      if natAt b 0 1 > 7 || natAt b 1 7 != 0 || natAt b 24 8 % 128 != 0 || len % 128 != 0 || len > 2 ^ 47 then s.status c 4
      else
        let v : Window := ⟨natAt b 0 1, w64 (natAt b 8 8), w64 (natAt b 16 8), natAt b 24 8, len⟩
        ((s.modJob j.id fun j => { j with windows := aset j.windows w v }).mapWindow j.root w
          ((len + 65535) / 65536)).status c 0)

/-- EXPOSE_REGION (R443): the key is a free value of the job plus the number of its regions, so it is used once. -/
def execExposeRegion (c : Caller) (s : State) : Host.Outcome State Fault Refusal :=
  .next (s.call c fun j s =>
    let a := (s.arg c 0).toNat
    let n := (s.arg c 1).toNat
    let m := (s.arg c 2).toNat
    if a % 128 != 0 || n % 128 != 0 || m > 255 || !s.rangeOk j false a n then s.statusWith c 4 0
    else
      let key := Config.remoteKey j.id.toNat + w64 j.exposed.length
      (s.modJob j.id fun j => { j with exposed := j.exposed ++ [⟨key, a, n, m⟩] }).statusWith c 0 key)

/-- SYSCALL_EXIT (R409, R411): the job ends, its code in the final WAIT response; the call does not return. -/
def execSyscallExit (c : Caller) (s : State) : Host.Outcome State Fault Refusal :=
  .next (s.call c fun j s => s.endJob j (some (s.arg c 0)))

/-- The exposed region that an inbound request names, when its port may use it and its bytes lie within (R443). -/
def State.exposedAt (s : State) (port : Nat) (key : Word) (off n : Nat) : Option (Job × Nat) :=
  s.jobs.findSome? fun j =>
    (j.exposed.find? fun e => j.live && e.key == key && (e.ports = 0 || bit e.ports port) && off + n ≤ e.len).map
      fun e => (j, e.base + off)

/-- Write bytes that come in over Ultra Ethernet as WT stores, line by line: a whole line gets a fresh check value and is no
longer poisoned (R443, R460, R462). -/
def State.ingress (s : State) (j : Job) : Nat → Nat → List Byte → State
  | 0, _, _ => s
  | fuel + 1, va, bs =>
      if bs.isEmpty then s else
      let k := 128 - va % 128
      let part := bs.take k
      let s := match s.xlate j.root va with
        | none => s
        | some (pa, _) => if part.length = 128 && s.owns pa then s.homeStoreLine pa part false else s.homeStoreBytes pa part
      s.ingress j fuel (va + k) (bs.drop k)

/-- A line that no party may store to: the job's table maps it executable, or without W (R228, R442). -/
def State.inboundBarred (s : State) (j : Job) (va : Nat) : Bool :=
  match s.xlate j.root va with
  | some (_, p) => p.code || !bit p.leaf 6
  | none => false

/-- UET_INBOUND_WRITE (R443). A write that would store to code or to a read-only page writes nothing and is refused, as one
outside the region is (R228) (DEDUCED, log 56). -/
def execUetInboundWrite (port : Nat) (key : Word) (off : Nat) (bytes : List Byte) (s : State) :
    Host.Outcome State Fault Refusal :=
  match s.exposedAt port key off bytes.length with
  | none => .next (s.emit (.uetRefuse port))
  | some (j, va) =>
      if (linesOf va bytes.length).any (s.inboundBarred j) then .next (s.emit (.uetRefuse port))
      else .next ((s.ingress j (bytes.length / 128 + 2) va bytes).emit (.uetReply port []))

/-- A line that does not leave the device: poisoned, or with a check value that fails (R461, R462). -/
def State.badLine (s : State) (j : Job) (va : Nat) : Bool :=
  match s.xlate j.root va with
  | some (pa, _) => s.poisoned pa || s.badCheck.contains (pa / 128 * 128)
  | none => false

/-- UET_INBOUND_READ (R443, R461, R462): served with untracked loads. -/
def execUetInboundRead (port : Nat) (key : Word) (off : Nat) (len : Nat) (s : State) : Host.Outcome State Fault Refusal :=
  match s.exposedAt port key off len with
  | none => .next (s.emit (.uetRefuse port))
  | some (j, va) =>
      if (linesOf va len).any (s.badLine j) then .next ((s.egress j va len).emit (.uetRefuse port))
      else .next (s.emit (.uetReply port ((s.jobRead j.id va len).getD [])))

/-- UUD_PACKET (R395): dropped and counted. -/
def execUudPacket (_port : Nat) (s : State) : Host.Outcome State Fault Refusal :=
  .next (s.modTele fun t => { t with uuddrop := t.uuddrop + 1 })

/-- A receive queue with what its sender has sent or done (R284). -/
def RecvQueue.take (t : QueueTraffic) (q : RecvQueue) : RecvQueue :=
  match t with
  | .bytes bs => if q.closed then q else { q with bytes := q.bytes ++ bs }
  | .close => { q with closed := true }

/-- RECEIVE_QUEUE_TRAFFIC (R284): on a queue that is not open it goes nowhere. -/
def execReceiveQueueTraffic (job queue : Nat) (t : QueueTraffic) (s : State) : Host.Outcome State Fault Refusal :=
  match s.jobAt job with
  | none => .next s
  | some j =>
      match afind? j.queues queue with
      | none => .next s
      | some q => .next (s.modJob j.id fun j => { j with queues := aset j.queues queue (q.take t) })

end Sys2Proof.Machine
end

