-- ==== Sys2Proof/Machine/Image.lean ====
section
/-! DEFINITION. The application image: its header, sections and directory (R377, R378), its signature (R456), its load
(R379) with the stub area (R384, R385), and the start of the control program (R381, R406). -/

namespace Sys2Proof.Machine

/-- A section descriptor of an image (R377). -/
structure SectionDesc where
  kind : Nat
  align : Nat
  offset : Nat
  len : Nat

/-- Whether a number is a power of two from 64 to 2^31. -/
def alignOk (n : Nat) : Bool := (List.range 26).any fun i => n == 2 ^ (6 + i)

/-- The section descriptors of an image of a size, when they and the header obey R377 (DEDUCED, log 33). -/
def imageSections (b : List Byte) : Option (List SectionDesc) :=
  let size := natAt b 24 8
  let n := natAt b 6 2
  let ds := (List.range n).map fun i =>
    let d := b.drop (64 + 32 * i)
    (⟨natAt d 0 2, natAt d 4 4, natAt d 8 8, natAt d 16 8⟩ : SectionDesc)
  let zero := (List.range n).all fun i => natAt b (64 + 32 * i + 2) 2 = 0 && natAt b (64 + 32 * i + 24) 8 = 0
  let once := fun k => (ds.filter (·.kind == k)).length
  if natAt b 0 4 != 0x4C525A4D || natAt b 4 1 != 1 || n = 0 || n > 16 || natAt b 32 32 != 0 || b.length != size
      || 64 + 32 * n > size || !zero then none
  else if ds.any fun d => d.kind = 0 || d.kind > 8 || !alignOk d.align || d.offset + d.len > size then none
  else if (List.range 9).any (fun k => once k > 1) || once 1 = 0 || once 7 = 0 || once 8 = 0 then none
  else some ds

/-- The bytes of the section of a kind, none when the image has no such section. -/
def sectionBytes (b : List Byte) (ds : List SectionDesc) (k : Nat) : List Byte :=
  match ds.find? (·.kind == k) with
  | some d => (b.drop d.offset).take d.len
  | none => []

/-- A signature as R375 lays it out: its version, its counts, a kind code for each slot in use, zero elsewhere. A reserved kind
code is one that this loader does not support (R383). -/
def sigOk (x : Nat) : Bool :=
  let nres := x / 2 ^ 56 % 16
  let narg := x / 2 ^ 52 % 16
  let kind := fun (i n : Nat) (f : Nat) => if i < n then f != 0 && f != 15 else f == 0
  x / 2 ^ 60 == 1 && nres ≤ 2 && narg ≤ 8 && x / 2 ^ 40 % 4096 == 0
    && (List.range 2).all (fun r => kind r nres (x / 2 ^ (32 + 4 * r) % 16))
    && (List.range 8).all fun a => kind a narg (x / 2 ^ (4 * a) % 16)

/-- A kernel directory entry (R378) with its choice of code (R379): nothing when the directory is invalid. -/
def kernelRec (part lortar native : Nat) (e : List Byte) : Option Kernel :=
  let loff := natAt e 8 8
  let noff := natAt e 16 8
  let absent := 2 ^ 64 - 1
  if !sigOk (natAt e 0 8) || natAt e 24 4 % 4096 != 0 || natAt e 28 4 ≥ 4 || !(loff = absent || (loff % 8 = 0 && loff < lortar))
      || !(noff = absent || noff < native) then none
  else
    some {
      sig := w64 (natAt e 0 8), loff := w64 loff, noff := w64 noff, stack := natAt e 24 4
      flags := BitVec.ofNat 32 (natAt e 28 4), name := (e.drop 32).take 32, native := noff != absent && part == 0x4D34 }

/-- The image with its signature block set to zero (R456). -/
def unsignedImage (b : List Byte) (d : SectionDesc) : List Byte :=
  b.take d.offset ++ zeros d.len ++ b.drop (d.offset + d.len)

/-- The context string of image signatures (R450): M4IMG. -/
def ctxImage : List Byte := [0x4D, 0x34, 0x49, 0x4D, 0x47]

/-- The image digest (R456) when the signature block is valid. -/
def imageDigest (b : List Byte) (d : SectionDesc) : Option (List Byte) :=
  let blk := (b.drop d.offset).take d.len
  let dig := Config.shake256 (unsignedImage b d) 64
  if d.len != 256 || natAt blk 171 85 != 0 then none
  else if Config.ed448Verify (blk.take 57) ctxImage dig ((blk.drop 57).take 114) then some dig
  else none

/-- How the pages of a section are mapped (R377). -/
def sectionAttrs (k : Nat) : Nat :=
  if k = 1 || k = 4 then attrX else if k = 2 || k = 5 || k = 6 then attrW else 0

/-- Place a section at a multiple of its ALIGN, in pages of its own (R379). -/
def State.placeSection (s : State) (id : BitVec 32) (b : List Byte) (d : SectionDesc) : Section × State :=
  match s.jobById id with
  | none => (⟨d.kind, 0, 0⟩, s)
  | some j =>
      let va := roundUp j.nextVa (max d.align 65536)
      let n := (d.len + 65535) / 65536
      let s := s.modJob id fun j => { j with nextVa := va + n * 65536 }
      let s := s.mapFresh j.root va (sectionAttrs d.kind) n
      (⟨d.kind, va, d.len⟩, s.jobWrite id va ((b.drop d.offset).take d.len))

/-- Place the sections of an image but its signature block (R379). -/
def State.placeSections (s : State) (id : BitVec 32) (b : List Byte) : List SectionDesc → List Section × State
  | [] => ([], s)
  | d :: r =>
      if d.kind = 8 then s.placeSections id b r
      else
        let (x, s) := s.placeSection id b d
        let (xs, s) := s.placeSections id b r
        (x :: xs, s)

/-- The line of the stub of a function-table entry at an address, for a stub at another (R385). -/
def stubLine (entry stub : Nat) : List Byte :=
  let imm := (entry + 2 ^ 48 - (stub + 4) % 2 ^ 48) % 2 ^ 48
  let hs := [0x0C80, 0x0C80, 0x1E01, 0xF100, 0x0C80, 0x0C80, 0x0C80, 0x1880] ++ List.replicate 12 0
    ++ [0x000E, 0x0405, 0x03C4, 0x014E, 0x0000, 0x0001, 0x0004, imm % 2 ^ 16, imm / 2 ^ 16 % 2 ^ 16, imm / 2 ^ 32, 0x0150, 0x010F]
  hs.flatMap (leBytes 2)

/-- An entry of the function table as the image holds it: kernel index and SIG (R379), when they agree with the directory. -/
def tableRec (ks : List Kernel) (e : List Byte) : Option Nat :=
  match ks[natAt e 0 8]? with
  | some k => if k.sig == w64 (natAt e 8 8) then some (natAt e 0 8) else none
  | none => none

/-- Build the stub area of an image and write its TARGET fields (R379, R384). -/
def State.bindTable (s : State) (j : Job) (g : Image) : Image × State :=
  let n := g.entries.length
  let (va, s) := s.allocVa (jobSlot j.id) (64 * n) attrX
  let g := { g with stubBase := va }
  let s := (List.range n).foldl (fun s i => s.jobWrite j.id (va + 64 * i) (stubLine (g.base 6 + 16 * i) (va + 64 * i))) s
  let s := ((List.range n).zip g.entries).foldl (fun s (i, k) =>
    let target := match g.kernels[k]? with
      | some q => if q.native then w64 (g.base 4) + q.noff else g.stub i
      | none => g.stub i
    s.jobWrite j.id (g.base 6 + 16 * i) (bytes8 target)) s
  (g, s)

/-- The load of a complete image, its steps in the order of R379: the status, and the state after. The directory is looked at in
step 4, which selects each kernel's code from it (DEDUCED, log 33). -/
def State.loadImage (s : State) (j : Job) (b : List Byte) : Nat × State :=
  match imageSections b with
  | none => (6, s)
  | some ds =>
      let dir := sectionBytes b ds 7
      let tbl := sectionBytes b ds 6
      let cpLen := (sectionBytes b ds 1).length
      let entry := natAt b 16 8
      match ds.find? (·.kind == 8) with
      | none => (6, s)
      | some blk =>
          if dir.length % 64 != 0 || tbl.length % 16 != 0 || entry ≥ cpLen then (6, s)
          else
            match imageDigest b blk with
            | none => (7, s)
            | some dig =>
                if b.length + 40 * 65536 + 64 * (tbl.length / 16) > s.room then (9, s)
                else
                  match (records dir 64 (dir.length / 64)).mapM
                      (kernelRec (natAt b 8 8) (sectionBytes b ds 3).length (sectionBytes b ds 4).length) with
                  | none => (6, s)
                  | some ks =>
                      if ks.any fun k => !k.native && k.loff == BitVec.allOnes 64 then (8, s)
                      else
                        match (records tbl 16 (tbl.length / 16)).mapM (tableRec ks) with
                        | none => (8, s)
                        | some es =>
                            let (xs, s) := s.placeSections j.id b ds
                            let g : Image :=
                              { sections := xs, kernels := ks, entries := es, stubBase := 0
                                cpEntry := w64 (((xs.find? (·.kind == 1)).map (·.base)).getD 0 + entry)
                                digest := dig, owner := ((b.drop blk.offset).take 57) }
                            let (g, s) := s.bindTable j g
                            (0, s.modJob j.id fun j => { j with image := some g, translations := [] })

/-- Bytes put into an image buffer at an offset. -/
def fillBuffer (m : List (Nat × Byte)) (o : Nat) : List Byte → List (Nat × Byte)
  | [] => m
  | b :: r => fillBuffer (aset m o b) (o + 1) r

/-- The first n bytes of an image buffer, when they are all there. -/
def bufferBytes (m : List (Nat × Byte)) (n : Nat) : Option (List Byte) := (List.range n).mapM fun i => afind? m i

/-- The loaded image of a job is gone, with what its buffer held (R408). -/
def Job.unload (j : Job) : Job := { j with buffer := [], image := none, translations := [] }

/-- Whether the job's image may be loaded: its control program does not run (R411), and no launch of it is unfinished
(DEDUCED, log 33). -/
def State.mayLoad (s : State) (j : Job) : Bool :=
  j.cp.isNone && !s.launches.any fun l => l.job == jobSlot j.id && l.ended.isNone && l.serves.isNone

/-- LOAD_IMAGE (R379, R406, R408, R411, R456). -/
def execLoadImage (r : Req) (s : State) : Host.Outcome State Fault Refusal :=
  .next (s.serve r 0x10 fun s =>
    if r.payload.length < 8 then s.respond r 4 []
    else s.onJob r (.loadImage r) fun j s =>
      if !s.mayLoad j then s.respond r 2 []
      else
        let buf := fillBuffer j.buffer (r.nat 0 8) (r.payload.drop 8)
        match bufferBytes buf 64 with
        | none => (s.modJob j.id fun j => { j with buffer := buf }).respond r 0 []
        | some h =>
            let size := natAt h 24 8
            if size ≥ 64 && buf.length < size then (s.modJob j.id fun j => { j with buffer := buf }).respond r 0 []
            else
              let s := s.modJob j.id Job.unload
              match (if buf.length = size then bufferBytes buf size else none) with
              | none => s.respond r 6 []
              | some b =>
                  let (st, s) := s.loadImage j b
                  s.respond r st [])

/-- A control program at its entry (R381, R406) (DESIGN CHOICE, log 1). -/
def ControlProgram.fresh (pc : Word) : ControlProgram where
  x := Vector.replicate 32 0
  f := Vector.replicate 32 0
  fcsr := 0
  pc := pc
  running := true
  held := none
  calling := false
  waits := none

/-- A control program takes a service core: of cores 1 to 3 of the dies, the first with the fewest (R3, R381) (DESIGN CHOICE,
log 1). -/
def State.seatControl (s : State) (slot : Nat) : State :=
  let seats := (List.range Config.dies).flatMap fun d => (List.range 3).map fun i => (d, i + 1)
  let load := fun (x : Nat × Nat) => ((s.die x.1).service.filter fun y => y.1 == x.2).length
  match seats.find? fun x => seats.all fun y => load x ≤ load y with
  | none => s
  | some (d, i) => s.modDie d fun x => { x with service := x.service ++ [(i, slot)] }

/-- START (R406). -/
def execStart (r : Req) (s : State) : Host.Outcome State Fault Refusal :=
  .next (s.serve r 0x11 fun s =>
    if r.payload.length != 0 then s.respond r 4 []
    else s.onJob r (.start r) fun j s =>
      match j.image with
      | none => s.respond r 2 []
      | some g =>
          if j.cp.isSome then s.respond r 2 []
          else
            let s : State := { s with reserved := adel s.reserved (jobSlot j.id) }
            let s := s.unseatControl (jobSlot j.id) |>.seatControl (jobSlot j.id)
            (s.modJob j.id fun j => { j with cp := some (ControlProgram.fresh g.cpEntry) }).respond r 0 [])

end Sys2Proof.Machine
end

