-- ==== Sys2Proof/Machine/VecMove.lean ====
section
/-! DEFINITION. Moves, permutations, reductions, conversions, Pilgrim bits, the cross-lane queue and detaching: MAJ 0x18
and 0x19 (R256 to R272, R90). -/

namespace Sys2Proof.Machine

/-- Scales follow a move whose tag is scaled (R256, R262). -/
def State.giveScales (s : State) (go : Bool) (tag : Tag) (vd va g : Nat) : State :=
  if go && tagScaled tag && vd != va then s.modMyStrip fun t => t.copyScales vd va g else s

/-- `vmv` (R256). -/
def State.vmove (s : State) (o : FormV) : R PUnit :=
  fromE (s.vformat o okAny) s fun fmt =>
    let w := s.myStrip.ewB
    let g := s.myStrip.grp
    let b := s.second o w
    s.vgroups (b.regs.map fun v => (v, g)) (some (o.vd.toNat, g)) fun s =>
      let t := s.myStrip
      let src := b.regs.head?
      match (match src with | some v => t.groupTag v g | none => some fmt) with
      | none => .trap 0x05 0 s
      | some own =>
          let tag := if o.fv == 1 then fmt else own
          (s.mapLanes (s.positions o) b.regs o.vd.toNat w g tag fun t p => (b.at t w p, 0)).andThen fun s =>
            R.done (match src with | some v => s.giveScales t.begins tag o.vd.toNat v g | none => s)

/-- `vmv` (R256). -/
def execVmv (g : Gates) (o : FormV) (s : State) : Host.Outcome State Fault Refusal :=
  issue (.vmv g o) s fun s => s.vmove o

/-- `vid` (R257). -/
def execVid (g : Gates) (o : FormV) (s : State) : Host.Outcome State Fault Refusal :=
  issue (.vid g o) s fun s =>
    fromE (s.vformat o okInt) s fun tag =>
      let w := s.myStrip.ewB
      let gr := s.myStrip.grp
      s.vgroups [] (some (o.vd.toNat, gr)) fun s =>
        s.mapLanes (s.positions o) [] o.vd.toNat w gr tag fun t p => ((t.stripb + p) % 2 ^ (8 * w), 0)

/-- A strip-wide permutation of VA (R258 to R260, R262): each position written with the element it takes, or with 0; `vb`
is an index group. -/
def State.permute (s : State) (o : FormV) (vb : Option Nat) (moves : State → List (Nat × Option Nat)) : R PUnit :=
  fromE (s.vformat o okAny) s fun _ =>
    let w := s.myStrip.ewB
    let g := s.myStrip.grp
    let va := o.va.toNat
    s.vgroups ((va :: vb.toList).map fun v => (v, g)) (some (o.vd.toNat, g)) fun s =>
      let t := s.myStrip
      let idxOk := match vb with
        | none => true
        | some v => match t.groupTag v g with
          | none => false
          | some i => isIntFmt i.toNat && fmtBits i.toNat == 8 * w
      match t.groupTag va g with
      | none => .trap 0x05 0 s
      | some tag =>
          if !idxOk then .trap 0x05 0 s
          else
            let ms := (moves s).filter fun m => !t.isDetached m.1
            if (ms.any fun m => match m.2 with | some i => t.elBad va w i | none => false)
                || t.poisonedAt vb.toList w (t.wideActive o.msk o.mreg) then .trap 0xA0 0 s
            else
              let xs := ms.map fun m => (m.1, match m.2 with | some i => t.el va w i | none => 0)
              R.done ((s.putLanes o.vd.toNat w g tag xs 0).giveScales t.begins tag o.vd.toNat va g)

/-- The selected positions of a compress or expand, counted (R258). -/
def selected (o : FormV) (s : State) : List (Nat × Nat) :=
  let sel := s.myStrip.wideActive o.msk o.mreg
  (List.range sel.length).zip sel

/-- `vcompress` (R258). -/
def execVcompress (g : Gates) (o : FormV) (s : State) : Host.Outcome State Fault Refusal :=
  issue (.vcompress g o) s fun s => s.permute o none fun s => (selected o s).map fun (j, p) => (j, some p)
/-- `vexpand` (R258). -/
def execVexpand (g : Gates) (o : FormV) (s : State) : Host.Outcome State Fault Refusal :=
  issue (.vexpand g o) s fun s => s.permute o none fun s => (selected o s).map fun (j, p) => (p, some j)

/-- The offset of a slide (R259). -/
def State.slideBy (s : State) (o : FormV) : Nat := if o.im == 1 then o.sb.toNat else (s.snapS o.sb).toNat

/-- `vslideup` (R259). -/
def execVslideup (g : Gates) (o : FormV) (s : State) : Host.Outcome State Fault Refusal :=
  issue (.vslideup g o) s fun s => s.permute o none fun s =>
    let n := s.slideBy o
    (s.myStrip.wideActive o.msk o.mreg).filterMap fun p => if n ≤ p then some (p, some (p - n)) else none
/-- `vslidedn` (R259). -/
def execVslidedn (g : Gates) (o : FormV) (s : State) : Host.Outcome State Fault Refusal :=
  issue (.vslidedn g o) s fun s => s.permute o none fun s =>
    let n := s.slideBy o
    (s.myStrip.wideActive o.msk o.mreg).map fun p => (p, if p + n < s.myStrip.vl then some (p + n) else none)
/-- `vgather` (R260). -/
def execVgather (g : Gates) (o : FormV) (s : State) : Host.Outcome State Fault Refusal :=
  issue (.vgather g o) s fun s => s.permute o (some o.vb.toNat) fun s =>
    let t := s.myStrip
    (t.wideActive o.msk o.mreg).map fun p =>
      let i := t.el o.vb.toNat t.ewB p
      (p, if i < t.vl then some i else none)

/-- `vmerge` (R261): every position below VL that is not detached. -/
def execVmerge (g : Gates) (o : FormV) (s : State) : Host.Outcome State Fault Refusal :=
  issue (.vmerge g o) s fun s =>
    fromE (s.vformat o okAny) s fun _ =>
      let w := s.myStrip.ewB
      let gr := s.myStrip.grp
      let va := o.va.toNat
      let b := s.second o w
      s.vgroups ((va :: b.regs).map fun v => (v, gr)) (some (o.vd.toNat, gr)) fun s =>
        let t := s.myStrip
        match t.groupTag va gr with
        | none => .trap 0x05 0 s
        | some tag =>
            if !s.tagsAre b.regs tag then .trap 0x05 0 s
            else
              let ps := t.active 0 0
              let takes := ps.filter fun p => t.mbit o.mreg p
              let keeps := ps.filter fun p => !t.mbit o.mreg p
              if t.poisonedAt b.regs w takes || t.poisonedAt [va] w keeps then .trap 0xA0 0 s
              else
                (s.mapLanes ps [] o.vd.toNat w gr tag fun t p =>
                  (if t.mbit o.mreg p then b.at t w p else t.el va w p, 0)).andThen fun s =>
                    R.done (s.giveScales t.begins tag o.vd.toNat va gr)

/-- A reduction into position 0 (R263): from the initial value and the active elements with their positions. -/
def State.reduction (s : State) (o : FormV) (ok : Nat → Bool → Bool)
    (f : Nat → Nat → RMode → Bool → Nat → List (Nat × Nat) → Nat × Flags) : R PUnit :=
  fromE (s.vformat o ok) s fun tag =>
    let w := s.myStrip.ewB
    let g := s.myStrip.grp
    let va := o.va.toNat
    let mode := arithMode o.rnd s.fctlOf
    let ftz := s.ftz
    let init := (s.snapS o.sb).toNat % 2 ^ (8 * w)
    s.vgroups [(va, g)] (some (o.vd.toNat, g)) fun s =>
      if !s.tagsAre [va] tag then .trap 0x05 0 s
      else
        let t := s.myStrip
        let ps := t.wideActive o.msk o.mreg
        if t.poisonedAt [va] w ps then .trap 0xA0 0 s
        else
          let (x, fl) := f (tagFmt tag) (8 * w) mode ftz init (ps.map fun p => (p, t.el va w p))
          R.done (if t.begins then s.putLanes o.vd.toNat w g tag [(0, x)] fl else s.putLanes o.vd.toNat w g tag [] 0)

/-- The integer sum (R263). -/
def redSum (_ n : Nat) (_ : RMode) (_ : Bool) (init : Nat) (xs : List (Nat × Nat)) : Nat × Flags :=
  (xs.foldl (fun a x => (a + x.2) % 2 ^ n) init, 0)
/-- The result of a floating-point reduction without an active element: the initial value rounded into F, flushed under FTZ,
a NaN canonical (R83, R87, R263). -/
def redInit (f : Nat) (m : RMode) (z : Bool) (init : Nat) : Nat × Flags :=
  let v := decodeF f init
  let (x, fl) := flushIn z v
  finish f m z x (fl ||| sigFlag v)
/-- Minimum or maximum (R251, R263). -/
def redMinMax (isMax : Bool) (f n : Nat) (m : RMode) (z : Bool) (init : Nat) (xs : List (Nat × Nat)) : Nat × Flags :=
  if isIntFmt f then
    (xs.foldl (fun a x => if isMax then ivMax (isSignedFmt f) n a x.2 else ivMin (isSignedFmt f) n a x.2) init, 0)
  else if xs.isEmpty then redInit f m z init
  else
    xs.foldl (fun (a : Nat × Flags) x => let (r, e) := fminmax isMax f z a.1 x.2; (r, a.2 ||| e)) (init, 0)
/-- The ordered sum (R90). -/
def redOrdered (f _ : Nat) (m : RMode) (z : Bool) (init : Nat) (xs : List (Nat × Nat)) : Nat × Flags :=
  if xs.isEmpty then redInit f m z init
  else xs.foldl (fun (a : Nat × Flags) x => let (r, e) := farith .add f m z a.1 x.2 0; (r, a.2 ||| e)) (init, 0)

/-- One level of the tree: neighbours combined, an absent element passing its partner through (R90). -/
def treeLevel (f : Nat) (m : RMode) (z : Bool) : List (Option Nat) → List (Option Nat) × Flags
  | a :: b :: r =>
      let (rest, fl) := treeLevel f m z r
      (match a, b with
        | some x, some y => let (v, e) := farith .add f m z x y 0; (some v :: rest, fl ||| e)
        | some x, none => (some x :: rest, fl)
        | none, y => (y :: rest, fl))
  | l => (l, 0)
/-- The root of the tree after a number of levels (R90). -/
def treeRoot (f : Nat) (m : RMode) (z : Bool) : Nat → List (Option Nat) → Option Nat × Flags
  | 0, l => (l.headD none, 0)
  | n + 1, l =>
      let (l, fl) := treeLevel f m z l
      let (r, e) := treeRoot f m z n l
      (r, fl ||| e)
/-- The tree sum: the root is added to the initial value last (R90). -/
def redTree (f _ : Nat) (m : RMode) (z : Bool) (init : Nat) (xs : List (Nat × Nat)) : Nat × Flags :=
  let n := xs.foldl (fun n x => max n (x.1 + 1)) 0
  let leaves := (List.range n).map fun p => (xs.find? (·.1 == p)).map (·.2)
  match treeRoot f m z 13 leaves with
  | (none, _) => redInit f m z init
  | (some r, fl) => let (x, e) := farith .add f m z init r 0; (x, fl ||| e)

/-- `vredsum` (R263). -/
def execVredsum (g : Gates) (o : FormV) (s : State) : Host.Outcome State Fault Refusal :=
  issue (.vredsum g o) s fun s => s.reduction o okInt redSum
/-- `vfredo` (R90, R263). -/
def execVfredo (g : Gates) (o : FormV) (s : State) : Host.Outcome State Fault Refusal :=
  issue (.vfredo g o) s fun s => s.reduction o okWide redOrdered
/-- `vfredt` (R90, R263). -/
def execVfredt (g : Gates) (o : FormV) (s : State) : Host.Outcome State Fault Refusal :=
  issue (.vfredt g o) s fun s => s.reduction o okWide redTree
/-- `vredmin` (R263). -/
def execVredmin (g : Gates) (o : FormV) (s : State) : Host.Outcome State Fault Refusal :=
  issue (.vredmin g o) s fun s => s.reduction o okIntWide (redMinMax false)
/-- `vredmax` (R263). -/
def execVredmax (g : Gates) (o : FormV) (s : State) : Host.Outcome State Fault Refusal :=
  issue (.vredmax g o) s fun s => s.reduction o okIntWide (redMinMax true)

/-- The stream operand of `vcvt` and `vpilgrim`: bits 31:0 of Read(SB), or the immediate sign-extended (R264). -/
def State.streamOperand (s : State) (o : FormV) : BitVec 32 :=
  if o.im == 1 then o.sb.signExtend 32 else (s.snapS o.sb).setWidth 32

/-- The stochastic draw of a position (R82, R264). -/
def State.draw (s : State) (o : FormV) (p : Nat) : Nat :=
  (pilgrim s.seedOf (s.streamOperand o) (BitVec.ofNat 32 (s.myStrip.stripb + p))).toNat

/-- `vcvt` (R235, R264). -/
def State.vconvert (s : State) (o : FormV) : R PUnit :=
  let d : Tag := o.sc ++ o.fmt
  let vd := o.vd.toNat
  let va := o.va.toNat
  ((s.takeGroups [va]).andThen fun s =>
    let t := s.myStrip
    let src := (t.reg va).tag
    let sf := tagFmt src
    let df := tagFmt d
    if !convertible sf df || sf == 15 || df == 15 then .trap 0x05 0 s
    else
      let ws := fmtBits sf / 8
      let wd := fmtBits df / 8
      if t.region.isSome && ws != wd then .trap 0x10 0 s
      else if max ws wd != t.ewB then .trap 0x0F 0 s
      else
        let gs := max 1 (t.grp * ws / t.ewB)
        let gd := max 1 (t.grp * wd / t.ewB)
        if vd % gd != 0 || va % gs != 0 then .trap 0x0C 0 s
        else if s.myCtx.groupBound t.stripb vd gd then .trap 0x0D 0 s
        else if t.groupTag va gs != some src then .trap 0x05 0 s
        else
          let ps := if ws == wd then s.positions o else t.wideActive o.msk o.mreg
          if t.poisonedAt [va] ws ps then .trap 0xA0 0 s
          else
            let mode := effMode o.rnd s.fctlOf
            let sat := effSat o.satm s.fctlOf
            let rs := ps.map fun p =>
              (p, convert sf (if tagScaled src then some (t.scaleAt va ws p) else none) df
                (if tagScaled d then some (t.scaleAt vd wd p) else none) mode (s.draw o p) sat s.ftz (t.el va ws p))
            R.done (s.putLanes vd wd gd d (rs.map fun r => (r.1, r.2.1)) (rs.foldl (fun a r => a ||| r.2.2) 0))).orBack s

/-- `vcvt` (R264). -/
def execVcvt (g : Gates) (o : FormV) (s : State) : Host.Outcome State Fault Refusal :=
  issue (.vcvt g o) s fun s => s.vconvert o

/-- Formats `vunpk` writes (R265). -/
def okUnpack (f : Nat) (sc : Bool) : Bool := (f == 11 || isWideFmt f) && !sc

/-- `vunpk` (R265). -/
def State.vunpack (s : State) (o : FormV) : R PUnit :=
  fromE (s.vformat o okUnpack) s fun d =>
    let df := tagFmt d
    let wd := s.myStrip.ewB
    let gd := s.myStrip.grp
    let gs := max 1 (gd / wd)
    let va := o.va.toNat
    let vd := o.vd.toNat
    s.vgroups [(va, gs)] (some (vd, gd)) fun s =>
      let t := s.myStrip
      let src := (t.reg va).tag
      if tagFmt src != 15 || t.groupTag va gs != some src then .trap 0x05 0 s
      else
        let ps := t.wideActive o.msk o.mreg
        if t.poisonedAt [va] 1 ps then .trap 0xA0 0 s
        else
          let mode := effMode o.rnd s.fctlOf
          let sat := effSat o.satm s.fctlOf
          let code := fun p => t.el va 1 p / (if o.sb = 0 then 1 else 16) % 16
          let scale := fun p => if tagScaled src && df != 11 then some (t.scaleAt va 1 p) else none
          let rs := ps.map fun p => (p, convert 15 (scale p) df none mode 0 sat (s.ftz && df != 11) (code p))
          let tag : Tag := if df = 11 && tagScaled src then d ||| 32 else d
          let s := s.putLanes vd wd gd tag (rs.map fun r => (r.1, r.2.1)) (rs.foldl (fun a r => a ||| r.2.2) 0)
          R.done (s.giveScales t.begins tag vd va gs)

/-- `vunpk` (R265). -/
def execVunpk (g : Gates) (o : FormV) (s : State) : Host.Outcome State Fault Refusal :=
  issue (.vunpk g o) s fun s => s.vunpack o

/-- n32 (R266). -/
def okN32 (f : Nat) (sc : Bool) : Bool := f == 6 && !sc

/-- `vpilgrim` (R266). -/
def execVpilgrim (g : Gates) (o : FormV) (s : State) : Host.Outcome State Fault Refusal :=
  issue (.vpilgrim g o) s fun s =>
    fromE (s.vformat o okN32) s fun tag =>
      let gr := s.myStrip.grp
      s.vgroups [] (some (o.vd.toNat, gr)) fun s =>
        s.mapLanes (s.positions o) [] o.vd.toNat 4 gr tag fun _ p => (s.draw o p, 0)

/-- The value the first lane of a strip receives at its k-th `vqpop` (R28, R267, R270). -/
def State.firstValue (s : State) (o : FormV) : R Word :=
  let t := s.myStrip
  if t.stripb = 0 then (if t.snapBad o.sb then .trap 0xA0 0 s else .ok (s.snapS o.sb) s)
  else
    match s.myCtx.run.bind fun r => r.carries.find? (·.stripb == t.stripb) with
    | none => .stall (.carry t.stripb t.pops) s
    | some c =>
        match c.values[t.pops]? with
        | some v => .ok v s
        | none => if c.ended then .trap 0x10 0 s else .stall (.carry t.stripb t.pops) s

/-- The lane of a serial region that begins has its element written at the `vqpop`, if it is active (R267, R268). -/
def State.popLane (s : State) (o : FormV) (tag : Tag) : R PUnit :=
  let t := s.myStrip
  let v := match t.region with | some r => r.recv | none => 0
  s.mapLanes (s.positions o) [] o.vd.toNat t.ewB t.grp tag fun t _ => (v.toNat % 2 ^ (8 * t.ewB), 0)

/-- The first lane of a serial region (R267, R268): the lane at VSTART receives the value kept, or the value of the strip's
first lane (DEDUCED, log 19). -/
def State.beginRegion (s : State) (o : FormV) (tag : Tag) : R PUnit :=
  let start := fun (v : Word) (s : State) =>
    (State.modMyStrip s fun t =>
      { t with
        region := some ⟨s.cur.pc, t.vstart, v, t.vl ≤ t.vstart, t.v, t.m, t.snap, t.snapP, t.flags, [s.cur.pc]⟩
        recv := none }).popLane o tag 
  match s.myStrip.recv with
  | some v => start v s
  | none => (s.firstValue o).bind start

/-- The checks of a `vqpop` (R72, R232, R267, R272). -/
def State.popChecks (s : State) (o : FormV) (k : Tag → State → R PUnit) : R PUnit :=
  if s.myStrip.detached != 0 then .trap 0x10 0 s
  else fromE (s.vformat o okAny) s fun tag =>
    if tagFmt tag = 15 then .trap 0x05 0 s
    else s.vgroups [] (some (o.vd.toNat, s.myStrip.grp)) fun s => k tag s

/-- `vqpop` (R267, R268): in a region it begins the next lane at the same address; anywhere else in a region it raises
cause 0x10. Its gates act once for the strip. -/
def execVqpop (g : Gates) (o : FormV) (s : State) : Host.Outcome State Fault Refusal :=
  .next (State.settle
    (match formCause (.vqpop g o) false s.cur.party.place with
      | some c => .trap c 0 s
      | none =>
          match s.myRegion with
          | some r =>
              if r.pop == s.cur.pc then
                s.posting (s.duePost g) false fun _ s => s.popChecks o fun tag s => s.popLane o tag
              else .trap 0x10 0 s
          | none => (s.waitGate g).andThen fun s =>
              s.posting (s.lanePost g s.myStrip.vstart) false fun _ s => s.popChecks o fun tag s => s.beginRegion o tag))

/-- One more value for the first lane of the strip that follows (R28). -/
def BlockRun.pushCarry (b : Nat) (v : Word) (r : BlockRun) : BlockRun :=
  if r.carries.any (·.stripb == b) then
    { r with carries := r.carries.map fun c => if c.stripb == b then { c with values := c.values ++ [v] } else c }
  else { r with carries := r.carries ++ [⟨b, [v], false⟩] }

/-- The region goes on with its next lane, or ends (R267, R268). -/
def State.endLaneRegion (s : State) (r : Region) (v : Word) : R PUnit :=
  let t := s.myStrip
  if r.lane + 1 < t.vl then
    let s := s.modMyStrip fun t =>
      { t with region := some { r with
          lane := r.lane + 1, recv := v, inactive := false, undoV := t.v, undoM := t.m, undoS := t.snap,
          undoP := t.snapP, undoFlags := t.flags } }
    R.done (State.refetch { s with cur := { s.cur with next := r.pop } })
  else
    let s := s.modCtx s.me fun x => { x with run := x.run.map (BlockRun.pushCarry (t.stripb + t.vl) v) }
    R.done (s.modMyStrip fun t =>
      { t with region := none, pops := t.pops + 1, pushes := t.pushes + 1, vstart := 0, recv := none, posted := [] })

/-- `vqpush` (R72, R267, R270, R272). -/
def execVqpush (g : Gates) (o : FormV) (s : State) : Host.Outcome State Fault Refusal :=
  issue (.vqpush g o) s fun s =>
    match s.myRegion with
    | none => .trap 0x10 0 s
    | some r =>
        let w := s.myStrip.ewB
        let va := o.va.toNat
        let gr := s.myStrip.grp
        s.vgroups [(va, gr)] none fun s =>
          let t := s.myStrip
          if (t.groupTag va gr).all (tagFmt · == 15) then .trap 0x05 0 s
          else
            let ps := s.positions o
            if t.poisonedAt [va] w ps then .trap 0xA0 0 s
            else s.endLaneRegion (t.region.getD r) (if ps.isEmpty then r.recv else w64 (t.el va w r.lane))

/-- `vdetach` (R30, R271): start addresses are checked in the lane, at its first issue (R176). -/
def execVdetach (g : Gates) (o : FormV) (s : State) : Host.Outcome State Fault Refusal :=
  issue (.vdetach g o) s fun s =>
    let w := s.myStrip.ewB
    let va := o.va.toNat
    let gr := s.myStrip.grp
    s.vgroups [(va, gr)] none fun s =>
      let t := s.myStrip
      match t.groupTag va gr with
      | none => .trap 0x05 0 s
      | some tag =>
          if !isIntFmt tag.toNat then .trap 0x05 0 s
          else if t.detached != 0 then .trap 0x10 0 s
          else
            let ps := s.positions o
            if t.poisonedAt [va] w ps then .trap 0xA0 0 s
            else
              let base := s.snapS o.sb
              R.done (s.modMyStrip fun t =>
                { t with
                  detached := BitVec.ofNat 8192 (ps.foldl (fun m p => m + 2 ^ p) 0)
                  lanePcs := ps.map fun p => (p, base + w64 (t.el va w p))
                  laneLast := t.vl
                  laneWait := []
                  vstart := 0 })

end Sys2Proof.Machine
end

