-- ==== Sys2Proof/Machine/Vlc.lean ====
section
/-! DEFINITION. The vector loop context: dispatch of strips and their heads (R22 to R25, R169, R243), the ends of strips
and blocks (R25 to R29, R173, R244, R285), vector-side control (R245 to R248), and the waits that end (R16, R29). -/

namespace Sys2Proof.Machine

/-- The lane groups a VLC holds: its strips in flight (R23); a strip back from a save area holds none until it is dispatched
again (R35). -/
def Ctx.groupsHeld (x : Ctx) : Nat := (x.strips.filter (!·.resting)).length

/-- The lane groups of a core that are taken (R23). -/
def State.groupsTaken (s : State) (core : Nat) : Nat :=
  ((List.range 4).map fun i => (s.ctx (4 * core + i)).groupsHeld).sum

/-- The block has a strip to dispatch and its VLC may dispatch one (R22, R23, R35); no strip follows one whose head is still
to be evaluated. -/
def Ctx.mayDispatch (x : Ctx) (r : BlockRun) : Bool :=
  x.groupsHeld < Config.laneGroups && (x.strips.any (·.resting) ||
    (r.headWait.isNone && r.next < r.entry.n && !x.strips.any (·.headDue)))

/-- A VLC that wants a lane group (R22, R23): a block of no elements needs none. -/
def State.wantsGroup (s : State) (c : Nat) : Bool :=
  let x := s.ctx c
  slotState (s.slot c) == 1 && (match x.run with
    | none => x.queue.head?.any (·.n != 0)
    | some r => x.mayDispatch r)

/-- VLC `a` is awarded a lane group before VLC `b` (R24): one that holds none, then the one that has waited longer, then the
lower context number. -/
def State.before (s : State) (a b : Nat) : Bool :=
  let h := fun c => (s.ctx c).groupsHeld != 0
  let w := fun c => (s.ctx c).wants
  if h a != h b then !h a else if w a != w b then w a < w b else a < b

/-- A lane group is free, and a VLC that wants one is awarded it before any other of the core (R23, R24). -/
def State.awarded (s : State) (c : Nat) : Bool :=
  let core := coreOf c
  s.wantsGroup c && s.groupsTaken core < Config.laneGroups &&
    (List.range 4).all fun i => !s.wantsGroup (4 * core + i) || 4 * core + i == c || s.before c (4 * core + i)

/-- A block that begins to run (R19, R22). -/
def BlockRun.start (e : BlockEntry) : BlockRun :=
  { entry := e, next := 0, flags := 0, carries := [], lastB := none, lastVl := 0, lastVtype := 0
    lastV := Vector.replicate 32 VReg.zero, lastM := Vector.replicate 16 MReg.zero, headWait := none, stores := [] }

/-- The oldest entry of the queue begins to run when no block does (R17, R19). -/
def Ctx.startBlock (x : Ctx) : Ctx :=
  match x.run, x.queue with
  | none, e :: q => { x with run := some (BlockRun.start e), queue := q }
  | _, _ => x

/-- A strip as it is dispatched: block-entry registers, the block's snapshot, its head still to be evaluated (R22, R25). -/
def BlockRun.strip (x : Ctx) (r : BlockRun) : Strip :=
  { Strip.zero with stripb := r.next, pc := r.entry.start, snap := r.entry.snap, snapP := r.entry.snapP, v := x.v, m := x.m, headDue := true }

/-- A strip back from a save area receives a lane group (R35). -/
def Strip.redispatch (b : Nat) (t : Strip) : Strip := if t.stripb = b then { t with resting := false } else t

/-- Dispatch a strip of the block that runs to a free lane group (R22, R23): the saved strips in ascending STRIPB before any new
one (R35) (DEDUCED, log 25). -/
def Ctx.dispatch (now : Nat) (x : Ctx) : Ctx :=
  match x.run with
  | none => x
  | some r =>
      if !x.mayDispatch r then x
      else
        match x.ordered.find? (·.resting) with
        | some t => { x with strips := x.strips.map (Strip.redispatch t.stripb), wants := now }
        | none => { x with strips := x.strips ++ [BlockRun.strip x r], wants := now }

/-- STRIP_DISPATCH (R17, R22 to R24, R35): a queued block begins to run when none does, and a strip is dispatched when the VLC is
awarded a lane group. -/
def execStripDispatch (ctx : Nat) (s : State) : Host.Outcome State Fault Refusal :=
  if slotState (s.slot ctx) != 1 then .next s
  else
    let s := s.modCtx ctx Ctx.startBlock
    .next (if s.awarded ctx then s.modCtx ctx (Ctx.dispatch s.now) else s)

/-- The wait for a watermark is over: the word is read again at the next dispatch (R169). -/
def Ctx.reread (now : Nat) (x : Ctx) : Ctx :=
  { x with run := x.run.map fun r => { r with headWait := none }, wants := now }

/-- WATERMARK_RECHECK (R169). -/
def execWatermarkRecheck (ctx : Nat) (s : State) : Host.Outcome State Fault Refusal :=
  .next (s.modCtx ctx (Ctx.reread s.now))

/-- The strip head sets VTYPE and VL of its strip, and STRIPB of the next one (R22, R49) (DEDUCED, log 25). -/
def State.setHead (s : State) (type : BitVec 10) (vl : Nat) : State :=
  let b := s.myStrip.stripb
  let s := s.modMyStrip fun t => { t with vtype := type, vl := vl, headDue := false }
  s.modCtx s.me fun x => { x with run := x.run.map fun r => { r with next := b + vl }, wants := s.now }

/-- The issuing strip is at its block's start address with its head still to be evaluated (R22, R243). -/
def State.atHead (s : State) : Bool :=
  s.myStrip.headDue && (match s.myCtx.run with | some r => r.entry.start == s.cur.pc | none => false)

/-- The elements that remain for a strip with a VTYPE (R22). -/
def State.remaining (s : State) (type : BitVec 10) : Nat :=
  min (((s.myCtx.run.map (·.entry.n)).getD 0) - s.myStrip.stripb) (vlmax type)

/-- `setvl` (R22, R243): the head of a strip that has just been dispatched; anywhere else cause 0x09. -/
def execSetvl (g : Gates) (o : FormH) (s : State) : Host.Outcome State Fault Refusal :=
  issue (.setvl g o) s fun s =>
    if s.atHead then R.done (s.setHead o.type (s.remaining o.type)) else .trap 0x09 0 s

/-- A strip is taken back: its head waits for the watermark to pass a value, and the lane group is free (R22, R169)
(DEDUCED, log 25). -/
def Ctx.retract (b : Nat) (w : WaitCond) (x : Ctx) : Ctx :=
  { x with
    strips := x.strips.filter (·.stripb != b)
    run := x.run.map fun r => { r with headWait := some w } }

/-- The scope of the acquire of a watermark's read: 5 in domain space, else 4 (R169). -/
def Page.watermarkScope (p : Page) : Nat := if p.space = 1 then 5 else 4

/-- `setvl.w` (R22, R169, R243). -/
def execSetvlW (g : Gates) (o : FormH) (s : State) : Host.Outcome State Fault Refusal :=
  issue (.setvlW g o) s fun s =>
    if !s.atHead then .trap 0x09 0 s
    else
      let a := s.snapS o.sx
      (s.readElem s.me { rowElem a 8 .load 3 with scopes := [4] }).bind fun w s =>
        (s.pageOf s.me a.toNat false).bind fun (p, _) s =>
          match p with
          | none => R.done s
          | some p =>
              let b := s.myStrip.stripb
              let s := s.acquire (coreOf s.me) p.watermarkScope
              if w ≤ b then R.done (s.modCtx s.me (Ctx.retract b (.watermark (p.paddr s a.toNat) w)))
              else R.done (s.setHead o.type (min (s.remaining o.type) (w - b)))

/-- The strip before a strip has ended with the values it pushed (R28, R270). -/
def BlockRun.endCarry (b : Nat) (r : BlockRun) : BlockRun :=
  if r.carries.any (·.stripb == b) then
    { r with carries := r.carries.map fun c => if c.stripb == b then { c with ended := true } else c }
  else { r with carries := r.carries ++ [⟨b, [], true⟩] }

/-- An ended strip's flags join the block's, and its registers are kept while no ended strip has a higher STRIPB (R25,
R61). -/
def BlockRun.ended (t : Strip) (r : BlockRun) : BlockRun :=
  let r := BlockRun.endCarry (t.stripb + t.vl) { r with flags := r.flags ||| t.flags }
  if r.lastB.all (· ≤ t.stripb) then
    { r with lastB := some t.stripb, lastVl := t.vl, lastVtype := t.vtype, lastV := t.v, lastM := t.m }
  else r

/-- A strip's attachment to a stream ends (R285). -/
def Stream.leave (b : Nat) (st : Stream) : Stream := { st with attached := st.attached.filter (· != b) }

/-- A strip ends (R244, R285); a VLC that held all the lane groups it may hold wants one again (R23). -/
def Ctx.endStrip (now : Nat) (t : Strip) (x : Ctx) : Ctx :=
  { x with
    wants := if x.groupsHeld < Config.laneGroups then x.wants else now
    strips := x.strips.filter (·.stripb != t.stripb)
    streams := x.streams.map (Stream.leave t.stripb)
    run := x.run.map (BlockRun.ended t) }

/-- Every strip of the block has been dispatched and has ended (R21). -/
def Ctx.ranOut (x : Ctx) : Bool :=
  x.strips.isEmpty && match x.run with
    | some r => r.entry.n ≤ r.next
    | none => false

/-- `vend` (R173, R244, R285): a store's fault held for the context is delivered first (R161). -/
def execVend (g : Gates) (s : State) : Host.Outcome State Fault Refusal :=
  issue (.vend g) s fun s =>
    if s.myStrip.detached != 0 then .trap 0x0A 0 s
    else s.syncPoint.andThen fun s =>
      let s := s.refetch.modCtx s.me (Ctx.endStrip s.now s.myStrip)
      R.done (if s.myCtx.ranOut then s.endStreams s.me Stream.idle else s)

/-- `vrejoin` (R31, R245). -/
def execVrejoin (g : Gates) (s : State) : Host.Outcome State Fault Refusal :=
  issue (.vrejoin g) s fun s =>
    let t := s.myStrip
    if !t.lanePcs.isEmpty then .stall (.lanesDone t.stripb) s
    else R.done (s.modMyStrip fun t => { t with detached := 0, laneWait := [] })

/-- Set a loop counter (R246). -/
def Strip.setLpc (k : Nat) (v : BitVec 32) (t : Strip) : Strip := { t with lpc := t.lpc.setIfInBounds k v }

/-- `vlset` (R246). -/
def execVlset (g : Gates) (o : FormA) (s : State) : Host.Outcome State Fault Refusal :=
  issue (.vlset g o) s fun s =>
    (s.rdS o.sy).bind fun v s => R.done (s.modMyStrip (Strip.setLpc o.sx.toNat (v.setWidth 32)))

/-- `vloop` (R247). -/
def execVloop (g : Gates) (o : FormL) (s : State) : Host.Outcome State Fault Refusal :=
  issue (.vloop g o) s fun s =>
    let k := o.sx.toNat
    let n := s.myStrip.lpc[k]?.getD 0
    if 2 ≤ n.toNat then
      (s.jump (s.cur.pc + 2 * o.off.signExtend 64)).andThen fun s => R.done (s.modMyStrip (Strip.setLpc k (n - 1)))
    else R.done (s.modMyStrip (Strip.setLpc k 0))

/-- Whether a bit of a mask below VL is 1 (R248). -/
def State.maskAny (s : State) (k : SReg) : Bool := (List.range s.myStrip.vl).any fun p => s.myStrip.mbit (k.setWidth 4) p

/-- `vbany` (R248). -/
def execVbany (g : Gates) (o : FormL) (s : State) : Host.Outcome State Fault Refusal :=
  issue (.vbany g o) s fun s =>
    if s.maskAny o.sx then s.jump (s.cur.pc + 2 * o.off.signExtend 64) else R.done s
/-- `vbnone` (R248). -/
def execVbnone (g : Gates) (o : FormL) (s : State) : Host.Outcome State Fault Refusal :=
  issue (.vbnone g o) s fun s =>
    if s.maskAny o.sx then R.done s else s.jump (s.cur.pc + 2 * o.off.signExtend 64)

/-- The registers of the strip with the highest STRIPB become the VLC's; flags join FMTST; streams park or end (R25, R61,
R285). -/
def Ctx.commit (now : Nat) (r : BlockRun) (x : Ctx) : Ctx :=
  let x := { x with run := none, fmtst := x.fmtst ||| r.flags, wants := now }
  let x := match r.lastB with
    | none => x
    | some b =>
        { x with v := r.lastV, m := r.lastM, vl := BitVec.ofNat 14 r.lastVl, vtype := r.lastVtype, stripb := w64 b }
  { x with
    streams := (x.streams.filter fun st => st.parked || st.unbound).map fun st =>
      { st with parked := true, unbound := false, attached := [] } }

/-- A byte that a lower lane has stored over takes the highest lane's value at the commit point (R26): in memory as it is held,
at a peer's home, or in the frame that a scratchpad page is pinned in. -/
def State.settleByte (s : State) (core : Nat) (b : LaneByte) : State :=
  if !b.overtaken then s
  else if b.place < 2 ^ 60 then
    if s.owns b.place then
      s.putBytes (some core) b.place 1 b.value.toNat (afind? s.homeOld (wordOf b.place)).isNone
    else s.homeStore b.place 1 b.value.toNat
  else
    let a := b.place - 2 ^ 60
    match (s.core core).frames.find? fun f => f.paddr ≤ a && a < f.paddr + 4096 with
    | some f => s.padWrite core f.region f.page f.paddr (a - f.paddr) 1 b.value.toNat
    | none => s.homeStore a 1 b.value.toNat

/-- BLOCK_COMMIT (R21, R25 to R27): what lanes have stored is settled, the post of the `vblk` is made, and the unit's counter
falls. -/
def execBlockCommit (ctx : Nat) (s : State) : Host.Outcome State Fault Refusal :=
  match (s.ctx ctx).run with
  | none => .next s
  | some r =>
      if r.next < r.entry.n || !(s.ctx ctx).strips.isEmpty then .next s
      else
        let s := r.stores.foldl (fun s b => s.settleByte (coreOf ctx) b) s
        .next (((s.modCtx ctx (Ctx.commit s.now r)).complete ctx r.entry.post).opEnd ctx)

/-- A party no longer waits: it issues again (R16, R196). -/
def State.unparkParty (s : State) (p : Party) : State :=
  match p.place with
  | .ctl => s.modCtx p.ctx fun x => { x with wait := none }
  | .strip b => s.modStrip p.ctx b fun t => { t with wait := none }
  | .lane b q => s.modStrip p.ctx b fun t => { t with laneWait := t.laneWait.filter (·.1 != q) }

/-- WAIT_RESUME (R16). -/
def execWaitResume (p : Party) (s : State) : Host.Outcome State Fault Refusal := .next (s.unparkParty p)

/-- REPLY_PUSH (R29, R255): the entry is pushed, the instruction completes, and its post is made. -/
def execReplyPush (ctx stripb : Nat) (s : State) : Host.Outcome State Fault Refusal :=
  match (s.strip ctx stripb).wait with
  | some (.replyRoom b v next post) =>
      if !s.pushReady ctx b then .next s
      else
        let s : State := { s with cur := ⟨⟨ctx, .strip stripb⟩, (s.strip ctx stripb).pc, next, none, false⟩ }
        .next (State.settle (s.posting post false fun _ s =>
          R.done ((s.modCtx ctx fun x => { x with rq := x.rq ++ [v] }).modMyStrip fun t => { t with vstart := 0 })))
  | _ => .next s

end Sys2Proof.Machine
end

