-- ==== Sys2Proof/Machine/Pages.lean ====
section
/-! DEFINITION. Changes of page-table entries: shootdown (R445), migration (R446), the revoking of scratchpad frames (R108,
R432), and copy-on-break (R412). -/

namespace Sys2Proof.Machine

/-- Event 0x24 for the running contexts of a core that a frame serves (R108, R432). -/
def State.revokeEvent (s : State) (core : Nat) (f : Frame) : State :=
  (List.range 4).foldl (fun s i =>
    let c := 4 * core + i
    if slotState (s.slot c) == 1 && slotSpBase (s.slot c) == f.region then s.deliverEvent c 0x24 0 else s) s

/-- Every frame backed by a range of physical addresses is unpinned, and its owner is told (R108). -/
def State.revokeFrames (s : State) (lo hi : Nat) : State :=
  s.cores.foldl (fun s (k, c) =>
    (c.frames.filter fun f => lo < f.paddr + 4096 && f.paddr < hi).foldl (fun s f => (s.unpin k f).revokeEvent k f) s) s

/-- The lines of a range of physical addresses leave every cache, what is registered or dirty going home first (R108). -/
def State.leaveRange (s : State) (lo hi : Nat) : State :=
  let s := s.cores.foldl (fun s (k, _) => s.dropRange k lo hi) s
  let out := fun a => a < lo || hi ≤ a
  let far := (s.dies.flatMap fun (_, d) => d.l2.map fun (x : L2Line) => x.key).filter fun (k : LineKey) => !out k.base && !s.owns k.base
  let s := (far.foldl State.sendHome s).dropTracked none fun _ k => !out k.base
  { s with
    words := s.words.filter fun w => out w.1
    homeOld := s.homeOld.filter fun w => out w.1
    remotes := s.remotes.filter fun e => out e.line.base
    regTable := s.regTable.filter fun e => out e.line
    dies := s.dies.map fun (n, d) => (n, { d with l2 := d.l2.filter fun x => out x.key.base }) }

/-- Whether a change takes a page's frames away: an unmap, or another PADDR, or MIG (R445, R446). -/
def takesFrames (old new : Nat) : Bool := !bit new 63 || bit new 1 || leafPaddr old != leafPaddr new

/-- SHOOTDOWN (R108, R445): the entry is written, cached translations of the page go; for an unmap or a migration the frames
are revoked, and copies in flight that touch the page are waited for. -/
def execShootdown (job : Nat) (va leaf : Word) (s : State) : Host.Outcome State Fault Refusal :=
  match s.jobAt job with
  | none => .next s
  | some j =>
      match s.entryAt va.toNat j.root walkLevels with
      | none => .next s
      | some (a, lo, e) =>
          let me := Event.shootdown job va leaf
          let page := va.toNat / 2 ^ lo
          let s : State := { s with heldBack := s.heldBack.filter (· != me) }
          if !bit e 63 then .next (s.setEntry a leaf.toNat)
          else if takesFrames e leaf.toNat && s.pageBusy job (page * 2 ^ lo) (page * 2 ^ lo + 2 ^ lo) then
            .next { s with heldBack := s.heldBack ++ [me] }
          else
            let pa := (⟨e, lo, false⟩ : Page).paddr s (page * 2 ^ lo)
            let s := (s.setEntry a leaf.toNat).dropTlb job fun t => t.page * 2 ^ t.bits / 2 ^ lo == page
            .next (if takesFrames e leaf.toNat then (s.revokeFrames pa (pa + 2 ^ lo)).leaveRange pa (pa + 2 ^ lo) else s)

/-- Move 2^bits bytes of memory, with the poison and the check values of their lines, to another place of this device. -/
def State.movePage (s : State) (old new bits : Nat) : State :=
  let n := 2 ^ bits
  let inOld := fun a => old ≤ a && a < old + n
  let inNew := fun a => new ≤ a && a < new + n
  let mem := (s.mem.filter fun c => inOld c.1).foldl (fun m c => Memory.write m (new + (c.1 - old)) c.2)
    (s.mem.filter fun c => !inNew c.1)
  let marks := fun (l : List Nat) => (l.filter fun a => !inNew a) ++ (l.filter inOld).map fun a => new + (a - old)
  { s with mem := mem, poison := marks s.poison, badCheck := marks s.badCheck }

/-- A leaf with another PADDR and MIG = 0 (R446). -/
def leafAt (e pa : Nat) : Nat := e - leafPaddr e - (if bit e 1 then 2 else 0) + pa / 128 * 128 % 2 ^ 56

/-- PAGE_MIGRATION (R108, R446): the leaf is written with MIG = 1 as a shootdown, the page is copied, and the leaf is written
with the new PADDR and MIG = 0. -/
def execPageMigration (job : Nat) (va paddr : Word) (s : State) : Host.Outcome State Fault Refusal :=
  match s.jobAt job with
  | none => .next s
  | some j =>
      match s.entryAt va.toNat j.root walkLevels with
      | none => .next s
      | some (a, lo, e) =>
          let me := Event.pageMigration job va paddr
          let page := va.toNat / 2 ^ lo
          let s : State := { s with heldBack := s.heldBack.filter (· != me) }
          if !bit e 63 || !bit e 62 then .next s
          else if s.pageBusy job (page * 2 ^ lo) (page * 2 ^ lo + 2 ^ lo) then .next { s with heldBack := s.heldBack ++ [me] }
          else
            let old := (⟨e, lo, false⟩ : Page).paddr s (page * 2 ^ lo)
            let leaf := leafAt e paddr.toNat
            let new := (⟨leaf, lo, false⟩ : Page).paddr s (page * 2 ^ lo)
            let s := (s.setEntry a (leafAt e (leafPaddr e) + 2)).dropTlb job fun t => t.page * 2 ^ t.bits / 2 ^ lo == page
            let s := (s.revokeFrames old (old + 2 ^ lo)).leaveRange old (old + 2 ^ lo)
            let s := if s.owns old && s.owns new then s.movePage old new lo
              else s.homeStoreBytes new (s.deviceBytes old (2 ^ lo))
            .next (s.setEntry a leaf)

/-- What a party waits for. -/
def State.partyWait (s : State) (p : Party) : Option WaitCond :=
  match p.place with
  | .ctl => (s.ctx p.ctx).wait
  | .strip b => (s.strip p.ctx b).wait
  | .lane b q => ((s.strip p.ctx b).laneWait.find? (·.1 == q)).map (·.2)

/-- MIG_WALK_RETRY (R446): a party whose walk met MIG = 1 walks again once the entry has been written. -/
def execMigWalkRetry (p : Party) (s : State) : Host.Outcome State Fault Refusal :=
  match s.partyWait p, s.jobOf p.ctx with
  | some (.migration va), some j =>
      (match walkFrom s va.toNat j.root walkLevels with
        | .mig => .next s
        | _ => .next (s.unparkParty p))
  | some (.migration _), none => .next (s.unparkParty p)
  | _, _ => .next s

/-- The number of a context, or of the unit that is saved in its slot. -/
def State.ownerNo (s : State) (c : Nat) : Nat := if slotState (s.slot c) == 2 then savedTag (slotSave (s.slot c)) else c

/-- Whether a context is bound to a unit of a job: running or stopped in place. -/
def State.boundTo (s : State) (c : Nat) (j : Job) : Bool :=
  slotJob (s.slot c) == j.id && (slotState (s.slot c) == 1 || (slotState (s.slot c) == 2 && !s.movedOn c))

/-- Whether an address lies in a job's code heap or stub area (R412). -/
def Job.inHeap (j : Job) (va : Nat) : Bool :=
  (j.heapBase ≤ va && va < j.heapBase + j.heapBytes)
    || j.image.any fun (g : Image) => !g.entries.isEmpty && g.stubBase / 65536 ≤ va / 65536
        && va / 65536 ≤ (g.stubBase + 64 * g.entries.length - 1) / 65536

/-- The private slot of a context that maps an address (R442). -/
def Ctx.slotAt (x : Ctx) (va : Nat) : Option PageSlot := x.slots.find? fun p => p.va == va / 2 ^ p.bits * 2 ^ p.bits

/-- A copy of a page for one context: the private slot, and the state with the bytes copied (R412) (DEDUCED, log 49). -/
def State.copyPage (s : State) (va e lo : Nat) : PageSlot × State :=
  let page := va / 2 ^ lo * 2 ^ lo
  let old := (⟨e, lo, false⟩ : Page).paddr s page
  let (pa, s) := s.takeAligned lo
  let bytes := s.mem.filter fun c => old ≤ c.1 && c.1 < old + 2 ^ lo
  let s : State := { s with
    mem := bytes.foldl (fun m c => Memory.write m (s.phys pa + (c.1 - old)) c.2) s.mem }
  let target := if e / 2 ^ 60 % 4 = 0 then pa else s.phys pa
  let leaf := leafAt e target
  (⟨page, lo, w64 (if bit leaf 6 then leaf else leaf + attrW)⟩, s)

/-- BREAK_COPY (R228, R412, R442) (DEDUCED, log 49). -/
def execBreakCopy (r : Req) (s : State) : Host.Outcome State Fault Refusal :=
  .next (s.serve r 0x40 fun s =>
    if r.payload.length != 16 then s.respond r 4 []
    else s.onJob r (.breakCopy r) fun j s =>
      let c := r.nat 0 8
      let va := r.nat 8 8
      if c ≥ Config.ctxCount || va ≥ Config.spWindow || !s.boundTo c j || j.inHeap va then s.respond r 4 []
      else
        let x := s.owner (s.ownerNo c)
        match walkFrom s va j.root walkLevels with
        | .leaf e lo =>
            if !bit e 5 then s.respond r 4 []
            else if (x.slotAt va).isSome then s.respond r 12 []
            else if x.slots.length ≥ 8 || s.room < 2 ^ (lo + 1) then s.respond r 9 []
            else
              let (p, s) := s.copyPage va e lo
              (s.modOwner (s.ownerNo c) fun x => { x with slots := x.slots ++ [p] }).respond r 0 []
        | _ => s.respond r 4 [])

/-- BREAK_END (R412): the copy is unmapped. -/
def execBreakEnd (r : Req) (s : State) : Host.Outcome State Fault Refusal :=
  .next (s.serve r 0x41 fun s =>
    if r.payload.length != 16 then s.respond r 4 []
    else s.onJob r (.breakEnd r) fun j s =>
      let c := r.nat 0 8
      let va := r.nat 8 8
      if c ≥ Config.ctxCount || !s.boundTo c j then s.respond r 4 []
      else
        match (s.owner (s.ownerNo c)).slotAt va with
        | none => s.respond r 4 []
        | some p => (s.modOwner (s.ownerNo c) fun x => { x with slots := x.slots.filter (· != p) }).respond r 0 [])

end Sys2Proof.Machine
end

