-- ==== Sys2Proof/Machine/Peer.lean ====
section
/-! DEFINITION. The messages of R399 as they arrive: requests of peers at their home on this device (R133, R134, R347), what a
home asks of this device as a holder (R136, R143), and the answers; key requests (R296, R297) and the line reads and writes of
copies (R127); the loss of a peer (R403). -/

namespace Sys2Proof

/-- The bytes that a message carries, with their addresses (R398). -/
def Msg.bytes (m : Msg) (key : LineKey) : List (Nat × Byte) :=
  let bs := Machine.lineOfBits m.line
  ((List.range 128).zip bs).filterMap fun (b, x) => if m.mask.getLsbD b then some (Machine.lineByte key b, x) else none
/-- The words that a message carries bytes of. -/
def Msg.words (m : Msg) (key : LineKey) : List Nat := ((m.bytes key).map fun (a, _) => Machine.wordOf a).eraseDups
/-- Whether the check value of a message is that of its line (R398, R460). -/
def Msg.checked (m : Msg) : Bool := Machine.crc32c (Machine.lineOfBits m.line) == m.check
/-- A message that carries a whole row line. -/
def Msg.whole (m : Msg) : Bool := m.mask == BitVec.allOnes 128 && !m.colLine

end Sys2Proof

namespace Sys2Proof.Machine

/-- The line a message names (R398). The message does not carry the element width of a column line: it is that of a line known
under the address, else a free value. -/
def State.keyOf (s : State) (m : Msg) : LineKey :=
  let a := m.addr.toNat % 2 ^ 56
  if !m.colLine then rowLine a
  else
    let known := (s.cores.flatMap fun (_, c) => c.l1.map fun (l : L1Line) => l.key)
      ++ (s.dies.flatMap fun (_, d) => d.l2.map fun (l : L2Line) => l.key) ++ s.remotes.map (·.line) ++ s.requests.map (·.line)
    match known.find? fun (k : LineKey) => k.col.isSome && lineAddr k == w64 a with
    | some k => k
    | none =>
        let c := a % 128
        let i := (Config.columnWidth m.addr).toNat % 3
        ⟨a / 128 * 128, some (c, if c < 32 then 2 ^ i else if c < 64 then 2 ^ (i % 2) else 1)⟩

/-- An answer to a message: its TAG, ADDR and ATTR (R398, R399). -/
def State.replyTo (s : State) (t : BitVec 8) (m r : Msg) : State :=
  s.sendOrDrop t { r with
    src := s.dev, dst := m.src, tag := m.tag, addr := m.addr, colLine := m.colLine, scp := m.scp, pol := m.pol }
/-- ERR with a cause (R399). -/
def State.replyErr (s : State) (m : Msg) (c : Code) : State := s.replyTo 0x22 m { noMsg with aux := c }

/-- A message that has arrived: what is done with it here, or it goes on to the device it is for (R402). -/
def State.arrived (s : State) (t : BitVec 8) (m : Msg) (k : State → State) : Host.Outcome State Fault Refusal :=
  .next (if m.dst == s.dev then k s else s.sendOrDrop t m)

/-- The party that stands for a peer's request in what the home asks of other peers. -/
def peerParty (m : Msg) : Party := ⟨2 ^ 41 + m.src * 2 ^ 16 + m.tag.toNat, .ctl⟩

/-- The node of a copy engine, which caches nothing (R127). -/
def noNode : Nat := 2 ^ 40

/-- Whether a peer's request waits: for answers of other peers, for a request on its words that is in progress (R133), or for an
eviction of the remote filter's set (R349). -/
def State.peerAsked (s : State) (m : Msg) : Bool :=
  let key := s.keyOf m
  (s.requests.any fun r => r.party == peerParty m && r.answer.isNone) || (s.inProgress (peerParty m) (footprint key)).isSome
    || s.requests.any fun r => r.party == homeParty && r.answer.isNone && remoteSet r.line == remoteSet key

/-- Send what the home asks of another peer for a peer's request: the data goes to the requester, or comes here when `here`. -/
def State.askOther (s : State) (m : Msg) (key : LineKey) (here : Bool) (t : BitVec 8) (d : Nat) : State :=
  let fwd := t == 0x11 || t == 0x12
  let aux := if fwd then BitVec.ofNat 8 (if here then s.dev else m.src) else 0
  let q := { noMsg with
    src := s.dev, dst := d, tag := m.tag, scp := m.scp, pol := m.pol, aux := aux, addr := m.addr, colLine := m.colLine }
  let r : RemoteReq :=
    ⟨m.tag.toNat, peerParty m, t, key.base + (if here then 2 ^ 200 * (d + 1) else 0), key, d, none, false, []⟩
  match s.send t q with
  | some s => { s with requests := s.requests ++ [r] }
  | none => s

/-- What a home asks of other peers for a request of a peer's node: data is forwarded when one peer holds the whole footprint, and
comes back to the home otherwise (R134, R347). -/
def State.otherAsks (s : State) (node : Nat) (req : HomeReq) (ws : List Nat) : List (BitVec 8 × Nat) :=
  let asks := s.peerAsks req node ws
  let holders := fun (w : Nat) => (s.peerAsks .ownStore node [w]).filterMap fun (t, d) => if t == 0x12 then some d else none
  asks.map fun (t, d) =>
    if (t == 0x11 || t == 0x12) && req != .untrackedLoad && !ws.all (fun w => (holders w).contains d) then (0x13, d) else (t, d)

/-- A happening waits (R133). -/
def State.waitsFor (s : State) (me : Event) : State := { s with heldBack := s.heldBack ++ [me] }

/-- A request of a node for a line makes room in its set of the remote filter before it is handled; `true` when the eviction is
not complete (R349). -/
def State.roomFor (s : State) (node : Nat) (req : HomeReq) (key : LineKey) : Bool × State :=
  let joins := match req with | .trackedLoad _ | .ownStore => node != homeNode key.base | _ => false
  let pending := fun (s : State) (v : RemoteEntry) => s.requests.any fun r => r.party == homeParty && r.line == v.line && r.answer.isNone
  match (if joins then s.remoteVictim (s.homeSlice key.base 0) key else none) with
  | none => (false, s)
  | some v =>
      if pending s v then (true, s)
      else
        let s := s.evictRemote v
        (pending s v, s)

/-- A request of a peer at its home (R133): an address of this device; requests on its words that are in progress end; what other
peers hold of its words comes first, all asked at once, and the request waits for it; then it is handled, `true` when the data has
been forwarded to the requester. `node` is the requester as a holder of copies. -/
def State.forPeer (s : State) (m : Msg) (me : Event) (node : Nat) (req : HomeReq) (here : Bool) (ws : List Nat)
    (k : Bool → State → State) : State :=
  let s : State := { s with heldBack := s.heldBack.filter (· != me) }
  let a := m.addr.toNat % 2 ^ 56
  if !s.owns a || unpopulated a then s.replyErr m 0x20
  else
    let p := peerParty m
    if (s.inProgress p ws).isSome then s.waitsFor me
    else
      let mine := s.requests.filter (·.party == p)
      let asks := (s.otherAsks node req ws).filter fun (t, d) => !mine.any fun r => r.mtype == t && r.dst == d
      if !asks.isEmpty && (asks.any fun (_, d) => (s.linkFor d m.addr).isSome) then
        (asks.foldl (fun s (t, d) => s.askOther m (s.keyOf m) here t d) s).waitsFor me
      else if mine.any (·.answer.isNone) then s.waitsFor me
      else
        let (full, s) := s.roomFor node req (s.keyOf m)
        if full then s.waitsFor me
        else
          let fwd := !here && mine.any fun r => r.mtype == 0x11 || r.mtype == 0x12
          k fwd { s with requests := s.requests.filter (·.party != p) }

/-- The transitions of a request of a peer's node (R134), its node in the remote filter, the line in the home's L2 (R101, R139,
R348) (DEDUCED, log 41). -/
def State.peerTransition (s : State) (node : Nat) (req : HomeReq) (key : LineKey) (ws : List Nat) : State :=
  let slice := s.homeSlice key.base 0
  let joins := match req with | .trackedLoad _ | .ownStore => true | _ => false
  let s := s.touchRemote slice key (if joins then some node else none)
  let s := ws.foldl (fun s w => s.requestWord none node slice req w) s
  (s.useL2 (homeNode key.base) 0 key false).freeRemotes

/-- A line's poison as it leaves: of any row line of its footprint (R460). -/
def State.linePoison (s : State) (key : LineKey) : Bool := (footprint key).any fun w => s.poisoned w

/-- The row lines of a line whose check value fails become poisoned as it leaves (R461). -/
def State.badLines (s : State) (key : LineKey) : List Nat := (footprint key).filter fun w => s.badCheck.contains (w / 128 * 128)

/-- The home sends a line with the state granted, or ERR when its check value fails (R399, R461). -/
def State.replyLine (s : State) (t : BitVec 8) (m : Msg) (key : LineKey) (grant : BitVec 2) : State :=
  let bad := s.badLines key
  if !bad.isEmpty then (bad.foldl State.poisonLine s).replyErr m 0xA1
  else s.replyTo t m (msgLine { noMsg with grant := grant } (s.lineData key) (s.linePoison key))

/-- LDT (R134, R399). -/
def execLdt (m : Msg) (s : State) : Host.Outcome State Fault Refusal :=
  s.arrived 0x01 m fun s =>
    let own := m.pol == 0
    let key := s.keyOf m
    s.forPeer m (.ldt m) (nodeOfPeer m.src) (.trackedLoad own) false (footprint key) fun fwd s =>
      let s := s.peerTransition (nodeOfPeer m.src) (.trackedLoad own) key (footprint key)
      let n := nodeOfPeer m.src
      let e := own && (footprint key).all fun w => s.wstate w = ⟨.E n, [n]⟩
      if fwd then s.replyTo 0x21 m noMsg else s.replyLine 0x20 m key (if e then 1 else 0)

/-- LDU (R134, R399). -/
def execLdu (m : Msg) (s : State) : Host.Outcome State Fault Refusal :=
  s.arrived 0x02 m fun s =>
    let key := s.keyOf m
    s.forPeer m (.ldu m) (nodeOfPeer m.src) .untrackedLoad false (footprint key) fun fwd s =>
      let s := s.peerTransition (nodeOfPeer m.src) .untrackedLoad key (footprint key)
      if fwd then s.replyTo 0x21 m noMsg else s.replyLine 0x20 m key 3

/-- OWNR (R134, R399). -/
def execOwnr (m : Msg) (s : State) : Host.Outcome State Fault Refusal :=
  s.arrived 0x03 m fun s =>
    let key := s.keyOf m
    s.forPeer m (.ownr m) (nodeOfPeer m.src) .ownStore false (footprint key) fun fwd s =>
      let s := s.peerTransition (nodeOfPeer m.src) .ownStore key (footprint key)
      if fwd then s.replyTo 0x21 m noMsg else s.replyLine 0x20 m key 2

/-- Bytes of a message become the newest values at the home (R398, R460, R462). -/
def State.mergeBytes (s : State) (m : Msg) (bs : List (Nat × Byte)) (atHome : Bool) : State :=
  let s := if m.whole then { s with badCheck := s.badCheck.filter (· != m.addr.toNat % 2 ^ 56 / 128 * 128) }
    else bs.foldl (fun s (a, _) => s.mergeCheck a) s
  let s := bs.foldl (fun s (a, x) => s.putBytes none a 1 x.toNat atHome) s
  if m.whole then s.setPoison (m.addr.toNat % 2 ^ 56) m.poison
  else if m.poison then bs.foldl (fun s (a, _) => s.setPoison a true) s
  else s

/-- A line that arrived with a check value that fails: the home's line is poisoned and nothing is merged (R398, R461)
(DEDUCED, log 43). -/
def State.refuseLine (s : State) (m : Msg) (key : LineKey) : State :=
  ((m.words key).foldl (fun s w => s.poisonLine w) s).replyErr m 0xA1

/-- WR and CWR: a WT store of the bytes that MASK marks (R127, R134, R399). -/
def State.peerWrite (s : State) (m : Msg) (me : Event) (node : Nat) (ok : BitVec 8) : State :=
  let key := s.keyOf m
  s.forPeer m me node .throughStore true (m.words key) fun _ s =>
    if !m.checked then s.refuseLine m key
    else ((s.peerTransition node .throughStore key (m.words key)).mergeBytes m (m.bytes key) true).replyTo ok m noMsg

/-- WR (R134, R399). -/
def execWr (m : Msg) (s : State) : Host.Outcome State Fault Refusal := s.arrived 0x04 m fun s => s.peerWrite m (.wr m) (nodeOfPeer m.src) 0x21

/-- REG (R134, R399): the words of MASK become registered to the peer, and the line goes back as an untracked fill. -/
def execReg (m : Msg) (s : State) : Host.Outcome State Fault Refusal :=
  s.arrived 0x05 m fun s =>
    let key := s.keyOf m
    s.forPeer m (.reg m) (nodeOfPeer m.src) .sisStore true (m.words key) fun _ s =>
      if !m.checked then s.refuseLine m key
      else ((s.peerTransition (nodeOfPeer m.src) .sisStore key (m.words key)).mergeBytes m (m.bytes key) false).replyLine 0x20 m key 3

/-- ATOM (R134, R300, R398): the operand stands at its word's place; MASK holds the compare value, MIN, W64 and the offset. -/
def execAtom (m : Msg) (s : State) : Host.Outcome State Fault Refusal :=
  s.arrived 0x06 m fun s =>
    let n := if m.mask.getLsbD 72 then 8 else 4
    let off := (m.mask.extractLsb' 80 16).toNat
    let pa := m.addr.toNat % 2 ^ 56 / 128 * 128 + off
    if off % n != 0 || off + n > 128 then s.replyErr m 0x22
    else
      s.forPeer m (.atom m) (nodeOfPeer m.src) .atomic true (wordsOf pa n) fun _ s =>
        if !m.checked then s.replyErr m 0xA1
        else if s.badCheck.contains (pa / 128 * 128) then (s.poisonLine pa).replyErr m 0xA1
        else if s.poisoned pa then s.replyErr m 0xA0
        else
          let b := m.line.toNat / 2 ^ (8 * off) % 2 ^ (8 * n)
          let min := (m.mask.extractLsb' 64 8).toNat
          let cmp := (m.mask.extractLsb' 0 64).toNat % 2 ^ (8 * n)
          let ((old, _), s) := s.homeAtomic none (fun s w => s.peerTransition (nodeOfPeer m.src) .atomic (rowLine pa) [w]) pa n min b cmp
          s.replyTo 0x24 m (msgBytes noMsg off n old)

/-- The elements of n bytes of a line that MASK marks (R399). -/
def places (m : Msg) (n : Nat) : List Nat := (List.range (128 / n)).filter fun i => m.mask.getLsbD (n * i)

/-- Element i of a reduction store at its home (R304, R399). -/
def State.reduceAt (m : Msg) (key : LineKey) (n : Nat) (s : State) (i : Nat) : State :=
  let pa := key.base + n * i
  let x := m.line.toNat / 2 ^ (8 * n * i) % 2 ^ (8 * n)
  let s := s.mergeCheck pa
  (pieces pa n (reduced m.fp n (s.current pa n) x)).foldl (fun s (a, n, x) => s.putBytes none a n x true) s

/-- RED (R91, R304, R399, R462): MASK marks the words; what is added to each is at its place. -/
def execRed (m : Msg) (s : State) : Host.Outcome State Fault Refusal :=
  s.arrived 0x07 m fun s =>
    let key := s.keyOf m
    let n := if m.w64 then 8 else 4
    s.forPeer m (.red m) (nodeOfPeer m.src) .atomic true (m.words key) fun _ s =>
      if !m.checked then s.refuseLine m key
      else ((places m n).foldl (State.reduceAt m key n) (s.peerTransition (nodeOfPeer m.src) .atomic key (m.words key))).replyTo 0x21 m noMsg

/-- The bytes of a message that its sender is entitled to bring home: of words that the home has it as the holder of (R134). -/
def State.entitled (s : State) (m : Msg) (key : LineKey) : List (Nat × Byte) :=
  (m.bytes key).filter fun (a, _) =>
    match (s.wstate (wordOf a)).st with
    | .E d | .M d | .O d => d == nodeOfPeer m.src
    | .G k => k == 256 + m.src
    | .H => false

/-- Data that a peer returns (R134, R398): merged at the home but for bytes that this device has stored since it asked, which come
later in the coherence order (R133); or the line is poisoned when its check value fails. -/
def State.broughtBack (s : State) (m : Msg) (key : LineKey) (stored : List Nat) (atHome : Bool) : State :=
  if !m.data then s
  else if !m.checked then (m.words key).foldl (fun s w => s.poisonLine w) s
  else s.mergeBytes m ((s.entitled m key).filter fun b => !stored.contains b.1) atHome

/-- A peer leaves words, and the filters where it has none left of a line (R136, R348). -/
def State.peerGone (s : State) (dev : Nat) (ws : List Nat) : State :=
  (ws.foldl (fun s w => s.peerLeaves dev w) s).freeRemotes

/-- DROPN (R136, R399). -/
def execDropn (m : Msg) (s : State) : Host.Outcome State Fault Refusal :=
  s.arrived 0x09 m fun s =>
    let key := s.keyOf m
    if !s.owns key.base then s.replyErr m 0x20
    else ((s.broughtBack m key [] true).peerGone m.src (footprint key)).replyTo 0x21 m noMsg

/-- Whether this device holds newer values of a peer's line than its home (R132). -/
def State.heldDirty (s : State) (key : LineKey) : Bool :=
  (s.cores.any fun (_, c) => c.l1.any fun l => l.key == key && l.st == .M) || (footprint key).any fun w => (afind? s.homeOld w).isSome

/-- A fill asked for by a core of this device that an invalidation of one of its words meets is used once and not installed
(R147). -/
def RemoteReq.overtaken (ws : List Nat) (r : RemoteReq) : RemoteReq :=
  if r.mtype == 0x01 && r.answer.isNone && ws.any (holdsWord r.line ·) then { r with spoiled := true } else r

/-- The tracked lines of this device that meet a footprint go, those of another name back to the home first (R143); for a
back-invalidation the line alone goes, and another keeps a cell that both hold (R141). -/
def State.giveUp (s : State) (key : LineKey) (alone : Bool) : State :=
  let ws := footprint key
  let s : State := { s with requests := s.requests.map (RemoteReq.overtaken ws) }
  let tracked := (s.dies.flatMap fun (_, d) => (d.l2.filter fun (x : L2Line) => x.tracked).map fun (x : L2Line) => x.key).eraseDups
  let crossing := tracked.filter fun (k : LineKey) => k != key && (footprint k).any (ws.contains ·)
  let s := if alone then s else crossing.foldl State.sendHome s
  let s := (s.dropTracked none fun _ k => k == key).untrackL2 fun _ k => k == key
  (ws.filter fun w => !(alone && crossing.any (holdsWord · w))).foldl State.homeCurrent s

/-- The words of a footprint that some core of this device has registered. -/
def State.registered (s : State) (key : LineKey) : List Nat :=
  (footprint key).filter fun w => s.cores.any fun (_, c) => c.l1.any fun l => l.regs.contains w

/-- The registrations of this device in a footprint end; the words stay as unregistered ones (R134). -/
def State.unregister (s : State) (key : LineKey) : State :=
  (s.registered key).foldl (fun s w =>
    State.homeCurrent { s with cores := s.cores.map fun (k, c) => (k, { c with l1 := c.l1.map (L1Line.unregister w (s.word w)) }) } w) s

/-- What a holder returns to the home: WB with the dirty line, WB with the words that it has registered, or ACK (R399). -/
def State.holderAnswer (s : State) (m : Msg) (key : LineKey) (alone : Bool) : State :=
  let regs := s.registered key
  let r := msgLine noMsg (s.lineData key) (s.linePoison key)
  let dirty := s.heldDirty key
  let places := (List.range 128).filter fun b => regs.contains (wordOf (lineByte key b))
  let line := lineBits ((List.range 128).map fun b => if places.contains b then Memory.read s.mem (lineByte key b) else 0)
  let part := { r with
    mask := BitVec.ofNat 128 (places.foldl (fun k b => k + 2 ^ b) 0), line := line, check := crc32c (lineOfBits line) }
  let s := (s.giveUp key alone).unregister key
  if dirty && regs.isEmpty then s.replyTo 0x23 m r
  else if !regs.isEmpty then s.replyTo 0x23 m part
  else s.replyTo 0x21 m noMsg

/-- INV (R143, R399). -/
def execInv (m : Msg) (s : State) : Host.Outcome State Fault Refusal :=
  s.arrived 0x10 m fun s => s.holderAnswer m (s.keyOf m) false

/-- A holder sends a line to the device that AUX names, with the requester's TAG (R399) (DEDUCED, log 41). -/
def State.forward (s : State) (m : Msg) (key : LineKey) (grant : BitVec 2) : State :=
  let bad := s.badLines key
  let d := msgLine { noMsg with
    src := s.dev, dst := m.aux.toNat, tag := m.tag, scp := m.scp, pol := m.pol, grant := grant, addr := m.addr, colLine := m.colLine }
    (s.lineData key) (s.linePoison key || !bad.isEmpty)
  (bad.foldl State.poisonLine s).sendOrDrop 0x20 d

/-- FWD (R134, R399): a copy goes to AUX; a tracked load makes this device's own lines S, an untracked one leaves them. -/
def execFwd (m : Msg) (s : State) : Host.Outcome State Fault Refusal :=
  s.arrived 0x11 m fun s =>
    let key := s.keyOf m
    let tracked := m.pol == 0 || m.pol == 3
    let s := s.forward m key (if tracked then 0 else 3)
    (if tracked then s.shareLine key else s).replyTo 0x21 m noMsg

/-- FWDINV (R134, R399): the data goes to AUX, and this device's copies and registrations go. -/
def execFwdinv (m : Msg) (s : State) : Host.Outcome State Fault Refusal :=
  s.arrived 0x12 m fun s =>
    let key := s.keyOf m
    (((s.forward m key 2).giveUp key false).unregister key).replyTo 0x21 m noMsg

/-- RECALL (R134, R399). -/
def execRecallMsg (m : Msg) (s : State) : Host.Outcome State Fault Refusal :=
  s.arrived 0x13 m fun s => s.holderAnswer m (s.keyOf m) false

/-- BINV (R141, R399). -/
def execBinv (m : Msg) (s : State) : Host.Outcome State Fault Refusal :=
  s.arrived 0x14 m fun s => s.holderAnswer m (s.keyOf m) true

/-- The request of this device that an answer is for: its TAG and line, asked of the sender, or answered by another
holder. -/
def State.asked (s : State) (m : Msg) (ts : List (BitVec 8)) (other : Bool) : Option RemoteReq :=
  s.requests.find? fun r =>
    r.tag == m.tag.toNat && r.answer.isNone && ts.contains r.mtype && (other || r.dst == m.src)
      && (r.mtype == 0x08 || lineAddr r.line == m.addr)

/-- A request is answered; one that no party waits for goes. -/
def State.answered (s : State) (r : RemoteReq) (t : BitVec 8) (m : Msg) : State :=
  if r.party == homeParty then { s with requests := s.requests.filter (· != r) }
  else { s with requests := s.requests.map fun q => if q == r then { r with answer := some (t, m) } else q }

/-- The line of a peer as it came: its words but those of which this device holds newer values (R132, R143). -/
def State.fillPeer (s : State) (m : Msg) (key : LineKey) : State :=
  let newer := fun (w : Nat) => (afind? s.homeOld w).isSome
    || s.cores.any fun (_, c) => c.l1.any fun l => l.regs.contains w || ((l.st == .M || l.st == .E) && holdsWord l.key w)
  let s := (m.bytes key).foldl (fun s (a, x) => if newer (wordOf a) then s else { s with mem := Memory.write s.mem a x }) s
  if m.colLine then (if m.poison then (footprint key).foldl (fun s w => s.setPoison w true) s else s)
  else s.setPoison key.base m.poison

/-- A fill of a core's L1 in the state granted (R128, R398); what comes in M may be newer than the home's value (R132). -/
def State.grantLine (s : State) (core : Nat) (key : LineKey) (grant : BitVec 2) : State :=
  if grant == 3 then
    s.fillUntracked core key ((((s.core core).l1.find? fun l => l.key == key).map fun (l : L1Line) => l.regs).getD [])
  else if grant == 2 then
    (footprint key).foldl (fun (s : State) w =>
      if (afind? s.homeOld w).isSome then s else { s with homeOld := aset s.homeOld w (s.word w) }) (s.takeLine core key)
  else s.installLine core ⟨key, if grant == 1 then .E else .S, [], [], s.now⟩

/-- DATA (R134, R398, R399): the line that a core of this device asked a peer for, which enters its L1, or what a peer sends
the home of a line of this device. Data that another holder sends is acknowledged to the home. A line that an invalidation or an acquire has
overtaken is not installed (R147). -/
def execData (m : Msg) (s : State) : Host.Outcome State Fault Refusal :=
  s.arrived 0x20 m fun s =>
    let key := s.keyOf m
    if s.owns key.base then
      match s.asked m [0x11, 0x12] false with
      | none => s
      | some r =>
          if r.addr < 2 ^ 64 then s
          else
            let s := s.broughtBack m r.line r.stored (r.mtype == 0x12)
            let s := if r.mtype == 0x12 then s.peerGone m.src (footprint r.line) else s
            s.answered r 0x20 m
    else
      match s.asked m [0x01, 0x02, 0x03, 0x05] true with
      | none => s
      | some r =>
          let kept := m.checked && !(r.spoiled && r.mtype == 0x01)
          let s := if kept then s.fillPeer m r.line else s
          let s := if m.checked && !r.spoiled && r.party.ctx < 1024 then s.grantLine (coreOf r.party.ctx) r.line m.grant else s
          let s := s.answered r 0x20 m
          if m.src == deviceOf key.base then s
          else
            s.sendOrDrop 0x21 { noMsg with
              src := s.dev, dst := deviceOf key.base, tag := m.tag, scp := m.scp, pol := m.pol, addr := m.addr, colLine := m.colLine }

/-- ACK (R134, R399): a peer has given up what the home asked for; or a write of this device is complete, or its core owns a
line that it shared. -/
def execAck (m : Msg) (s : State) : Host.Outcome State Fault Refusal :=
  s.arrived 0x21 m fun s =>
    match s.asked m [0x03, 0x04, 0x07, 0x08, 0x10, 0x11, 0x12, 0x13, 0x14] false with
    | none => s
    | some r =>
        let t := r.mtype
        let shares := r.party.ctx < 1024 && (s.core (coreOf r.party.ctx)).l1.any fun l => l.tracked && l.key == r.line
        if t == 0x03 then (if shares then (s.grantLine (coreOf r.party.ctx) r.line 2).answered r 0x21 m else s)
        else if t.toNat < 0x10 then s.answered r 0x21 m
        else if (t == 0x11 || t == 0x12) && r.addr ≥ 2 ^ 64 then s
        else if t == 0x11 then s.answered r 0x21 m
        else (s.peerGone m.src (footprint r.line)).answered r 0x21 m

/-- ERR (R399): the request fails with the cause in AUX. -/
def execErr (m : Msg) (s : State) : Host.Outcome State Fault Refusal :=
  s.arrived 0x22 m fun s =>
    match s.requests.find? fun r => r.tag == m.tag.toNat && r.dst == m.src && r.answer.isNone with
    | none => s
    | some r => s.answered r 0x22 m

/-- WB (R134, R136, R399): dirty data or registered words come home. -/
def execWb (m : Msg) (s : State) : Host.Outcome State Fault Refusal :=
  s.arrived 0x23 m fun s =>
    let key := s.keyOf m
    if !s.owns key.base then s
    else
      match s.asked m [0x10, 0x13, 0x14] false with
      | some r => ((s.broughtBack m r.line r.stored true).peerGone m.src (footprint r.line)).answered r 0x21 m
      | none => (s.broughtBack m key [] true).peerGone m.src (m.words key)

/-- ARES (R399). -/
def execAres (m : Msg) (s : State) : Host.Outcome State Fault Refusal :=
  s.arrived 0x24 m fun s =>
    match s.asked m [0x06] false with
    | none => s
    | some r => if m.checked then s.answered r 0x24 m else s.answered r 0x22 { m with aux := 0xA1 }

/-- GRANT (R296, R399): a key that nobody waits for any longer is released. -/
def execGrant (m : Msg) (s : State) : Host.Outcome State Fault Refusal :=
  s.arrived 0x25 m fun s =>
    match s.asked m [0x08] false with
    | none => s
    | some r =>
        let s := s.answered r 0x25 m
        if r.party == homeParty then
          State.sendOrDrop { s with nextTag := s.nextTag + 1 } 0x08 { noMsg with
            src := s.dev, dst := m.src, tag := BitVec.ofNat 16 s.nextTag, aux := 1, addr := w64 r.addr }
        else s

/-- CDATA (R399). -/
def execCdata (m : Msg) (s : State) : Host.Outcome State Fault Refusal :=
  s.arrived 0x31 m fun s =>
    match s.asked m [0x30] false with
    | none => s
    | some r => if m.checked then s.answered r 0x31 m else s.answered r 0x22 { m with aux := 0xA1 }

/-- CACK (R399). -/
def execCack (m : Msg) (s : State) : Host.Outcome State Fault Refusal :=
  s.arrived 0x33 m fun s =>
    match s.asked m [0x32] false with
    | none => s
    | some r => s.answered r 0x33 m

/-- The SCOPE of an entry lies within what its region's space admits in the job it was written for (R296). -/
def State.keyScopeOk (s : State) (k : Key) : Bool :=
  let va := k.base.toNat * 128
  if Config.spWindow ≤ va then k.scope.toNat ≤ 1
  else match (s.jobAt k.job).bind fun j => s.xlate j.root va with
    | some (_, p) => k.scope.toNat ≤ spaceScope p.space
    | none => true

/-- KEY (R295 to R297, R399): AUX 0 `racq`, 1 `rrel`. The message names no job and no context: an entry in use is enough, and
a peer holds a key as a whole (DESIGN CHOICE, log 53). -/
def execKey (m : Msg) (s : State) : Host.Outcome State Fault Refusal :=
  s.arrived 0x08 m fun s =>
    let n := m.addr.toNat
    let e := n % 4096
    let k := s.key e
    if n ≥ 2 ^ 20 || n / 4096 != s.dev || !k.valid then s.replyErr m 0x8A
    else if m.aux == 0 && !s.keyScopeOk k then s.replyErr m 0x25
    else if m.aux == 0 then
      let w := 2 ^ 20 + m.src * 2 ^ 16 + m.tag.toNat
      if !k.held && k.granted.isNone && k.queue.isEmpty then s.grantPeer e w [] else s.modKey e (Key.join w)
    else if !(k.held && k.remoteHolder == some m.src) then s.replyErr m 0x89
    else (s.replyTo 0x25 m { noMsg with addr := k.tenure.setWidth 64 }).releaseKey e

/-- CRD (R127, R399). -/
def execCrdMessage (m : Msg) (s : State) : Host.Outcome State Fault Refusal :=
  s.arrived 0x30 m fun s =>
    let key := s.keyOf m
    s.forPeer m (.crdMessage m) noNode .untrackedLoad true (footprint key) fun _ s => s.replyLine 0x31 m key 0

/-- CWR (R127, R399, R462). -/
def execCwrMessage (m : Msg) (s : State) : Host.Outcome State Fault Refusal :=
  s.arrived 0x32 m fun s => s.peerWrite m (.cwrMessage m) noNode 0x33

/-- A word that a lost peer held: poisoned at the home when the peer had the only value (R403). -/
def State.loseWord (s : State) (dev w : Nat) : State :=
  let n := nodeOfPeer dev
  let only := match (s.wstate w).st with
    | .M d | .O d => d == n
    | .G k => k == 256 + dev
    | _ => false
  (if only then s.setPoison w true else s).peerLeaves dev w

/-- Key waiters that are not of a peer. -/
def notOf (dev w : Nat) : Bool := w < 2 ^ 20 || (w - 2 ^ 20) / 2 ^ 16 != dev

/-- A device is lost (R403): its copies, its keys, the requests to it and the collectives with it end (R294). -/
def State.losePeer (s : State) (dev : Nat) : State :=
  let s := s.words.foldl (fun s (w, _) => s.loseWord dev w) s
  let s := s.freeRemotes.loseMember dev
  let s : State := { s with keys := s.keys.map fun (n, k) => (n, { k with queue := k.queue.filter (notOf dev) }) }
  let s := s.keys.foldl (fun s (n, k) => if k.held && k.remoteHolder == some dev then s.releaseKey n else s) s
  (s.requests.filter fun r => r.dst == dev && r.answer.isNone).foldl (fun s r =>
    s.answered r (if r.mtype.toNat < 0x10 || r.mtype.toNat ≥ 0x30 then 0x22 else 0x21) { noMsg with src := dev, aux := 0x20 }) s

end Sys2Proof.Machine
end

