-- ==== Sys2Proof/Machine/Links.lean ====
section
/-! DEFINITION. Turnpike links: TRAIN and framing (R396), flits with sequence numbers, acknowledgement, credits and replay
(R397, R400, R401), and the route table (R402). -/

namespace Sys2Proof

/-- The framing version is chosen from both records (R396): this part supports 1.0. -/
def TrainRec.fits (r : TrainRec) : Bool := r.majlo.toNat ≤ 1 && 1 ≤ r.majhi.toNat

end Sys2Proof

namespace Sys2Proof.Machine

/-- The happening that a message of a type is (R399); another type is a protocol error. -/
def messageEvent (t : BitVec 8) (m : Msg) : Option Event :=
  match t.toNat with
  | 0x01 => some (.ldt m)
  | 0x02 => some (.ldu m)
  | 0x03 => some (.ownr m)
  | 0x04 => some (.wr m)
  | 0x05 => some (.reg m)
  | 0x06 => some (.atom m)
  | 0x07 => some (.red m)
  | 0x08 => some (.key m)
  | 0x09 => some (.dropn m)
  | 0x10 => some (.inv m)
  | 0x11 => some (.fwd m)
  | 0x12 => some (.fwdinv m)
  | 0x13 => some (.recallMsg m)
  | 0x14 => some (.binv m)
  | 0x20 => some (.data m)
  | 0x21 => some (.ack m)
  | 0x22 => some (.err m)
  | 0x23 => some (.wb m)
  | 0x24 => some (.ares m)
  | 0x25 => some (.grant m)
  | 0x30 => some (.crdMessage m)
  | 0x31 => some (.cdata m)
  | 0x32 => some (.cwrMessage m)
  | 0x33 => some (.cack m)
  | _ => none

/-- The peer and its link that the domain record gives a link (R396). -/
def State.recorded (s : State) (k : Nat) : Option (Nat × Nat) :=
  (s.chip.flash.peers.find? (·.1 == k)).map fun (_, d, l) => (d, l)

/-- Links of the route table's entry for a device (R402): those that join it, by the domain record; the record does not say which
lead to a device further off, so that is a free value among the links that have a peer (DEDUCED, log 40). -/
def State.routeFor (s : State) (n : Nat) : BitVec 16 :=
  let mask := fun (ks : List (Nat × Nat × Nat)) => ks.foldl (fun m (k, _, _) => m ||| (1#16 <<< k)) 0#16
  let mine := s.chip.flash.peers.filter fun (_, d, _) => d == n
  if n == s.dev then 0
  else if mine.isEmpty then Config.farRoute n &&& mask s.chip.flash.peers
  else mask mine

/-- The route table as the Concierge fills it at stage 3 (R402) (DEDUCED, log 40). -/
def State.fillRoutes (s : State) : State :=
  { s with routes := ((List.range 256).map fun n => (n, s.routeFor n)).filter fun (_, m) => m != 0 }

/-- A link's bits leave every entry; a device whose entry becomes 0 is lost (R402, R403) (DEDUCED, log 40). -/
def State.clearRoute (s : State) (k : Nat) : State :=
  let without := fun (m : BitVec 16) => m &&& ~~~ (1#16 <<< k)
  let lost := (s.routes.filter fun (_, m) => m != 0 && without m == 0).map (·.1)
  let s : State := { s with routes := (s.routes.map fun (n, m) => (n, without m)).filter fun (_, m) => m != 0 }
  lost.foldl State.losePeer s

/-- A link stays down (R396, R401); what it had not sent goes by other links, where there are any. -/
def State.deadLink (s : State) (k : Nat) : State :=
  let ready := (s.link k).ready
  let s := (s.modLink k fun l => { l with phase := .dead, ready := [] }).clearRoute k
  ready.foldl (fun s (t, m) => s.sendOrDrop t m) s

/-- An end sends TRAIN on a link that is not up (R396). -/
def State.sendTrain (s : State) (k : Nat) : State := s.emit (.train k)

/-- A link that was up goes down, with a reason sent to the other end, and trains again (R397, R401). -/
def State.linkDown (s : State) (k : Nat) (reason : BitVec 8) (tell : Bool) : State :=
  if (s.link k).phase != .up then s
  else
    let s := if tell then s.emit (.down k reason) else s
    (s.modLink k fun l => { l with phase := .training, retrained := true, naks := 0, nakSent := false }).sendTrain k

/-- Send again every flit of the replay buffer from one on (R401). -/
def State.replayFrom (s : State) (k : Nat) (from' : Option (BitVec 16)) : State :=
  let l := s.link k
  let fs := match from' with
    | none => l.replay
    | some q => l.replay.dropWhile fun f => f.1 != q
  fs.foldl (fun s (q, cr, ms) => s.emit (.flit k q l.lastAck cr ms)) s

/-- Send an idle flit: ACK and CRED move on without traffic (R397). -/
def State.idle (s : State) (k : Nat) : State :=
  let l := s.link k
  (s.emit (.flit k 0 l.lastAck (credField l.freed) [])).modLink k fun l => { l with freed := credLeft l.freed }

/-- TRAIN (R396, R401): a link that trains comes up when a common version exists and the peer is the one of the domain record;
one that trained again goes on with its replay buffer (DESIGN CHOICE, log 24; DEDUCED, log 39). -/
def execTrain (link : Nat) (r : TrainRec) (s : State) : Host.Outcome State Fault Refusal :=
  let l := s.link link
  if l.phase != .training then .next s
  else if !r.fits || r.dev.toNat == s.dev || s.recorded link != some (r.dev.toNat, r.link.toNat) then .next (s.deadLink link)
  else
    let credit := fun (i : Nat) => (r.credit[i]?.getD 0).toNat
    let s := s.modLink link fun l =>
      { l with
        phase := .up, peer := some (r.dev.toNat, r.link.toNat), naks := 0, nakSent := false
        credits := if l.retrained then l.credits else #v[credit 0, credit 1, credit 2, credit 3] }
    let s := s.replayFrom link none
    .next (s.pump link ((s.link link).ready.length))

/-- TRAIN_RESEND (R396): every microsecond until a TRAIN has come. -/
def execTrainResend (link : Nat) (s : State) : Host.Outcome State Fault Refusal :=
  .next (if (s.link link).phase == .training then s.sendTrain link else s)

/-- NAK (R401): every flit from the SEQ named is sent again; 16 that name the same SEQ in a row take the link down. -/
def execNak (link : Nat) (seq : BitVec 16) (s : State) : Host.Outcome State Fault Refusal :=
  let l := s.link link
  if l.phase != .up then .next s
  else
    let n := if l.naks > 0 && l.nakSeq == seq then l.naks + 1 else 1
    let s := s.modLink link fun l => { l with naks := n, nakSeq := seq }
    .next (if n ≥ 16 then s.linkDown link 1 true else s.replayFrom link (some seq))

/-- DOWN (R397, R401): the other end has taken the link down. -/
def execDown (link : Nat) (_reason : BitVec 8) (s : State) : Host.Outcome State Fault Refusal := .next (s.linkDown link 0 false)

/-- The flits that an ACK covers leave the replay buffer (R401). -/
def ackReplay (ack : BitVec 16) (r : List (BitVec 16 × BitVec 16 × List (BitVec 8 × Msg))) :
    List (BitVec 16 × BitVec 16 × List (BitVec 8 × Msg)) :=
  if r.any (·.1 == ack) then (r.dropWhile (·.1 != ack)).drop 1 else r

/-- ACK and CRED of a flit without error (R397, R400, R401). -/
def Link.take (f : Flit) (l : Link) : Link :=
  let cr := fun (i : Nat) => l.credits[i]?.getD 0 + (f.cred.toNat / 16 ^ i) % 16
  { l with replay := ackReplay f.ack l.replay, credits := #v[cr 0, cr 1, cr 2, cr 3] }

/-- Messages that the receiver takes out of its buffers, to be returned as credits (R400). -/
def Link.free (ms : List (BitVec 8 × Msg)) (l : Link) : Link :=
  let n := fun (i : Nat) => l.freed[i]?.getD 0 + (ms.filter fun (t, _) => channelOf t == i).length
  { l with freed := #v[n 0, n 1, n 2, n 3] }

/-- A message of an accepted flit: this device's own, or one that it sends on (R402). -/
def State.deliverMessage (s : State) (t : BitVec 8) (m : Msg) : State :=
  if m.dst != s.dev then s.sendOrDrop t m
  else match messageEvent t m with | some e => s.later e | none => s

/-- MESSAGE_FLIT (R397, R399, R401, R402): accepted when its LCRC is correct and its SEQ is the next; another is discarded, the
first of a gap with a NAK. An unknown type takes the link down. -/
def execMessageFlit (link : Nat) (f : Flit) (s : State) : Host.Outcome State Fault Refusal :=
  let l := s.link link
  if l.phase != .up then .next s
  else if !f.lcrcOk || f.seq != l.expect then
    .next (if l.nakSent then s else (s.modLink link fun l => { l with nakSent := true }).emit (.nak link l.expect))
  else
    let s := s.modLink link fun l =>
      ((l.take f).free f.msgs : Link)
    let s := s.modLink link fun l => { l with expect := l.expect + 1, lastAck := f.seq, nakSent := false }
    let known := f.msgs.takeWhile fun (t, m) => (messageEvent t m).isSome
    let s := known.foldl (fun s (t, m) => s.deliverMessage t m) s
    if known.length < f.msgs.length then .next (s.linkDown link 4 true)
    else
      let before := (s.link link).nextSeq
      let s := s.pump link ((s.link link).ready.length)
      .next (if (s.link link).nextSeq == before then s.idle link else s)

/-- IDLE_FLIT (R397, R400): ACK and CRED. -/
def execIdleFlit (link : Nat) (f : Flit) (s : State) : Host.Outcome State Fault Refusal :=
  if (s.link link).phase != .up || !f.lcrcOk then .next s
  else
    let s := s.modLink link (Link.take f)
    .next (s.pump link ((s.link link).ready.length))

/-- ACK_TIMEOUT (R401): flits have waited 10 µs for an ACK. -/
def execAckTimeout (link : Nat) (s : State) : Host.Outcome State Fault Refusal :=
  .next (if (s.link link).replay.isEmpty then s else s.linkDown link 2 true)

/-- RETRAIN_TIMEOUT (R401 to R403): a link that has not come up again within 1 ms stays down, and peers that no link leads to
are lost. -/
def execRetrainTimeout (link : Nat) (s : State) : Host.Outcome State Fault Refusal :=
  .next (if (s.link link).phase == .training && (s.link link).retrained then s.deadLink link else s)

end Sys2Proof.Machine
end

