-- ==== Sys2Proof/Machine/Boot.lean ====
section
/-! DEFINITION. Reset and the stages of boot (R394), the device identity key and the alias key (R452, R455), the firmware
package (R454), the loss of power (R455), FREEZE (R448), the test access port (R449), and the clock's steps (R469). -/

namespace Sys2Proof.Machine

/-- Bytes cut or filled with zeros to a length that the spec fixes. -/
def fit (n : Nat) (bs : List Byte) : List Byte := (bs ++ zeros n).take n

/-- The ASCII strings of R450, R452 and R455. -/
def ctxAlias : List Byte := [0x4D, 0x34, 0x41, 0x4C, 0x49, 0x41, 0x53]
/-- M4FW. -/
def ctxFirmware : List Byte := [0x4D, 0x34, 0x46, 0x57]
/-- M4ATT. -/
def ctxReport : List Byte := [0x4D, 0x34, 0x41, 0x54, 0x54]
/-- M4-DIK. -/
def seedDik : List Byte := [0x4D, 0x34, 0x2D, 0x44, 0x49, 0x4B]
/-- M4-ALIAS. -/
def seedAlias : List Byte := [0x4D, 0x34, 0x2D, 0x41, 0x4C, 0x49, 0x41, 0x53]

/-- The Ed448 secret of the device identity key (R452). -/
def dikSecret (uds : List Byte) : List Byte := fit 57 (Config.shake256 (seedDik ++ uds) 57)

/-- The firmware package as the flash holds it, with the length its header gives (R454). -/
def Flash.signed (f : Flash) : List Byte := f.firmware.take (128 + natAt f.firmware 12 8)

/-- The checks of stage 0, in their order (R454). -/
def packageOk (fuses : Fuses) (f : Flash) : Bool :=
  let b := f.firmware
  let n := natAt b 12 8
  let kidx := natAt b 6 1
  let rkey := (b.drop 20).take 57
  242 + n ≤ b.length
    && (natAt b 0 4 == 0x5746344D && natAt b 4 1 == 1 && natAt b 7 1 == 0 && natAt b 77 51 == 0)
    && (kidx < 4 && !bit fuses.revoked.toNat kidx && fuses.roots[kidx]? == some (Config.shake256 rkey 64))
    && Config.ed448Verify rkey ctxFirmware f.signed ((b.drop (128 + n)).take 114)
    && (natAt b 8 4 ≤ 63 && fuses.svn ≤ natAt b 8 4)

/-- SVN of the firmware package (R454). -/
def Flash.svn (f : Flash) : Nat := natAt f.firmware 8 4

/-- The package with what stage 0 derives: the DIK public key, FWD, the alias key and its certificate (R452, R454, R455). -/
def Chip.derive (c : Chip) : Chip :=
  let dik := dikSecret c.fuses.uds
  let fwd := fit 64 (Config.shake256 c.flash.signed 64)
  let aliasKey := fit 57 (Config.shake256 (seedAlias ++ c.fuses.uds ++ fwd) 57)
  let cert := fit 57 (Config.ed448Public aliasKey) ++ fwd ++ leBytes 4 c.flash.svn
  { c with
    fwd := fwd
    svn := c.flash.svn
    aliasSecret := aliasKey
    aliasCert := cert ++ fit 114 (Config.ed448Sign dik ctxAlias cert)
    dikPub := fit 57 (Config.ed448Public dik) }

/-- What comes to the device from outside, so that a reset leaves it to come. -/
def Event.outside : Event → Bool
  | .hello _ | .jobCreate _ | .jobEnd _ | .loadImage _ | .start _ | .launch _ | .wait _ | .cancel _ | .memRead _ | .memWrite _
  | .breakCopy _ | .breakEnd _ | .checkpointSave _ | .checkpointRestore _ _ | .telemetry _ | .attest _ | .idcert _ | .config _
  | .uetInboundWrite _ _ _ _ | .uetInboundRead _ _ _ _ | .uudPacket _ | .train _ _ | .trainResend _ | .nak _ _ | .down _ _
  | .messageFlit _ _ | .idleFlit _ _ | .ackTimeout _ | .retrainTimeout _ | .reset | .freezePin | .extest | .idcode
  | .samplePreload | .tapFreeze | .tapStatus | .chainsel _ | .chainout | .memaddr _ | .memread | .resetreq | .bypass
  | .thermalThrottle _ | .clockStep _ | .thermalFreeze _ | .receiveQueueTraffic _ _ _ | .channelLost _ | .softError _ _
  | .powerLoss _ => true
  | _ => false

/-- The package at reset: fuses, flash and the counts that nothing clears stay (R451, R453) (DESIGN CHOICE, log 4). -/
def Chip.atReset (c : Chip) : Chip := { Chip.zero with fuses := c.fuses, flash := c.flash }

/-- The device as reset leaves it before stage 0: everything but fuses and flash is as State.reset has it; a link that was up
has been told (R394, R397) (DESIGN CHOICE, log 45). -/
def State.cleared (s : State) : State :=
  let s := (s.links.filter fun (_, l) => l.phase == .up).foldl (fun s (k, _) => s.emit (.down k 3)) s
  { State.reset with
    chip := s.chip.atReset
    out := s.out
    agenda := s.agenda.filter Event.outside
    now := s.now
    fresh := s.fresh }

/-- Boot ends at a stage with a status (R394): the device halts. -/
def State.haltBoot (s : State) (status : Byte) : State := { s with chip := { s.chip with boot := status, booted := true } }

/-- A link before it has come up for the first time, sending TRAIN (R396). -/
def Link.training : Link := { Link.zero with phase := .training }

/-- Stages 3 and 4 (R394, R396, R402, R455): ports and links, the route table, the SVN fuses (DESIGN CHOICE, log 24). -/
def State.bootServices (s : State) : State :=
  let s : State := { s with
    links := (List.range 16).map fun k => (k, Link.training)
    chip := { s.chip with ports := Config.portsUp s.fresh }
    fresh := s.fresh + 1 }
  let s := s.fillRoutes
  let s := (List.range 16).foldl State.sendTrain s
  { s with
    chip := { s.chip with
      fuses := { s.chip.fuses with svn := max s.chip.fuses.svn s.chip.svn }
      boot := 0
      booted := true } }

/-- Reset and boot (R394, R452, R454, R455) (DESIGN CHOICE, log 45). -/
def State.boot (s : State) : State :=
  let s := s.cleared
  if !packageOk s.chip.fuses s.chip.flash then
    { s with chip := { s.chip with boot := 1, booted := true, dikPub := fit 57 (Config.ed448Public (dikSecret s.chip.fuses.uds)) } }
  else
    let s : State := { s with chip := s.chip.derive, fresh := s.fresh + 1 }
    let f := (Config.stageFails s.fresh).toNat
    if 2 ≤ f && f ≤ 4 then s.haltBoot (BitVec.ofNat 8 f) else s.bootServices

/-- RESET (R394, R448, R452, R454, R455). -/
def execReset (s : State) : Host.Outcome State Fault Refusal := .next s.boot

/-- POWER_LOSS (R455): the device is off, with as many more counter fuses blown as the boot in progress had blown; the next boot
begins from reset. -/
def execPowerLoss (blown : Nat) (s : State) : Host.Outcome State Fault Refusal :=
  let c := s.chip
  let svn := if packageOk c.fuses c.flash then c.fuses.svn + min blown (c.flash.svn - c.fuses.svn) else c.fuses.svn
  let s := s.cleared
  .next { s with chip := { s.chip with fuses := { s.chip.fuses with svn := svn } } }

/-- FREEZE (R448): every clock stops; ports and links drop, and peers see the links fail. -/
def State.freeze (s : State) (pin : Bool) : State :=
  let s := if s.chip.frozen then s
    else (s.links.filter fun (_, l) => l.phase == .up).foldl (fun s (k, _) => s.emit (.down k 3)) s
  { s with
    links := s.links.map fun (k, l) => (k, { l with phase := .down })
    chip := { s.chip with frozen := true, frozenByPin := s.chip.frozenByPin || pin, ports := 0 } }

/-- FREEZE_PIN (R448). -/
def execFreezePin (s : State) : Host.Outcome State Fault Refusal := .next (s.freeze true)

/-- An instruction of the test access port is shifted in, and its data register out (R449). -/
def State.tap (s : State) (ir : Byte) (bits : List Byte) : State :=
  State.emit { s with chip := { s.chip with ir := ir, dr := bits } } (.tdo bits)

/-- EXTEST (R449): the boundary-scan register is not laid out by the spec. -/
def execExtest (s : State) : Host.Outcome State Fault Refusal :=
  .next (State.tap { s with fresh := s.fresh + 1 } 0x00 (bytes8 (Config.boundaryScan s.fresh)))

/-- IDCODE (R449). -/
def execIdcode (s : State) : Host.Outcome State Fault Refusal := .next (s.tap 0x01 (leBytes 4 0x14D3456F))

/-- SAMPLE/PRELOAD (R449). -/
def execSamplePreload (s : State) : Host.Outcome State Fault Refusal :=
  .next (State.tap { s with fresh := s.fresh + 1 } 0x02 (bytes8 (Config.boundaryScan s.fresh)))

/-- FREEZE of the test access port (R448, R449). -/
def execTapFreeze (s : State) : Host.Outcome State Fault Refusal := .next ((s.tap 0x10 []).freeze false)

/-- STATUS (R449). -/
def execTapStatus (s : State) : Host.Outcome State Fault Refusal :=
  let c := s.chip
  .next (s.tap 0x11 (leBytes 4 (c.boot.toNat + (if c.frozen then 0x100 else 0) + (if c.frozenByPin then 0x200 else 0))))

/-- CHAINSEL (R449). -/
def execChainsel (chain : BitVec 16) (s : State) : Host.Outcome State Fault Refusal :=
  .next (State.tap { s with chip := { s.chip with chain := chain } } 0x12 (leBytes 2 chain.toNat))

/-- A context's whole state in the order of R438 and R439, every register at full length and every strip in flight (R449)
(DESIGN CHOICE, log 44). -/
def chainOf (x : Ctx) : List Byte :=
  let low := ((savePieces x x.halted x.pc).filter fun (o, _) => o < 0x1000).flatMap (·.2)
  let vecs := fun (v : Vector VReg 32) (m : Vector MReg 16) =>
    v.toList.flatMap (fun r => leBytes 64 r.scale.toNat) ++ v.toList.flatMap (fun r => leBytes 1024 r.bytes.toNat)
      ++ m.toList.flatMap fun r => leBytes 1024 r.bits.toNat
  low ++ (x.t.toList.flatMap fun r => leBytes 16 r.scale.toNat) ++ vecs x.v x.m
    ++ (x.t.toList.flatMap fun r => leBytes 8192 r.bytes.toNat)
    ++ (x.ordered.flatMap fun t =>
      ((stripPieces 0 t).take 4).flatMap (·.2) ++ vecs t.v t.m ++ t.lanePcs.flatMap fun (_, pc) => bytes8 pc)
    ++ x.queue.flatMap entryBytes

/-- CHAINOUT (R449, R451): chains of kind 0 are a context; of the others the spec gives no widths (DESIGN CHOICE, log 44). -/
def execChainout (s : State) : Host.Outcome State Fault Refusal :=
  let n := s.chip.chain.toNat
  let bits := if n / 2 ^ 12 % 4 = 0 then chainOf (s.ctx (256 * (n / 2 ^ 14) + n % 256)) else Config.chainBits n
  .next (if s.chip.frozen then s.tap 0x13 bits else State.tap s 0x13 [])

/-- MEMADDR (R449). -/
def execMemaddr (addr : BitVec 48) (s : State) : Host.Outcome State Fault Refusal :=
  let c := s.chip
  .next (State.tap { s with chip := { c with memaddr := if c.frozen then addr else c.memaddr } } 0x14 (leBytes 6 addr.toNat))

/-- A line as its home holds it, without what caches hold newer (R132, R449). -/
def State.homeLine (s : State) (base : Nat) : List Byte :=
  (List.range 32).flatMap fun i =>
    let w := base + 4 * i
    leBytes 4 (((afind? s.homeOld w).getD (s.word w)).toNat)

/-- The check value that stands beside a line (R460): of a line whose check fails, a value that is not its CRC-32C
(DEDUCED, log 43). -/
def State.checkOf (s : State) (base : Nat) : Word32 :=
  let c := crc32c (s.homeLine base)
  if s.badCheck.contains base then ~~~ c else c

/-- MEMREAD (R449): the line, its check value, its poison bit. -/
def execMemread (s : State) : Host.Outcome State Fault Refusal :=
  let base := s.phys (s.chip.memaddr.toNat / 128 * 128)
  let bits := s.homeLine base ++ leBytes 4 (s.checkOf base).toNat ++ [if s.poisoned base then 1 else 0]
  .next (s.tap 0x15 (if s.chip.frozen then bits else []))

/-- RESETREQ (R449): reset on leaving Update-IR. -/
def execResetreq (s : State) : Host.Outcome State Fault Refusal := .next ((s.tap 0x16 []).boot)

/-- BYPASS (R449). -/
def execBypass (s : State) : Host.Outcome State Fault Refusal := .next (s.tap 0xFF [0])

/-- THERMAL_THROTTLE (R469): TEMP has reached 105 °C (DEDUCED, log 58). -/
def execThermalThrottle (temp : Int) (s : State) : Host.Outcome State Fault Refusal :=
  .next (if temp < 105 then s else { s with chip := { s.chip with throttling := true } })

/-- CLOCK_STEP (R469): 100 MHz down while TEMP has not fallen below 100 °C, else 100 MHz up, never above 2.1 GHz
(DEDUCED, log 58). -/
def execClockStep (temp : Int) (s : State) : Host.Outcome State Fault Refusal :=
  let c := s.chip
  let hot := c.throttling && temp ≥ 100
  .next { s with chip := { c with throttling := hot, clock := if hot then c.clock - 100 else min 2100 (c.clock + 100) } }

/-- THERMAL_FREEZE (R469): at 115 °C the device takes FREEZE (DEDUCED, log 58). -/
def execThermalFreeze (temp : Int) (s : State) : Host.Outcome State Fault Refusal :=
  .next (if temp < 115 then s else s.freeze false)

end Sys2Proof.Machine
end

