-- ==== Sys2Proof/Machine/Fleet.lean ====
section
/-! DEFINITION. Telemetry (R468), attestation (R453, R457, R459), and checkpoints (R463 to R465). -/

namespace Sys2Proof.Machine

/-- TELEMETRY (R406, R468): temperature, power and the time since stage 4 are free values
(DESIGN CHOICE, log 23; DEDUCED, log 48). -/
def execTelemetry (r : Req) (s : State) : Host.Outcome State Fault Refusal :=
  .next (s.serve r 0x60 fun s =>
    if r.payload.length != 0 then s.respond r 4 []
    else
      let c := s.chip
      let t := c.tele
      let up := (List.range 16).foldl (fun n k => if (s.link k).phase == .up then n + 2 ^ k else n) 0
      let free := fun (i : Nat) => (Config.freeDouble (s.fresh + i)).toNat
      let bs := [c.boot, c.ports] ++ leBytes 2 up ++ leBytes 2 (free 0) ++ leBytes 2 (free 1)
        ++ ([t.ce, t.ue, t.pcons, t.crcmm, t.evdrop, t.goign, t.uuddrop, t.ckpt, free 2, t.hfault].flatMap (leBytes 8)) ++ zeros 168
      State.respond { s with fresh := s.fresh + 3 } r 0 bs)

/-- IDCERT (R406, R453): the certificate as the flash holds it. -/
def execIdcert (r : Req) (s : State) : Host.Outcome State Fault Refusal :=
  .next (s.serve r 0x71 fun s =>
    if r.payload.length != 0 then s.respond r 4 [] else s.respond r 0 (fit 184 s.chip.flash.idcert))

/-- The attestation report but its signature (R457) (DEDUCED, log 48). -/
def State.report (s : State) (r : Req) (g : Option Image) : List Byte :=
  let c := s.chip
  leBytes 4 0x5441344D ++ [1, 0] ++ leBytes 2 690 ++ bytes8 c.fuses.serial ++ [c.boot] ++ leBytes 1 s.dev ++ zeros 2
    ++ leBytes 4 c.svn ++ bytes8 r.job ++ r.payload ++ c.fwd
    ++ (match g with | some q => fit 64 q.digest | none => zeros 64)
    ++ (match g with | some q => fit 64 (Config.shake256 q.owner 64) | none => zeros 64)
    ++ leBytes 8 (c.attests + 1) ++ zeros 8 ++ c.dikPub ++ c.aliasCert ++ zeros 8

/-- A report is signed by the alias key and sent; COUNT rises (R457, R459). -/
def State.attest (s : State) (r : Req) (g : Option Image) : State :=
  let b := s.report r g
  let sig := fit 114 (Config.ed448Sign s.chip.aliasSecret ctxReport b)
  State.respond { s with chip := { s.chip with attests := s.chip.attests + 1 } } r 0 (b ++ sig)

/-- ATTEST (R406, R457) (DEDUCED, log 48). -/
def execAttest (r : Req) (s : State) : Host.Outcome State Fault Refusal :=
  .next (s.serve r 0x70 fun s =>
    if r.payload.length != 32 then s.respond r 4 []
    else if r.job == 0 then s.attest r none
    else s.onJob r (.attest r) fun j s => s.attest r j.image)

/-- The leaves below a table (R441): virtual address, log2 of the page's size, leaf. -/
def State.leaves (s : State) : List (Nat × Nat × Nat) → Nat → Nat → List (Nat × Nat × Nat)
  | [], _, _ => []
  | (_, lo, w) :: r, table, va =>
      (List.range (2 ^ w)).flatMap fun i =>
        let e := Memory.readN s.mem (s.phys (table + 8 * i)) 8
        if !bit e 63 then []
        else if bit e 62 then [(va + i * 2 ^ lo, lo, e)]
        else s.leaves r (leafPaddr e) (va + i * 2 ^ lo)

/-- Pages of a job that lie in this device's memory. -/
def State.ownPages (s : State) (j : Job) : List (Nat × Nat × Nat) :=
  (s.leaves walkLevels j.root 0).filter fun (va, lo, e) =>
    let p : Page := ⟨e, lo, false⟩
    p.space != 2 && s.owns (p.paddr s va)

/-- A page record (R464): its head, then each line with check value and poison bit. -/
def State.pageRecord (s : State) (va bits e : Nat) : List Byte :=
  let pa := (⟨e, bits, false⟩ : Page).paddr s va
  leBytes 8 (va + bits) ++ zeros 8
    ++ (List.range (2 ^ bits / 128)).flatMap fun i =>
      let base := pa + 128 * i
      let bs := s.deviceBytes base 128
      let c := crc32c bs
      bs ++ leBytes 4 (if s.badCheck.contains base then ~~~ c else c).toNat ++ leBytes 4 (if s.poisoned base then 1 else 0)

/-- What a stream holds of a job behind its pages (R464), the job's graphs and launches with it. The spec lists it and gives it no
layout; the one below, in words of 8 bytes, is the model's. -/
structure JobState where
  nextLidx : Nat
  phase : Nat
  openGraphs : List Nat
  launches : List Launch
  areas : List (Nat × List Nat)
  slots : List (Nat × BitVec 512)
  counters : List Counter
  keys : List (Nat × Key)
  claims : List (Nat × Nat × Nat × List (Nat × AccRow))
  relays : List (Nat × Relay)

/-- A list as its length and its elements. -/
def putList {α : Type} (f : α → List Nat) (l : List α) : List Nat := l.length :: l.flatMap f
/-- n words of a number. -/
def putWords (n x : Nat) : List Nat := (List.range n).map fun i => x / 2 ^ (64 * i) % 2 ^ 64
/-- An optional number. -/
def putOpt : Option Nat → List Nat
  | none => [0]
  | some n => [1, n]
/-- A truth value. -/
def putBool (b : Bool) : Nat := if b then 1 else 0
/-- The status of a counter. -/
def putCStatus : CStatus → Nat
  | .running => 0
  | .complete => 1
  | .cancelled => 2

/-- What reads the words of a job state. -/
abbrev Get := StateT (List Nat) Option
/-- The next word. -/
def getWord : Get Nat := fun l => match l with | x :: r => some (x, r) | [] => none
/-- n elements. -/
def getMany {α : Type} (f : Get α) : Nat → Get (List α)
  | 0 => pure []
  | n + 1 => do
      let x ← f
      let r ← getMany f n
      pure (x :: r)
/-- A list. -/
def getList {α : Type} (f : Get α) : Get (List α) := do
  let n ← getWord
  fun l => if n ≤ l.length then getMany f n l else none
/-- A number of n words. -/
def getWords (n : Nat) : Get Nat := do
  let l ← getMany getWord n
  pure (l.foldr (fun x a => x + 2 ^ 64 * a) 0)
/-- An optional number. -/
def getOpt : Get (Option Nat) := do
  let k ← getWord
  if k = 0 then pure none else some <$> getWord
/-- A truth value. -/
def getBool : Get Bool := (· != 0) <$> getWord
/-- A 64-bit word. -/
def getW : Get Word := w64 <$> getWord
/-- The status of a counter. -/
def getCStatus : Get CStatus := (fun n => if n = 0 then .running else if n = 1 then .complete else .cancelled) <$> getWord

/-- A unit: one that runs has been stopped; one that is held in a context stays held (R463). -/
def putUnit (u : Unit') : List Nat :=
  let st := match u.status with
    | .waiting a => [0, a]
    | .saved a => [1, a]
    | .complete => [2, 0]
    | .cancelled => [3, 0]
    | .bound c => [4, c]
  [u.no, u.argp.toNat, u.stack.toNat, u.tblk.toNat, u.savea.toNat] ++ st
    ++ [putBool u.allocated, u.lastBind, putBool u.everBound] ++ putOpt u.home ++ putList (fun w => [w.toNat]) u.args
/-- A unit. -/
def getUnit : Get Unit' := do
  let no ← getWord
  let argp ← getW
  let stack ← getW
  let tblk ← getW
  let savea ← getW
  let k ← getWord
  let a ← getWord
  let allocated ← getBool
  let lastBind ← getWord
  let everBound ← getBool
  let home ← getOpt
  let args ← getList getW
  let status : UStatus := if k = 0 then .waiting a else if k = 1 then .saved a else if k = 2 then .complete
    else if k = 3 then .cancelled else .bound a
  pure { no := no, args := args, argp := argp, stack := stack, tblk := tblk, savea := savea, status := status
         allocated := allocated, lastBind := lastBind, home := home, everBound := everBound }

/-- An edge. -/
def putEdge (e : Edge) : List Nat :=
  [e.pred, putBool e.streaming, e.wmark.toNat, putBool e.satisfied] ++ putList (fun (a, n, k) => [a, n, BitVec.toNat k]) e.flush
/-- An entry of a flush list. -/
def getFlush : Get (Nat × Nat × BitVec 8) := do
  let a ← getWord
  let n ← getWord
  let k ← getWord
  pure (a, n, BitVec.ofNat 8 k)
/-- An edge. -/
def getEdge : Get Edge := do
  let pred ← getWord
  let streaming ← getBool
  let wmark ← getW
  let satisfied ← getBool
  let flush ← getList getFlush
  pure { pred := pred, streaming := streaming, flush := flush, wmark := wmark, satisfied := satisfied }

/-- What a handler serves. -/
def putServes : Option Serves → List Nat
  | none => [0]
  | some v => [1, v.ctx, v.lidx, v.unit, v.record.toNat, putBool v.event]
/-- What a handler serves. -/
def getServes : Get (Option Serves) := do
  let k ← getWord
  if k = 0 then pure none
  else
    let c ← getWord
    let l ← getWord
    let u ← getWord
    let r ← getW
    let e ← getBool
    pure (some ⟨c, l, u, r, e⟩)

/-- A launch. -/
def putLaunch (l : Launch) : List Nat :=
  [l.lidx, l.entry.toNat, l.prio, l.dies, putBool l.gang, l.quant, l.graph, l.phase, l.seed.toNat, putBool l.relay, l.stackBytes,
    l.spbase.toNat, l.splen] ++ putOpt l.eligible ++ putOpt (l.ended.map putCStatus) ++ putServes l.serves
    ++ putList putEdge l.edges ++ putList putUnit l.units
/-- A launch of the job in a slot. -/
def getLaunch (slot : Nat) : Get Launch := do
  let lidx ← getWord
  let entry ← getW
  let prio ← getWord
  let dies ← getWord
  let gang ← getBool
  let quant ← getWord
  let graph ← getWord
  let phase ← getWord
  let seed ← getWord
  let relay ← getBool
  let stackBytes ← getWord
  let spbase ← getW
  let splen ← getWord
  let eligible ← getOpt
  let ended ← getOpt
  let serves ← getServes
  let edges ← getList getEdge
  let units ← getList getUnit
  let st := fun (n : Nat) => if n = 0 then CStatus.running else if n = 1 then CStatus.complete else CStatus.cancelled
  pure { job := slot, lidx := lidx, entry := entry, prio := prio, dies := dies, gang := gang, quant := quant, graph := graph
         phase := phase, seed := BitVec.ofNat 32 seed, edges := edges, relay := relay, stackBytes := stackBytes, spbase := spbase
         splen := splen, units := units, eligible := eligible, serves := serves, ended := ended.map st }

/-- A counter: its handle but JOB. -/
def putCounter (c : Counter) : List Nat :=
  [hKind c.handle, hLidx c.handle, hUnit c.handle, c.handle.toNat % 16, c.value, putCStatus c.status, putBool c.tainted]
/-- A counter of the job in a slot. -/
def getCounter (slot : Nat) : Get Counter := do
  let k ← getWord
  let l ← getWord
  let u ← getWord
  let n ← getWord
  let v ← getWord
  let st ← getCStatus
  let t ← getBool
  pure { handle := handle k slot l u n, value := v, status := st, tainted := t }

/-- A key-rack entry. -/
def putKey (p : Nat × Key) : List Nat :=
  let k := p.2
  [p.1, k.tenure.toNat, k.holder, putBool k.held, k.scope.toNat, k.lenm1.toNat, k.base.toNat] ++ putOpt k.remoteHolder
/-- A key-rack entry of the job in a slot. -/
def getKey (slot : Nat) : Get (Nat × Key) := do
  let n ← getWord
  let tenure ← getWord
  let holder ← getWord
  let held ← getBool
  let scope ← getWord
  let lenm1 ← getWord
  let base ← getWord
  let far ← getOpt
  pure (n, { tenure := BitVec.ofNat 32 tenure, holder := holder, held := held, valid := true, scope := BitVec.ofNat 3 scope
             lenm1 := BitVec.ofNat 24 lenm1, base := BitVec.ofNat 50 base, job := slot, queue := [], granted := none
             remoteHolder := far })

/-- An accumulator row with MODE and TOUCH. -/
def putRow (p : Nat × AccRow) : List Nat :=
  let m := match p.2.mode with | .none => 0 | .fp => 1 | .int => 2
  [p.1, m, p.2.touch.toNat] ++ putWords 32 p.2.vals.toNat
/-- An accumulator row. -/
def getRow : Get (Nat × AccRow) := do
  let n ← getWord
  let m ← getWord
  let t ← getWord
  let v ← getWords 32
  pure (n, { vals := BitVec.ofNat 2048 v, mode := if m = 0 then .none else if m = 1 then .fp else .int, touch := BitVec.ofNat 64 t })

/-- A Relay bank. -/
def putBank (b : RelayBank) : List Nat :=
  (b.stations.toList.flatMap fun (t : Station) =>
    [t.kind, t.miss.toNat] ++ putList (fun (i, (e : RelayEntry)) => [i, e.key.toNat, e.mask.toNat, e.action.toNat, putBool e.valid])
      t.entries)
    ++ [b.overflow.toNat]
    ++ putList (fun (i, (c : RelayClass)) =>
      [i, c.nf] ++ putOpt (c.keep.map (·.toNat)) ++ putOpt (c.flag.map (·.toNat))
        ++ putList (fun (a, b) => putOpt a ++ putOpt b) c.keys) b.classes
/-- An entry of a station. -/
def getRelayEntry : Get (Nat × RelayEntry) := do
  let i ← getWord
  let k ← getW
  let m ← getW
  let a ← getW
  let v ← getBool
  pure (i, ⟨k, m, a, v⟩)
/-- A station. -/
def getStation : Get Station := do
  let k ← getWord
  let m ← getW
  let es ← getList getRelayEntry
  pure ⟨k, es, m⟩
/-- Two optional numbers. -/
def getPair : Get (Option Nat × Option Nat) := do
  let a ← getOpt
  let b ← getOpt
  pure (a, b)
/-- A record class. -/
def getClass : Get (Nat × RelayClass) := do
  let i ← getWord
  let nf ← getWord
  let keep ← getOpt
  let flag ← getOpt
  let keys ← getList getPair
  pure (i, { nf := nf, keep := keep.map (BitVec.ofNat 4), flag := flag.map (BitVec.ofNat 4), keys := keys })
/-- A Relay bank. -/
def getBank : Get RelayBank := do
  let ts ← getMany getStation 8
  let o ← getW
  let cs ← getList getClass
  pure { stations := Vector.ofFn fun i => ts[i.val]?.getD ⟨0, [], 0⟩, overflow := o, classes := cs }
/-- A cluster's Relay: both banks, ACT and counters. -/
def putRelay (p : Nat × Relay) : List Nat :=
  [p.1, putBool p.2.act] ++ putBank p.2.bank0 ++ putBank p.2.bank1 ++ putList (fun (a, n) => [a, n]) p.2.counters
/-- Two numbers. -/
def getTwo : Get (Nat × Nat) := do
  let a ← getWord
  let b ← getWord
  pure (a, b)
/-- A cluster's Relay of a job. -/
def getRelay (job : Nat) : Get (Nat × Relay) := do
  let k ← getWord
  let act ← getBool
  let b0 ← getBank
  let b1 ← getBank
  let cs ← getList getTwo
  pure (k, { Relay.zero with job := some job, act := act, bank0 := b0, bank1 := b1, counters := cs })

/-- A claim: cluster, band, holder, rows. -/
def putClaim (p : Nat × Nat × Nat × List (Nat × AccRow)) : List Nat := [p.1, p.2.1, p.2.2.1] ++ putList putRow p.2.2.2
/-- A claim. -/
def getClaim : Get (Nat × Nat × Nat × List (Nat × AccRow)) := do
  let k ← getWord
  let b ← getWord
  let h ← getWord
  let rs ← getList getRow
  pure (k, b, h, rs)

/-- A save area. -/
def getArea : Get (Nat × List Nat) := do
  let a ← getWord
  let ws ← getList getWord
  pure (a, ws)

/-- A slot. -/
def getSlot : Get (Nat × BitVec 512) := do
  let c ← getWord
  let x ← getWords 8
  pure (c, BitVec.ofNat 512 x)

/-- The words of a job state (DESIGN CHOICE, log 47). -/
def putJob (x : JobState) : List Nat :=
  [x.nextLidx, x.phase] ++ putList (fun g => [g]) x.openGraphs ++ putList putLaunch x.launches
    ++ putList (fun (a, ws) => a :: putList (fun w => [w]) ws) x.areas ++ putList (fun (c, b) => c :: putWords 8 (BitVec.toNat b)) x.slots
    ++ putList putCounter x.counters ++ putList putKey x.keys ++ putList putClaim x.claims ++ putList putRelay x.relays
/-- A job state for a job. -/
def getJob (id : BitVec 32) : Get JobState := do
  let n ← getWord
  let p ← getWord
  let gs ← getList getWord
  let ls ← getList (getLaunch (jobSlot id))
  let areas ← getList getArea
  let slots ← getList getSlot
  let cs ← getList (getCounter (jobSlot id))
  let ks ← getList (getKey (jobSlot id))
  let claims ← getList getClaim
  let rs ← getList (getRelay id.toNat)
  pure { nextLidx := n, phase := p, openGraphs := gs, launches := ls, areas := areas, slots := slots, counters := cs, keys := ks
         claims := claims, relays := rs }

/-- The units of a job with a save area. -/
def State.savedUnits (s : State) (slot : Nat) : List Unit' :=
  s.launches.flatMap fun l => if l.job == slot then l.units.filter (·.allocated) else []

/-- What a save holds of a job (R464) (DESIGN CHOICE, log 47). -/
def State.jobState (s : State) (j : Job) : JobState :=
  let slot := jobSlot j.id
  let us := s.savedUnits slot
  let holders := us.map fun u => savedTag u.savea.toNat
  { nextLidx := j.nextLidx
    phase := j.phase
    openGraphs := j.openGraphs
    launches := s.launches.filter fun l => l.job == slot
    areas := us.map fun u => (u.savea.toNat,
      (List.range 81920).map fun i => leNat ((((s.jobRead j.id u.savea.toNat 0xA0000).getD []).drop (8 * i)).take 8))
    slots := s.bind.filter fun (_, r) => slotJob r == j.id && slotState r == 2
    counters := s.counters.filter fun c => hJob c.handle == slot
    keys := s.keys.filter fun (_, k) => k.valid && k.job == slot
    claims := s.clusters.flatMap fun (k, c) =>
      ((List.range 4).zip c.holders.toList).filterMap fun (b, h) =>
        match h with
        | some n => if holders.contains n then some (k, b, n, c.rows.filter fun r => r.1 / 64 == b) else none
        | none => none
    relays := (s.clusters.filter fun (_, c) => c.relay.job == some j.id.toNat).map fun (k, c) => (k, c.relay) }

/-- IMGD of a job: zeros without an image. -/
def Job.digest (j : Job) : List Byte := match j.image with | some g => fit 64 g.digest | none => zeros 64

/-- The checkpoint stream of a job (R464) (DESIGN CHOICE, log 47). -/
def State.stream (s : State) (j : Job) : List Byte :=
  let pages := s.ownPages j
  let st := (putJob (s.jobState j)).flatMap (leBytes 8)
  leBytes 4 0x504B344D ++ [1, 0] ++ zeros 2 ++ bytes8 s.chip.fuses.serial ++ s.chip.fwd ++ j.digest ++ leBytes 8 pages.length
    ++ leBytes 8 st.length ++ zeros 96 ++ (pages.flatMap fun (va, lo, e) => s.pageRecord va lo e) ++ st

/-- Whether nothing of a job is in flight that a save waits for (R463). -/
def State.quiet (s : State) (id : BitVec 32) : Bool :=
  let slot := jobSlot id
  !(s.cores.any fun (_, c) => c.copies.any fun p => p.job == slot)
    && !(s.clusters.any fun (_, c) => c.drains.any fun d => d.job == slot)
    && !s.running.any fun c => slotJob (s.slot c) == id

/-- Whether a job's save may be written: nothing of the job is in flight. -/
def State.saveReady (s : State) (r : Req) : Bool := s.quiet r.jobId

/-- Whether a job has been cancelled as a whole (R39, R466). -/
def State.jobCancelled (s : State) (j : Job) : Bool :=
  (s.counter (handle 5 (jobSlot j.id) 0 0 0)).any fun c => c.status == .cancelled

/-- Write a line of a stream at a virtual address of a job, with its check value and its poison bit (R464). -/
def State.restoreLine (s : State) (j : Job) (va : Nat) (b : List Byte) : State :=
  match s.xlate j.root va with
  | none => s
  | some (pa, _) =>
      let bs := b.take 128
      let s := s.homeStoreLine pa bs (natAt b 132 4 % 2 == 1)
      if natAt b 128 4 == (crc32c bs).toNat then s else { s with badCheck := pa :: s.badCheck }

/-- A page that the job does not map is given to it, read-write. -/
def State.givePage (s : State) (j : Job) (va bits : Nat) : State :=
  if (s.xlate j.root va).isSome then s
  else
    match walkLevels.find? fun l => l.2.1 == bits with
    | none => s
    | some (level, _, _) =>
        let (pa, s) := s.takeAligned bits
        s.mapAt level j.root va (leafOf pa attrW) walkLevels

/-- Write the page records of a stream: the bytes after them, nothing when they do not fit (R464). -/
def State.restorePages (s : State) (j : Job) : Nat → List Byte → Option (List Byte × State)
  | 0, b => some (b, s)
  | n + 1, b =>
      let bits := natAt b 0 8 % 4096
      let va := natAt b 0 8 - bits
      let k := 2 ^ bits / 128
      if bits > 34 || b.length < 16 + 136 * k then none
      else
        let s := s.givePage j va bits
        let s := (List.range k).foldl (fun s i => s.restoreLine j (va + 128 * i) (b.drop (16 + 136 * i))) s
        s.restorePages j n (b.drop (16 + 136 * k))

/-- The units of launches whose context has another number now. -/
def Launch.moved (a b : Nat) (l : Launch) : Launch :=
  { l with
    units := l.units.map fun u => match u.status with | .bound c => if c = a then { u with status := .bound b } else u | _ => u
    serves := l.serves.map fun v => if v.ctx = a then { v with ctx := b } else v }

/-- A unit that was held when it was saved is held again, in its context where that is free (R463). -/
def State.holdAgain (s : State) (j : Job) (c : Nat) (r : BitVec 512) : State :=
  let free := (List.range Config.ctxCount).filter fun q => !s.busy.contains q && slotState (s.slot q) != 2
  match (if free.contains c then some c else free.head?) with
  | none => s
  | some q =>
      let lo := r &&& ~~~ ((BitVec.allOnes 512 >>> 480) <<< 128)
      { s with
        bind := aset s.bind q (lo ||| (j.id.setWidth 512 <<< 128))
        launches := s.launches.map fun l => if l.job == jobSlot j.id then l.moved c q else l }

/-- A job's state from a stream, its lines marked as its pages have them; the units wait to be bound from their save areas (R427, R464). -/
def State.restoreJob (s : State) (j : Job) (x : JobState) : State :=
  let slot := jobSlot j.id
  let s := s.modJob j.id fun j => { j with nextLidx := x.nextLidx, phase := x.phase, openGraphs := x.openGraphs }
  let s : State := { s with
    launches := (s.launches.filter fun l => l.job != slot) ++ x.launches
    counters := (s.counters.filter fun c => hJob c.handle != slot) ++ x.counters
    keys := x.keys.foldl (fun m (n, k) => aset m n k) s.keys
    residue := s.residue.filter fun (a, _) => !x.areas.any (·.1 == a) }
  let written := x.areas.foldl (fun s (a, ws) => s.jobWrite j.id a (ws.flatMap (leBytes 8))) s
  let s : State := { written with poison := s.poison, badCheck := s.badCheck }
  let s := x.claims.foldl (fun s (k, b, h, rows) => s.modCluster k fun c =>
    { c with
      holders := c.holders.setIfInBounds b (some h)
      rows := rows.foldl (fun m (i, r) => aset m i r) c.rows }) s
  let s := x.relays.foldl (fun s (k, r) => s.modCluster k fun c => { c with relay := r }) s
  let s := x.slots.foldl (fun s (c, r) => s.holdAgain j c r) s
  (List.range Config.dies).foldl (fun s d => s.later (.stewardBind d)) s.updateEligible

/-- A restore (R463 to R465): a stream that is none, or of another image, is refused with IMGFMT. A job with unfinished
launches answers BADSTATE. -/
def State.restore (s : State) (r : Req) (b : List Byte) (j : Job) : State :=
  let busy := s.launches.any fun l => l.job == jobSlot j.id && l.ended.isNone
  let form := natAt b 0 4 == 0x504B344D && natAt b 4 1 == 1 && natAt b 5 1 == 0 && 256 ≤ b.length
  if s.jobCancelled j || busy then s.respond r 2 []
  else if !form || (b.drop 80).take 64 != j.digest || j.image.isNone then s.respond r 6 []
  else
    match s.restorePages j (natAt b 144 8) (b.drop 256) with
    | none => s.respond r 6 []
    | some (rest, s') =>
        let n := natAt b 152 8
        let words := (List.range (n / 8)).map fun i => natAt rest (8 * i) 8
        match (if rest.length < n then none else (getJob j.id).run words) with
        | none => s.respond r 6 []
        | some (x, _) => (s'.restoreJob j x).respond r 0 []

/-- CHECKPOINT (R463): DIR says whether it saves or restores. A save stops the units, waits until copies and drains have
completed, and writes the stream. -/
def State.checkpoint (s : State) (r : Req) (me : Event) (b : List Byte) : State :=
  if r.payload.length != 16 || r.nat 15 1 > 1 then s.respond r 4 []
  else if r.nat 15 1 == 1 then s.onJob r me fun j s => s.restore r b j
  else if s.heldBack.contains me then
    let s : State := { s with heldBack := s.heldBack.filter (· != me) }
    match s.jobById r.jobId with
    | none => s.respond r 5 []
    | some j => s.emit (.checkpoint (w64 (r.nat 0 8)) (r.nat 8 7) (s.stream j))
  else
    s.onJob r me fun j s =>
      if s.jobCancelled j then s.respond r 2 []
      else
        let mine := s.running.filter fun c => slotJob (s.slot c) == j.id
        let s := s.modJob j.id fun j => { j with ckpt := some r }
        let s := mine.foldl State.switchOut s
        { s with heldBack := s.heldBack ++ [me] }

/-- CHECKPOINT, DIR 0 (R406, R463, R464). -/
def execCheckpointSave (r : Req) (s : State) : Host.Outcome State Fault Refusal :=
  .next (s.serve r 0x50 fun s => s.checkpoint r (.checkpointSave r) [])

/-- CHECKPOINT, DIR 1 (R406, R463 to R465), with what the tier holds. -/
def execCheckpointRestore (r : Req) (stream : List Byte) (s : State) : Host.Outcome State Fault Refusal :=
  .next (s.serve r 0x50 fun s => s.checkpoint r (.checkpointRestore r stream) stream)

/-- CHECKPOINT_TIER_ACK (R463): the save is answered, and the job goes on with what has waited behind it. -/
def execCheckpointTierAck (job : Nat) (s : State) : Host.Outcome State Fault Refusal :=
  match s.jobAt job with
  | none => .next s
  | some j =>
      match j.ckpt with
      | none => .next s
      | some r =>
          if s.heldBack.contains (.checkpointSave r) then .next s
          else
            let s := (s.modTele fun t => { t with ckpt := t.ckpt + 1 }).respond r 0 []
            let s := s.modJob j.id fun j => { j with ckpt := none, deferred := [] }
            let s : State := { s with agenda := s.agenda ++ j.deferred }
            .next ((List.range Config.dies).foldl (fun s d => s.later (.stewardBind d)) s)

end Sys2Proof.Machine
end

