-- ==== Sys2Proof/Machine/Rv.lean ====
section
/-! DEFINITION. The instructions of the control program (R381): RV64I with M, A, F, D, C, Zba and Zbb at user level. Their
encodings and meanings are those of the RISC-V unprivileged specification, which R381 names (PRESUMED, log 8). A cause is one
of R434; a stall tries the instruction again. -/

namespace Sys2Proof.Machine

/-- Bits lo to lo + n - 1 of an instruction. -/
def rvBits (i lo n : Nat) : Nat := i / 2 ^ lo % 2 ^ n
/-- The low w bits of a number as a signed 64-bit word. -/
def rvSext (w x : Nat) : Word := BitVec.ofInt 64 (sgn w (x % 2 ^ w))
/-- 1 or 0. -/
def rvBool (b : Bool) : Word := if b then 1 else 0
/-- The low 32 bits of a number as a signed 64-bit word. -/
def rvWord (x : Nat) : Word := rvSext 32 x

/-- x register r; x0 reads as 0. -/
def ControlProgram.rx (p : ControlProgram) (r : Nat) : Word := if r = 0 then 0 else p.x[r]?.getD 0
/-- Write x register r; a write of x0 is discarded. -/
def ControlProgram.setX (p : ControlProgram) (r : Nat) (v : Word) : ControlProgram :=
  if r = 0 then p else { p with x := p.x.setIfInBounds r v }
/-- The code of f register r in a format: binary32 (8) has to be boxed, else it reads as the canonical NaN. -/
def ControlProgram.rf (p : ControlProgram) (f r : Nat) : Nat :=
  let v := (p.f[r]?.getD 0).toNat
  if f = 64 then v else if v / 2 ^ 32 = 2 ^ 32 - 1 then v % 2 ^ 32 else quietNan 8
/-- Write the code of a format into f register r, a binary32 code boxed. -/
def ControlProgram.setF (p : ControlProgram) (f r c : Nat) : ControlProgram :=
  { p with f := p.f.setIfInBounds r (w64 (if f = 64 then c else (2 ^ 32 - 1) * 2 ^ 32 + c % 2 ^ 32)) }
/-- OR flags into fflags. -/
def ControlProgram.raise (p : ControlProgram) (fl : Flags) : ControlProgram :=
  { p with fcsr := p.fcsr ||| (fl &&& 0x1F).setWidth 8 }
/-- Go on elsewhere. -/
def ControlProgram.goto (p : ControlProgram) (pc : Word) : ControlProgram := { p with pc := pc }

/-- A cause of the control program (R434). -/
def rvTrap (c : Code) (s : State) : R α := .trap c 0 s
/-- An instruction that R381 does not allow. -/
def rvIllegal (s : State) : R α := .trap 0x01 0 s

/-- The 32-bit instruction of type I. -/
def rvI (imm rs1 f3 rd op : Nat) : Nat := imm % 4096 * 2 ^ 20 + rs1 * 2 ^ 15 + f3 * 2 ^ 12 + rd * 2 ^ 7 + op
/-- The 32-bit instruction of type R. -/
def rvR (f7 rs2 rs1 f3 rd op : Nat) : Nat := f7 * 2 ^ 25 + rs2 * 2 ^ 20 + rs1 * 2 ^ 15 + f3 * 2 ^ 12 + rd * 2 ^ 7 + op
/-- The 32-bit instruction of type S. -/
def rvS (imm rs2 rs1 f3 op : Nat) : Nat := rvR (imm / 32 % 128) rs2 rs1 f3 (imm % 32) op
/-- The 32-bit instruction of type B. -/
def rvB (imm rs2 rs1 f3 : Nat) : Nat :=
  rvR (imm / 4096 % 2 * 64 + imm / 32 % 64) rs2 rs1 f3 (imm / 2 % 16 * 2 + imm / 2048 % 2) 0x63
/-- JAL. -/
def rvJal (imm rd : Nat) : Nat :=
  imm / 2 ^ 20 % 2 * 2 ^ 31 + imm / 2 % 1024 * 2 ^ 21 + imm / 2048 % 2 * 2 ^ 20 + imm / 4096 % 256 * 2 ^ 12 + rd * 2 ^ 7 + 0x6F
/-- A w-bit field as a signed immediate, modulo 2^21. -/
def rvNeg (w x : Nat) : Nat := wrap 21 (sgn w x)

/-- Expand a compressed instruction of quadrant 0. -/
def rvC0 (h : Nat) : Option Nat :=
  let b := rvBits h
  let rd := b 2 3 + 8
  let rs := b 7 3 + 8
  let iw := b 10 3 * 8 + b 6 1 * 4 + b 5 1 * 64
  let id := b 10 3 * 8 + b 5 2 * 64
  match b 13 3 with
  | 0 =>
      let imm := b 11 2 * 16 + b 7 4 * 64 + b 6 1 * 4 + b 5 1 * 8
      if imm = 0 then none else some (rvI imm 2 0 rd 0x13)
  | 1 => some (rvI id rs 3 rd 0x07)
  | 2 => some (rvI iw rs 2 rd 0x03)
  | 3 => some (rvI id rs 3 rd 0x03)
  | 5 => some (rvS id rd rs 3 0x27)
  | 6 => some (rvS iw rd rs 2 0x23)
  | 7 => some (rvS id rd rs 3 0x23)
  | _ => none

/-- Expand a compressed instruction of quadrant 1. -/
def rvC1 (h : Nat) : Option Nat :=
  let b := rvBits h
  let rd := b 7 5
  let rc := b 7 3 + 8
  let r2 := b 2 3 + 8
  let sh := b 12 1 * 32 + b 2 5
  let imm := rvNeg 6 sh
  match b 13 3 with
  | 0 => some (rvI imm rd 0 rd 0x13)
  | 1 => if rd = 0 then none else some (rvI imm rd 0 rd 0x1B)
  | 2 => some (rvI imm 0 0 rd 0x13)
  | 3 =>
      if sh = 0 then none
      else if rd = 2 then
        some (rvI (rvNeg 10 (b 12 1 * 512 + b 6 1 * 16 + b 5 1 * 64 + b 3 2 * 128 + b 2 1 * 32)) 2 0 2 0x13)
      else some (imm % 2 ^ 20 * 2 ^ 12 + rd * 2 ^ 7 + 0x37)
  | 4 =>
      (match b 10 2 with
        | 0 => some (rvI sh rc 5 rc 0x13)
        | 1 => some (rvI (0x400 + sh) rc 5 rc 0x13)
        | 2 => some (rvI imm rc 7 rc 0x13)
        | _ =>
            match b 12 1 * 4 + b 5 2 with
            | 0 => some (rvR 0x20 r2 rc 0 rc 0x33)
            | 1 => some (rvR 0 r2 rc 4 rc 0x33)
            | 2 => some (rvR 0 r2 rc 6 rc 0x33)
            | 3 => some (rvR 0 r2 rc 7 rc 0x33)
            | 4 => some (rvR 0x20 r2 rc 0 rc 0x3B)
            | 5 => some (rvR 0 r2 rc 0 rc 0x3B)
            | _ => none)
  | 5 =>
      let j := b 12 1 * 2048 + b 11 1 * 16 + b 9 2 * 256 + b 8 1 * 1024 + b 7 1 * 64 + b 6 1 * 128 + b 3 3 * 2 + b 2 1 * 32
      some (rvJal (rvNeg 12 j) 0)
  | n =>
      let j := b 12 1 * 256 + b 10 2 * 8 + b 5 2 * 64 + b 3 2 * 2 + b 2 1 * 32
      some (rvB (rvNeg 9 j) 0 rc (n - 6))

/-- Expand a compressed instruction of quadrant 2. -/
def rvC2 (h : Nat) : Option Nat :=
  let b := rvBits h
  let rd := b 7 5
  let rs2 := b 2 5
  let id := b 12 1 * 32 + b 5 2 * 8 + b 2 3 * 64
  let sd := b 10 3 * 8 + b 7 3 * 64
  match b 13 3 with
  | 0 => some (rvI (b 12 1 * 32 + rs2) rd 1 rd 0x13)
  | 1 => some (rvI id 2 3 rd 0x07)
  | 2 => if rd = 0 then none else some (rvI (b 12 1 * 32 + b 4 3 * 4 + b 2 2 * 64) 2 2 rd 0x03)
  | 3 => if rd = 0 then none else some (rvI id 2 3 rd 0x03)
  | 4 =>
      if b 12 1 = 0 then
        (if rs2 != 0 then some (rvR 0 rs2 0 0 rd 0x33) else if rd = 0 then none else some (rvI 0 rd 0 0 0x67))
      else if rs2 != 0 then some (rvR 0 rs2 rd 0 rd 0x33)
      else if rd = 0 then some 0x00100073
      else some (rvI 0 rd 0 1 0x67)
  | 5 => some (rvS sd rs2 2 3 0x27)
  | 6 => some (rvS (b 9 4 * 4 + b 7 2 * 64) rs2 2 2 0x23)
  | _ => some (rvS sd rs2 2 3 0x23)

/-- The 32-bit instruction that a compressed one stands for (extension C) (PRESUMED, log 8). -/
def rvExpand (h : Nat) : Option Nat :=
  match h % 4 with
  | 0 => rvC0 h
  | 1 => rvC1 h
  | _ => rvC2 h

/-- Leading zeros of the w low bits of a number. -/
def rvClz (w x : Nat) : Nat := if x % 2 ^ w = 0 then w else w - 1 - Nat.log2 (x % 2 ^ w)
/-- Trailing zeros of the w low bits of a number. -/
def rvCtz (w x : Nat) : Nat := ((List.range w).find? fun k => bit x k).getD w
/-- Ones among the w low bits of a number. -/
def rvCpop (w x : Nat) : Nat := (setBits w x).length
/-- The bytes of a word in the other order. -/
def rvRev8 (x : Word) : Word := w64 (leNat (leBytes 8 x.toNat).reverse)
/-- Each byte all ones unless it is 0. -/
def rvOrc (x : Word) : Word := w64 (leNat ((leBytes 8 x.toNat).map fun (b : Byte) => if b = 0 then 0 else 0xFF))

/-- The high half of a product. -/
def rvMulh (a b : Int) : Word := BitVec.ofInt 64 (a * b / 2 ^ 64)
/-- Division and remainder of extension M, for w-bit operands: quotient toward zero; a division by 0 gives all ones, and the
dividend as remainder; the one overflow gives the dividend and 0. -/
def rvDiv (w : Nat) (signed rem : Bool) (a b : Nat) : Nat :=
  if b % 2 ^ w = 0 then (if rem then a else 2 ^ w - 1)
  else if signed then
    let x := sgn w (a % 2 ^ w)
    let y := sgn w (b % 2 ^ w)
    wrap w (if rem then x.tmod y else x.tdiv y)
  else if rem then a % 2 ^ w % (b % 2 ^ w) else a % 2 ^ w / (b % 2 ^ w)

/-- The operations of OP (PRESUMED, log 8). -/
def rvOp (f7 f3 : Nat) (a b : Word) : Option Word :=
  let n := b.toNat % 64
  let le := fun (signed : Bool) => if signed then a.toInt ≤ b.toInt else a.toNat ≤ b.toNat
  match f7, f3 with
  | 0, 0 => some (a + b)
  | 0, 1 => some (a <<< n)
  | 0, 2 => some (rvBool (a.slt b))
  | 0, 3 => some (rvBool (a.ult b))
  | 0, 4 => some (a ^^^ b)
  | 0, 5 => some (a >>> n)
  | 0, 6 => some (a ||| b)
  | 0, 7 => some (a &&& b)
  | 0x20, 0 => some (a - b)
  | 0x20, 5 => some (a.sshiftRight n)
  | 0x20, 4 => some (~~~ (a ^^^ b))
  | 0x20, 6 => some (a ||| ~~~ b)
  | 0x20, 7 => some (a &&& ~~~ b)
  | 1, 0 => some (a * b)
  | 1, 1 => some (rvMulh a.toInt b.toInt)
  | 1, 2 => some (rvMulh a.toInt b.toNat)
  | 1, 3 => some (rvMulh a.toNat b.toNat)
  | 1, 4 => some (w64 (rvDiv 64 true false a.toNat b.toNat))
  | 1, 5 => some (w64 (rvDiv 64 false false a.toNat b.toNat))
  | 1, 6 => some (w64 (rvDiv 64 true true a.toNat b.toNat))
  | 1, 7 => some (w64 (rvDiv 64 false true a.toNat b.toNat))
  | 0x10, 2 => some (b + (a <<< 1))
  | 0x10, 4 => some (b + (a <<< 2))
  | 0x10, 6 => some (b + (a <<< 3))
  | 5, 4 => some (if le true then a else b)
  | 5, 5 => some (if le false then a else b)
  | 5, 6 => some (if le true then b else a)
  | 5, 7 => some (if le false then b else a)
  | 0x30, 1 => some (a.rotateLeft n)
  | 0x30, 5 => some (a.rotateRight n)
  | _, _ => none

/-- The operations of OP-32; `rs2` is the second register's number, which ZEXT.H checks. -/
def rvOp32 (f7 f3 rs2 : Nat) (a b : Word) : Option Word :=
  let x : BitVec 32 := a.setWidth 32
  let n := b.toNat % 32
  let u := w64 (a.toNat % 2 ^ 32)
  match f7, f3 with
  | 0, 0 => some (rvWord (a + b).toNat)
  | 0, 1 => some (rvWord (x <<< n).toNat)
  | 0, 5 => some (rvWord (x >>> n).toNat)
  | 0x20, 0 => some (rvWord (a - b).toNat)
  | 0x20, 5 => some (rvWord (x.sshiftRight n).toNat)
  | 1, 0 => some (rvWord (a * b).toNat)
  | 1, 4 => some (rvWord (rvDiv 32 true false a.toNat b.toNat))
  | 1, 5 => some (rvWord (rvDiv 32 false false a.toNat b.toNat))
  | 1, 6 => some (rvWord (rvDiv 32 true true a.toNat b.toNat))
  | 1, 7 => some (rvWord (rvDiv 32 false true a.toNat b.toNat))
  | 4, 0 => some (b + u)
  | 4, 4 => if rs2 = 0 then some (w64 (a.toNat % 2 ^ 16)) else none
  | 0x10, 2 => some (b + (u <<< 1))
  | 0x10, 4 => some (b + (u <<< 2))
  | 0x10, 6 => some (b + (u <<< 3))
  | 0x30, 1 => some (rvWord (x.rotateLeft n).toNat)
  | 0x30, 5 => some (rvWord (x.rotateRight n).toNat)
  | _, _ => none

/-- The operations of OP-IMM; imm is the 12-bit field. -/
def rvOpImm (imm f3 : Nat) (a : Word) : Option Word :=
  let b := rvSext 12 imm
  let n := imm % 64
  match f3 with
  | 1 =>
      if imm / 64 = 0 then some (a <<< n)
      else
        (match imm with
          | 0x600 => some (w64 (rvClz 64 a.toNat))
          | 0x601 => some (w64 (rvCtz 64 a.toNat))
          | 0x602 => some (w64 (rvCpop 64 a.toNat))
          | 0x604 => some (rvSext 8 a.toNat)
          | 0x605 => some (rvSext 16 a.toNat)
          | _ => none)
  | 5 =>
      if imm / 64 = 0 then some (a >>> n)
      else if imm / 64 = 0x10 then some (a.sshiftRight n)
      else if imm / 64 = 0x18 then some (a.rotateRight n)
      else if imm = 0x287 then some (rvOrc a)
      else if imm = 0x6B8 then some (rvRev8 a)
      else none
  | f => rvOp 0 f a b

/-- The operations of OP-IMM-32. -/
def rvOpImm32 (imm f3 : Nat) (a : Word) : Option Word :=
  let x : BitVec 32 := a.setWidth 32
  let n := imm % 32
  match f3 with
  | 0 => some (rvWord (a + rvSext 12 imm).toNat)
  | 1 =>
      if imm / 32 = 0 then some (rvWord (x <<< n).toNat)
      else if imm / 64 = 2 then some (w64 (a.toNat % 2 ^ 32) <<< (imm % 64))
      else if imm = 0x600 then some (w64 (rvClz 32 a.toNat))
      else if imm = 0x601 then some (w64 (rvCtz 32 a.toNat))
      else if imm = 0x602 then some (w64 (rvCpop 32 a.toNat))
      else none
  | 5 =>
      if imm / 32 = 0 then some (rvWord (x >>> n).toNat)
      else if imm / 32 = 0x20 then some (rvWord (x.sshiftRight n).toNat)
      else if imm / 32 = 0x30 then some (rvWord (x.rotateRight n).toNat)
      else none
  | _ => none

/-- Whether a branch is taken. -/
def rvTaken (f3 : Nat) (a b : Word) : Option Bool :=
  match f3 with
  | 0 => some (a == b)
  | 1 => some (a != b)
  | 4 => some (a.slt b)
  | 5 => some (!a.slt b)
  | 6 => some (a.ult b)
  | 7 => some (!a.ult b)
  | _ => none

/-- The physical address of an access of a control program (R434, R441, R442): 2-byte fetches, aligned loads and stores
(DEDUCED, log 34). -/
def State.rvPlace (s : State) (j : Job) (va n : Nat) (writes fetch : Bool) : R Nat :=
  if va % n != 0 then rvTrap 0x22 s
  else if va ≥ 2 ^ 57 then rvTrap 0x20 s
  else if Config.spWindow ≤ va && va < Config.spEnd then rvTrap 0x21 s
  else
    match walkFrom s va j.root walkLevels with
    | .cause _ => rvTrap 0x20 s
    | .mig => .stall (.migration (w64 va)) s
    | .leaf e bits =>
        let p : Page := ⟨e, bits, false⟩
        let pa := p.paddr s va
        if p.space > 1 || unpopulated pa || (writes && (bit e 5 || !bit e 6)) || (fetch && !bit e 5) then rvTrap 0x21 s
        else .ok pa s

/-- n bytes of a line homed at a peer (R382, R399): what this device holds current of them, over the line that the home answers. -/
def State.rvFar (s : State) (pa n : Nat) : R Nat :=
  let key := rowLine pa
  (s.ask 0x02 { noMsg with pol := 1, addr := lineAddr key } key pa).bind fun (t, m) s =>
    if t != 0x20 then rvTrap m.aux s
    else if crc32c (lineOfBits m.line) != m.check then rvTrap 0xA1 s
    else if m.poison then rvTrap 0xA0 s
    else .ok (leNat (((s.heldOver key.base (lineOfBits m.line)).drop (pa % 128)).take n)) s

/-- Read n bytes at a place, checked for poison (R461, R462): here once peers that hold newer values have sent them, at a peer by
an untracked load (R382) (DEDUCED, log 34; DEDUCED, log 35). -/
def State.rvRead (s : State) (j : Job) (pa n : Nat) : R Nat :=
  if s.owns pa then
    (s.engineFirst (controlUnit (jobSlot j.id)) 0 .untrackedLoad pa n).andThen fun s =>
      (s.consume pa 0).andThen fun s => .ok (Memory.readN s.mem pa n) s
  else s.rvFar pa n

/-- Write n bytes at a place: at the home, which a peer's acknowledges (R382, R399) (DEDUCED, log 35). -/
def State.rvWrite (s : State) (j : Job) (pa n x : Nat) : R PUnit :=
  if s.owns pa then
    (s.engineFirst (controlUnit (jobSlot j.id)) 0 .throughStore pa n).andThen fun s => R.done (s.homeStore pa n x)
  else
    let key := rowLine pa
    let m := msgBytes { noMsg with pol := 1, addr := lineAddr key } (pa % 128) n x
    ((s.homeFirst pa n).ask 0x04 m key pa).bind fun (t, m) s =>
      if t == 0x22 then rvTrap m.aux s
      else R.done ((pieces pa n x).foldl (fun s (a, n, x) => s.acceptedAt none none a n x) s)

/-- A load of n bytes (DEDUCED, log 34). -/
def State.rvLoad (s : State) (j : Job) (va : Word) (n : Nat) : R Nat :=
  (s.rvPlace j va.toNat n false false).bind fun pa s => s.rvRead j pa n
/-- A store of n bytes (R382: weak, seen in the order of the accesses) (DEDUCED, log 35). -/
def State.rvStore (s : State) (j : Job) (va : Word) (n x : Nat) : R PUnit :=
  (s.rvPlace j va.toNat n true false).bind fun pa s => s.rvWrite j pa n (x % 2 ^ (8 * n))

/-- The instruction at an address (R381): its 32-bit form, none when it has none, and its size. -/
def State.rvFetch (s : State) (j : Job) (pc : Word) : R (Option Nat × Nat) :=
  let half := fun (s : State) (a : Word) => (s.rvPlace j a.toNat 2 false true).bind fun pa s => s.rvRead j pa 2
  (half s pc).bind fun lo s =>
    if lo % 4 != 3 then .ok (rvExpand lo, 2) s
    else if lo % 32 = 31 then .ok (none, 4) s
    else (half s (pc + 2)).bind fun hi s => .ok (some (lo + 65536 * hi), 4) s

/-- The reservation of a control program, gone (R381) (DEDUCED, log 35). -/
def State.unreserve (s : State) (n : Nat) : State := { s with reserved := adel s.reserved n }

/-- Perform an atomic of a control program (R381, R399): at the home on this device, or by an ATOM at a peer's: the old value. The
request carries the compare value in its key, so that a stalled instruction finds it again. -/
def State.rvAtom (s : State) (j : Job) (pa n min b cmp : Nat) : R Nat :=
  if s.owns pa then
    (s.engineFirst (controlUnit (jobSlot j.id)) 0 .atomic pa n).andThen fun s => (s.consume pa 0).andThen fun s =>
      let (r, s) := s.homeAtomic none (fun s w => s.requestWord none (homeNode w) 0 .atomic w) pa n min b cmp
      .ok r.1 s
  else
    let key := rowLine pa
    let m := atomMsg { noMsg with pol := 1, addr := lineAddr key } pa n min b cmp
    ((s.homeFirst pa n).ask 0x06 m key (pa + 2 ^ 64 * cmp)).bind fun (t, a) s =>
      if t != 0x24 then rvTrap a.aux s
      else
        let (r, s) := s.atomDone none pa n min b cmp a
        .ok r.1 s

/-- SC (R381): it succeeds on the reserved 8 bytes that nothing has written since. At a peer's home, whose writes this device does
not see, it compares the bytes with what the load-reserved read (DEDUCED, log 35). -/
def State.rvSc (s : State) (j : Job) (pa n b : Nat) : R Bool :=
  let slot := jobSlot j.id
  let held := (afind? s.reserved slot).filter fun (r : Reservation) => r.base == pa / 8 * 8
  if s.owns pa then
    if held.isNone then .ok false (s.unreserve slot)
    else (s.rvWrite j pa n b).andThen fun s => .ok true (s.unreserve slot)
  else
    let sent := s.requests.find? fun r => r.party == s.cur.party && r.mtype == 0x06 && r.addr % 2 ^ 64 == pa
    let cmp := match sent with
      | some r => some (r.addr / 2 ^ 64)
      | none => (held.filter fun r => r.size == n).map fun (r : Reservation) => r.value
    match cmp with
    | none => .ok false (s.unreserve slot)
    | some v => ((s.unreserve slot).rvAtom j pa n 9 b v).bind fun old s => .ok (old == v) s

/-- The MIN code of an AMO's operation (R300, R381). -/
def amoMin (f5 : Nat) : Option Nat :=
  match f5 with
  | 0 => some 0
  | 1 => some 8
  | 4 => some 3
  | 8 => some 2
  | 12 => some 1
  | 16 => some 4
  | 20 => some 5
  | 24 => some 6
  | 28 => some 7
  | _ => none

/-- LR, SC and the AMOs (extension A). -/
def rvAtomic (i : Nat) (j : Job) (p : ControlProgram) (s : State) : R ControlProgram :=
  let f5 := i / 2 ^ 27
  let n := if rvBits i 12 3 = 2 then 4 else 8
  let rd := rvBits i 7 5
  let rs2 := rvBits i 20 5
  let va := p.rx (rvBits i 15 5)
  let b := (p.rx rs2).toNat % 2 ^ (8 * n)
  if rvBits i 12 3 != 2 && rvBits i 12 3 != 3 then rvIllegal s
  else if f5 = 2 then
    if rs2 != 0 then rvIllegal s
    else
      (s.rvPlace j va.toNat n false false).bind fun pa s =>
        (s.rvRead j pa n).bind fun v s =>
          .ok (p.setX rd (rvSext (8 * n) v)) { s with reserved := aset s.reserved (jobSlot j.id) ⟨pa / 8 * 8, n, v⟩ }
  else if f5 = 3 then
    (s.rvPlace j va.toNat n true false).bind fun pa s =>
      (s.rvSc j pa n b).bind fun ok s => .ok (p.setX rd (rvBool !ok)) s
  else
    match amoMin f5 with
    | none => rvIllegal s
    | some k =>
        (s.rvPlace j va.toNat n true false).bind fun pa s =>
          (s.rvAtom j pa n k b 0).bind fun old s => .ok (p.setX rd (rvSext (8 * n) old)) s

/-- The value of a CSR of R381, and the state after: cycle, time and instret give free values. -/
def rvCsr (n : Nat) (p : ControlProgram) (s : State) : Option (Word × State) :=
  match n with
  | 1 => some (w64 (p.fcsr.toNat % 32), s)
  | 2 => some (w64 (p.fcsr.toNat / 32), s)
  | 3 => some (p.fcsr.setWidth 64, s)
  | 0xC00 | 0xC01 | 0xC02 => some (Config.freeDouble s.fresh, { s with fresh := s.fresh + 1 })
  | _ => none
/-- fcsr after a write of one of its CSRs. -/
def rvFcsr (n : Nat) (old : BitVec 8) (v : Nat) : BitVec 8 :=
  BitVec.ofNat 8 (if n = 1 then old.toNat / 32 * 32 + v % 32 else if n = 2 then v % 8 * 32 + old.toNat % 32 else v % 256)

/-- The CSR instructions. -/
def rvSystem (i : Nat) (p : ControlProgram) (s : State) : R ControlProgram :=
  let n := i / 2 ^ 20
  let f3 := rvBits i 12 3
  let src := rvBits i 15 5
  let a := if f3 < 4 then (p.rx src).toNat else src
  let writes := f3 % 4 = 1 || src != 0
  if f3 % 4 = 0 then rvIllegal s
  else
    match rvCsr n p s with
    | none => rvIllegal s
    | some (v, s) =>
        if n ≥ 0xC00 && writes then rvIllegal s
        else
          let w := if f3 % 4 = 1 then a else if f3 % 4 = 2 then v.toNat ||| a else (v &&& ~~~ w64 a).toNat
          let p := if writes then { p with fcsr := rvFcsr n p.fcsr w } else p
          .ok (p.setX (rvBits i 7 5) v) s

/-- Whether a number is below a format's least normal magnitude once it is rounded with an unbounded exponent range: the
tininess that RISC-V detects. -/
def rvTiny (x : Dy) (f : Nat) (mode : RMode) : Bool :=
  let F := ffmt f
  let e : Int := (ilog2 x.man : Int) + x.exp
  let emin : Int := 1 - (F.bias : Int)
  if e ≥ emin then false
  else if e < emin - 1 then true
  else (roundAt x.man x.exp (e - F.m) x.neg mode 0).1 != 2 ^ (F.m + 1)

/-- Round a value to a format as RISC-V does: NX beside OF, UF by tininess after rounding. -/
def rvFinish (f : Nat) (mode : RMode) (v : FVal) (fl : Flags) : Nat × Flags :=
  match v with
  | .nan _ _ => (quietNan f, fl)
  | .inf n => (infCode f n, fl)
  | .fin x =>
      let (c, g) := roundTo x f mode 0 false false
      let nx := g &&& fNX
      (c, fl ||| (if g &&& fOF != 0 then fOF ||| fNX else if x.man != 0 && nx != 0 && rvTiny x f mode then fNX ||| fUF else nx))

/-- A value to a w-bit integer: NaNs and numbers out of range give the nearest end of the range, with NV alone. -/
def rvToInt (w : Nat) (signed : Bool) (v : FVal) (mode : RMode) : Nat × Flags :=
  let lo : Int := if signed then -(2 ^ (w - 1)) else 0
  let hi : Int := if signed then 2 ^ (w - 1) - 1 else 2 ^ w - 1
  match v with
  | .nan _ _ => (wrap w hi, fNV)
  | .inf n => (wrap w (if n then lo else hi), fNV)
  | .fin x =>
      let (k, nx) := roundAt x.man x.exp 0 x.neg mode 0
      let i : Int := if x.neg then -(k : Int) else k
      if i < lo then (wrap w lo, fNV) else if i > hi then (wrap w hi, fNV) else (wrap w i, flagIf nx fNX)

/-- FCLASS. -/
def rvClass (f c : Nat) : Nat :=
  let F := ffmt f
  match decodeF f c with
  | .nan _ sig => if sig then 2 ^ 8 else 2 ^ 9
  | .inf n => if n then 1 else 2 ^ 7
  | .fin x =>
      if x.man = 0 then (if x.neg then 2 ^ 3 else 2 ^ 4)
      else if x.man < 2 ^ F.m then (if x.neg then 2 ^ 2 else 2 ^ 5)
      else if x.neg then 2 else 2 ^ 6

/-- The rounding mode of an instruction, dynamic through frm; none for a reserved one. -/
def ControlProgram.mode (p : ControlProgram) (rm : Nat) : Option RMode :=
  let m := if rm = 7 then p.fcsr.toNat / 32 else rm
  if m < 5 then some (rmOf m) else none

/-- The fused operations: opcodes 0x43, 0x47, 0x4B and 0x4F. -/
def rvFma (i : Nat) (p : ControlProgram) (s : State) : R ControlProgram :=
  let f := if rvBits i 25 2 = 0 then 8 else 64
  let k := rvBits i 2 2
  match p.mode (rvBits i 12 3) with
  | none => rvIllegal s
  | some m =>
      if rvBits i 25 2 > 1 then rvIllegal s
      else
        let a := decodeF f (p.rf f (rvBits i 15 5))
        let b := decodeF f (p.rf f (rvBits i 20 5))
        let c := decodeF f (p.rf f (rvBits i 27 5))
        let a := if k ≥ 2 then negV a else a
        let c := if k = 1 || k = 3 then negV c else c
        let (v, g) := fmaV a b c m
        let (r, g) := rvFinish f m v g
        .ok ((p.setF f (rvBits i 7 5) r).raise g) s

/-- OP-FP. -/
def rvFloat (i : Nat) (p : ControlProgram) (s : State) : R ControlProgram :=
  let fmt := rvBits i 25 2
  let f := if fmt = 0 then 8 else 64
  let w := if fmt = 0 then 32 else 64
  let f3 := rvBits i 12 3
  let rd := rvBits i 7 5
  let rs1 := rvBits i 15 5
  let rs2 := rvBits i 20 5
  let a := p.rf f rs1
  let b := p.rf f rs2
  let top := 2 ^ (w - 1)
  let rounded := fun (k : RMode → FVal × Flags) =>
    (match p.mode f3 with
      | none => rvIllegal s
      | some m =>
          let (v, g) := k m
          let (r, g) := rvFinish f m v g
          (.ok ((p.setF f rd r).raise g) s : R ControlProgram))
  let x := decodeF f a
  let y := decodeF f b
  if fmt > 1 then rvIllegal s
  else
    match i / 2 ^ 27 with
    | 0x00 => rounded fun m => addV x y m
    | 0x01 => rounded fun m => addV x (negV y) m
    | 0x02 => rounded fun _ => mulV x y
    | 0x03 => rounded fun _ => divV x y
    | 0x0B => if rs2 != 0 then rvIllegal s else rounded fun _ => sqrtV x
    | 0x04 =>
        let sign := b / top % 2
        let keep := a % top
        if f3 = 0 then .ok (p.setF f rd (keep + sign * top)) s
        else if f3 = 1 then .ok (p.setF f rd (keep + (1 - sign) * top)) s
        else if f3 = 2 then .ok (p.setF f rd (keep + (a / top % 2 + sign) % 2 * top)) s
        else rvIllegal s
    | 0x05 =>
        if f3 > 1 then rvIllegal s
        else
          let (r, g) := fminmax (f3 = 1) f false a b
          .ok ((p.setF f rd r).raise g) s
    | 0x08 =>
        let from' := if rs2 = 0 then 8 else 64
        if rs2 > 1 || rs2 = fmt then rvIllegal s
        else
          let v := decodeF from' (p.rf from' rs1)
          rounded fun _ => (v, sigFlag v)
    | 0x14 =>
        if f3 > 2 then rvIllegal s
        else
          let (r, g) := fcompare (if f3 = 2 then .eq else if f3 = 1 then .lt else .le) f false a b
          .ok ((p.setX rd (rvBool r)).raise g) s
    | 0x18 =>
        (match p.mode f3 with
          | none => rvIllegal s
          | some m =>
              if rs2 > 3 then rvIllegal s
              else
                let n := if rs2 < 2 then 32 else 64
                let (r, g) := rvToInt n (rs2 % 2 = 0) x m
                .ok ((p.setX rd (rvSext n r)).raise g) s)
    | 0x1A =>
        if rs2 > 3 then rvIllegal s
        else
          let n := if rs2 < 2 then 32 else 64
          let v := (p.rx rs1).toNat % 2 ^ n
          rounded fun _ => (.fin (dyOfInt (if rs2 % 2 = 0 then sgn n v else v)), 0)
    | 0x1C =>
        if rs2 != 0 then rvIllegal s
        else if f3 = 0 then .ok (p.setX rd (rvSext w (p.f[rs1]?.getD 0).toNat)) s
        else if f3 = 1 then .ok (p.setX rd (w64 (rvClass f a))) s
        else rvIllegal s
    | 0x1E => if rs2 != 0 || f3 != 0 then rvIllegal s else .ok (p.setF f rd ((p.rx rs1).toNat % 2 ^ w)) s
    | _ => rvIllegal s

/-- One instruction in its 32-bit form, of a size in bytes, other than `ecall` and `ebreak` (R381) (PRESUMED, log 8). -/
def rvRun (i size : Nat) (j : Job) (p : ControlProgram) (s : State) : R ControlProgram :=
  let pc := p.pc
  let next := pc + w64 size
  let rd := rvBits i 7 5
  let f3 := rvBits i 12 3
  let rs2 := rvBits i 20 5
  let f7 := i / 2 ^ 25
  let a := p.rx (rvBits i 15 5)
  let b := p.rx rs2
  let immI := rvSext 12 (i / 2 ^ 20)
  let immS := rvSext 12 (f7 * 32 + rd)
  let q := p.goto next
  let put := fun (o : Option Word) => (match o with | some v => .ok (q.setX rd v) s | none => rvIllegal s : R ControlProgram)
  match i % 128 with
  | 0x37 => put (some (rvWord (i / 4096 * 4096)))
  | 0x17 => put (some (pc + rvWord (i / 4096 * 4096)))
  | 0x6F =>
      let off := rvSext 21 (rvBits i 31 1 * 2 ^ 20 + rvBits i 12 8 * 4096 + rvBits i 20 1 * 2048 + rvBits i 21 10 * 2)
      .ok ((p.setX rd next).goto (pc + off)) s
  | 0x67 => if f3 != 0 then rvIllegal s else .ok ((p.setX rd next).goto ((a + immI) &&& ~~~ 1)) s
  | 0x63 =>
      let off := rvSext 13 (rvBits i 31 1 * 4096 + rvBits i 7 1 * 2048 + rvBits i 25 6 * 32 + rvBits i 8 4 * 2)
      (match rvTaken f3 a b with
        | some t => .ok (p.goto (if t then pc + off else next)) s
        | none => rvIllegal s)
  | 0x03 =>
      if f3 = 7 then rvIllegal s
      else
        let n := 2 ^ (f3 % 4)
        (s.rvLoad j (a + immI) n).bind fun v s => .ok (q.setX rd (if f3 < 4 then rvSext (8 * n) v else w64 v)) s
  | 0x23 =>
      if f3 > 3 then rvIllegal s
      else (s.rvStore j (a + immS) (2 ^ f3) b.toNat).andThen fun s => .ok q s
  | 0x07 =>
      if f3 != 2 && f3 != 3 then rvIllegal s
      else (s.rvLoad j (a + immI) (2 ^ f3)).bind fun v s => .ok (q.setF (if f3 = 2 then 8 else 64) rd v) s
  | 0x27 =>
      if f3 != 2 && f3 != 3 then rvIllegal s
      else (s.rvStore j (a + immS) (2 ^ f3) (p.f[rs2]?.getD 0).toNat).andThen fun s => .ok q s
  | 0x13 => put (rvOpImm (i / 2 ^ 20) f3 a)
  | 0x1B => put (rvOpImm32 (i / 2 ^ 20) f3 a)
  | 0x33 => put (rvOp f7 f3 a b)
  | 0x3B => put (rvOp32 f7 f3 rs2 a b)
  | 0x0F => if f3 = 0 then .ok q s else rvIllegal s
  | 0x2F => rvAtomic i j q s
  | 0x43 | 0x47 | 0x4B | 0x4F => rvFma i q s
  | 0x53 => rvFloat i q s
  | 0x73 => rvSystem i q s
  | _ => rvIllegal s

end Sys2Proof.Machine
end

