-- ==== Sys2Proof/Machine/Program.lean ====
section
/-! DEFINITION. The control program of a job (R381, R382, R434): one instruction, `ecall`, `ebreak`, and what its exceptions
become. -/

namespace Sys2Proof.Machine

/-- The control program of a slot that can move (R382, R434): its job lives and is not being saved, and it is neither held nor
in a system call. -/
def State.controlReady (s : State) (n : Nat) : Option (Job × ControlProgram) :=
  (s.jobAt n).bind fun j => j.cp.bind fun p =>
    if p.running && p.held.isNone && !p.calling && p.waits.isNone && j.ckpt.isNone then some (j, p) else none

/-- A control program in a system call, its program counter after the `ecall`. -/
def ControlProgram.enter (p : ControlProgram) : ControlProgram := { p with pc := p.pc + 4, calling := true }

/-- A control program that a record holds. -/
def ControlProgram.hold (a : Nat) (pc : Word) (p : ControlProgram) : ControlProgram := { p with pc := pc, held := some a }

/-- `ecall` (R224, R381, R382): the service of a7 is asked for; a number the Concierge does not provide answers all ones. The
release has no effect of its own: the stores of a control program are at the home already (DEDUCED, log 36). -/
def State.callConcierge (s : State) (n : Nat) (p : ControlProgram) : State :=
  let s := s.modControl n ControlProgram.enter
  match serviceOf (p.rx 17).toNat (.control n) with
  | some e => s.later e
  | none => s.answerCall (.control n) (BitVec.allOnes 64) none

/-- Cause 0xC1 holds the control program, its record in the memory of the job with DISP = 2 (R434, R437); it goes on at
`next` (DEDUCED, log 36). -/
def State.holdControl (s : State) (j : Job) (p : ControlProgram) (tval next : Word) : State :=
  let n := jobSlot j.id
  let (a, s) := s.allocVa n 64 attrW
  let r : TrapRecord := ⟨0xC1, 0, 0, 0, p.pc, tval, 0, 0, 0, 0, 0, 0⟩
  let s := (s.jobWrite j.id a r.bytes).jobWrite j.id (a + 3) [2]
  s.modControl n (ControlProgram.hold a next)

/-- The size of the instruction at an address, by its low bits (R381: extension C); 4 where it cannot be read. -/
def State.rvSize (s : State) (j : Job) (pc : Word) : Nat :=
  match s.rvFetch j pc with
  | .ok (_, k) _ => k
  | _ => 4

/-- `ebreak` at the control program's address (R434). -/
def State.breakControl (s : State) (j : Job) (p : ControlProgram) (tval : Word) : State :=
  s.holdControl j p tval (p.pc + w64 (s.rvSize j p.pc))

/-- ECALL (R381, R382, R409). -/
def execEcall (job : Nat) (s : State) : Host.Outcome State Fault Refusal :=
  match s.controlReady job with
  | none => .next s
  | some (_, p) => .next (s.callConcierge job p)

/-- EBREAK (R381, R434). -/
def execEbreak (job : Nat) (s : State) : Host.Outcome State Fault Refusal :=
  match s.controlReady job with
  | none => .next s
  | some (j, p) => .next (s.breakControl j p 0)

/-- The cause that an exception becomes (R434). -/
def causeOf : CpException → Code
  | .illegal => 0x01
  | .misaligned => 0x22
  | .accessFault => 0x21
  | .pageFault => 0x20
  | .breakpoint => 0xC1

/-- CONTROL_PROGRAM_EXCEPTION (R434): 0xC1 holds the control program, every other cause ends the job (DEDUCED, log 36). -/
def execControlProgramException (job : Nat) (e : CpException) (tval : Word) (s : State) : Host.Outcome State Fault Refusal :=
  match s.controlReady job with
  | none => .next s
  | some (j, p) => if causeOf e == 0xC1 then .next (s.breakControl j p tval) else .next (s.controlCause job (causeOf e))

/-- A control program after an instruction. -/
def ControlProgram.replace (q _p : ControlProgram) : ControlProgram := q

/-- One instruction of a control program (R381): a system call, a breakpoint, or one of `rvRun`. -/
def State.controlOne (s : State) (job : Nat) (j : Job) (p : ControlProgram) : R PUnit :=
  (s.rvFetch j p.pc).bind fun (i, size) s =>
    match i with
    | none => rvIllegal s
    | some 0x73 => R.done (s.callConcierge job p)
    | some 0x100073 => R.done (s.holdControl j p 0 (p.pc + w64 size))
    | some i => (rvRun i size j p s).bind fun q s => R.done (s.modControl job (ControlProgram.replace q))

/-- The answers that a control program has used go when its instruction is complete. -/
def State.usedUp (s : State) (job : Nat) : State :=
  { s with requests := s.requests.filter fun r => !(r.party.ctx == controlUnit job && r.answer.isSome) }

/-- CONTROL_PROGRAM_INSTRUCTION (R381, R382, R434): one instruction; on a stall, which is for a peer's answer or a page that
moves, it is tried again. -/
def execControlProgramInstruction (job : Nat) (s : State) : Host.Outcome State Fault Refusal :=
  match s.controlReady job with
  | none => .next s
  | some (j, p) =>
      match s.asParty (engineParty (controlUnit job)) fun s => s.controlOne job j p with
      | .ok _ s => .next (s.usedUp job)
      | .trap c _ s => .next (s.controlCause job c)
      | .stall _ s => .next s

end Sys2Proof.Machine
end

