-- ==== Sys2Proof/Machine/Dispatch.lean ====
section
/-! DEFINITION. The dispatcher: one arm per constructor of Instr, each one direct call of the meaning. -/

namespace Sys2Proof.Machine

/-- The meaning of an instruction, operation or happening. -/
def exec (i : Instr) (s : State) : Host.Outcome State Fault Refusal :=
  match i with
  | .nop g => Sys2Proof.Machine.execNop g s
  | .halt g => Sys2Proof.Machine.execHalt g s
  | .vsync g => Sys2Proof.Machine.execVsync g s
  | .fenceNear g => Sys2Proof.Machine.execFenceNear g s
  | .tlwait g => Sys2Proof.Machine.execTlwait g s
  | .wexit g => Sys2Proof.Machine.execWexit g s
  | .add g o => Sys2Proof.Machine.execAdd g o s
  | .sub g o => Sys2Proof.Machine.execSub g o s
  | .and g o => Sys2Proof.Machine.execAnd g o s
  | .or g o => Sys2Proof.Machine.execOr g o s
  | .xor g o => Sys2Proof.Machine.execXor g o s
  | .sll g o => Sys2Proof.Machine.execSll g o s
  | .srl g o => Sys2Proof.Machine.execSrl g o s
  | .sra g o => Sys2Proof.Machine.execSra g o s
  | .slt g o => Sys2Proof.Machine.execSlt g o s
  | .sltu g o => Sys2Proof.Machine.execSltu g o s
  | .mul g o => Sys2Proof.Machine.execMul g o s
  | .div g o => Sys2Proof.Machine.execDiv g o s
  | .divu g o => Sys2Proof.Machine.execDivu g o s
  | .rem g o => Sys2Proof.Machine.execRem g o s
  | .remu g o => Sys2Proof.Machine.execRemu g o s
  | .addi g o => Sys2Proof.Machine.execAddi g o s
  | .andi g o => Sys2Proof.Machine.execAndi g o s
  | .ori g o => Sys2Proof.Machine.execOri g o s
  | .xori g o => Sys2Proof.Machine.execXori g o s
  | .slli g o => Sys2Proof.Machine.execSlli g o s
  | .srli g o => Sys2Proof.Machine.execSrli g o s
  | .srai g o => Sys2Proof.Machine.execSrai g o s
  | .mov g o => Sys2Proof.Machine.execMov g o s
  | .not g o => Sys2Proof.Machine.execNot g o s
  | .clz g o => Sys2Proof.Machine.execClz g o s
  | .cpop g o => Sys2Proof.Machine.execCpop g o s
  | .beq g o => Sys2Proof.Machine.execBeq g o s
  | .bne g o => Sys2Proof.Machine.execBne g o s
  | .blt g o => Sys2Proof.Machine.execBlt g o s
  | .bge g o => Sys2Proof.Machine.execBge g o s
  | .bltu g o => Sys2Proof.Machine.execBltu g o s
  | .bgeu g o => Sys2Proof.Machine.execBgeu g o s
  | .jmp g o => Sys2Proof.Machine.execJmp g o s
  | .call g o => Sys2Proof.Machine.execCall g o s
  | .jr g o => Sys2Proof.Machine.execJr g o s
  | .callr g o => Sys2Proof.Machine.execCallr g o s
  | .callt g o => Sys2Proof.Machine.execCallt g o s
  | .vblk g o => Sys2Proof.Machine.execVblk g o s
  | .li g o => Sys2Proof.Machine.execLi g o s
  | .lea g o => Sys2Proof.Machine.execLea g o s
  | .fadd g o => Sys2Proof.Machine.execFadd g o s
  | .fsub g o => Sys2Proof.Machine.execFsub g o s
  | .fmul g o => Sys2Proof.Machine.execFmul g o s
  | .fdiv g o => Sys2Proof.Machine.execFdiv g o s
  | .feq g o => Sys2Proof.Machine.execFeq g o s
  | .flt g o => Sys2Proof.Machine.execFlt g o s
  | .fle g o => Sys2Proof.Machine.execFle g o s
  | .fcvt g o => Sys2Proof.Machine.execFcvt g o s
  | .crd g o => Sys2Proof.Machine.execCrd g o s
  | .cwr g o => Sys2Proof.Machine.execCwr g o s
  | .rqget g o => Sys2Proof.Machine.execRqget g o s
  | .setvl g o => Sys2Proof.Machine.execSetvl g o s
  | .setvlW g o => Sys2Proof.Machine.execSetvlW g o s
  | .vend g => Sys2Proof.Machine.execVend g s
  | .vrejoin g => Sys2Proof.Machine.execVrejoin g s
  | .vlset g o => Sys2Proof.Machine.execVlset g o s
  | .vloop g o => Sys2Proof.Machine.execVloop g o s
  | .vbany g o => Sys2Proof.Machine.execVbany g o s
  | .vbnone g o => Sys2Proof.Machine.execVbnone g o s
  | .vadd g o => Sys2Proof.Machine.execVadd g o s
  | .vsub g o => Sys2Proof.Machine.execVsub g o s
  | .vmul g o => Sys2Proof.Machine.execVmul g o s
  | .vmulh g o => Sys2Proof.Machine.execVmulh g o s
  | .vmin g o => Sys2Proof.Machine.execVmin g o s
  | .vmax g o => Sys2Proof.Machine.execVmax g o s
  | .vand g o => Sys2Proof.Machine.execVand g o s
  | .vor g o => Sys2Proof.Machine.execVor g o s
  | .vxor g o => Sys2Proof.Machine.execVxor g o s
  | .vsll g o => Sys2Proof.Machine.execVsll g o s
  | .vsrl g o => Sys2Proof.Machine.execVsrl g o s
  | .vsra g o => Sys2Proof.Machine.execVsra g o s
  | .vsadd g o => Sys2Proof.Machine.execVsadd g o s
  | .vssub g o => Sys2Proof.Machine.execVssub g o s
  | .vdiv g o => Sys2Proof.Machine.execVdiv g o s
  | .vrem g o => Sys2Proof.Machine.execVrem g o s
  | .vfadd g o => Sys2Proof.Machine.execVfadd g o s
  | .vfsub g o => Sys2Proof.Machine.execVfsub g o s
  | .vfmul g o => Sys2Proof.Machine.execVfmul g o s
  | .vfdiv g o => Sys2Proof.Machine.execVfdiv g o s
  | .vfma g o => Sys2Proof.Machine.execVfma g o s
  | .vfms g o => Sys2Proof.Machine.execVfms g o s
  | .vfmin g o => Sys2Proof.Machine.execVfmin g o s
  | .vfmax g o => Sys2Proof.Machine.execVfmax g o s
  | .vfsqrt g o => Sys2Proof.Machine.execVfsqrt g o s
  | .vfabs g o => Sys2Proof.Machine.execVfabs g o s
  | .vfneg g o => Sys2Proof.Machine.execVfneg g o s
  | .vmseq g o => Sys2Proof.Machine.execVmseq g o s
  | .vmsne g o => Sys2Proof.Machine.execVmsne g o s
  | .vmslt g o => Sys2Proof.Machine.execVmslt g o s
  | .vmsle g o => Sys2Proof.Machine.execVmsle g o s
  | .vmsltu g o => Sys2Proof.Machine.execVmsltu g o s
  | .vmsleu g o => Sys2Proof.Machine.execVmsleu g o s
  | .vmfeq g o => Sys2Proof.Machine.execVmfeq g o s
  | .vmflt g o => Sys2Proof.Machine.execVmflt g o s
  | .vmfle g o => Sys2Proof.Machine.execVmfle g o s
  | .mand g o => Sys2Proof.Machine.execMand g o s
  | .mor g o => Sys2Proof.Machine.execMor g o s
  | .mxor g o => Sys2Proof.Machine.execMxor g o s
  | .mnot g o => Sys2Proof.Machine.execMnot g o s
  | .mmv g o => Sys2Proof.Machine.execMmv g o s
  | .msbf g o => Sys2Proof.Machine.execMsbf g o s
  | .msif g o => Sys2Proof.Machine.execMsif g o s
  | .msof g o => Sys2Proof.Machine.execMsof g o s
  | .mcnt g o => Sys2Proof.Machine.execMcnt g o s
  | .many g o => Sys2Proof.Machine.execMany g o s
  | .mfirst g o => Sys2Proof.Machine.execMfirst g o s
  | .vmv g o => Sys2Proof.Machine.execVmv g o s
  | .vid g o => Sys2Proof.Machine.execVid g o s
  | .vcompress g o => Sys2Proof.Machine.execVcompress g o s
  | .vexpand g o => Sys2Proof.Machine.execVexpand g o s
  | .vslideup g o => Sys2Proof.Machine.execVslideup g o s
  | .vslidedn g o => Sys2Proof.Machine.execVslidedn g o s
  | .vgather g o => Sys2Proof.Machine.execVgather g o s
  | .vmerge g o => Sys2Proof.Machine.execVmerge g o s
  | .vredsum g o => Sys2Proof.Machine.execVredsum g o s
  | .vfredo g o => Sys2Proof.Machine.execVfredo g o s
  | .vfredt g o => Sys2Proof.Machine.execVfredt g o s
  | .vredmin g o => Sys2Proof.Machine.execVredmin g o s
  | .vredmax g o => Sys2Proof.Machine.execVredmax g o s
  | .vcvt g o => Sys2Proof.Machine.execVcvt g o s
  | .vunpk g o => Sys2Proof.Machine.execVunpk g o s
  | .vpilgrim g o => Sys2Proof.Machine.execVpilgrim g o s
  | .vqpush g o => Sys2Proof.Machine.execVqpush g o s
  | .vqpop g o => Sys2Proof.Machine.execVqpop g o s
  | .vdetach g o => Sys2Proof.Machine.execVdetach g o s
  | .vld g o => Sys2Proof.Machine.execVld g o s
  | .vst g o => Sys2Proof.Machine.execVst g o s
  | .vlds g o => Sys2Proof.Machine.execVlds g o s
  | .vsts g o => Sys2Proof.Machine.execVsts g o s
  | .vldx g o => Sys2Proof.Machine.execVldx g o s
  | .vstx g o => Sys2Proof.Machine.execVstx g o s
  | .vldff g o => Sys2Proof.Machine.execVldff g o s
  | .vtld g o => Sys2Proof.Machine.execVtld g o s
  | .vtst g o => Sys2Proof.Machine.execVtst g o s
  | .lb g o => Sys2Proof.Machine.execLb g o s
  | .lbu g o => Sys2Proof.Machine.execLbu g o s
  | .lw g o => Sys2Proof.Machine.execLw g o s
  | .lwu g o => Sys2Proof.Machine.execLwu g o s
  | .ld g o => Sys2Proof.Machine.execLd g o s
  | .sb g o => Sys2Proof.Machine.execSb g o s
  | .sw g o => Sys2Proof.Machine.execSw g o s
  | .sd g o => Sys2Proof.Machine.execSd g o s
  | .vbind g o => Sys2Proof.Machine.execVbind g o s
  | .vbindz g o => Sys2Proof.Machine.execVbindz g o s
  | .vbindn g o => Sys2Proof.Machine.execVbindn g o s
  | .vunbind g o => Sys2Proof.Machine.execVunbind g o s
  | .pcopy g o => Sys2Proof.Machine.execPcopy g o s
  | .pcopyz g o => Sys2Proof.Machine.execPcopyz g o s
  | .coll g o => Sys2Proof.Machine.execColl g o s
  | .racq g o => Sys2Proof.Machine.execRacq g o s
  | .rrel g o => Sys2Proof.Machine.execRrel g o s
  | .fenceFar g o => Sys2Proof.Machine.execFenceFar g o s
  | .aadd g o => Sys2Proof.Machine.execAadd g o s
  | .aand g o => Sys2Proof.Machine.execAand g o s
  | .aor g o => Sys2Proof.Machine.execAor g o s
  | .axor g o => Sys2Proof.Machine.execAxor g o s
  | .amin g o => Sys2Proof.Machine.execAmin g o s
  | .amax g o => Sys2Proof.Machine.execAmax g o s
  | .aminu g o => Sys2Proof.Machine.execAminu g o s
  | .amaxu g o => Sys2Proof.Machine.execAmaxu g o s
  | .aswap g o => Sys2Proof.Machine.execAswap g o s
  | .acas g o => Sys2Proof.Machine.execAcas g o s
  | .afadd g o => Sys2Proof.Machine.execAfadd g o s
  | .afmin g o => Sys2Proof.Machine.execAfmin g o s
  | .afmax g o => Sys2Proof.Machine.execAfmax g o s
  | .vaadd g o => Sys2Proof.Machine.execVaadd g o s
  | .vafadd g o => Sys2Proof.Machine.execVafadd g o s
  | .vamin g o => Sys2Proof.Machine.execVamin g o s
  | .vamax g o => Sys2Proof.Machine.execVamax g o s
  | .vafmin g o => Sys2Proof.Machine.execVafmin g o s
  | .vafmax g o => Sys2Proof.Machine.execVafmax g o s
  | .vrsadd g o => Sys2Proof.Machine.execVrsadd g o s
  | .vrsfadd g o => Sys2Proof.Machine.execVrsfadd g o s
  | .bararv g o => Sys2Proof.Machine.execBararv g o s
  | .bardrop g o => Sys2Proof.Machine.execBardrop g o s
  | .barwait g o => Sys2Proof.Machine.execBarwait g o s
  | .wcarr g o => Sys2Proof.Machine.execWcarr g o s
  | .wcwait g o => Sys2Proof.Machine.execWcwait g o s
  | .wccancel g o => Sys2Proof.Machine.execWccancel g o s
  | .tld g o => Sys2Proof.Machine.execTld g o s
  | .tst g o => Sys2Proof.Machine.execTst g o s
  | .tmma g o => Sys2Proof.Machine.execTmma g o s
  | .tmmaS g o => Sys2Proof.Machine.execTmmaS g o s
  | .tdrain g o => Sys2Proof.Machine.execTdrain g o s
  | .tcvt g o => Sys2Proof.Machine.execTcvt g o s
  | .tzero g o => Sys2Proof.Machine.execTzero g o s
  | .mattach g o => Sys2Proof.Machine.execMattach g o s
  | .mdetach g => Sys2Proof.Machine.execMdetach g s
  | .rrun g o => Sys2Proof.Machine.execRrun g o s
  | .rtw g o => Sys2Proof.Machine.execRtw g o s
  | .rcommit g o => Sys2Proof.Machine.execRcommit g o s
  | .rclass g o => Sys2Proof.Machine.execRclass g o s
  | .rmiss g o => Sys2Proof.Machine.execRmiss g o s
  | .rstat g o => Sys2Proof.Machine.execRstat g o s
  | .scall g o => Sys2Proof.Machine.execScall g o s
  | .trap g o => Sys2Proof.Machine.execTrap g o s
  | .bkpt tl => Sys2Proof.Machine.execBkpt tl s
  | .kadd o => Sys2Proof.Machine.execKadd o s
  | .ksub o => Sys2Proof.Machine.execKsub o s
  | .kmul o => Sys2Proof.Machine.execKmul o s
  | .kand o => Sys2Proof.Machine.execKand o s
  | .kor o => Sys2Proof.Machine.execKor o s
  | .kxor o => Sys2Proof.Machine.execKxor o s
  | .ksll o => Sys2Proof.Machine.execKsll o s
  | .ksrl o => Sys2Proof.Machine.execKsrl o s
  | .ksra o => Sys2Proof.Machine.execKsra o s
  | .kslt o => Sys2Proof.Machine.execKslt o s
  | .kaddi o => Sys2Proof.Machine.execKaddi o s
  | .kli o => Sys2Proof.Machine.execKli o s
  | .kbeq o => Sys2Proof.Machine.execKbeq o s
  | .kbne o => Sys2Proof.Machine.execKbne o s
  | .kblt o => Sys2Proof.Machine.execKblt o s
  | .kbge o => Sys2Proof.Machine.execKbge o s
  | .kjmp o => Sys2Proof.Machine.execKjmp o s
  | .kend o => Sys2Proof.Machine.execKend o s
  | .lshape o => Sys2Proof.Machine.execLshape o s
  | .lwait o => Sys2Proof.Machine.execLwait o s
  | .lfence o => Sys2Proof.Machine.execLfence o s
  | .xld o => Sys2Proof.Machine.execXld o s
  | .xst o => Sys2Proof.Machine.execXst o s
  | .xbcast o => Sys2Proof.Machine.execXbcast o s
  | .xadd o => Sys2Proof.Machine.execXadd o s
  | .xsub o => Sys2Proof.Machine.execXsub o s
  | .xmul o => Sys2Proof.Machine.execXmul o s
  | .xfma o => Sys2Proof.Machine.execXfma o s
  | .xmin o => Sys2Proof.Machine.execXmin o s
  | .xmax o => Sys2Proof.Machine.execXmax o s
  | .xcvt o => Sys2Proof.Machine.execXcvt o s
  | .xmma o => Sys2Proof.Machine.execXmma o s
  | .lortarAsyncComplete ctx id => Sys2Proof.Machine.execLortarAsyncComplete ctx id s
  | .ecall job => Sys2Proof.Machine.execEcall job s
  | .ebreak job => Sys2Proof.Machine.execEbreak job s
  | .controlProgramException job e tval => Sys2Proof.Machine.execControlProgramException job e tval s
  | .stripDispatch ctx => Sys2Proof.Machine.execStripDispatch ctx s
  | .watermarkRecheck ctx => Sys2Proof.Machine.execWatermarkRecheck ctx s
  | .blockCommit ctx => Sys2Proof.Machine.execBlockCommit ctx s
  | .waitResume p => Sys2Proof.Machine.execWaitResume p s
  | .replyPush ctx stripb => Sys2Proof.Machine.execReplyPush ctx stripb s
  | .preemptionRequest ctx => Sys2Proof.Machine.execPreemptionRequest ctx s
  | .trapDelivery p code tval imprecise => Sys2Proof.Machine.execTrapDelivery p code tval imprecise s
  | .handlerComplete ctx => Sys2Proof.Machine.execHandlerComplete ctx s
  | .copyComplete core id => Sys2Proof.Machine.execCopyComplete core id s
  | .copyFault core id written code addr => Sys2Proof.Machine.execCopyFault core id written code addr s
  | .satchelCheck ctx => Sys2Proof.Machine.execSatchelCheck ctx s
  | .scratchpadFrameFill ctx page => Sys2Proof.Machine.execScratchpadFrameFill ctx page s
  | .collectiveRun core id others => Sys2Proof.Machine.execCollectiveRun core id others s
  | .drainComplete ctx id => Sys2Proof.Machine.execDrainComplete ctx id s
  | .drainContributionFault ctx id accepted code => Sys2Proof.Machine.execDrainContributionFault ctx id accepted code s
  | .barrierEventsApply job addr events => Sys2Proof.Machine.execBarrierEventsApply job addr events s
  | .relayAdmission cluster => Sys2Proof.Machine.execRelayAdmission cluster s
  | .relayRecordLeave cluster => Sys2Proof.Machine.execRelayRecordLeave cluster s
  | .rcommitCopyback cluster => Sys2Proof.Machine.execRcommitCopyback cluster s
  | .homeRequest core req line => Sys2Proof.Machine.execHomeRequest core req line s
  | .coreDropLine core line => Sys2Proof.Machine.execCoreDropLine core line s
  | .l2DropLine die line => Sys2Proof.Machine.execL2DropLine die line s
  | .uLineLeaseExpiry core line => Sys2Proof.Machine.execULineLeaseExpiry core line s
  | .edgeFlush job lidx edge => Sys2Proof.Machine.execEdgeFlush job lidx edge s
  | .stewardBind die => Sys2Proof.Machine.execStewardBind die s
  | .quantumExpiry ctx => Sys2Proof.Machine.execQuantumExpiry ctx s
  | .accumulatorRevoke ctx => Sys2Proof.Machine.execAccumulatorRevoke ctx s
  | .l2ModeChange die partitioned => Sys2Proof.Machine.execL2ModeChange die partitioned s
  | .go ctx => Sys2Proof.Machine.execGo ctx s
  | .stop ctx => Sys2Proof.Machine.execStop ctx s
  | .registerWrite r => Sys2Proof.Machine.execRegisterWrite r s
  | .shootdown job va leaf => Sys2Proof.Machine.execShootdown job va leaf s
  | .pageMigration job va paddr => Sys2Proof.Machine.execPageMigration job va paddr s
  | .migWalkRetry p => Sys2Proof.Machine.execMigWalkRetry p s
  | .hello r => Sys2Proof.Machine.execHello r s
  | .jobCreate r => Sys2Proof.Machine.execJobCreate r s
  | .jobEnd r => Sys2Proof.Machine.execJobEnd r s
  | .loadImage r => Sys2Proof.Machine.execLoadImage r s
  | .start r => Sys2Proof.Machine.execStart r s
  | .launch r => Sys2Proof.Machine.execLaunch r s
  | .wait r => Sys2Proof.Machine.execWait r s
  | .cancel r => Sys2Proof.Machine.execCancel r s
  | .memRead r => Sys2Proof.Machine.execMemRead r s
  | .memWrite r => Sys2Proof.Machine.execMemWrite r s
  | .breakCopy r => Sys2Proof.Machine.execBreakCopy r s
  | .breakEnd r => Sys2Proof.Machine.execBreakEnd r s
  | .checkpointSave r => Sys2Proof.Machine.execCheckpointSave r s
  | .checkpointRestore r stream => Sys2Proof.Machine.execCheckpointRestore r stream s
  | .telemetry r => Sys2Proof.Machine.execTelemetry r s
  | .attest r => Sys2Proof.Machine.execAttest r s
  | .idcert r => Sys2Proof.Machine.execIdcert r s
  | .config r => Sys2Proof.Machine.execConfig r s
  | .syscallVersion c => Sys2Proof.Machine.execSyscallVersion c s
  | .syscallLaunch c => Sys2Proof.Machine.execSyscallLaunch c s
  | .syscallWait c => Sys2Proof.Machine.execSyscallWait c s
  | .syscallCancel c => Sys2Proof.Machine.execSyscallCancel c s
  | .syscallTranslate c => Sys2Proof.Machine.execSyscallTranslate c s
  | .openQueue c => Sys2Proof.Machine.execOpenQueue c s
  | .closeQueue c => Sys2Proof.Machine.execCloseQueue c s
  | .openGroup c => Sys2Proof.Machine.execOpenGroup c s
  | .openWindow c => Sys2Proof.Machine.execOpenWindow c s
  | .exposeRegion c => Sys2Proof.Machine.execExposeRegion c s
  | .syscallExit c => Sys2Proof.Machine.execSyscallExit c s
  | .uetInboundWrite port key off bytes => Sys2Proof.Machine.execUetInboundWrite port key off bytes s
  | .uetInboundRead port key off len => Sys2Proof.Machine.execUetInboundRead port key off len s
  | .uudPacket port => Sys2Proof.Machine.execUudPacket port s
  | .train link rec => Sys2Proof.Machine.execTrain link rec s
  | .trainResend link => Sys2Proof.Machine.execTrainResend link s
  | .nak link seq => Sys2Proof.Machine.execNak link seq s
  | .down link reason => Sys2Proof.Machine.execDown link reason s
  | .messageFlit link f => Sys2Proof.Machine.execMessageFlit link f s
  | .idleFlit link f => Sys2Proof.Machine.execIdleFlit link f s
  | .ackTimeout link => Sys2Proof.Machine.execAckTimeout link s
  | .retrainTimeout link => Sys2Proof.Machine.execRetrainTimeout link s
  | .ldt m => Sys2Proof.Machine.execLdt m s
  | .ldu m => Sys2Proof.Machine.execLdu m s
  | .ownr m => Sys2Proof.Machine.execOwnr m s
  | .wr m => Sys2Proof.Machine.execWr m s
  | .reg m => Sys2Proof.Machine.execReg m s
  | .atom m => Sys2Proof.Machine.execAtom m s
  | .red m => Sys2Proof.Machine.execRed m s
  | .key m => Sys2Proof.Machine.execKey m s
  | .dropn m => Sys2Proof.Machine.execDropn m s
  | .inv m => Sys2Proof.Machine.execInv m s
  | .fwd m => Sys2Proof.Machine.execFwd m s
  | .fwdinv m => Sys2Proof.Machine.execFwdinv m s
  | .recallMsg m => Sys2Proof.Machine.execRecallMsg m s
  | .binv m => Sys2Proof.Machine.execBinv m s
  | .data m => Sys2Proof.Machine.execData m s
  | .ack m => Sys2Proof.Machine.execAck m s
  | .err m => Sys2Proof.Machine.execErr m s
  | .wb m => Sys2Proof.Machine.execWb m s
  | .ares m => Sys2Proof.Machine.execAres m s
  | .grant m => Sys2Proof.Machine.execGrant m s
  | .cdata m => Sys2Proof.Machine.execCdata m s
  | .cack m => Sys2Proof.Machine.execCack m s
  | .reset => Sys2Proof.Machine.execReset s
  | .freezePin => Sys2Proof.Machine.execFreezePin s
  | .extest => Sys2Proof.Machine.execExtest s
  | .idcode => Sys2Proof.Machine.execIdcode s
  | .samplePreload => Sys2Proof.Machine.execSamplePreload s
  | .tapFreeze => Sys2Proof.Machine.execTapFreeze s
  | .tapStatus => Sys2Proof.Machine.execTapStatus s
  | .chainsel chain => Sys2Proof.Machine.execChainsel chain s
  | .chainout => Sys2Proof.Machine.execChainout s
  | .memaddr addr => Sys2Proof.Machine.execMemaddr addr s
  | .memread => Sys2Proof.Machine.execMemread s
  | .resetreq => Sys2Proof.Machine.execResetreq s
  | .bypass => Sys2Proof.Machine.execBypass s
  | .thermalThrottle temp => Sys2Proof.Machine.execThermalThrottle temp s
  | .clockStep temp => Sys2Proof.Machine.execClockStep temp s
  | .thermalFreeze temp => Sys2Proof.Machine.execThermalFreeze temp s
  | .crdMessage m => Sys2Proof.Machine.execCrdMessage m s
  | .cwrMessage m => Sys2Proof.Machine.execCwrMessage m s
  | .receiveQueueTraffic job queue t => Sys2Proof.Machine.execReceiveQueueTraffic job queue t s
  | .channelLost chan => Sys2Proof.Machine.execChannelLost chan s
  | .softError site correctable => Sys2Proof.Machine.execSoftError site correctable s
  | .uetDeliveryFailure core id => Sys2Proof.Machine.execUetDeliveryFailure core id s
  | .matrixOperationComplete cluster => Sys2Proof.Machine.execMatrixOperationComplete cluster s
  | .controlProgramInstruction job => Sys2Proof.Machine.execControlProgramInstruction job s
  | .checkpointTierAck job => Sys2Proof.Machine.execCheckpointTierAck job s
  | .powerLoss blown => Sys2Proof.Machine.execPowerLoss blown s

end Sys2Proof.Machine
end

