-- ==== Sys2Proof/Machine/RunEvent.lean ====
section
/-! DEFINITION. Happenings of the agenda: each is the meaning that exec gives the constructor of Instr with its name. -/

namespace Sys2Proof.Machine

/-- Carry out a happening. -/
def runEvent (e : Event) (s : State) : Host.Outcome State Fault Refusal :=
  match e with
  | .lortarAsyncComplete ctx id => execLortarAsyncComplete ctx id s
  | .ecall job => execEcall job s
  | .ebreak job => execEbreak job s
  | .controlProgramException job e tval => execControlProgramException job e tval s
  | .stripDispatch ctx => execStripDispatch ctx s
  | .watermarkRecheck ctx => execWatermarkRecheck ctx s
  | .blockCommit ctx => execBlockCommit ctx s
  | .waitResume p => execWaitResume p s
  | .replyPush ctx stripb => execReplyPush ctx stripb s
  | .preemptionRequest ctx => execPreemptionRequest ctx s
  | .trapDelivery p code tval imprecise => execTrapDelivery p code tval imprecise s
  | .handlerComplete ctx => execHandlerComplete ctx s
  | .copyComplete core id => execCopyComplete core id s
  | .copyFault core id written code addr => execCopyFault core id written code addr s
  | .satchelCheck ctx => execSatchelCheck ctx s
  | .scratchpadFrameFill ctx page => execScratchpadFrameFill ctx page s
  | .collectiveRun core id others => execCollectiveRun core id others s
  | .drainComplete ctx id => execDrainComplete ctx id s
  | .drainContributionFault ctx id accepted code => execDrainContributionFault ctx id accepted code s
  | .barrierEventsApply job addr events => execBarrierEventsApply job addr events s
  | .relayAdmission cluster => execRelayAdmission cluster s
  | .relayRecordLeave cluster => execRelayRecordLeave cluster s
  | .rcommitCopyback cluster => execRcommitCopyback cluster s
  | .homeRequest core req line => execHomeRequest core req line s
  | .coreDropLine core line => execCoreDropLine core line s
  | .l2DropLine die line => execL2DropLine die line s
  | .uLineLeaseExpiry core line => execULineLeaseExpiry core line s
  | .edgeFlush job lidx edge => execEdgeFlush job lidx edge s
  | .stewardBind die => execStewardBind die s
  | .quantumExpiry ctx => execQuantumExpiry ctx s
  | .accumulatorRevoke ctx => execAccumulatorRevoke ctx s
  | .l2ModeChange die partitioned => execL2ModeChange die partitioned s
  | .go ctx => execGo ctx s
  | .stop ctx => execStop ctx s
  | .registerWrite r => execRegisterWrite r s
  | .shootdown job va leaf => execShootdown job va leaf s
  | .pageMigration job va paddr => execPageMigration job va paddr s
  | .migWalkRetry p => execMigWalkRetry p s
  | .hello r => execHello r s
  | .jobCreate r => execJobCreate r s
  | .jobEnd r => execJobEnd r s
  | .loadImage r => execLoadImage r s
  | .start r => execStart r s
  | .launch r => execLaunch r s
  | .wait r => execWait r s
  | .cancel r => execCancel r s
  | .memRead r => execMemRead r s
  | .memWrite r => execMemWrite r s
  | .breakCopy r => execBreakCopy r s
  | .breakEnd r => execBreakEnd r s
  | .checkpointSave r => execCheckpointSave r s
  | .checkpointRestore r stream => execCheckpointRestore r stream s
  | .telemetry r => execTelemetry r s
  | .attest r => execAttest r s
  | .idcert r => execIdcert r s
  | .config r => execConfig r s
  | .syscallVersion c => execSyscallVersion c s
  | .syscallLaunch c => execSyscallLaunch c s
  | .syscallWait c => execSyscallWait c s
  | .syscallCancel c => execSyscallCancel c s
  | .syscallTranslate c => execSyscallTranslate c s
  | .openQueue c => execOpenQueue c s
  | .closeQueue c => execCloseQueue c s
  | .openGroup c => execOpenGroup c s
  | .openWindow c => execOpenWindow c s
  | .exposeRegion c => execExposeRegion c s
  | .syscallExit c => execSyscallExit c s
  | .uetInboundWrite port key off bytes => execUetInboundWrite port key off bytes s
  | .uetInboundRead port key off len => execUetInboundRead port key off len s
  | .uudPacket port => execUudPacket port s
  | .train link rec => execTrain link rec s
  | .trainResend link => execTrainResend link s
  | .nak link seq => execNak link seq s
  | .down link reason => execDown link reason s
  | .messageFlit link f => execMessageFlit link f s
  | .idleFlit link f => execIdleFlit link f s
  | .ackTimeout link => execAckTimeout link s
  | .retrainTimeout link => execRetrainTimeout link s
  | .ldt m => execLdt m s
  | .ldu m => execLdu m s
  | .ownr m => execOwnr m s
  | .wr m => execWr m s
  | .reg m => execReg m s
  | .atom m => execAtom m s
  | .red m => execRed m s
  | .key m => execKey m s
  | .dropn m => execDropn m s
  | .inv m => execInv m s
  | .fwd m => execFwd m s
  | .fwdinv m => execFwdinv m s
  | .recallMsg m => execRecallMsg m s
  | .binv m => execBinv m s
  | .data m => execData m s
  | .ack m => execAck m s
  | .err m => execErr m s
  | .wb m => execWb m s
  | .ares m => execAres m s
  | .grant m => execGrant m s
  | .cdata m => execCdata m s
  | .cack m => execCack m s
  | .reset => execReset s
  | .freezePin => execFreezePin s
  | .extest => execExtest s
  | .idcode => execIdcode s
  | .samplePreload => execSamplePreload s
  | .tapFreeze => execTapFreeze s
  | .tapStatus => execTapStatus s
  | .chainsel chain => execChainsel chain s
  | .chainout => execChainout s
  | .memaddr addr => execMemaddr addr s
  | .memread => execMemread s
  | .resetreq => execResetreq s
  | .bypass => execBypass s
  | .thermalThrottle temp => execThermalThrottle temp s
  | .clockStep temp => execClockStep temp s
  | .thermalFreeze temp => execThermalFreeze temp s
  | .crdMessage m => execCrdMessage m s
  | .cwrMessage m => execCwrMessage m s
  | .receiveQueueTraffic job queue t => execReceiveQueueTraffic job queue t s
  | .channelLost chan => execChannelLost chan s
  | .softError site correctable => execSoftError site correctable s
  | .uetDeliveryFailure core id => execUetDeliveryFailure core id s
  | .matrixOperationComplete cluster => execMatrixOperationComplete cluster s
  | .controlProgramInstruction job => execControlProgramInstruction job s
  | .checkpointTierAck job => execCheckpointTierAck job s
  | .powerLoss blown => execPowerLoss blown s

end Sys2Proof.Machine
end

