-- ==== Sys2Proof/Machine/Run.lean ====
section
/-! DEFINITION. What moves next (log 5): which parties are ready (R16, R23, R32), which of the device's own happenings can
come, and the fetch and issue of one instruction (R174, R175, R225, R229). -/

namespace Sys2Proof.Machine

/-- The phase word or watermark at a physical address. -/
def State.word64 (s : State) (pa : Nat) : Nat := Memory.readN s.mem pa 8

/-- Whether what a party waits for has come (R16). -/
def State.waitOver (s : State) (p : Party) (w : WaitCond) : Bool :=
  let x := s.ctx p.ctx
  match w with
  | .timeline tl thr =>
      thr ≤ (x.timeline tl).t || (x.heldAt p.place tl thr).isSome || !x.imprecise.isEmpty
  | .token r => !x.pend.any (·.1 == r)
  | .blockSlot => x.queue.length < Config.blockQueue
  | .replyEntry => !x.rq.isEmpty || (x.queue.isEmpty && x.run.isNone)
  | .blocksDone => x.queue.isEmpty && x.run.isNone
  | .replyRoom b _ _ _ => x.rq.length < Config.replyQueue && !x.strips.any fun t => t.stripb < b
  | .carry b k =>
      match x.run with
      | none => true
      | some r => match r.carries.find? (·.stripb == b) with
        | some c => c.ended || k < c.values.length
        | none => false
  | .lanesDone b => (s.strip p.ctx b).lanePcs.isEmpty
  | .streamTurn b v =>
      match x.bound b v.toNat with
      | none => true
      | some st =>
          !(x.strips.any fun u => u.stripb < b) &&
          (match st.kind with
            | .walk => true
            | .satchel => (s.strip p.ctx b).vl ≤ x.satchelBytes.length || !s.satchelFeeds p.ctx
            | .network q =>
                match s.jobOf p.ctx with
                | none => true
                | some j =>
                    let rq := aget ⟨0, 0, [], true⟩ j.queues q
                    rq.closed || (s.strip p.ctx b).vl * (s.strip p.ctx b).ewB ≤ rq.bytes.length)
  | .barrier pa ph => ph < s.word64 pa
  | .counter h => match s.counter h with | some c => c.status != .running | none => true
  | .watermark pa than => than < s.word64 pa || !(s.core (coreOf p.ctx)).l1.any fun l => l.tracked && holdsWord l.key pa
  | .copySlot => (s.core (coreOf p.ctx)).copies.length < Config.copyTable
  | .key n => let k := s.key n; k.granted == some p.ctx || !k.queue.contains p.ctx || !k.valid
  | .remote tag => !s.requests.any fun r => r.tag == tag && r.answer.isNone
  | .migration va =>
      match s.jobOf p.ctx with
      | none => true
      | some j => match walkFrom s va.toNat j.root walkLevels with | .mig => false | _ => true
  | .matrix =>
      !((s.cluster (clusterOf p.ctx)).matq.any fun m => m.ctx == p.ctx)
        && !((s.cluster (clusterOf p.ctx)).drains.any fun d => d.ctx == p.ctx) && !x.hasBlocks
  | .drained => !s.matrixBusy p.ctx
  | .relayRun b =>
      let r := (s.cluster (clusterOf p.ctx)).relay
      !r.runs.any fun q => q.ctx == p.ctx && q.stripb == b && !r.over q
  | .copyback => (s.cluster (clusterOf p.ctx)).relay.commit.isNone
  | .concierge => false

/-- A party that waits becomes ready, or goes on (R16); a reply push and a migrated page have happenings of their own. -/
def State.partyActions (s : State) (p : Party) (w : Option WaitCond) : List Action :=
  match w with
  | none => [.issue p]
  | some w =>
      if s.waitOver p w then
        (match w with
          | .replyRoom b _ _ _ => [.happen (.replyPush p.ctx b)]
          | .migration _ => [.happen (.migWalkRetry p)]
          | _ => [.happen (.waitResume p)])
      else []

/-- The next lane of a strip in ascending order with wrap-around, among those that do not wait (R32). -/
def Strip.nextLane (t : Strip) : Option Nat :=
  let free := t.lanePcs.filter fun l => !t.laneWait.any (·.1 == l.1)
  match free.find? fun l => t.laneLast < l.1 with
  | some l => some l.1
  | none => free.head?.map (·.1)

/-- A control thread is ready (R16). -/
def State.threadReady (s : State) (c : Nat) : Bool := slotState (s.slot c) == 1 && !(s.ctx c).halted && (s.ctx c).wait.isNone

/-- The control thread that a core chooses, round-robin among those that are ready: its number in the core (R16). -/
def State.nextThread (s : State) (core : Nat) : Option Nat :=
  ((List.range 4).map fun i => ((s.core core).turn + 1 + i) % 4).find? fun i => s.threadReady (4 * core + i)

/-- The parties of a context that move but its control thread, which takes its turn in its core (R15, R16, R32). A strip back from
a save area moves once it has a lane group (R35). -/
def State.ctxActions (s : State) (c : Nat) : List Action :=
  let x := s.ctx c
  (if x.halted || x.wait.isNone then [] else s.partyActions ⟨c, .ctl⟩ x.wait)
  ++ (x.strips.filter (!·.resting)).flatMap fun t =>
      s.partyActions ⟨c, .strip t.stripb⟩ t.wait
      ++ (match t.nextLane with | some p => [.issue ⟨c, .lane t.stripb p⟩] | none => [])
      ++ t.laneWait.flatMap fun (p, w) => s.partyActions ⟨c, .lane t.stripb p⟩ (some w)

/-- The start of a block, dispatches, watermark rereads and the commit of the VLC of a context (R17, R22 to R27, R169). -/
def State.vlcActions (s : State) (c : Nat) : List Action :=
  let x := s.ctx c
  match x.run with
  | none => if x.queue.isEmpty then [] else [.happen (.stripDispatch c)]
  | some r =>
      (if r.next ≥ r.entry.n && x.strips.isEmpty then [.happen (.blockCommit c)] else [])
      ++ (if s.awarded c then [.happen (.stripDispatch c)] else [])
      ++ (match r.headWait with
          | some w => if s.waitOver ⟨c, .ctl⟩ w then [.happen (.watermarkRecheck c)] else []
          | none => [])

/-- Engine operations that can complete (R118, R288, R324, R325, R335, R337, R340, R343, R365). -/
def State.engineActions (s : State) : List Action :=
  s.cores.flatMap (fun (k, c) => c.copies.filterMap fun p =>
    match p.kind with
    | .copy _ _ _ => some (.happen (.copyComplete k p.id))
    | .satchel _ _ =>
        let first := c.copies.find? fun q => q.feeds p.ctx
        if first == some p && s.satchelMoves k p.ctx then some (.happen (.satchelCheck p.ctx)) else none
    | .coll d _ =>
        let h := w64 (natAt d 32 8)
        match s.counter h with
        | some q => if h != 0 && q.status == .cancelled then some (.happen (.collectiveRun k p.id [])) else none
        | none => none)
  ++ s.clusters.flatMap (fun (k, c) =>
    (match c.drains with | d :: _ => [.happen (.drainComplete d.ctx d.id)] | [] => [])
    ++ (if c.matq.isEmpty then [] else [.happen (.matrixOperationComplete k)])
    ++ (if c.relay.chain.isEmpty && c.relay.recirc.isEmpty && !(c.relay.runs.any RelayRun.admits) then []
        else [.happen (.relayAdmission k)])
    ++ (if c.relay.leaving.isEmpty then [] else [.happen (.relayRecordLeave k)])
    ++ (if c.relay.mayCopy then [.happen (.rcommitCopyback k)] else []))
  ++ s.running.flatMap fun c => ((s.ctx c).lops.filter (s.ctx c).lopReady).map fun l => .happen (.lortarAsyncComplete c l.id)

/-- What the Concierge and the service cores can do (R381, R406, R410). -/
def State.serviceActions (s : State) : List Action :=
  s.channels.flatMap (fun (n, c) =>
    if c.waits.any fun (_, _, h) => (match s.counter h with | some k => k.status != .running | none => true) then
      [.answer n] else [])
  ++ s.bind.filterMap (fun (c, r) =>
      if slotState r != 2 then none else
      match (aget Ctx.zero s.residue (slotSave r)).wait with
      | some (.counter h) => if s.waitOver ⟨c, .ctl⟩ (.counter h) then some (.native c) else none
      | _ => none)
  ++ s.heldBack.filterMap (fun e =>
      match e with
      | .shootdown j va _ => if s.pageReady j va.toNat then some (.happen e) else none
      | .pageMigration j va _ => if s.pageReady j va.toNat then some (.happen e) else none
      | .collectiveRun k id _ => if s.collReady k id then some (.happen e) else none
      | .checkpointSave r => if s.saveReady r then some (.happen e) else none
      | .accumulatorRevoke c => (match s.revokeOf c with
          | some n => if s.claimBusy n then none else some (.happen e)
          | none => some (.happen e))
      | .preemptionRequest c => if slotState (s.slot c) == 1 && s.inExecution c then none else some (.happen e)
      | .homeRequest _ _ line => if s.homeAsks line then none else some (.happen e)
      | .ldt m | .ldu m | .ownr m | .wr m | .reg m | .atom m | .red m | .crdMessage m | .cwrMessage m =>
          if s.peerAsked m then none else some (.happen e)
      | _ => none)
  ++ s.jobs.flatMap fun j =>
      match j.cp with
      | none => []
      | some p =>
          if !j.live || !p.running || p.held.isSome || j.ckpt.isSome then [] else
          match p.waits with
          | none => if p.calling then [] else [.happen (.controlProgramInstruction (jobSlot j.id))]
          | some h => (match s.counter h with
              | some k => if k.status != .running then [.control (jobSlot j.id)] else []
              | none => [.control (jobSlot j.id)])

/-- Everything that can move (DESIGN CHOICE, log 5). -/
def State.actions (s : State) : List Action :=
  let rs := s.running
  (rs.map coreOf).eraseDups.filterMap (fun k => (s.nextThread k).map fun _ => Action.thread k)
  ++ rs.flatMap (fun c => s.ctxActions c ++ s.vlcActions c) ++ s.engineActions ++ s.serviceActions

/-- The strip inside a serial region that can move: a lane's region is atomic (R268). -/
def State.inRegion (s : State) : Option Party :=
  s.running.findSome? fun c => (s.ctx c).strips.findSome? fun t =>
    if t.region.isSome && t.wait.isNone then some ⟨c, .strip t.stripb⟩ else none

/-- An enabled hardware breakpoint at an address (R225, R447). -/
def Ctx.breaksAt (x : Ctx) (pc : Word) : Bool :=
  x.bps.toList.any fun b => b.getLsbD 0 && b.extractLsb' 1 56 == pc.extractLsb' 1 56

/-- Whether the party may issue the instruction at an address once without matching (R225). -/
def State.passes (s : State) (p : Party) (pc : Word) : Bool :=
  match p.place with
  | .ctl => (s.ctx p.ctx).bpPass == some pc
  | .strip b => (s.strip p.ctx b).bpPass.contains (none, pc)
  | .lane b q => (s.strip p.ctx b).bpPass.contains (some q, pc)

/-- A breakpoint's pass of the strip itself or of a lane at an address (R225). -/
def Strip.passed (q : Option Nat) (pc : Word) (t : Strip) : Strip :=
  { t with bpPass := (q, pc) :: t.bpPass.filter (·.1 != q) }

/-- The pass is given: the instruction matched at an address issues once on resumption (R225). -/
def State.givePass (s : State) (p : Party) (pc : Word) : State :=
  match p.place with
  | .ctl => s.modCtx p.ctx fun x => { x with bpPass := some pc }
  | .strip b => s.modStrip p.ctx b (Strip.passed none pc)
  | .lane b q => s.modStrip p.ctx b (Strip.passed (some q) pc)

/-- The latch of a party at an address (R175). -/
def latchOf (p : Party) (pc next : Word) : Latch := ⟨p, pc, next, none, false⟩

/-- A strip whose head is due issues a strip head and nothing else: cause 0x09 (R22, R243). -/
def State.headOnly (s : State) (i : Instr) : Bool :=
  match s.cur.party.place with
  | .strip _ => if s.myStrip.headDue then (match i with | .setvl _ _ | .setvlW _ _ => true | _ => false) else true
  | _ => true

/-- An instruction that decoded, or the cause of what did not (R185, R187). -/
def runDecoded (d : Decoded) (s : State) : Host.Outcome State Fault Refusal :=
  match d with
  | .ok i =>
      if s.headOnly i then exec i s
      else .next (s.takeCause ((formCause i false s.cur.party.place).getD 0x09) 0)
  | .reserved i => .next (s.takeCause ((formCause i true s.cur.party.place).getD 0x02) 0)
  | .scope i => .next (s.takeCause ((formCause i false s.cur.party.place).getD 0x06) 0)
  | .illegal => .next (s.takeCause 0x01 0)

/-- Run what the party's line holds at an address (R174): bytes of a line of a control thread or a strip are held for its next
instruction in it (R229). -/
def runLine (p : Party) (bs : List Byte) (pc : Word) (s : State) : Host.Outcome State Fault Refusal :=
  match fetchHead (halvesOf bs) (lineOf pc) (headOf pc) with
  | .endOfHeads => .next (State.refetch { s with cur := latchOf p pc (lineOf pc + 64) }).advance
  | .overrun => .next (State.takeCause { s with cur := latchOf p pc pc } 0x03 0)
  | .head h t next =>
      let s : State := { s with cur := latchOf p pc next }
      let inLine := lineOf next == lineOf pc && (match p.place with | .lane _ _ => false | _ => true)
      runDecoded (decode h t) (if inLine then s.holdLine next bs else s.refetch)

/-- Run a line of lowered code: its entry, or the Lortar word it stands for (R368, R369, R380) (DEDUCED, log 37). -/
def runLowered (p : Party) (j : Job) (t : Translation) (pc : Word) (s : State) : Host.Outcome State Fault Refusal :=
  let n := (pc.toNat - t.base) / 64
  let s : State := { s with cur := latchOf p pc (pc + 64) }
  match (s.fetchPage p.ctx pc) with
  | .trap c v s => .next (s.takeCause c v)
  | .stall w s => .next (s.park w)
  | .ok _ s =>
      if n = 0 then .next (State.settle s.lortarEntry)
      else
        match j.image.bind fun (g : Image) => g.kernels[t.kidx]?.map fun k => (g, k) with
        | none => .next (s.takeCause 0x01 0)
        | some (g, k) =>
            if g.words k < n then .next (s.takeCause 0x01 0)
            else runDecoded (decodeLortar (w64 (s.jobNat j.id (g.base 3 + k.loff.toNat + 8 * (n - 1)) 8))) s

/-- The bytes in which a party goes on at an address: those of the line it fetched last where they are still allowed and differ
from the ones it would fetch now, as a free choice (R229) (DESIGN CHOICE, log 67). -/
def State.lineAt (s : State) (p : Party) (pc : Word) (bs : List Byte) : List Byte × State :=
  match (s.core (coreOf p.ctx)).held.find? (·.1 == p) with
  | some (_, a, old) =>
      if a != pc || old == bs then (bs, s)
      else (if Config.freeChoice s.fresh then old else bs, { s with fresh := s.fresh + 1 })
  | none => (bs, s)

/-- Fetch and issue one instruction of a party (R174, R225, R229); the address of a wayfarer thread is checked as a target
(R176) (DESIGN CHOICE, log 10). -/
def issueOne (p : Party) (s : State) : Host.Outcome State Fault Refusal :=
  let pc := s.pcOf p
  let s0 : State := { s with cur := latchOf p pc pc }
  if (s.ctx p.ctx).breaksAt pc && !s.passes p pc then .next ((s0.givePass p pc).takeCause 0xC0 0)
  else
    match s.runAt p.ctx pc.toNat with
    | some (j, t) => runLowered p j t pc s
    | none =>
        let checked : R PUnit := match p.place with | .lane _ _ => s0.checkTarget p.ctx pc | _ => R.done s0
        match checked.andThen fun s => s.fetchBytes p.ctx pc with
        | .trap c v s => .next (s.takeCause c v)
        | .stall w s => .next (s.park w)
        | .ok bs s =>
            let (bs, s) := s.lineAt p pc bs
            runLine p bs pc s

/-- Issue for each lane of a list in turn, as long as its context runs (R32). -/
def issueLanes (c b : Nat) : List Nat → State → Host.Outcome State Fault Refusal
  | [], s => .next s
  | q :: r, s =>
      if slotState (s.slot c) != 1 then .next s
      else
        match issueOne ⟨c, .lane b q⟩ s with
        | .next s => issueLanes c b r s
        | o => o

/-- The lanes of a strip that share the program counter of lane p and do not wait (R32). -/
def Strip.together (t : Strip) (p : Nat) : List Nat :=
  let pc := ((t.lanePcs.find? (·.1 == p)).map (·.2)).getD 0
  (t.lanePcs.filter fun l => l.2 == pc && !t.laneWait.any (·.1 == l.1)).map (·.1)

/-- Carry out what moves next (DESIGN CHOICE, log 5). -/
def runAction (a : Action) (s : State) : Host.Outcome State Fault Refusal :=
  match a with
  | .thread k =>
      (match s.nextThread k with
        | some i => issueOne ⟨4 * k + i, .ctl⟩ (s.modCore k fun c => { c with turn := i })
        | none => .next s)
  | .issue p =>
      (match p.place with
        | .lane b q =>
            issueLanes p.ctx b ((s.strip p.ctx b).together q) (s.modStrip p.ctx b fun t => { t with laneLast := q })
        | _ => issueOne p s)
  | .happen e => runEvent e s
  | .answer n => .next (s.answerWaits n)
  | .native c => .next (s.answerWaitNative c)
  | .control j => .next (s.answerWaitControl j)

/-- What can move, each in the order in which it became able to: no action that stays possible is passed over for ever (R41)
(DESIGN CHOICE, log 5). -/
def State.turns (s : State) : List Action :=
  let as := s.actions
  let old := s.order.filter (as.contains ·)
  old ++ as.filter fun a => !old.contains a

/-- One step of the device after boot: what the agenda holds first; but a lane of a serial region that can move goes
before it; else the action that has waited longest; else time passes (DESIGN CHOICE, log 5). -/
def moveOn (s : State) : Host.Outcome State Fault Refusal :=
  match s.inRegion with
  | some p => issueOne p s
  | none =>
      match s.agenda with
      | e :: r => runEvent e { s with agenda := r }
      | [] =>
          match s.turns with
          | a :: r => runAction a { s with order := r }
          | [] => .next { s with order := [] }

/-- What a frozen device, or one whose boot has failed, still answers: its test access port, its pins and its power (R394, R448,
R449). -/
def Event.stopped : Event → Bool
  | .reset | .freezePin | .extest | .idcode | .samplePreload | .tapFreeze | .tapStatus | .chainsel _ | .chainout | .memaddr _
  | .memread | .resetreq | .bypass | .powerLoss _ => true
  | _ => false

/-- One step (log 5): boot first (R394); nothing moves in a frozen device, or one whose boot has failed, but its test access
port (R394, R448). -/
def oneStep (s : State) : Host.Outcome State Fault Refusal :=
  let s : State := { s with now := s.now + 1 }
  if s.chip.frozen || (s.chip.booted && s.chip.boot != 0) then
    match s.agenda with
    | e :: r => if e.stopped then runEvent e { s with agenda := r } else .next { s with agenda := r }
    | [] => .next s
  else if !s.chip.booted then runEvent .reset s
  else moveOn s

end Sys2Proof.Machine
end

