-- ==== Sys2Proof/Machine/Step.lean ====
section
/-! DEFINITION. The step of the machine, and the placing of one instruction where the next step fetches. -/

namespace Sys2Proof.Machine

/-- One step of the device: whatever moves next (log 5). -/
def step (s : State) : Host.Outcome State Fault Refusal := oneStep s

/-- The job that withFetchWord makes: a page table at 0x1000 and nothing else (log 7). -/
def placedJob : Job where
  id := 0x10000
  live := true
  heapBytes := 0
  heapBase := 0
  partitioned := false
  parts := 0
  wishDies := 0
  relays := 0
  root := 0x1000
  nextVa := 0x1000000000
  buffer := []
  image := none
  cp := none
  translations := []
  nextLidx := 0
  openGraphs := []
  phase := 0
  windows := []
  exposed := []
  queues := []
  groups := []
  exitCode := none
  ckpt := none
  deferred := []

/-- Store the halfwords of a line. -/
def putHalves (m : List Host.Cell) (a : Nat) : List Half → List Host.Cell
  | [] => m
  | h :: r => putHalves (Memory.writeN m a 2 h.toNat) (a + 2) r

/-- Page tables that map the first 2 GiB of addresses executable at device physical 0x8000_0000, and a line there that
holds one instruction: its head first, its tail at the end (R174, R441, R442) (DESIGN CHOICE, log 7). -/
def placedMemory (m : List Host.Cell) (base w : Nat) : List Host.Cell :=
  let h := BitVec.ofNat 16 w
  let tail := natHalves (headTl h) (w / 65536)
  let m := Memory.writeN m (base + 0x1000) 8 0x8000000000002000
  let m := Memory.writeN m (base + 0x2000) 8 0x8000000000003000
  let m := Memory.writeN m (base + 0x3000) 8 0xCF00000080000020
  let line := base + 0x80000000
  putHalves m line (h :: (List.replicate (31 - tail.length) 0#16 ++ tail))

/-- A state in which context 0 runs and nothing else does, with its control thread at a line that holds the instruction
(log 7): the device booted and not frozen, an empty agenda, and core 0's turn first, in which that control thread is the next. -/
def State.withFetchWord (s : State) (_nbits w : Nat) : State :=
  let s : State := { s with
    chip := { s.chip with boot := 0, booted := true, frozen := false }
    agenda := []
    order := [.thread 0]
    heldBack := []
    words := s.words.filter fun x => x.1 / 128 != s.phys 0x80000000 / 128
    requests := s.requests.filter fun r => !(footprint r.line).any fun w => w / 128 == s.phys 0x80000000 / 128
    mem := placedMemory s.mem (s.phys 0) w
    poison := s.poison.filter (· != s.phys 0x80000000)
    badCheck := s.badCheck.filter (· != s.phys 0x80000000)
    jobs := [placedJob]
    bind := [(0, 0x10000#512 <<< 128 ||| 2#512)] }
  let s := s.modCore 0 fun c => { c with itlb := [], icache := [], turn := 3, held := [] }
  s.modCtx 0 fun x =>
    { x with
      pc := 0, halted := false, wait := none, queue := [], run := none, strips := [], slots := [], lops := []
      bps := Vector.replicate 8 0 }

end Sys2Proof.Machine
end

