-- ==== Sys2Proof/Laws/Encoding.lean ====
section
/-! SUPPORT. Lemmas about the encoding: the parts of a concatenation, each form's fields from its operand word, gates,
heads, and decoding what a constructor's words encode (R177 to R185, R352 to R355). -/

namespace Sys2Proof

/-- A part that lies in the low operand of a concatenation. -/
theorem extract_low {n m : Nat} (a : BitVec n) (b : BitVec m) (k w : Nat) (h : k + w ≤ m) :
    (a ++ b).extractLsb' k w = b.extractLsb' k w := by
  ext i hi
  simp only [BitVec.getElem_extractLsb', BitVec.getLsbD_append]
  rw [if_pos (by omega)]

/-- A part that lies in the high operand of a concatenation. -/
theorem extract_high {n m : Nat} (a : BitVec n) (b : BitVec m) (k w : Nat) (h : m ≤ k) :
    (a ++ b).extractLsb' k w = a.extractLsb' (k - m) w := by
  ext i hi
  simp only [BitVec.getElem_extractLsb', BitVec.getLsbD_append]
  rw [if_neg (by omega)]; congr 1; omega

/-- The whole of a word. -/
theorem extract_all {n : Nat} (a : BitVec n) : a.extractLsb' 0 n = a := by ext i hi; simp

/-- Two neighbouring parts joined. -/
theorem extract_join {N n m : Nat} (o : BitVec N) (k : Nat) :
    o.extractLsb' (k + m) n ++ o.extractLsb' k m = o.extractLsb' k (n + m) := by
  apply BitVec.eq_of_getElem_eq; intro i hi
  simp only [BitVec.getElem_append, BitVec.getElem_extractLsb']
  split
  · rfl
  · congr 1; omega

/-- Halfwords of an operand word, read back. -/
theorem opHalves1_halves1 (o : BitVec 16) : opHalves1 (halves1 o) = o := rfl
/-- Halfwords of an operand word, read back. -/
theorem opHalves2_halves2 (o : BitVec 32) : opHalves2 (halves2 o) = o := (extract_join o 0).trans (extract_all o)
/-- Halfwords of an operand word, read back. -/
theorem opHalves3_halves3 (o : BitVec 48) : opHalves3 (halves3 o) = o := by
  show (_ ++ _) ++ o.extractLsb' 0 16 = o
  rw [show o.extractLsb' 32 16 ++ o.extractLsb' 16 16 = o.extractLsb' 16 32 from extract_join o 16]
  exact (extract_join o 0).trans (extract_all o)
/-- Halfwords of an operand word, read back. -/
theorem opHalves4_halves4 (o : BitVec 64) : opHalves4 (halves4 o) = o := by
  show ((_ ++ _) ++ _) ++ o.extractLsb' 0 16 = o
  rw [show o.extractLsb' 48 16 ++ o.extractLsb' 32 16 = o.extractLsb' 32 32 from extract_join o 32,
    show o.extractLsb' 32 32 ++ o.extractLsb' 16 16 = o.extractLsb' 16 48 from extract_join o 16]
  exact (extract_join o 0).trans (extract_all o)

/-- The fields of form C, read back. -/
theorem FormC.ofBits_bits (f : FormC) : FormC.ofBits f.bits = f := by
  cases f
  unfold FormC.ofBits FormC.bits
  congr 1 <;> repeat (first | exact extract_all _ | (refine Eq.trans (extract_high _ _ _ _ (by decide)) ?_) | (refine Eq.trans (extract_low _ _ _ _ (by decide)) ?_))
/-- No reserved bit of form C is set in the word of its fields. -/
theorem rawC_bits (f : FormC) : rawC f.bits = false := by
  have h : f.bits.extractLsb' 14 2 = 0#2 := by
    unfold FormC.bits
    repeat (first | exact extract_all _ | (refine Eq.trans (extract_high _ _ _ _ (by decide)) ?_) | (refine Eq.trans (extract_low _ _ _ _ (by decide)) ?_))
  simp [rawC, h]

/-- The fields of form A, read back. -/
theorem FormA.ofBits_bits (f : FormA) : FormA.ofBits f.bits = f := by
  cases f
  unfold FormA.ofBits FormA.bits
  congr 1 <;> repeat (first | exact extract_all _ | (refine Eq.trans (extract_high _ _ _ _ (by decide)) ?_) | (refine Eq.trans (extract_low _ _ _ _ (by decide)) ?_))
/-- No reserved bit of form A is set in the word of its fields. -/
theorem rawA_bits (f : FormA) : rawA f.bits = false := by
  have h : f.bits.extractLsb' 12 4 = 0#4 := by
    unfold FormA.bits
    repeat (first | exact extract_all _ | (refine Eq.trans (extract_high _ _ _ _ (by decide)) ?_) | (refine Eq.trans (extract_low _ _ _ _ (by decide)) ?_))
  simp [rawA, h]

/-- The fields of form H, read back. -/
theorem FormH.ofBits_bits (f : FormH) : FormH.ofBits f.bits = f := by
  cases f
  unfold FormH.ofBits FormH.bits
  congr 1 <;> repeat (first | exact extract_all _ | (refine Eq.trans (extract_high _ _ _ _ (by decide)) ?_) | (refine Eq.trans (extract_low _ _ _ _ (by decide)) ?_))
/-- Form H has no reserved bit. -/
theorem rawH_bits (f : FormH) : rawH f.bits = false := rfl

/-- The fields of form K, read back. -/
theorem FormK.ofBits_bits (f : FormK) : FormK.ofBits f.bits = f := by
  cases f
  unfold FormK.ofBits FormK.bits
  congr 1 <;> repeat (first | exact extract_all _ | (refine Eq.trans (extract_high _ _ _ _ (by decide)) ?_) | (refine Eq.trans (extract_low _ _ _ _ (by decide)) ?_))
/-- No reserved bit of form K is set in the word of its fields. -/
theorem rawK_bits (f : FormK) : rawK f.bits = false := by
  have h : f.bits.extractLsb' 12 4 = 0#4 := by
    unfold FormK.bits
    repeat (first | exact extract_all _ | (refine Eq.trans (extract_high _ _ _ _ (by decide)) ?_) | (refine Eq.trans (extract_low _ _ _ _ (by decide)) ?_))
  simp [rawK, h]

/-- The fields of form B, read back. -/
theorem FormB.ofBits_bits (f : FormB) : FormB.ofBits f.bits = f := by
  cases f
  unfold FormB.ofBits FormB.bits
  congr 1 <;> repeat (first | exact extract_all _ | (refine Eq.trans (extract_high _ _ _ _ (by decide)) ?_) | (refine Eq.trans (extract_low _ _ _ _ (by decide)) ?_))
/-- No reserved bit of form B is set in the word of its fields. -/
theorem rawB_bits (f : FormB) : rawB f.bits = false := by
  have h : f.bits.extractLsb' 18 14 = 0#14 := by
    unfold FormB.bits
    repeat (first | exact extract_all _ | (refine Eq.trans (extract_high _ _ _ _ (by decide)) ?_) | (refine Eq.trans (extract_low _ _ _ _ (by decide)) ?_))
  simp [rawB, h]

/-- The fields of form I, read back. -/
theorem FormI.ofBits_bits (f : FormI) : FormI.ofBits f.bits = f := by
  cases f
  unfold FormI.ofBits FormI.bits
  congr 1 <;> repeat (first | exact extract_all _ | (refine Eq.trans (extract_high _ _ _ _ (by decide)) ?_) | (refine Eq.trans (extract_low _ _ _ _ (by decide)) ?_))
/-- Form I has no reserved bit. -/
theorem rawI_bits (f : FormI) : rawI f.bits = false := rfl

/-- The fields of form J, read back. -/
theorem FormJ.ofBits_bits (f : FormJ) : FormJ.ofBits f.bits = f := by
  cases f
  unfold FormJ.ofBits FormJ.bits
  congr 1 <;> repeat (first | exact extract_all _ | (refine Eq.trans (extract_high _ _ _ _ (by decide)) ?_) | (refine Eq.trans (extract_low _ _ _ _ (by decide)) ?_))
/-- Form J has no reserved bit. -/
theorem rawJ_bits (f : FormJ) : rawJ f.bits = false := rfl

/-- The fields of form L, read back. -/
theorem FormL.ofBits_bits (f : FormL) : FormL.ofBits f.bits = f := by
  cases f
  unfold FormL.ofBits FormL.bits
  congr 1 <;> repeat (first | exact extract_all _ | (refine Eq.trans (extract_high _ _ _ _ (by decide)) ?_) | (refine Eq.trans (extract_low _ _ _ _ (by decide)) ?_))
/-- Form L has no reserved bit. -/
theorem rawL_bits (f : FormL) : rawL f.bits = false := rfl

/-- The fields of form F, read back. -/
theorem FormF.ofBits_bits (f : FormF) : FormF.ofBits f.bits = f := by
  cases f
  unfold FormF.ofBits FormF.bits
  congr 1 <;> repeat (first | exact extract_all _ | (refine Eq.trans (extract_high _ _ _ _ (by decide)) ?_) | (refine Eq.trans (extract_low _ _ _ _ (by decide)) ?_))
/-- No reserved bit of form F is set in the word of its fields. -/
theorem rawF_bits (f : FormF) : rawF f.bits = false := by
  have h : f.bits.extractLsb' 28 4 = 0#4 := by
    unfold FormF.bits
    repeat (first | exact extract_all _ | (refine Eq.trans (extract_high _ _ _ _ (by decide)) ?_) | (refine Eq.trans (extract_low _ _ _ _ (by decide)) ?_))
  simp [rawF, h]

/-- The fields of form E, read back. -/
theorem FormE.ofBits_bits (f : FormE) : FormE.ofBits f.bits = f := by
  cases f
  unfold FormE.ofBits FormE.bits
  congr 1 <;> repeat (first | exact extract_all _ | (refine Eq.trans (extract_high _ _ _ _ (by decide)) ?_) | (refine Eq.trans (extract_low _ _ _ _ (by decide)) ?_))
/-- No reserved bit of form E is set in the word of its fields. -/
theorem rawE_bits (f : FormE) : rawE f.bits = false := by
  have h : f.bits.extractLsb' 24 8 = 0#8 := by
    unfold FormE.bits
    repeat (first | exact extract_all _ | (refine Eq.trans (extract_high _ _ _ _ (by decide)) ?_) | (refine Eq.trans (extract_low _ _ _ _ (by decide)) ?_))
  simp [rawE, h]

/-- The fields of form Y, read back. -/
theorem FormY.ofBits_bits (f : FormY) : FormY.ofBits f.bits = f := by
  cases f
  unfold FormY.ofBits FormY.bits
  congr 1 <;> repeat (first | exact extract_all _ | (refine Eq.trans (extract_high _ _ _ _ (by decide)) ?_) | (refine Eq.trans (extract_low _ _ _ _ (by decide)) ?_))
/-- No reserved bit of form Y is set in the word of its fields. -/
theorem rawY_bits (f : FormY) : rawY f.bits = false := by
  have h : f.bits.extractLsb' 26 6 = 0#6 := by
    unfold FormY.bits
    repeat (first | exact extract_all _ | (refine Eq.trans (extract_high _ _ _ _ (by decide)) ?_) | (refine Eq.trans (extract_low _ _ _ _ (by decide)) ?_))
  simp [rawY, h]

/-- The fields of form V, read back. -/
theorem FormV.ofBits_bits (f : FormV) : FormV.ofBits f.bits = f := by
  cases f
  unfold FormV.ofBits FormV.bits
  congr 1 <;> repeat (first | exact extract_all _ | (refine Eq.trans (extract_high _ _ _ _ (by decide)) ?_) | (refine Eq.trans (extract_low _ _ _ _ (by decide)) ?_))
/-- No reserved bit of form V is set in the word of its fields. -/
theorem rawV_bits (f : FormV) : rawV f.bits = false := by
  have h : f.bits.extractLsb' 45 3 = 0#3 := by
    unfold FormV.bits
    repeat (first | exact extract_all _ | (refine Eq.trans (extract_high _ _ _ _ (by decide)) ?_) | (refine Eq.trans (extract_low _ _ _ _ (by decide)) ?_))
  simp [rawV, h]

/-- The fields of form M, read back. -/
theorem FormM.ofBits_bits (f : FormM) : FormM.ofBits f.bits = f := by
  cases f
  unfold FormM.ofBits FormM.bits
  congr 1 <;> repeat (first | exact extract_all _ | (refine Eq.trans (extract_high _ _ _ _ (by decide)) ?_) | (refine Eq.trans (extract_low _ _ _ _ (by decide)) ?_))
/-- No reserved bit of form M is set in the word of its fields. -/
theorem rawM_bits (f : FormM) : rawM f.bits = false := by
  have h : f.bits.extractLsb' 42 6 = 0#6 := by
    unfold FormM.bits
    repeat (first | exact extract_all _ | (refine Eq.trans (extract_high _ _ _ _ (by decide)) ?_) | (refine Eq.trans (extract_low _ _ _ _ (by decide)) ?_))
  simp [rawM, h]

/-- The fields of form S, read back. -/
theorem FormS.ofBits_bits (f : FormS) : FormS.ofBits f.bits = f := by
  cases f
  unfold FormS.ofBits FormS.bits
  congr 1 <;> repeat (first | exact extract_all _ | (refine Eq.trans (extract_high _ _ _ _ (by decide)) ?_) | (refine Eq.trans (extract_low _ _ _ _ (by decide)) ?_))
/-- No reserved bit of form S is set in the word of its fields. -/
theorem rawS_bits (f : FormS) : rawS f.bits = false := by
  have h : f.bits.extractLsb' 35 13 = 0#13 := by
    unfold FormS.bits
    repeat (first | exact extract_all _ | (refine Eq.trans (extract_high _ _ _ _ (by decide)) ?_) | (refine Eq.trans (extract_low _ _ _ _ (by decide)) ?_))
  simp [rawS, h]

/-- The fields of form X, read back. -/
theorem FormX.ofBits_bits (f : FormX) : FormX.ofBits f.bits = f := by
  cases f
  unfold FormX.ofBits FormX.bits
  congr 1 <;> repeat (first | exact extract_all _ | (refine Eq.trans (extract_high _ _ _ _ (by decide)) ?_) | (refine Eq.trans (extract_low _ _ _ _ (by decide)) ?_))
/-- No reserved bit of form X is set in the word of its fields. -/
theorem rawX_bits (f : FormX) : rawX f.bits = false := by
  have h : f.bits.extractLsb' 43 5 = 0#5 := by
    unfold FormX.bits
    repeat (first | exact extract_all _ | (refine Eq.trans (extract_high _ _ _ _ (by decide)) ?_) | (refine Eq.trans (extract_low _ _ _ _ (by decide)) ?_))
  simp [rawX, h]

/-- The fields of form T, read back. -/
theorem FormT.ofBits_bits (f : FormT) : FormT.ofBits f.bits = f := by
  cases f
  unfold FormT.ofBits FormT.bits
  congr 1 <;> repeat (first | exact extract_all _ | (refine Eq.trans (extract_high _ _ _ _ (by decide)) ?_) | (refine Eq.trans (extract_low _ _ _ _ (by decide)) ?_))
/-- No reserved bit of form T is set in the word of its fields. -/
theorem rawT_bits (f : FormT) : rawT f.bits = false := by
  have h : f.bits.extractLsb' 37 11 = 0#11 := by
    unfold FormT.bits
    repeat (first | exact extract_all _ | (refine Eq.trans (extract_high _ _ _ _ (by decide)) ?_) | (refine Eq.trans (extract_low _ _ _ _ (by decide)) ?_))
  simp [rawT, h]

/-- The fields of form W, read back. -/
theorem FormW.ofBits_bits (f : FormW) : FormW.ofBits f.bits = f := by
  cases f
  unfold FormW.ofBits FormW.bits
  congr 1 <;> repeat (first | exact extract_all _ | (refine Eq.trans (extract_high _ _ _ _ (by decide)) ?_) | (refine Eq.trans (extract_low _ _ _ _ (by decide)) ?_))
/-- No reserved bit of form W is set in the word of its fields. -/
theorem rawW_bits (f : FormW) : rawW f.bits = false := by
  have h : f.bits.extractLsb' 6 10 = 0#10 := by
    unfold FormW.bits
    repeat (first | exact extract_all _ | (refine Eq.trans (extract_high _ _ _ _ (by decide)) ?_) | (refine Eq.trans (extract_low _ _ _ _ (by decide)) ?_))
  simp [rawW, h]

/-- A wait gate, read back (R178). -/
theorem waitOf_half (w : WaitGate) : waitOf w.half = w := by
  cases w
  unfold waitOf WaitGate.half
  congr 1 <;> repeat (first | exact extract_all _ | (refine Eq.trans (extract_high _ _ _ _ (by decide)) ?_) | (refine Eq.trans (extract_low _ _ _ _ (by decide)) ?_))
/-- A post gate, read back (R178). -/
theorem postOf_half (p : PostGate) : postOf p.half = p := by
  cases p
  unfold postOf PostGate.half
  congr 1 <;> repeat (first | exact extract_all _ | (refine Eq.trans (extract_high _ _ _ _ (by decide)) ?_) | (refine Eq.trans (extract_low _ _ _ _ (by decide)) ?_))
/-- The low reserved bits of a wait gate are zero (R178). -/
theorem waitHalf_low (w : WaitGate) : w.half.extractLsb' 0 3 = 0#3 := by
  unfold WaitGate.half; exact (extract_low _ _ _ _ (by decide)).trans (extract_all _)
/-- The low reserved bits of a post gate are zero (R178). -/
theorem postHalf_low (p : PostGate) : p.half.extractLsb' 0 3 = 0#3 := by
  unfold PostGate.half; exact (extract_low _ _ _ _ (by decide)).trans (extract_all _)
/-- The unused register field of a post gate is zero (R178). -/
theorem postHalf_mid (p : PostGate) : p.half.extractLsb' 6 6 = 0#6 := by
  unfold PostGate.half
  repeat (first | exact extract_all _ | (refine Eq.trans (extract_high _ _ _ _ (by decide)) ?_) | (refine Eq.trans (extract_low _ _ _ _ (by decide)) ?_))

/-- Splitting the gates from a tail gives them back (R178). -/
theorem splitGates_gateHalves (g : Gates) (ops : List Half) :
    splitGates (gateCode g) (gateHalves g ++ ops) = (g, ops, false) := by
  obtain ⟨w, p⟩ := g
  cases w <;> cases p <;>
    simp [splitGates, gateHalves, gateCode, waitOf_half, postOf_half, waitHalf_low, postHalf_low, postHalf_mid]

/-- The gates take as many halfwords as their code says (R178). -/
theorem gateHalves_length (g : Gates) : (gateHalves g).length = gateCount (gateCode g) := by
  obtain ⟨w, p⟩ := g
  cases w <;> cases p <;> simp [gateHalves, gateCount, gateCode]

/-- A head (R177). -/
def headOfParts (maj : BitVec 6) (tl : BitVec 3) (gate : BitVec 2) (min : BitVec 5) : Half := maj ++ tl ++ gate ++ min

/-- MAJ of a head, read back. -/
theorem headMaj_parts (maj : BitVec 6) (tl : BitVec 3) (gate : BitVec 2) (min : BitVec 5) :
    headMaj (headOfParts maj tl gate min) = maj.toNat := by
  unfold headMaj headOfParts
  congr 1
  repeat (first | exact extract_all _ | (refine Eq.trans (extract_high _ _ _ _ (by decide)) ?_) | (refine Eq.trans (extract_low _ _ _ _ (by decide)) ?_))
/-- TL of a head, read back. -/
theorem headTl_parts (maj : BitVec 6) (tl : BitVec 3) (gate : BitVec 2) (min : BitVec 5) :
    headTl (headOfParts maj tl gate min) = tl.toNat := by
  unfold headTl headOfParts
  congr 1
  repeat (first | exact extract_all _ | (refine Eq.trans (extract_high _ _ _ _ (by decide)) ?_) | (refine Eq.trans (extract_low _ _ _ _ (by decide)) ?_))
/-- GATE of a head, read back. -/
theorem headGate_parts (maj : BitVec 6) (tl : BitVec 3) (gate : BitVec 2) (min : BitVec 5) :
    headGate (headOfParts maj tl gate min) = gate := by
  unfold headGate headOfParts
  repeat (first | exact extract_all _ | (refine Eq.trans (extract_high _ _ _ _ (by decide)) ?_) | (refine Eq.trans (extract_low _ _ _ _ (by decide)) ?_))
/-- MIN of a head, read back. -/
theorem headMin_parts (maj : BitVec 6) (tl : BitVec 3) (gate : BitVec 2) (min : BitVec 5) :
    headMin (headOfParts maj tl gate min) = min.toNat := by
  unfold headMin headOfParts
  congr 1
  repeat (first | exact extract_all _ | (refine Eq.trans (extract_high _ _ _ _ (by decide)) ?_) | (refine Eq.trans (extract_low _ _ _ _ (by decide)) ?_))

/-- A well-formed instruction passes the checks of its bits. -/
theorem classify_wellFormed (i : Instr) (h : WellFormed i = true) : classify i false = .ok i := by
  simp only [WellFormed, Bool.and_eq_true] at h
  simp [classify, h.1.1, h.1.2, h.2]

/-- What decoding the words of an instruction gives, for one whose opcode the opcode map reads back (R184). -/
theorem decode_of_build (i : Instr) (maj : BitVec 6) (min : BitVec 5) (ops : List Half) (n : Nat) (hlen : ops.length = n)
    (hn : n ≤ 4) (hmaj : (maj.toNat == 0x3E && min.toNat == 0) = false)
    (hb : build maj.toNat min.toNat (gatesOf i) ops = some (n, i, false)) (hw : WellFormed i = true) :
    decode (headOfParts maj (BitVec.ofNat 3 (gateHalves (gatesOf i) ++ ops).length) (gateCode (gatesOf i)) min)
      (gateHalves (gatesOf i) ++ ops) = .ok i := by
  have hg : (gateHalves (gatesOf i)).length ≤ 2 := by
    rw [gateHalves_length]; unfold gateCount; split <;> [omega; skip]; split <;> omega
  have ht : (BitVec.ofNat 3 (gateHalves (gatesOf i) ++ ops).length).toNat = (gateHalves (gatesOf i) ++ ops).length := by
    rw [BitVec.toNat_ofNat, List.length_append]; apply Nat.mod_eq_of_lt; omega
  unfold decode
  rw [headMaj_parts, headMin_parts, headGate_parts, headTl_parts, ht, hmaj, splitGates_gateHalves]
  simp [hb, ← gateHalves_length, hlen, classify_wellFormed i hw]

/-- Lortar form S, read back (R352, R353). -/
theorem LFormS.ofBits_bits (op : BitVec 6) (f : LFormS) : LFormS.ofBits (f.bits op) = f := by
  obtain ⟨⟨b1, b2, b3⟩, d, a, b, im⟩ := f
  unfold LFormS.ofBits LFormS.bits
  congr 1
  · unfold LBar.ofBits
    congr 1 <;> repeat (first | exact extract_all _ | (refine Eq.trans (extract_high _ _ _ _ (by decide)) ?_) | (refine Eq.trans (extract_low _ _ _ _ (by decide)) ?_))
  all_goals repeat (first | exact extract_all _ | (refine Eq.trans (extract_high _ _ _ _ (by decide)) ?_) | (refine Eq.trans (extract_low _ _ _ _ (by decide)) ?_))
/-- Lortar form X, read back (R352, R353). -/
theorem LFormX.ofBits_bits (op : BitVec 6) (f : LFormX) : LFormX.ofBits (f.bits op) = f := by
  obtain ⟨⟨b1, b2, b3⟩, xd, xa, xb, ka, kb, fmt, orr, pol, ord, scp, rnd, satm⟩ := f
  unfold LFormX.ofBits LFormX.bits
  congr 1
  · unfold LBar.ofBits
    congr 1 <;> repeat (first | exact extract_all _ | (refine Eq.trans (extract_high _ _ _ _ (by decide)) ?_) | (refine Eq.trans (extract_low _ _ _ _ (by decide)) ?_))
  all_goals repeat (first | exact extract_all _ | (refine Eq.trans (extract_high _ _ _ _ (by decide)) ?_) | (refine Eq.trans (extract_low _ _ _ _ (by decide)) ?_))
/-- The opcode of form S, read back. -/
theorem LFormS.op_bits (op : BitVec 6) (f : LFormS) : (f.bits op).extractLsb' 58 6 = op := by
  unfold LFormS.bits
  repeat (first | exact extract_all _ | (refine Eq.trans (extract_high _ _ _ _ (by decide)) ?_) | (refine Eq.trans (extract_low _ _ _ _ (by decide)) ?_))
/-- The opcode of form X, read back. -/
theorem LFormX.op_bits (op : BitVec 6) (f : LFormX) : (f.bits op).extractLsb' 58 6 = op := by
  unfold LFormX.bits
  repeat (first | exact extract_all _ | (refine Eq.trans (extract_high _ _ _ _ (by decide)) ?_) | (refine Eq.trans (extract_low _ _ _ _ (by decide)) ?_))
/-- Bit 45 of form S is zero (R352). -/
theorem LFormS.reserved_bits (op : BitVec 6) (f : LFormS) : (f.bits op).extractLsb' 45 1 = 0#1 := by
  unfold LFormS.bits
  repeat (first | exact extract_all _ | (refine Eq.trans (extract_high _ _ _ _ (by decide)) ?_) | (refine Eq.trans (extract_low _ _ _ _ (by decide)) ?_))
/-- Bit 45 of form X is zero (R352). -/
theorem LFormX.reserved_bits (op : BitVec 6) (f : LFormX) : (f.bits op).extractLsb' 45 1 = 0#1 := by
  unfold LFormX.bits
  repeat (first | exact extract_all _ | (refine Eq.trans (extract_high _ _ _ _ (by decide)) ?_) | (refine Eq.trans (extract_low _ _ _ _ (by decide)) ?_))
/-- Bits 4:0 of form X are zero (R353). -/
theorem LFormX.low_bits (op : BitVec 6) (f : LFormX) : (f.bits op).extractLsb' 0 5 = 0#5 := by
  unfold LFormX.bits
  repeat (first | exact extract_all _ | (refine Eq.trans (extract_high _ _ _ _ (by decide)) ?_) | (refine Eq.trans (extract_low _ _ _ _ (by decide)) ?_))

/-- What decoding the word of a form S instruction gives. -/
theorem decodeLortar_S (i : Instr) (op : BitVec 6) (o : LFormS) (hb : ∀ x, buildLortar op.toNat o x = some (i, false))
    (hw : WellFormed i = true) : decodeLortar (o.bits op) = .ok i := by
  unfold decodeLortar
  rw [LFormS.op_bits, LFormS.ofBits_bits, hb, LFormS.reserved_bits]
  simp [classify_wellFormed i hw]
/-- What decoding the word of a form X instruction gives. -/
theorem decodeLortar_X (i : Instr) (op : BitVec 6) (o : LFormX) (hb : ∀ x, buildLortar op.toNat x o = some (i, true))
    (hw : WellFormed i = true) : decodeLortar (o.bits op) = .ok i := by
  unfold decodeLortar
  rw [LFormX.op_bits, LFormX.ofBits_bits, hb, LFormX.reserved_bits, LFormX.low_bits]
  simp [classify_wellFormed i hw]

end Sys2Proof
end

