-- ==== Sys2Proof/Laws/PerInstr.lean ====
section
/-! SUPPORT. The encoding round trip, instruction by instruction (R177 to R185, R352 to R355). -/

namespace Sys2Proof.Laws.RoundTrip

/-- A row that is an operation or happening of the device and has no words (95_what_each_step_holds.md). -/
def wordless : Instr → Bool
  | .lortarAsyncComplete _ _ | .ecall _ | .ebreak _ | .controlProgramException _ _ _ | .stripDispatch _
  | .watermarkRecheck _ | .blockCommit _ | .waitResume _ | .replyPush _ _ | .preemptionRequest _
  | .trapDelivery _ _ _ _ | .handlerComplete _ | .copyComplete _ _ | .copyFault _ _ _ _ _ | .satchelCheck _
  | .scratchpadFrameFill _ _ | .collectiveRun _ _ _ | .drainComplete _ _ | .drainContributionFault _ _ _ _
  | .barrierEventsApply _ _ _ | .relayAdmission _ | .relayRecordLeave _ | .rcommitCopyback _
  | .homeRequest _ _ _ | .coreDropLine _ _ | .l2DropLine _ _ | .uLineLeaseExpiry _ _ | .edgeFlush _ _ _
  | .stewardBind _ | .quantumExpiry _ | .accumulatorRevoke _ | .l2ModeChange _ _ | .go _ | .stop _
  | .registerWrite _ | .shootdown _ _ _ | .pageMigration _ _ _ | .migWalkRetry _ | .hello _ | .jobCreate _
  | .jobEnd _ | .loadImage _ | .start _ | .launch _ | .wait _ | .cancel _ | .memRead _ | .memWrite _
  | .breakCopy _ | .breakEnd _ | .checkpointSave _ | .checkpointRestore _ _ | .telemetry _ | .attest _
  | .idcert _ | .config _ | .syscallVersion _ | .syscallLaunch _ | .syscallWait _ | .syscallCancel _
  | .syscallTranslate _ | .openQueue _ | .closeQueue _ | .openGroup _ | .openWindow _ | .exposeRegion _
  | .syscallExit _ | .uetInboundWrite _ _ _ _ | .uetInboundRead _ _ _ _ | .uudPacket _ | .train _ _
  | .trainResend _ | .nak _ _ | .down _ _ | .messageFlit _ _ | .idleFlit _ _ | .ackTimeout _
  | .retrainTimeout _ | .ldt _ | .ldu _ | .ownr _ | .wr _ | .reg _ | .atom _ | .red _ | .key _ | .dropn _
  | .inv _ | .fwd _ | .fwdinv _ | .recallMsg _ | .binv _ | .data _ | .ack _ | .err _ | .wb _ | .ares _
  | .grant _ | .cdata _ | .cack _ | .reset | .freezePin | .extest | .idcode | .samplePreload | .tapFreeze
  | .tapStatus | .chainsel _ | .chainout | .memaddr _ | .memread | .resetreq | .bypass | .thermalThrottle _
  | .clockStep _ | .thermalFreeze _ | .crdMessage _ | .cwrMessage _ | .receiveQueueTraffic _ _ _
  | .channelLost _ | .softError _ _ | .uetDeliveryFailure _ _ | .matrixOperationComplete _
  | .controlProgramInstruction _ | .checkpointTierAck _ | .powerLoss _ => true
  | _ => false

/-- A row that is a Lortar instruction (R354). -/
def isLortar : Instr → Bool
  | .kadd _ | .ksub _ | .kmul _ | .kand _ | .kor _ | .kxor _ | .ksll _ | .ksrl _ | .ksra _ | .kslt _
  | .kaddi _ | .kli _ | .kbeq _ | .kbne _ | .kblt _ | .kbge _ | .kjmp _ | .kend _ | .lshape _ | .lwait _
  | .lfence _ | .xld _ | .xst _ | .xbcast _ | .xadd _ | .xsub _ | .xmul _ | .xfma _ | .xmin _ | .xmax _
  | .xcvt _ | .xmma _ => true
  | _ => false

/-- A device operation has no words; a well-formed Lortar instruction is read back from its word; every other
well-formed instruction is read back from its head and tail, whose length TL gives. -/
def Statement (i : Instr) : Prop :=
  if wordless i then encode i = none ∧ encodeLortar i = none
  else WellFormed i = true →
    if isLortar i then ∃ w, encodeLortar i = some w ∧ decodeLortar w = .ok i
    else ∃ h t, encode i = some (h :: t) ∧ decode h t = .ok i ∧ (headMaj h ≠ 0x3E → headTl h = t.length)

/-- A row with no words: neither encoder gives it any. -/
theorem noWords {i : Instr} (h : (wordless i && (encode i).isNone && (encodeLortar i).isNone) = true) : Statement i := by
  simp only [Bool.and_eq_true, Option.isNone_iff_eq_none] at h
  unfold Statement
  simp [h]

/-- A Lortar row. -/
theorem statement_lortar (i : Instr) (w : BitVec 64) (h : wordless i = false) (hi : isLortar i = true)
    (he : encodeLortar i = some w) (hd : WellFormed i = true → decodeLortar w = .ok i) : Statement i := by
  unfold Statement; rw [if_neg (by simp [h])]; intro hw; rw [if_pos hi]; exact ⟨w, he, hd hw⟩

/-- A native row other than bkpt. -/
theorem statement_native (i : Instr) (maj : BitVec 6) (min : BitVec 5) (ops : List Half) (n : Nat)
    (h : wordless i = false) (hi : isLortar i = false)
    (he : encode i = some (headOfParts maj (BitVec.ofNat 3 (gateHalves (gatesOf i) ++ ops).length)
      (gateCode (gatesOf i)) min :: (gateHalves (gatesOf i) ++ ops)))
    (hlen : ops.length = n) (hn : n ≤ 4) (hmaj : (maj.toNat == 0x3E && min.toNat == 0) = false)
    (hb : build maj.toNat min.toNat (gatesOf i) ops = some (n, i, false)) : Statement i := by
  unfold Statement; rw [if_neg (by simp [h])]; intro hw; rw [if_neg (by simp [hi])]
  refine ⟨_, _, he, decode_of_build i maj min ops n hlen hn hmaj hb hw, fun _ => ?_⟩
  have hg : (gateHalves (gatesOf i)).length ≤ 2 := by
    rw [gateHalves_length]; unfold gateCount; split <;> [omega; skip]; split <;> omega
  rw [headTl_parts, BitVec.toNat_ofNat, List.length_append]; apply Nat.mod_eq_of_lt; omega

/-- `nop`. -/
theorem nop (g : Gates) : Statement (.nop g) :=
  statement_native _ 0x00 0x01 ([]) 0 rfl rfl rfl rfl (by decide) (by decide) rfl
/-- `halt`. -/
theorem halt (g : Gates) : Statement (.halt g) :=
  statement_native _ 0x00 0x02 ([]) 0 rfl rfl rfl rfl (by decide) (by decide) rfl
/-- `vsync`. -/
theorem vsync (g : Gates) : Statement (.vsync g) :=
  statement_native _ 0x00 0x03 ([]) 0 rfl rfl rfl rfl (by decide) (by decide) rfl
/-- `fenceNear`. -/
theorem fenceNear (g : Gates) : Statement (.fenceNear g) :=
  statement_native _ 0x00 0x04 ([]) 0 rfl rfl rfl rfl (by decide) (by decide) rfl
/-- `tlwait`. -/
theorem tlwait (g : Gates) : Statement (.tlwait g) :=
  statement_native _ 0x00 0x05 ([]) 0 rfl rfl rfl rfl (by decide) (by decide) rfl
/-- `wexit`. -/
theorem wexit (g : Gates) : Statement (.wexit g) :=
  statement_native _ 0x00 0x06 ([]) 0 rfl rfl rfl rfl (by decide) (by decide) rfl
/-- `add`. -/
theorem add (g : Gates) (o : FormB) : Statement (.add g o) :=
  statement_native _ 0x01 0x00 (halves2 o.bits) 2 rfl rfl rfl rfl (by decide) (by decide) (by
    show (build01 0 g (halves2 o.bits)).map (⟨2, ·⟩) = some (2, .add g o, false)
    simp only [build01, opHalves2_halves2, FormB.ofBits_bits, rawB_bits, Option.map])
/-- `sub`. -/
theorem sub (g : Gates) (o : FormB) : Statement (.sub g o) :=
  statement_native _ 0x01 0x01 (halves2 o.bits) 2 rfl rfl rfl rfl (by decide) (by decide) (by
    show (build01 1 g (halves2 o.bits)).map (⟨2, ·⟩) = some (2, .sub g o, false)
    simp only [build01, opHalves2_halves2, FormB.ofBits_bits, rawB_bits, Option.map])
/-- `and`. -/
theorem and (g : Gates) (o : FormB) : Statement (.and g o) :=
  statement_native _ 0x01 0x02 (halves2 o.bits) 2 rfl rfl rfl rfl (by decide) (by decide) (by
    show (build01 2 g (halves2 o.bits)).map (⟨2, ·⟩) = some (2, .and g o, false)
    simp only [build01, opHalves2_halves2, FormB.ofBits_bits, rawB_bits, Option.map])
/-- `or`. -/
theorem or (g : Gates) (o : FormB) : Statement (.or g o) :=
  statement_native _ 0x01 0x03 (halves2 o.bits) 2 rfl rfl rfl rfl (by decide) (by decide) (by
    show (build01 3 g (halves2 o.bits)).map (⟨2, ·⟩) = some (2, .or g o, false)
    simp only [build01, opHalves2_halves2, FormB.ofBits_bits, rawB_bits, Option.map])
/-- `xor`. -/
theorem xor (g : Gates) (o : FormB) : Statement (.xor g o) :=
  statement_native _ 0x01 0x04 (halves2 o.bits) 2 rfl rfl rfl rfl (by decide) (by decide) (by
    show (build01 4 g (halves2 o.bits)).map (⟨2, ·⟩) = some (2, .xor g o, false)
    simp only [build01, opHalves2_halves2, FormB.ofBits_bits, rawB_bits, Option.map])
/-- `sll`. -/
theorem sll (g : Gates) (o : FormB) : Statement (.sll g o) :=
  statement_native _ 0x01 0x05 (halves2 o.bits) 2 rfl rfl rfl rfl (by decide) (by decide) (by
    show (build01 5 g (halves2 o.bits)).map (⟨2, ·⟩) = some (2, .sll g o, false)
    simp only [build01, opHalves2_halves2, FormB.ofBits_bits, rawB_bits, Option.map])
/-- `srl`. -/
theorem srl (g : Gates) (o : FormB) : Statement (.srl g o) :=
  statement_native _ 0x01 0x06 (halves2 o.bits) 2 rfl rfl rfl rfl (by decide) (by decide) (by
    show (build01 6 g (halves2 o.bits)).map (⟨2, ·⟩) = some (2, .srl g o, false)
    simp only [build01, opHalves2_halves2, FormB.ofBits_bits, rawB_bits, Option.map])
/-- `sra`. -/
theorem sra (g : Gates) (o : FormB) : Statement (.sra g o) :=
  statement_native _ 0x01 0x07 (halves2 o.bits) 2 rfl rfl rfl rfl (by decide) (by decide) (by
    show (build01 7 g (halves2 o.bits)).map (⟨2, ·⟩) = some (2, .sra g o, false)
    simp only [build01, opHalves2_halves2, FormB.ofBits_bits, rawB_bits, Option.map])
/-- `slt`. -/
theorem slt (g : Gates) (o : FormB) : Statement (.slt g o) :=
  statement_native _ 0x01 0x08 (halves2 o.bits) 2 rfl rfl rfl rfl (by decide) (by decide) (by
    show (build01 8 g (halves2 o.bits)).map (⟨2, ·⟩) = some (2, .slt g o, false)
    simp only [build01, opHalves2_halves2, FormB.ofBits_bits, rawB_bits, Option.map])
/-- `sltu`. -/
theorem sltu (g : Gates) (o : FormB) : Statement (.sltu g o) :=
  statement_native _ 0x01 0x09 (halves2 o.bits) 2 rfl rfl rfl rfl (by decide) (by decide) (by
    show (build01 9 g (halves2 o.bits)).map (⟨2, ·⟩) = some (2, .sltu g o, false)
    simp only [build01, opHalves2_halves2, FormB.ofBits_bits, rawB_bits, Option.map])
/-- `mul`. -/
theorem mul (g : Gates) (o : FormB) : Statement (.mul g o) :=
  statement_native _ 0x01 0x0A (halves2 o.bits) 2 rfl rfl rfl rfl (by decide) (by decide) (by
    show (build01 10 g (halves2 o.bits)).map (⟨2, ·⟩) = some (2, .mul g o, false)
    simp only [build01, opHalves2_halves2, FormB.ofBits_bits, rawB_bits, Option.map])
/-- `div`. -/
theorem div (g : Gates) (o : FormB) : Statement (.div g o) :=
  statement_native _ 0x01 0x0B (halves2 o.bits) 2 rfl rfl rfl rfl (by decide) (by decide) (by
    show (build01 11 g (halves2 o.bits)).map (⟨2, ·⟩) = some (2, .div g o, false)
    simp only [build01, opHalves2_halves2, FormB.ofBits_bits, rawB_bits, Option.map])
/-- `divu`. -/
theorem divu (g : Gates) (o : FormB) : Statement (.divu g o) :=
  statement_native _ 0x01 0x0C (halves2 o.bits) 2 rfl rfl rfl rfl (by decide) (by decide) (by
    show (build01 12 g (halves2 o.bits)).map (⟨2, ·⟩) = some (2, .divu g o, false)
    simp only [build01, opHalves2_halves2, FormB.ofBits_bits, rawB_bits, Option.map])
/-- `rem`. -/
theorem rem (g : Gates) (o : FormB) : Statement (.rem g o) :=
  statement_native _ 0x01 0x0D (halves2 o.bits) 2 rfl rfl rfl rfl (by decide) (by decide) (by
    show (build01 13 g (halves2 o.bits)).map (⟨2, ·⟩) = some (2, .rem g o, false)
    simp only [build01, opHalves2_halves2, FormB.ofBits_bits, rawB_bits, Option.map])
/-- `remu`. -/
theorem remu (g : Gates) (o : FormB) : Statement (.remu g o) :=
  statement_native _ 0x01 0x0E (halves2 o.bits) 2 rfl rfl rfl rfl (by decide) (by decide) (by
    show (build01 14 g (halves2 o.bits)).map (⟨2, ·⟩) = some (2, .remu g o, false)
    simp only [build01, opHalves2_halves2, FormB.ofBits_bits, rawB_bits, Option.map])
/-- `addi`. -/
theorem addi (g : Gates) (o : FormI) : Statement (.addi g o) :=
  statement_native _ 0x02 0x00 (halves2 o.bits) 2 rfl rfl rfl rfl (by decide) (by decide) (by
    show (build02 0 g (halves2 o.bits)).map (⟨2, ·⟩) = some (2, .addi g o, false)
    simp only [build02, opHalves2_halves2, FormI.ofBits_bits, rawI_bits, Option.map])
/-- `andi`. -/
theorem andi (g : Gates) (o : FormI) : Statement (.andi g o) :=
  statement_native _ 0x02 0x01 (halves2 o.bits) 2 rfl rfl rfl rfl (by decide) (by decide) (by
    show (build02 1 g (halves2 o.bits)).map (⟨2, ·⟩) = some (2, .andi g o, false)
    simp only [build02, opHalves2_halves2, FormI.ofBits_bits, rawI_bits, Option.map])
/-- `ori`. -/
theorem ori (g : Gates) (o : FormI) : Statement (.ori g o) :=
  statement_native _ 0x02 0x02 (halves2 o.bits) 2 rfl rfl rfl rfl (by decide) (by decide) (by
    show (build02 2 g (halves2 o.bits)).map (⟨2, ·⟩) = some (2, .ori g o, false)
    simp only [build02, opHalves2_halves2, FormI.ofBits_bits, rawI_bits, Option.map])
/-- `xori`. -/
theorem xori (g : Gates) (o : FormI) : Statement (.xori g o) :=
  statement_native _ 0x02 0x03 (halves2 o.bits) 2 rfl rfl rfl rfl (by decide) (by decide) (by
    show (build02 3 g (halves2 o.bits)).map (⟨2, ·⟩) = some (2, .xori g o, false)
    simp only [build02, opHalves2_halves2, FormI.ofBits_bits, rawI_bits, Option.map])
/-- `slli`. -/
theorem slli (g : Gates) (o : FormI) : Statement (.slli g o) :=
  statement_native _ 0x02 0x04 (halves2 o.bits) 2 rfl rfl rfl rfl (by decide) (by decide) (by
    show (build02 4 g (halves2 o.bits)).map (⟨2, ·⟩) = some (2, .slli g o, false)
    simp only [build02, opHalves2_halves2, FormI.ofBits_bits, rawI_bits, Option.map])
/-- `srli`. -/
theorem srli (g : Gates) (o : FormI) : Statement (.srli g o) :=
  statement_native _ 0x02 0x05 (halves2 o.bits) 2 rfl rfl rfl rfl (by decide) (by decide) (by
    show (build02 5 g (halves2 o.bits)).map (⟨2, ·⟩) = some (2, .srli g o, false)
    simp only [build02, opHalves2_halves2, FormI.ofBits_bits, rawI_bits, Option.map])
/-- `srai`. -/
theorem srai (g : Gates) (o : FormI) : Statement (.srai g o) :=
  statement_native _ 0x02 0x06 (halves2 o.bits) 2 rfl rfl rfl rfl (by decide) (by decide) (by
    show (build02 6 g (halves2 o.bits)).map (⟨2, ·⟩) = some (2, .srai g o, false)
    simp only [build02, opHalves2_halves2, FormI.ofBits_bits, rawI_bits, Option.map])
/-- `mov`. -/
theorem mov (g : Gates) (o : FormA) : Statement (.mov g o) :=
  statement_native _ 0x03 0x00 (halves1 o.bits) 1 rfl rfl rfl rfl (by decide) (by decide) (by
    show (build03 0 g (halves1 o.bits)).map (⟨1, ·⟩) = some (1, .mov g o, false)
    simp only [build03, opHalves1_halves1, FormA.ofBits_bits, rawA_bits, Option.map])
/-- `not`. -/
theorem not (g : Gates) (o : FormA) : Statement (.not g o) :=
  statement_native _ 0x03 0x01 (halves1 o.bits) 1 rfl rfl rfl rfl (by decide) (by decide) (by
    show (build03 1 g (halves1 o.bits)).map (⟨1, ·⟩) = some (1, .not g o, false)
    simp only [build03, opHalves1_halves1, FormA.ofBits_bits, rawA_bits, Option.map])
/-- `clz`. -/
theorem clz (g : Gates) (o : FormA) : Statement (.clz g o) :=
  statement_native _ 0x03 0x02 (halves1 o.bits) 1 rfl rfl rfl rfl (by decide) (by decide) (by
    show (build03 2 g (halves1 o.bits)).map (⟨1, ·⟩) = some (1, .clz g o, false)
    simp only [build03, opHalves1_halves1, FormA.ofBits_bits, rawA_bits, Option.map])
/-- `cpop`. -/
theorem cpop (g : Gates) (o : FormA) : Statement (.cpop g o) :=
  statement_native _ 0x03 0x03 (halves1 o.bits) 1 rfl rfl rfl rfl (by decide) (by decide) (by
    show (build03 3 g (halves1 o.bits)).map (⟨1, ·⟩) = some (1, .cpop g o, false)
    simp only [build03, opHalves1_halves1, FormA.ofBits_bits, rawA_bits, Option.map])
/-- `beq`. -/
theorem beq (g : Gates) (o : FormJ) : Statement (.beq g o) :=
  statement_native _ 0x04 0x00 (halves2 o.bits) 2 rfl rfl rfl rfl (by decide) (by decide) (by
    show (build04 0 g (halves2 o.bits)).map (⟨2, ·⟩) = some (2, .beq g o, false)
    simp only [build04, opHalves2_halves2, FormJ.ofBits_bits, rawJ_bits, Option.map])
/-- `bne`. -/
theorem bne (g : Gates) (o : FormJ) : Statement (.bne g o) :=
  statement_native _ 0x04 0x01 (halves2 o.bits) 2 rfl rfl rfl rfl (by decide) (by decide) (by
    show (build04 1 g (halves2 o.bits)).map (⟨2, ·⟩) = some (2, .bne g o, false)
    simp only [build04, opHalves2_halves2, FormJ.ofBits_bits, rawJ_bits, Option.map])
/-- `blt`. -/
theorem blt (g : Gates) (o : FormJ) : Statement (.blt g o) :=
  statement_native _ 0x04 0x02 (halves2 o.bits) 2 rfl rfl rfl rfl (by decide) (by decide) (by
    show (build04 2 g (halves2 o.bits)).map (⟨2, ·⟩) = some (2, .blt g o, false)
    simp only [build04, opHalves2_halves2, FormJ.ofBits_bits, rawJ_bits, Option.map])
/-- `bge`. -/
theorem bge (g : Gates) (o : FormJ) : Statement (.bge g o) :=
  statement_native _ 0x04 0x03 (halves2 o.bits) 2 rfl rfl rfl rfl (by decide) (by decide) (by
    show (build04 3 g (halves2 o.bits)).map (⟨2, ·⟩) = some (2, .bge g o, false)
    simp only [build04, opHalves2_halves2, FormJ.ofBits_bits, rawJ_bits, Option.map])
/-- `bltu`. -/
theorem bltu (g : Gates) (o : FormJ) : Statement (.bltu g o) :=
  statement_native _ 0x04 0x04 (halves2 o.bits) 2 rfl rfl rfl rfl (by decide) (by decide) (by
    show (build04 4 g (halves2 o.bits)).map (⟨2, ·⟩) = some (2, .bltu g o, false)
    simp only [build04, opHalves2_halves2, FormJ.ofBits_bits, rawJ_bits, Option.map])
/-- `bgeu`. -/
theorem bgeu (g : Gates) (o : FormJ) : Statement (.bgeu g o) :=
  statement_native _ 0x04 0x05 (halves2 o.bits) 2 rfl rfl rfl rfl (by decide) (by decide) (by
    show (build04 5 g (halves2 o.bits)).map (⟨2, ·⟩) = some (2, .bgeu g o, false)
    simp only [build04, opHalves2_halves2, FormJ.ofBits_bits, rawJ_bits, Option.map])
/-- `jmp`. -/
theorem jmp (g : Gates) (o : FormL) : Statement (.jmp g o) :=
  statement_native _ 0x05 0x00 (halves2 o.bits) 2 rfl rfl rfl rfl (by decide) (by decide) (by
    show (build05 0 g (halves2 o.bits)).map (⟨2, ·⟩) = some (2, .jmp g o, false)
    simp only [build05, opHalves2_halves2, FormL.ofBits_bits, rawL_bits, Option.map])
/-- `call`. -/
theorem call (g : Gates) (o : FormL) : Statement (.call g o) :=
  statement_native _ 0x05 0x01 (halves2 o.bits) 2 rfl rfl rfl rfl (by decide) (by decide) (by
    show (build05 1 g (halves2 o.bits)).map (⟨2, ·⟩) = some (2, .call g o, false)
    simp only [build05, opHalves2_halves2, FormL.ofBits_bits, rawL_bits, Option.map])
/-- `jr`. -/
theorem jr (g : Gates) (o : FormA) : Statement (.jr g o) :=
  statement_native _ 0x06 0x00 (halves1 o.bits) 1 rfl rfl rfl rfl (by decide) (by decide) (by
    show (build06 0 g (halves1 o.bits)).map (⟨1, ·⟩) = some (1, .jr g o, false)
    simp only [build06, opHalves1_halves1, FormA.ofBits_bits, rawA_bits, Option.map])
/-- `callr`. -/
theorem callr (g : Gates) (o : FormA) : Statement (.callr g o) :=
  statement_native _ 0x06 0x01 (halves1 o.bits) 1 rfl rfl rfl rfl (by decide) (by decide) (by
    show (build06 1 g (halves1 o.bits)).map (⟨1, ·⟩) = some (1, .callr g o, false)
    simp only [build06, opHalves1_halves1, FormA.ofBits_bits, rawA_bits, Option.map])
/-- `callt`. -/
theorem callt (g : Gates) (o : FormA) : Statement (.callt g o) :=
  statement_native _ 0x06 0x02 (halves1 o.bits) 1 rfl rfl rfl rfl (by decide) (by decide) (by
    show (build06 2 g (halves1 o.bits)).map (⟨1, ·⟩) = some (1, .callt g o, false)
    simp only [build06, opHalves1_halves1, FormA.ofBits_bits, rawA_bits, Option.map])
/-- `vblk`. -/
theorem vblk (g : Gates) (o : FormA) : Statement (.vblk g o) :=
  statement_native _ 0x06 0x03 (halves1 o.bits) 1 rfl rfl rfl rfl (by decide) (by decide) (by
    show (build06 3 g (halves1 o.bits)).map (⟨1, ·⟩) = some (1, .vblk g o, false)
    simp only [build06, opHalves1_halves1, FormA.ofBits_bits, rawA_bits, Option.map])
/-- `li`. -/
theorem li (g : Gates) (o : FormW) : Statement (.li g o) :=
  statement_native _ 0x07 0x00 (halves4 o.bits) 4 rfl rfl rfl rfl (by decide) (by decide) (by
    show (build07 0 g (halves4 o.bits)).map (⟨4, ·⟩) = some (4, .li g o, false)
    simp only [build07, opHalves4_halves4, FormW.ofBits_bits, rawW_bits, Option.map])
/-- `lea`. -/
theorem lea (g : Gates) (o : FormW) : Statement (.lea g o) :=
  statement_native _ 0x07 0x01 (halves4 o.bits) 4 rfl rfl rfl rfl (by decide) (by decide) (by
    show (build07 1 g (halves4 o.bits)).map (⟨4, ·⟩) = some (4, .lea g o, false)
    simp only [build07, opHalves4_halves4, FormW.ofBits_bits, rawW_bits, Option.map])
/-- `fadd`. -/
theorem fadd (g : Gates) (o : FormF) : Statement (.fadd g o) :=
  statement_native _ 0x08 0x00 (halves2 o.bits) 2 rfl rfl rfl rfl (by decide) (by decide) (by
    show (build08 0 g (halves2 o.bits)).map (⟨2, ·⟩) = some (2, .fadd g o, false)
    simp only [build08, opHalves2_halves2, FormF.ofBits_bits, rawF_bits, Option.map])
/-- `fsub`. -/
theorem fsub (g : Gates) (o : FormF) : Statement (.fsub g o) :=
  statement_native _ 0x08 0x01 (halves2 o.bits) 2 rfl rfl rfl rfl (by decide) (by decide) (by
    show (build08 1 g (halves2 o.bits)).map (⟨2, ·⟩) = some (2, .fsub g o, false)
    simp only [build08, opHalves2_halves2, FormF.ofBits_bits, rawF_bits, Option.map])
/-- `fmul`. -/
theorem fmul (g : Gates) (o : FormF) : Statement (.fmul g o) :=
  statement_native _ 0x08 0x02 (halves2 o.bits) 2 rfl rfl rfl rfl (by decide) (by decide) (by
    show (build08 2 g (halves2 o.bits)).map (⟨2, ·⟩) = some (2, .fmul g o, false)
    simp only [build08, opHalves2_halves2, FormF.ofBits_bits, rawF_bits, Option.map])
/-- `fdiv`. -/
theorem fdiv (g : Gates) (o : FormF) : Statement (.fdiv g o) :=
  statement_native _ 0x08 0x03 (halves2 o.bits) 2 rfl rfl rfl rfl (by decide) (by decide) (by
    show (build08 3 g (halves2 o.bits)).map (⟨2, ·⟩) = some (2, .fdiv g o, false)
    simp only [build08, opHalves2_halves2, FormF.ofBits_bits, rawF_bits, Option.map])
/-- `feq`. -/
theorem feq (g : Gates) (o : FormF) : Statement (.feq g o) :=
  statement_native _ 0x08 0x04 (halves2 o.bits) 2 rfl rfl rfl rfl (by decide) (by decide) (by
    show (build08 4 g (halves2 o.bits)).map (⟨2, ·⟩) = some (2, .feq g o, false)
    simp only [build08, opHalves2_halves2, FormF.ofBits_bits, rawF_bits, Option.map])
/-- `flt`. -/
theorem flt (g : Gates) (o : FormF) : Statement (.flt g o) :=
  statement_native _ 0x08 0x05 (halves2 o.bits) 2 rfl rfl rfl rfl (by decide) (by decide) (by
    show (build08 5 g (halves2 o.bits)).map (⟨2, ·⟩) = some (2, .flt g o, false)
    simp only [build08, opHalves2_halves2, FormF.ofBits_bits, rawF_bits, Option.map])
/-- `fle`. -/
theorem fle (g : Gates) (o : FormF) : Statement (.fle g o) :=
  statement_native _ 0x08 0x06 (halves2 o.bits) 2 rfl rfl rfl rfl (by decide) (by decide) (by
    show (build08 6 g (halves2 o.bits)).map (⟨2, ·⟩) = some (2, .fle g o, false)
    simp only [build08, opHalves2_halves2, FormF.ofBits_bits, rawF_bits, Option.map])
/-- `fcvt`. -/
theorem fcvt (g : Gates) (o : FormF) : Statement (.fcvt g o) :=
  statement_native _ 0x08 0x07 (halves2 o.bits) 2 rfl rfl rfl rfl (by decide) (by decide) (by
    show (build08 7 g (halves2 o.bits)).map (⟨2, ·⟩) = some (2, .fcvt g o, false)
    simp only [build08, opHalves2_halves2, FormF.ofBits_bits, rawF_bits, Option.map])
/-- `crd`. -/
theorem crd (g : Gates) (o : FormC) : Statement (.crd g o) :=
  statement_native _ 0x09 0x00 (halves1 o.bits) 1 rfl rfl rfl rfl (by decide) (by decide) (by
    show (build09 0 g (halves1 o.bits)).map (⟨1, ·⟩) = some (1, .crd g o, false)
    simp only [build09, opHalves1_halves1, FormC.ofBits_bits, rawC_bits, Option.map])
/-- `cwr`. -/
theorem cwr (g : Gates) (o : FormC) : Statement (.cwr g o) :=
  statement_native _ 0x09 0x01 (halves1 o.bits) 1 rfl rfl rfl rfl (by decide) (by decide) (by
    show (build09 1 g (halves1 o.bits)).map (⟨1, ·⟩) = some (1, .cwr g o, false)
    simp only [build09, opHalves1_halves1, FormC.ofBits_bits, rawC_bits, Option.map])
/-- `rqget`. -/
theorem rqget (g : Gates) (o : FormC) : Statement (.rqget g o) :=
  statement_native _ 0x09 0x02 (halves1 o.bits) 1 rfl rfl rfl rfl (by decide) (by decide) (by
    show (build09 2 g (halves1 o.bits)).map (⟨1, ·⟩) = some (1, .rqget g o, false)
    simp only [build09, opHalves1_halves1, FormC.ofBits_bits, rawC_bits, Option.map])
/-- `setvl`. -/
theorem setvl (g : Gates) (o : FormH) : Statement (.setvl g o) :=
  statement_native _ 0x10 0x00 (halves1 o.bits) 1 rfl rfl rfl rfl (by decide) (by decide) (by
    show (build10 0 g (halves1 o.bits)).map (⟨1, ·⟩) = some (1, .setvl g o, false)
    simp only [build10, opHalves1_halves1, FormH.ofBits_bits, rawH_bits, Option.map])
/-- `setvlW`. -/
theorem setvlW (g : Gates) (o : FormH) : Statement (.setvlW g o) :=
  statement_native _ 0x10 0x01 (halves1 o.bits) 1 rfl rfl rfl rfl (by decide) (by decide) (by
    show (build10 1 g (halves1 o.bits)).map (⟨1, ·⟩) = some (1, .setvlW g o, false)
    simp only [build10, opHalves1_halves1, FormH.ofBits_bits, rawH_bits, Option.map])
/-- `vend`. -/
theorem vend (g : Gates) : Statement (.vend g) :=
  statement_native _ 0x11 0x00 ([]) 0 rfl rfl rfl rfl (by decide) (by decide) rfl
/-- `vrejoin`. -/
theorem vrejoin (g : Gates) : Statement (.vrejoin g) :=
  statement_native _ 0x11 0x01 ([]) 0 rfl rfl rfl rfl (by decide) (by decide) rfl
/-- `vlset`. -/
theorem vlset (g : Gates) (o : FormA) : Statement (.vlset g o) :=
  statement_native _ 0x12 0x00 (halves1 o.bits) 1 rfl rfl rfl rfl (by decide) (by decide) (by
    show (build12 0 g (halves1 o.bits)).map (⟨1, ·⟩) = some (1, .vlset g o, false)
    simp only [build12, opHalves1_halves1, FormA.ofBits_bits, rawA_bits, Option.map])
/-- `vloop`. -/
theorem vloop (g : Gates) (o : FormL) : Statement (.vloop g o) :=
  statement_native _ 0x13 0x00 (halves2 o.bits) 2 rfl rfl rfl rfl (by decide) (by decide) (by
    show (build13 0 g (halves2 o.bits)).map (⟨2, ·⟩) = some (2, .vloop g o, false)
    simp only [build13, opHalves2_halves2, FormL.ofBits_bits, rawL_bits, Option.map])
/-- `vbany`. -/
theorem vbany (g : Gates) (o : FormL) : Statement (.vbany g o) :=
  statement_native _ 0x13 0x01 (halves2 o.bits) 2 rfl rfl rfl rfl (by decide) (by decide) (by
    show (build13 1 g (halves2 o.bits)).map (⟨2, ·⟩) = some (2, .vbany g o, false)
    simp only [build13, opHalves2_halves2, FormL.ofBits_bits, rawL_bits, Option.map])
/-- `vbnone`. -/
theorem vbnone (g : Gates) (o : FormL) : Statement (.vbnone g o) :=
  statement_native _ 0x13 0x02 (halves2 o.bits) 2 rfl rfl rfl rfl (by decide) (by decide) (by
    show (build13 2 g (halves2 o.bits)).map (⟨2, ·⟩) = some (2, .vbnone g o, false)
    simp only [build13, opHalves2_halves2, FormL.ofBits_bits, rawL_bits, Option.map])
/-- `vadd`. -/
theorem vadd (g : Gates) (o : FormV) : Statement (.vadd g o) :=
  statement_native _ 0x14 0x00 (halves3 o.bits) 3 rfl rfl rfl rfl (by decide) (by decide) (by
    show (build14 0 g (halves3 o.bits)).map (⟨3, ·⟩) = some (3, .vadd g o, false)
    simp only [build14, opHalves3_halves3, FormV.ofBits_bits, rawV_bits, Option.map])
/-- `vsub`. -/
theorem vsub (g : Gates) (o : FormV) : Statement (.vsub g o) :=
  statement_native _ 0x14 0x01 (halves3 o.bits) 3 rfl rfl rfl rfl (by decide) (by decide) (by
    show (build14 1 g (halves3 o.bits)).map (⟨3, ·⟩) = some (3, .vsub g o, false)
    simp only [build14, opHalves3_halves3, FormV.ofBits_bits, rawV_bits, Option.map])
/-- `vmul`. -/
theorem vmul (g : Gates) (o : FormV) : Statement (.vmul g o) :=
  statement_native _ 0x14 0x02 (halves3 o.bits) 3 rfl rfl rfl rfl (by decide) (by decide) (by
    show (build14 2 g (halves3 o.bits)).map (⟨3, ·⟩) = some (3, .vmul g o, false)
    simp only [build14, opHalves3_halves3, FormV.ofBits_bits, rawV_bits, Option.map])
/-- `vmulh`. -/
theorem vmulh (g : Gates) (o : FormV) : Statement (.vmulh g o) :=
  statement_native _ 0x14 0x03 (halves3 o.bits) 3 rfl rfl rfl rfl (by decide) (by decide) (by
    show (build14 3 g (halves3 o.bits)).map (⟨3, ·⟩) = some (3, .vmulh g o, false)
    simp only [build14, opHalves3_halves3, FormV.ofBits_bits, rawV_bits, Option.map])
/-- `vmin`. -/
theorem vmin (g : Gates) (o : FormV) : Statement (.vmin g o) :=
  statement_native _ 0x14 0x04 (halves3 o.bits) 3 rfl rfl rfl rfl (by decide) (by decide) (by
    show (build14 4 g (halves3 o.bits)).map (⟨3, ·⟩) = some (3, .vmin g o, false)
    simp only [build14, opHalves3_halves3, FormV.ofBits_bits, rawV_bits, Option.map])
/-- `vmax`. -/
theorem vmax (g : Gates) (o : FormV) : Statement (.vmax g o) :=
  statement_native _ 0x14 0x05 (halves3 o.bits) 3 rfl rfl rfl rfl (by decide) (by decide) (by
    show (build14 5 g (halves3 o.bits)).map (⟨3, ·⟩) = some (3, .vmax g o, false)
    simp only [build14, opHalves3_halves3, FormV.ofBits_bits, rawV_bits, Option.map])
/-- `vand`. -/
theorem vand (g : Gates) (o : FormV) : Statement (.vand g o) :=
  statement_native _ 0x14 0x06 (halves3 o.bits) 3 rfl rfl rfl rfl (by decide) (by decide) (by
    show (build14 6 g (halves3 o.bits)).map (⟨3, ·⟩) = some (3, .vand g o, false)
    simp only [build14, opHalves3_halves3, FormV.ofBits_bits, rawV_bits, Option.map])
/-- `vor`. -/
theorem vor (g : Gates) (o : FormV) : Statement (.vor g o) :=
  statement_native _ 0x14 0x07 (halves3 o.bits) 3 rfl rfl rfl rfl (by decide) (by decide) (by
    show (build14 7 g (halves3 o.bits)).map (⟨3, ·⟩) = some (3, .vor g o, false)
    simp only [build14, opHalves3_halves3, FormV.ofBits_bits, rawV_bits, Option.map])
/-- `vxor`. -/
theorem vxor (g : Gates) (o : FormV) : Statement (.vxor g o) :=
  statement_native _ 0x14 0x08 (halves3 o.bits) 3 rfl rfl rfl rfl (by decide) (by decide) (by
    show (build14 8 g (halves3 o.bits)).map (⟨3, ·⟩) = some (3, .vxor g o, false)
    simp only [build14, opHalves3_halves3, FormV.ofBits_bits, rawV_bits, Option.map])
/-- `vsll`. -/
theorem vsll (g : Gates) (o : FormV) : Statement (.vsll g o) :=
  statement_native _ 0x14 0x09 (halves3 o.bits) 3 rfl rfl rfl rfl (by decide) (by decide) (by
    show (build14 9 g (halves3 o.bits)).map (⟨3, ·⟩) = some (3, .vsll g o, false)
    simp only [build14, opHalves3_halves3, FormV.ofBits_bits, rawV_bits, Option.map])
/-- `vsrl`. -/
theorem vsrl (g : Gates) (o : FormV) : Statement (.vsrl g o) :=
  statement_native _ 0x14 0x0A (halves3 o.bits) 3 rfl rfl rfl rfl (by decide) (by decide) (by
    show (build14 10 g (halves3 o.bits)).map (⟨3, ·⟩) = some (3, .vsrl g o, false)
    simp only [build14, opHalves3_halves3, FormV.ofBits_bits, rawV_bits, Option.map])
/-- `vsra`. -/
theorem vsra (g : Gates) (o : FormV) : Statement (.vsra g o) :=
  statement_native _ 0x14 0x0B (halves3 o.bits) 3 rfl rfl rfl rfl (by decide) (by decide) (by
    show (build14 11 g (halves3 o.bits)).map (⟨3, ·⟩) = some (3, .vsra g o, false)
    simp only [build14, opHalves3_halves3, FormV.ofBits_bits, rawV_bits, Option.map])
/-- `vsadd`. -/
theorem vsadd (g : Gates) (o : FormV) : Statement (.vsadd g o) :=
  statement_native _ 0x14 0x0C (halves3 o.bits) 3 rfl rfl rfl rfl (by decide) (by decide) (by
    show (build14 12 g (halves3 o.bits)).map (⟨3, ·⟩) = some (3, .vsadd g o, false)
    simp only [build14, opHalves3_halves3, FormV.ofBits_bits, rawV_bits, Option.map])
/-- `vssub`. -/
theorem vssub (g : Gates) (o : FormV) : Statement (.vssub g o) :=
  statement_native _ 0x14 0x0D (halves3 o.bits) 3 rfl rfl rfl rfl (by decide) (by decide) (by
    show (build14 13 g (halves3 o.bits)).map (⟨3, ·⟩) = some (3, .vssub g o, false)
    simp only [build14, opHalves3_halves3, FormV.ofBits_bits, rawV_bits, Option.map])
/-- `vdiv`. -/
theorem vdiv (g : Gates) (o : FormV) : Statement (.vdiv g o) :=
  statement_native _ 0x14 0x0E (halves3 o.bits) 3 rfl rfl rfl rfl (by decide) (by decide) (by
    show (build14 14 g (halves3 o.bits)).map (⟨3, ·⟩) = some (3, .vdiv g o, false)
    simp only [build14, opHalves3_halves3, FormV.ofBits_bits, rawV_bits, Option.map])
/-- `vrem`. -/
theorem vrem (g : Gates) (o : FormV) : Statement (.vrem g o) :=
  statement_native _ 0x14 0x0F (halves3 o.bits) 3 rfl rfl rfl rfl (by decide) (by decide) (by
    show (build14 15 g (halves3 o.bits)).map (⟨3, ·⟩) = some (3, .vrem g o, false)
    simp only [build14, opHalves3_halves3, FormV.ofBits_bits, rawV_bits, Option.map])
/-- `vfadd`. -/
theorem vfadd (g : Gates) (o : FormV) : Statement (.vfadd g o) :=
  statement_native _ 0x15 0x00 (halves3 o.bits) 3 rfl rfl rfl rfl (by decide) (by decide) (by
    show (build15 0 g (halves3 o.bits)).map (⟨3, ·⟩) = some (3, .vfadd g o, false)
    simp only [build15, opHalves3_halves3, FormV.ofBits_bits, rawV_bits, Option.map])
/-- `vfsub`. -/
theorem vfsub (g : Gates) (o : FormV) : Statement (.vfsub g o) :=
  statement_native _ 0x15 0x01 (halves3 o.bits) 3 rfl rfl rfl rfl (by decide) (by decide) (by
    show (build15 1 g (halves3 o.bits)).map (⟨3, ·⟩) = some (3, .vfsub g o, false)
    simp only [build15, opHalves3_halves3, FormV.ofBits_bits, rawV_bits, Option.map])
/-- `vfmul`. -/
theorem vfmul (g : Gates) (o : FormV) : Statement (.vfmul g o) :=
  statement_native _ 0x15 0x02 (halves3 o.bits) 3 rfl rfl rfl rfl (by decide) (by decide) (by
    show (build15 2 g (halves3 o.bits)).map (⟨3, ·⟩) = some (3, .vfmul g o, false)
    simp only [build15, opHalves3_halves3, FormV.ofBits_bits, rawV_bits, Option.map])
/-- `vfdiv`. -/
theorem vfdiv (g : Gates) (o : FormV) : Statement (.vfdiv g o) :=
  statement_native _ 0x15 0x03 (halves3 o.bits) 3 rfl rfl rfl rfl (by decide) (by decide) (by
    show (build15 3 g (halves3 o.bits)).map (⟨3, ·⟩) = some (3, .vfdiv g o, false)
    simp only [build15, opHalves3_halves3, FormV.ofBits_bits, rawV_bits, Option.map])
/-- `vfma`. -/
theorem vfma (g : Gates) (o : FormV) : Statement (.vfma g o) :=
  statement_native _ 0x15 0x04 (halves3 o.bits) 3 rfl rfl rfl rfl (by decide) (by decide) (by
    show (build15 4 g (halves3 o.bits)).map (⟨3, ·⟩) = some (3, .vfma g o, false)
    simp only [build15, opHalves3_halves3, FormV.ofBits_bits, rawV_bits, Option.map])
/-- `vfms`. -/
theorem vfms (g : Gates) (o : FormV) : Statement (.vfms g o) :=
  statement_native _ 0x15 0x05 (halves3 o.bits) 3 rfl rfl rfl rfl (by decide) (by decide) (by
    show (build15 5 g (halves3 o.bits)).map (⟨3, ·⟩) = some (3, .vfms g o, false)
    simp only [build15, opHalves3_halves3, FormV.ofBits_bits, rawV_bits, Option.map])
/-- `vfmin`. -/
theorem vfmin (g : Gates) (o : FormV) : Statement (.vfmin g o) :=
  statement_native _ 0x15 0x06 (halves3 o.bits) 3 rfl rfl rfl rfl (by decide) (by decide) (by
    show (build15 6 g (halves3 o.bits)).map (⟨3, ·⟩) = some (3, .vfmin g o, false)
    simp only [build15, opHalves3_halves3, FormV.ofBits_bits, rawV_bits, Option.map])
/-- `vfmax`. -/
theorem vfmax (g : Gates) (o : FormV) : Statement (.vfmax g o) :=
  statement_native _ 0x15 0x07 (halves3 o.bits) 3 rfl rfl rfl rfl (by decide) (by decide) (by
    show (build15 7 g (halves3 o.bits)).map (⟨3, ·⟩) = some (3, .vfmax g o, false)
    simp only [build15, opHalves3_halves3, FormV.ofBits_bits, rawV_bits, Option.map])
/-- `vfsqrt`. -/
theorem vfsqrt (g : Gates) (o : FormV) : Statement (.vfsqrt g o) :=
  statement_native _ 0x15 0x08 (halves3 o.bits) 3 rfl rfl rfl rfl (by decide) (by decide) (by
    show (build15 8 g (halves3 o.bits)).map (⟨3, ·⟩) = some (3, .vfsqrt g o, false)
    simp only [build15, opHalves3_halves3, FormV.ofBits_bits, rawV_bits, Option.map])
/-- `vfabs`. -/
theorem vfabs (g : Gates) (o : FormV) : Statement (.vfabs g o) :=
  statement_native _ 0x15 0x09 (halves3 o.bits) 3 rfl rfl rfl rfl (by decide) (by decide) (by
    show (build15 9 g (halves3 o.bits)).map (⟨3, ·⟩) = some (3, .vfabs g o, false)
    simp only [build15, opHalves3_halves3, FormV.ofBits_bits, rawV_bits, Option.map])
/-- `vfneg`. -/
theorem vfneg (g : Gates) (o : FormV) : Statement (.vfneg g o) :=
  statement_native _ 0x15 0x0A (halves3 o.bits) 3 rfl rfl rfl rfl (by decide) (by decide) (by
    show (build15 10 g (halves3 o.bits)).map (⟨3, ·⟩) = some (3, .vfneg g o, false)
    simp only [build15, opHalves3_halves3, FormV.ofBits_bits, rawV_bits, Option.map])
/-- `vmseq`. -/
theorem vmseq (g : Gates) (o : FormV) : Statement (.vmseq g o) :=
  statement_native _ 0x16 0x00 (halves3 o.bits) 3 rfl rfl rfl rfl (by decide) (by decide) (by
    show (build16 0 g (halves3 o.bits)).map (⟨3, ·⟩) = some (3, .vmseq g o, false)
    simp only [build16, opHalves3_halves3, FormV.ofBits_bits, rawV_bits, Option.map])
/-- `vmsne`. -/
theorem vmsne (g : Gates) (o : FormV) : Statement (.vmsne g o) :=
  statement_native _ 0x16 0x01 (halves3 o.bits) 3 rfl rfl rfl rfl (by decide) (by decide) (by
    show (build16 1 g (halves3 o.bits)).map (⟨3, ·⟩) = some (3, .vmsne g o, false)
    simp only [build16, opHalves3_halves3, FormV.ofBits_bits, rawV_bits, Option.map])
/-- `vmslt`. -/
theorem vmslt (g : Gates) (o : FormV) : Statement (.vmslt g o) :=
  statement_native _ 0x16 0x02 (halves3 o.bits) 3 rfl rfl rfl rfl (by decide) (by decide) (by
    show (build16 2 g (halves3 o.bits)).map (⟨3, ·⟩) = some (3, .vmslt g o, false)
    simp only [build16, opHalves3_halves3, FormV.ofBits_bits, rawV_bits, Option.map])
/-- `vmsle`. -/
theorem vmsle (g : Gates) (o : FormV) : Statement (.vmsle g o) :=
  statement_native _ 0x16 0x03 (halves3 o.bits) 3 rfl rfl rfl rfl (by decide) (by decide) (by
    show (build16 3 g (halves3 o.bits)).map (⟨3, ·⟩) = some (3, .vmsle g o, false)
    simp only [build16, opHalves3_halves3, FormV.ofBits_bits, rawV_bits, Option.map])
/-- `vmsltu`. -/
theorem vmsltu (g : Gates) (o : FormV) : Statement (.vmsltu g o) :=
  statement_native _ 0x16 0x04 (halves3 o.bits) 3 rfl rfl rfl rfl (by decide) (by decide) (by
    show (build16 4 g (halves3 o.bits)).map (⟨3, ·⟩) = some (3, .vmsltu g o, false)
    simp only [build16, opHalves3_halves3, FormV.ofBits_bits, rawV_bits, Option.map])
/-- `vmsleu`. -/
theorem vmsleu (g : Gates) (o : FormV) : Statement (.vmsleu g o) :=
  statement_native _ 0x16 0x05 (halves3 o.bits) 3 rfl rfl rfl rfl (by decide) (by decide) (by
    show (build16 5 g (halves3 o.bits)).map (⟨3, ·⟩) = some (3, .vmsleu g o, false)
    simp only [build16, opHalves3_halves3, FormV.ofBits_bits, rawV_bits, Option.map])
/-- `vmfeq`. -/
theorem vmfeq (g : Gates) (o : FormV) : Statement (.vmfeq g o) :=
  statement_native _ 0x16 0x06 (halves3 o.bits) 3 rfl rfl rfl rfl (by decide) (by decide) (by
    show (build16 6 g (halves3 o.bits)).map (⟨3, ·⟩) = some (3, .vmfeq g o, false)
    simp only [build16, opHalves3_halves3, FormV.ofBits_bits, rawV_bits, Option.map])
/-- `vmflt`. -/
theorem vmflt (g : Gates) (o : FormV) : Statement (.vmflt g o) :=
  statement_native _ 0x16 0x07 (halves3 o.bits) 3 rfl rfl rfl rfl (by decide) (by decide) (by
    show (build16 7 g (halves3 o.bits)).map (⟨3, ·⟩) = some (3, .vmflt g o, false)
    simp only [build16, opHalves3_halves3, FormV.ofBits_bits, rawV_bits, Option.map])
/-- `vmfle`. -/
theorem vmfle (g : Gates) (o : FormV) : Statement (.vmfle g o) :=
  statement_native _ 0x16 0x08 (halves3 o.bits) 3 rfl rfl rfl rfl (by decide) (by decide) (by
    show (build16 8 g (halves3 o.bits)).map (⟨3, ·⟩) = some (3, .vmfle g o, false)
    simp only [build16, opHalves3_halves3, FormV.ofBits_bits, rawV_bits, Option.map])
/-- `mand`. -/
theorem mand (g : Gates) (o : FormK) : Statement (.mand g o) :=
  statement_native _ 0x17 0x00 (halves1 o.bits) 1 rfl rfl rfl rfl (by decide) (by decide) (by
    show (build17 0 g (halves1 o.bits)).map (⟨1, ·⟩) = some (1, .mand g o, false)
    simp only [build17, opHalves1_halves1, FormK.ofBits_bits, rawK_bits, Option.map])
/-- `mor`. -/
theorem mor (g : Gates) (o : FormK) : Statement (.mor g o) :=
  statement_native _ 0x17 0x01 (halves1 o.bits) 1 rfl rfl rfl rfl (by decide) (by decide) (by
    show (build17 1 g (halves1 o.bits)).map (⟨1, ·⟩) = some (1, .mor g o, false)
    simp only [build17, opHalves1_halves1, FormK.ofBits_bits, rawK_bits, Option.map])
/-- `mxor`. -/
theorem mxor (g : Gates) (o : FormK) : Statement (.mxor g o) :=
  statement_native _ 0x17 0x02 (halves1 o.bits) 1 rfl rfl rfl rfl (by decide) (by decide) (by
    show (build17 2 g (halves1 o.bits)).map (⟨1, ·⟩) = some (1, .mxor g o, false)
    simp only [build17, opHalves1_halves1, FormK.ofBits_bits, rawK_bits, Option.map])
/-- `mnot`. -/
theorem mnot (g : Gates) (o : FormK) : Statement (.mnot g o) :=
  statement_native _ 0x17 0x03 (halves1 o.bits) 1 rfl rfl rfl rfl (by decide) (by decide) (by
    show (build17 3 g (halves1 o.bits)).map (⟨1, ·⟩) = some (1, .mnot g o, false)
    simp only [build17, opHalves1_halves1, FormK.ofBits_bits, rawK_bits, Option.map])
/-- `mmv`. -/
theorem mmv (g : Gates) (o : FormK) : Statement (.mmv g o) :=
  statement_native _ 0x17 0x04 (halves1 o.bits) 1 rfl rfl rfl rfl (by decide) (by decide) (by
    show (build17 4 g (halves1 o.bits)).map (⟨1, ·⟩) = some (1, .mmv g o, false)
    simp only [build17, opHalves1_halves1, FormK.ofBits_bits, rawK_bits, Option.map])
/-- `msbf`. -/
theorem msbf (g : Gates) (o : FormK) : Statement (.msbf g o) :=
  statement_native _ 0x17 0x05 (halves1 o.bits) 1 rfl rfl rfl rfl (by decide) (by decide) (by
    show (build17 5 g (halves1 o.bits)).map (⟨1, ·⟩) = some (1, .msbf g o, false)
    simp only [build17, opHalves1_halves1, FormK.ofBits_bits, rawK_bits, Option.map])
/-- `msif`. -/
theorem msif (g : Gates) (o : FormK) : Statement (.msif g o) :=
  statement_native _ 0x17 0x06 (halves1 o.bits) 1 rfl rfl rfl rfl (by decide) (by decide) (by
    show (build17 6 g (halves1 o.bits)).map (⟨1, ·⟩) = some (1, .msif g o, false)
    simp only [build17, opHalves1_halves1, FormK.ofBits_bits, rawK_bits, Option.map])
/-- `msof`. -/
theorem msof (g : Gates) (o : FormK) : Statement (.msof g o) :=
  statement_native _ 0x17 0x07 (halves1 o.bits) 1 rfl rfl rfl rfl (by decide) (by decide) (by
    show (build17 7 g (halves1 o.bits)).map (⟨1, ·⟩) = some (1, .msof g o, false)
    simp only [build17, opHalves1_halves1, FormK.ofBits_bits, rawK_bits, Option.map])
/-- `mcnt`. -/
theorem mcnt (g : Gates) (o : FormK) : Statement (.mcnt g o) :=
  statement_native _ 0x17 0x08 (halves1 o.bits) 1 rfl rfl rfl rfl (by decide) (by decide) (by
    show (build17 8 g (halves1 o.bits)).map (⟨1, ·⟩) = some (1, .mcnt g o, false)
    simp only [build17, opHalves1_halves1, FormK.ofBits_bits, rawK_bits, Option.map])
/-- `many`. -/
theorem many (g : Gates) (o : FormK) : Statement (.many g o) :=
  statement_native _ 0x17 0x09 (halves1 o.bits) 1 rfl rfl rfl rfl (by decide) (by decide) (by
    show (build17 9 g (halves1 o.bits)).map (⟨1, ·⟩) = some (1, .many g o, false)
    simp only [build17, opHalves1_halves1, FormK.ofBits_bits, rawK_bits, Option.map])
/-- `mfirst`. -/
theorem mfirst (g : Gates) (o : FormK) : Statement (.mfirst g o) :=
  statement_native _ 0x17 0x0A (halves1 o.bits) 1 rfl rfl rfl rfl (by decide) (by decide) (by
    show (build17 10 g (halves1 o.bits)).map (⟨1, ·⟩) = some (1, .mfirst g o, false)
    simp only [build17, opHalves1_halves1, FormK.ofBits_bits, rawK_bits, Option.map])
/-- `vmv`. -/
theorem vmv (g : Gates) (o : FormV) : Statement (.vmv g o) :=
  statement_native _ 0x18 0x00 (halves3 o.bits) 3 rfl rfl rfl rfl (by decide) (by decide) (by
    show (build18 0 g (halves3 o.bits)).map (⟨3, ·⟩) = some (3, .vmv g o, false)
    simp only [build18, opHalves3_halves3, FormV.ofBits_bits, rawV_bits, Option.map])
/-- `vid`. -/
theorem vid (g : Gates) (o : FormV) : Statement (.vid g o) :=
  statement_native _ 0x18 0x01 (halves3 o.bits) 3 rfl rfl rfl rfl (by decide) (by decide) (by
    show (build18 1 g (halves3 o.bits)).map (⟨3, ·⟩) = some (3, .vid g o, false)
    simp only [build18, opHalves3_halves3, FormV.ofBits_bits, rawV_bits, Option.map])
/-- `vcompress`. -/
theorem vcompress (g : Gates) (o : FormV) : Statement (.vcompress g o) :=
  statement_native _ 0x18 0x02 (halves3 o.bits) 3 rfl rfl rfl rfl (by decide) (by decide) (by
    show (build18 2 g (halves3 o.bits)).map (⟨3, ·⟩) = some (3, .vcompress g o, false)
    simp only [build18, opHalves3_halves3, FormV.ofBits_bits, rawV_bits, Option.map])
/-- `vexpand`. -/
theorem vexpand (g : Gates) (o : FormV) : Statement (.vexpand g o) :=
  statement_native _ 0x18 0x03 (halves3 o.bits) 3 rfl rfl rfl rfl (by decide) (by decide) (by
    show (build18 3 g (halves3 o.bits)).map (⟨3, ·⟩) = some (3, .vexpand g o, false)
    simp only [build18, opHalves3_halves3, FormV.ofBits_bits, rawV_bits, Option.map])
/-- `vslideup`. -/
theorem vslideup (g : Gates) (o : FormV) : Statement (.vslideup g o) :=
  statement_native _ 0x18 0x04 (halves3 o.bits) 3 rfl rfl rfl rfl (by decide) (by decide) (by
    show (build18 4 g (halves3 o.bits)).map (⟨3, ·⟩) = some (3, .vslideup g o, false)
    simp only [build18, opHalves3_halves3, FormV.ofBits_bits, rawV_bits, Option.map])
/-- `vslidedn`. -/
theorem vslidedn (g : Gates) (o : FormV) : Statement (.vslidedn g o) :=
  statement_native _ 0x18 0x05 (halves3 o.bits) 3 rfl rfl rfl rfl (by decide) (by decide) (by
    show (build18 5 g (halves3 o.bits)).map (⟨3, ·⟩) = some (3, .vslidedn g o, false)
    simp only [build18, opHalves3_halves3, FormV.ofBits_bits, rawV_bits, Option.map])
/-- `vgather`. -/
theorem vgather (g : Gates) (o : FormV) : Statement (.vgather g o) :=
  statement_native _ 0x18 0x06 (halves3 o.bits) 3 rfl rfl rfl rfl (by decide) (by decide) (by
    show (build18 6 g (halves3 o.bits)).map (⟨3, ·⟩) = some (3, .vgather g o, false)
    simp only [build18, opHalves3_halves3, FormV.ofBits_bits, rawV_bits, Option.map])
/-- `vmerge`. -/
theorem vmerge (g : Gates) (o : FormV) : Statement (.vmerge g o) :=
  statement_native _ 0x18 0x07 (halves3 o.bits) 3 rfl rfl rfl rfl (by decide) (by decide) (by
    show (build18 7 g (halves3 o.bits)).map (⟨3, ·⟩) = some (3, .vmerge g o, false)
    simp only [build18, opHalves3_halves3, FormV.ofBits_bits, rawV_bits, Option.map])
/-- `vredsum`. -/
theorem vredsum (g : Gates) (o : FormV) : Statement (.vredsum g o) :=
  statement_native _ 0x19 0x00 (halves3 o.bits) 3 rfl rfl rfl rfl (by decide) (by decide) (by
    show (build19 0 g (halves3 o.bits)).map (⟨3, ·⟩) = some (3, .vredsum g o, false)
    simp only [build19, opHalves3_halves3, FormV.ofBits_bits, rawV_bits, Option.map])
/-- `vfredo`. -/
theorem vfredo (g : Gates) (o : FormV) : Statement (.vfredo g o) :=
  statement_native _ 0x19 0x01 (halves3 o.bits) 3 rfl rfl rfl rfl (by decide) (by decide) (by
    show (build19 1 g (halves3 o.bits)).map (⟨3, ·⟩) = some (3, .vfredo g o, false)
    simp only [build19, opHalves3_halves3, FormV.ofBits_bits, rawV_bits, Option.map])
/-- `vfredt`. -/
theorem vfredt (g : Gates) (o : FormV) : Statement (.vfredt g o) :=
  statement_native _ 0x19 0x02 (halves3 o.bits) 3 rfl rfl rfl rfl (by decide) (by decide) (by
    show (build19 2 g (halves3 o.bits)).map (⟨3, ·⟩) = some (3, .vfredt g o, false)
    simp only [build19, opHalves3_halves3, FormV.ofBits_bits, rawV_bits, Option.map])
/-- `vredmin`. -/
theorem vredmin (g : Gates) (o : FormV) : Statement (.vredmin g o) :=
  statement_native _ 0x19 0x03 (halves3 o.bits) 3 rfl rfl rfl rfl (by decide) (by decide) (by
    show (build19 3 g (halves3 o.bits)).map (⟨3, ·⟩) = some (3, .vredmin g o, false)
    simp only [build19, opHalves3_halves3, FormV.ofBits_bits, rawV_bits, Option.map])
/-- `vredmax`. -/
theorem vredmax (g : Gates) (o : FormV) : Statement (.vredmax g o) :=
  statement_native _ 0x19 0x04 (halves3 o.bits) 3 rfl rfl rfl rfl (by decide) (by decide) (by
    show (build19 4 g (halves3 o.bits)).map (⟨3, ·⟩) = some (3, .vredmax g o, false)
    simp only [build19, opHalves3_halves3, FormV.ofBits_bits, rawV_bits, Option.map])
/-- `vcvt`. -/
theorem vcvt (g : Gates) (o : FormV) : Statement (.vcvt g o) :=
  statement_native _ 0x19 0x05 (halves3 o.bits) 3 rfl rfl rfl rfl (by decide) (by decide) (by
    show (build19 5 g (halves3 o.bits)).map (⟨3, ·⟩) = some (3, .vcvt g o, false)
    simp only [build19, opHalves3_halves3, FormV.ofBits_bits, rawV_bits, Option.map])
/-- `vunpk`. -/
theorem vunpk (g : Gates) (o : FormV) : Statement (.vunpk g o) :=
  statement_native _ 0x19 0x06 (halves3 o.bits) 3 rfl rfl rfl rfl (by decide) (by decide) (by
    show (build19 6 g (halves3 o.bits)).map (⟨3, ·⟩) = some (3, .vunpk g o, false)
    simp only [build19, opHalves3_halves3, FormV.ofBits_bits, rawV_bits, Option.map])
/-- `vpilgrim`. -/
theorem vpilgrim (g : Gates) (o : FormV) : Statement (.vpilgrim g o) :=
  statement_native _ 0x19 0x07 (halves3 o.bits) 3 rfl rfl rfl rfl (by decide) (by decide) (by
    show (build19 7 g (halves3 o.bits)).map (⟨3, ·⟩) = some (3, .vpilgrim g o, false)
    simp only [build19, opHalves3_halves3, FormV.ofBits_bits, rawV_bits, Option.map])
/-- `vqpush`. -/
theorem vqpush (g : Gates) (o : FormV) : Statement (.vqpush g o) :=
  statement_native _ 0x19 0x08 (halves3 o.bits) 3 rfl rfl rfl rfl (by decide) (by decide) (by
    show (build19 8 g (halves3 o.bits)).map (⟨3, ·⟩) = some (3, .vqpush g o, false)
    simp only [build19, opHalves3_halves3, FormV.ofBits_bits, rawV_bits, Option.map])
/-- `vqpop`. -/
theorem vqpop (g : Gates) (o : FormV) : Statement (.vqpop g o) :=
  statement_native _ 0x19 0x09 (halves3 o.bits) 3 rfl rfl rfl rfl (by decide) (by decide) (by
    show (build19 9 g (halves3 o.bits)).map (⟨3, ·⟩) = some (3, .vqpop g o, false)
    simp only [build19, opHalves3_halves3, FormV.ofBits_bits, rawV_bits, Option.map])
/-- `vdetach`. -/
theorem vdetach (g : Gates) (o : FormV) : Statement (.vdetach g o) :=
  statement_native _ 0x19 0x0A (halves3 o.bits) 3 rfl rfl rfl rfl (by decide) (by decide) (by
    show (build19 10 g (halves3 o.bits)).map (⟨3, ·⟩) = some (3, .vdetach g o, false)
    simp only [build19, opHalves3_halves3, FormV.ofBits_bits, rawV_bits, Option.map])
/-- `vld`. -/
theorem vld (g : Gates) (o : FormM) : Statement (.vld g o) :=
  statement_native _ 0x20 0x00 (halves3 o.bits) 3 rfl rfl rfl rfl (by decide) (by decide) (by
    show (build20 0 g (halves3 o.bits)).map (⟨3, ·⟩) = some (3, .vld g o, false)
    simp only [build20, opHalves3_halves3, FormM.ofBits_bits, rawM_bits, Option.map])
/-- `vst`. -/
theorem vst (g : Gates) (o : FormM) : Statement (.vst g o) :=
  statement_native _ 0x20 0x01 (halves3 o.bits) 3 rfl rfl rfl rfl (by decide) (by decide) (by
    show (build20 1 g (halves3 o.bits)).map (⟨3, ·⟩) = some (3, .vst g o, false)
    simp only [build20, opHalves3_halves3, FormM.ofBits_bits, rawM_bits, Option.map])
/-- `vlds`. -/
theorem vlds (g : Gates) (o : FormM) : Statement (.vlds g o) :=
  statement_native _ 0x20 0x02 (halves3 o.bits) 3 rfl rfl rfl rfl (by decide) (by decide) (by
    show (build20 2 g (halves3 o.bits)).map (⟨3, ·⟩) = some (3, .vlds g o, false)
    simp only [build20, opHalves3_halves3, FormM.ofBits_bits, rawM_bits, Option.map])
/-- `vsts`. -/
theorem vsts (g : Gates) (o : FormM) : Statement (.vsts g o) :=
  statement_native _ 0x20 0x03 (halves3 o.bits) 3 rfl rfl rfl rfl (by decide) (by decide) (by
    show (build20 3 g (halves3 o.bits)).map (⟨3, ·⟩) = some (3, .vsts g o, false)
    simp only [build20, opHalves3_halves3, FormM.ofBits_bits, rawM_bits, Option.map])
/-- `vldx`. -/
theorem vldx (g : Gates) (o : FormM) : Statement (.vldx g o) :=
  statement_native _ 0x20 0x04 (halves3 o.bits) 3 rfl rfl rfl rfl (by decide) (by decide) (by
    show (build20 4 g (halves3 o.bits)).map (⟨3, ·⟩) = some (3, .vldx g o, false)
    simp only [build20, opHalves3_halves3, FormM.ofBits_bits, rawM_bits, Option.map])
/-- `vstx`. -/
theorem vstx (g : Gates) (o : FormM) : Statement (.vstx g o) :=
  statement_native _ 0x20 0x05 (halves3 o.bits) 3 rfl rfl rfl rfl (by decide) (by decide) (by
    show (build20 5 g (halves3 o.bits)).map (⟨3, ·⟩) = some (3, .vstx g o, false)
    simp only [build20, opHalves3_halves3, FormM.ofBits_bits, rawM_bits, Option.map])
/-- `vldff`. -/
theorem vldff (g : Gates) (o : FormM) : Statement (.vldff g o) :=
  statement_native _ 0x20 0x06 (halves3 o.bits) 3 rfl rfl rfl rfl (by decide) (by decide) (by
    show (build20 6 g (halves3 o.bits)).map (⟨3, ·⟩) = some (3, .vldff g o, false)
    simp only [build20, opHalves3_halves3, FormM.ofBits_bits, rawM_bits, Option.map])
/-- `vtld`. -/
theorem vtld (g : Gates) (o : FormM) : Statement (.vtld g o) :=
  statement_native _ 0x20 0x07 (halves3 o.bits) 3 rfl rfl rfl rfl (by decide) (by decide) (by
    show (build20 7 g (halves3 o.bits)).map (⟨3, ·⟩) = some (3, .vtld g o, false)
    simp only [build20, opHalves3_halves3, FormM.ofBits_bits, rawM_bits, Option.map])
/-- `vtst`. -/
theorem vtst (g : Gates) (o : FormM) : Statement (.vtst g o) :=
  statement_native _ 0x20 0x08 (halves3 o.bits) 3 rfl rfl rfl rfl (by decide) (by decide) (by
    show (build20 8 g (halves3 o.bits)).map (⟨3, ·⟩) = some (3, .vtst g o, false)
    simp only [build20, opHalves3_halves3, FormM.ofBits_bits, rawM_bits, Option.map])
/-- `lb`. -/
theorem lb (g : Gates) (o : FormS) : Statement (.lb g o) :=
  statement_native _ 0x21 0x00 (halves3 o.bits) 3 rfl rfl rfl rfl (by decide) (by decide) (by
    show (build21 0 g (halves3 o.bits)).map (⟨3, ·⟩) = some (3, .lb g o, false)
    simp only [build21, opHalves3_halves3, FormS.ofBits_bits, rawS_bits, Option.map])
/-- `lbu`. -/
theorem lbu (g : Gates) (o : FormS) : Statement (.lbu g o) :=
  statement_native _ 0x21 0x01 (halves3 o.bits) 3 rfl rfl rfl rfl (by decide) (by decide) (by
    show (build21 1 g (halves3 o.bits)).map (⟨3, ·⟩) = some (3, .lbu g o, false)
    simp only [build21, opHalves3_halves3, FormS.ofBits_bits, rawS_bits, Option.map])
/-- `lw`. -/
theorem lw (g : Gates) (o : FormS) : Statement (.lw g o) :=
  statement_native _ 0x21 0x02 (halves3 o.bits) 3 rfl rfl rfl rfl (by decide) (by decide) (by
    show (build21 2 g (halves3 o.bits)).map (⟨3, ·⟩) = some (3, .lw g o, false)
    simp only [build21, opHalves3_halves3, FormS.ofBits_bits, rawS_bits, Option.map])
/-- `lwu`. -/
theorem lwu (g : Gates) (o : FormS) : Statement (.lwu g o) :=
  statement_native _ 0x21 0x03 (halves3 o.bits) 3 rfl rfl rfl rfl (by decide) (by decide) (by
    show (build21 3 g (halves3 o.bits)).map (⟨3, ·⟩) = some (3, .lwu g o, false)
    simp only [build21, opHalves3_halves3, FormS.ofBits_bits, rawS_bits, Option.map])
/-- `ld`. -/
theorem ld (g : Gates) (o : FormS) : Statement (.ld g o) :=
  statement_native _ 0x21 0x04 (halves3 o.bits) 3 rfl rfl rfl rfl (by decide) (by decide) (by
    show (build21 4 g (halves3 o.bits)).map (⟨3, ·⟩) = some (3, .ld g o, false)
    simp only [build21, opHalves3_halves3, FormS.ofBits_bits, rawS_bits, Option.map])
/-- `sb`. -/
theorem sb (g : Gates) (o : FormS) : Statement (.sb g o) :=
  statement_native _ 0x21 0x05 (halves3 o.bits) 3 rfl rfl rfl rfl (by decide) (by decide) (by
    show (build21 5 g (halves3 o.bits)).map (⟨3, ·⟩) = some (3, .sb g o, false)
    simp only [build21, opHalves3_halves3, FormS.ofBits_bits, rawS_bits, Option.map])
/-- `sw`. -/
theorem sw (g : Gates) (o : FormS) : Statement (.sw g o) :=
  statement_native _ 0x21 0x06 (halves3 o.bits) 3 rfl rfl rfl rfl (by decide) (by decide) (by
    show (build21 6 g (halves3 o.bits)).map (⟨3, ·⟩) = some (3, .sw g o, false)
    simp only [build21, opHalves3_halves3, FormS.ofBits_bits, rawS_bits, Option.map])
/-- `sd`. -/
theorem sd (g : Gates) (o : FormS) : Statement (.sd g o) :=
  statement_native _ 0x21 0x07 (halves3 o.bits) 3 rfl rfl rfl rfl (by decide) (by decide) (by
    show (build21 7 g (halves3 o.bits)).map (⟨3, ·⟩) = some (3, .sd g o, false)
    simp only [build21, opHalves3_halves3, FormS.ofBits_bits, rawS_bits, Option.map])
/-- `vbind`. -/
theorem vbind (g : Gates) (o : FormV) : Statement (.vbind g o) :=
  statement_native _ 0x22 0x00 (halves3 o.bits) 3 rfl rfl rfl rfl (by decide) (by decide) (by
    show (build22 0 g (halves3 o.bits)).map (⟨3, ·⟩) = some (3, .vbind g o, false)
    simp only [build22, opHalves3_halves3, FormV.ofBits_bits, rawV_bits, Option.map])
/-- `vbindz`. -/
theorem vbindz (g : Gates) (o : FormV) : Statement (.vbindz g o) :=
  statement_native _ 0x22 0x01 (halves3 o.bits) 3 rfl rfl rfl rfl (by decide) (by decide) (by
    show (build22 1 g (halves3 o.bits)).map (⟨3, ·⟩) = some (3, .vbindz g o, false)
    simp only [build22, opHalves3_halves3, FormV.ofBits_bits, rawV_bits, Option.map])
/-- `vbindn`. -/
theorem vbindn (g : Gates) (o : FormV) : Statement (.vbindn g o) :=
  statement_native _ 0x22 0x02 (halves3 o.bits) 3 rfl rfl rfl rfl (by decide) (by decide) (by
    show (build22 2 g (halves3 o.bits)).map (⟨3, ·⟩) = some (3, .vbindn g o, false)
    simp only [build22, opHalves3_halves3, FormV.ofBits_bits, rawV_bits, Option.map])
/-- `vunbind`. -/
theorem vunbind (g : Gates) (o : FormV) : Statement (.vunbind g o) :=
  statement_native _ 0x22 0x03 (halves3 o.bits) 3 rfl rfl rfl rfl (by decide) (by decide) (by
    show (build22 3 g (halves3 o.bits)).map (⟨3, ·⟩) = some (3, .vunbind g o, false)
    simp only [build22, opHalves3_halves3, FormV.ofBits_bits, rawV_bits, Option.map])
/-- `pcopy`. -/
theorem pcopy (g : Gates) (o : FormE) : Statement (.pcopy g o) :=
  statement_native _ 0x23 0x00 (halves2 o.bits) 2 rfl rfl rfl rfl (by decide) (by decide) (by
    show (build23 0 g (halves2 o.bits)).map (⟨2, ·⟩) = some (2, .pcopy g o, false)
    simp only [build23, opHalves2_halves2, FormE.ofBits_bits, rawE_bits, Option.map])
/-- `pcopyz`. -/
theorem pcopyz (g : Gates) (o : FormE) : Statement (.pcopyz g o) :=
  statement_native _ 0x23 0x01 (halves2 o.bits) 2 rfl rfl rfl rfl (by decide) (by decide) (by
    show (build23 1 g (halves2 o.bits)).map (⟨2, ·⟩) = some (2, .pcopyz g o, false)
    simp only [build23, opHalves2_halves2, FormE.ofBits_bits, rawE_bits, Option.map])
/-- `coll`. -/
theorem coll (g : Gates) (o : FormE) : Statement (.coll g o) :=
  statement_native _ 0x23 0x02 (halves2 o.bits) 2 rfl rfl rfl rfl (by decide) (by decide) (by
    show (build23 2 g (halves2 o.bits)).map (⟨2, ·⟩) = some (2, .coll g o, false)
    simp only [build23, opHalves2_halves2, FormE.ofBits_bits, rawE_bits, Option.map])
/-- `racq`. -/
theorem racq (g : Gates) (o : FormA) : Statement (.racq g o) :=
  statement_native _ 0x24 0x00 (halves1 o.bits) 1 rfl rfl rfl rfl (by decide) (by decide) (by
    show (build24 0 g (halves1 o.bits)).map (⟨1, ·⟩) = some (1, .racq g o, false)
    simp only [build24, opHalves1_halves1, FormA.ofBits_bits, rawA_bits, Option.map])
/-- `rrel`. -/
theorem rrel (g : Gates) (o : FormA) : Statement (.rrel g o) :=
  statement_native _ 0x24 0x01 (halves1 o.bits) 1 rfl rfl rfl rfl (by decide) (by decide) (by
    show (build24 1 g (halves1 o.bits)).map (⟨1, ·⟩) = some (1, .rrel g o, false)
    simp only [build24, opHalves1_halves1, FormA.ofBits_bits, rawA_bits, Option.map])
/-- `fenceFar`. -/
theorem fenceFar (g : Gates) (o : FormC) : Statement (.fenceFar g o) :=
  statement_native _ 0x25 0x00 (halves1 o.bits) 1 rfl rfl rfl rfl (by decide) (by decide) (by
    show (build25 0 g (halves1 o.bits)).map (⟨1, ·⟩) = some (1, .fenceFar g o, false)
    simp only [build25, opHalves1_halves1, FormC.ofBits_bits, rawC_bits, Option.map])
/-- `aadd`. -/
theorem aadd (g : Gates) (o : FormX) : Statement (.aadd g o) :=
  statement_native _ 0x26 0x00 (halves3 o.bits) 3 rfl rfl rfl rfl (by decide) (by decide) (by
    show (build26 0 g (halves3 o.bits)).map (⟨3, ·⟩) = some (3, .aadd g o, false)
    simp only [build26, opHalves3_halves3, FormX.ofBits_bits, rawX_bits, Option.map])
/-- `aand`. -/
theorem aand (g : Gates) (o : FormX) : Statement (.aand g o) :=
  statement_native _ 0x26 0x01 (halves3 o.bits) 3 rfl rfl rfl rfl (by decide) (by decide) (by
    show (build26 1 g (halves3 o.bits)).map (⟨3, ·⟩) = some (3, .aand g o, false)
    simp only [build26, opHalves3_halves3, FormX.ofBits_bits, rawX_bits, Option.map])
/-- `aor`. -/
theorem aor (g : Gates) (o : FormX) : Statement (.aor g o) :=
  statement_native _ 0x26 0x02 (halves3 o.bits) 3 rfl rfl rfl rfl (by decide) (by decide) (by
    show (build26 2 g (halves3 o.bits)).map (⟨3, ·⟩) = some (3, .aor g o, false)
    simp only [build26, opHalves3_halves3, FormX.ofBits_bits, rawX_bits, Option.map])
/-- `axor`. -/
theorem axor (g : Gates) (o : FormX) : Statement (.axor g o) :=
  statement_native _ 0x26 0x03 (halves3 o.bits) 3 rfl rfl rfl rfl (by decide) (by decide) (by
    show (build26 3 g (halves3 o.bits)).map (⟨3, ·⟩) = some (3, .axor g o, false)
    simp only [build26, opHalves3_halves3, FormX.ofBits_bits, rawX_bits, Option.map])
/-- `amin`. -/
theorem amin (g : Gates) (o : FormX) : Statement (.amin g o) :=
  statement_native _ 0x26 0x04 (halves3 o.bits) 3 rfl rfl rfl rfl (by decide) (by decide) (by
    show (build26 4 g (halves3 o.bits)).map (⟨3, ·⟩) = some (3, .amin g o, false)
    simp only [build26, opHalves3_halves3, FormX.ofBits_bits, rawX_bits, Option.map])
/-- `amax`. -/
theorem amax (g : Gates) (o : FormX) : Statement (.amax g o) :=
  statement_native _ 0x26 0x05 (halves3 o.bits) 3 rfl rfl rfl rfl (by decide) (by decide) (by
    show (build26 5 g (halves3 o.bits)).map (⟨3, ·⟩) = some (3, .amax g o, false)
    simp only [build26, opHalves3_halves3, FormX.ofBits_bits, rawX_bits, Option.map])
/-- `aminu`. -/
theorem aminu (g : Gates) (o : FormX) : Statement (.aminu g o) :=
  statement_native _ 0x26 0x06 (halves3 o.bits) 3 rfl rfl rfl rfl (by decide) (by decide) (by
    show (build26 6 g (halves3 o.bits)).map (⟨3, ·⟩) = some (3, .aminu g o, false)
    simp only [build26, opHalves3_halves3, FormX.ofBits_bits, rawX_bits, Option.map])
/-- `amaxu`. -/
theorem amaxu (g : Gates) (o : FormX) : Statement (.amaxu g o) :=
  statement_native _ 0x26 0x07 (halves3 o.bits) 3 rfl rfl rfl rfl (by decide) (by decide) (by
    show (build26 7 g (halves3 o.bits)).map (⟨3, ·⟩) = some (3, .amaxu g o, false)
    simp only [build26, opHalves3_halves3, FormX.ofBits_bits, rawX_bits, Option.map])
/-- `aswap`. -/
theorem aswap (g : Gates) (o : FormX) : Statement (.aswap g o) :=
  statement_native _ 0x26 0x08 (halves3 o.bits) 3 rfl rfl rfl rfl (by decide) (by decide) (by
    show (build26 8 g (halves3 o.bits)).map (⟨3, ·⟩) = some (3, .aswap g o, false)
    simp only [build26, opHalves3_halves3, FormX.ofBits_bits, rawX_bits, Option.map])
/-- `acas`. -/
theorem acas (g : Gates) (o : FormX) : Statement (.acas g o) :=
  statement_native _ 0x26 0x09 (halves3 o.bits) 3 rfl rfl rfl rfl (by decide) (by decide) (by
    show (build26 9 g (halves3 o.bits)).map (⟨3, ·⟩) = some (3, .acas g o, false)
    simp only [build26, opHalves3_halves3, FormX.ofBits_bits, rawX_bits, Option.map])
/-- `afadd`. -/
theorem afadd (g : Gates) (o : FormX) : Statement (.afadd g o) :=
  statement_native _ 0x26 0x0A (halves3 o.bits) 3 rfl rfl rfl rfl (by decide) (by decide) (by
    show (build26 10 g (halves3 o.bits)).map (⟨3, ·⟩) = some (3, .afadd g o, false)
    simp only [build26, opHalves3_halves3, FormX.ofBits_bits, rawX_bits, Option.map])
/-- `afmin`. -/
theorem afmin (g : Gates) (o : FormX) : Statement (.afmin g o) :=
  statement_native _ 0x26 0x0B (halves3 o.bits) 3 rfl rfl rfl rfl (by decide) (by decide) (by
    show (build26 11 g (halves3 o.bits)).map (⟨3, ·⟩) = some (3, .afmin g o, false)
    simp only [build26, opHalves3_halves3, FormX.ofBits_bits, rawX_bits, Option.map])
/-- `afmax`. -/
theorem afmax (g : Gates) (o : FormX) : Statement (.afmax g o) :=
  statement_native _ 0x26 0x0C (halves3 o.bits) 3 rfl rfl rfl rfl (by decide) (by decide) (by
    show (build26 12 g (halves3 o.bits)).map (⟨3, ·⟩) = some (3, .afmax g o, false)
    simp only [build26, opHalves3_halves3, FormX.ofBits_bits, rawX_bits, Option.map])
/-- `vaadd`. -/
theorem vaadd (g : Gates) (o : FormX) : Statement (.vaadd g o) :=
  statement_native _ 0x27 0x00 (halves3 o.bits) 3 rfl rfl rfl rfl (by decide) (by decide) (by
    show (build27 0 g (halves3 o.bits)).map (⟨3, ·⟩) = some (3, .vaadd g o, false)
    simp only [build27, opHalves3_halves3, FormX.ofBits_bits, rawX_bits, Option.map])
/-- `vafadd`. -/
theorem vafadd (g : Gates) (o : FormX) : Statement (.vafadd g o) :=
  statement_native _ 0x27 0x01 (halves3 o.bits) 3 rfl rfl rfl rfl (by decide) (by decide) (by
    show (build27 1 g (halves3 o.bits)).map (⟨3, ·⟩) = some (3, .vafadd g o, false)
    simp only [build27, opHalves3_halves3, FormX.ofBits_bits, rawX_bits, Option.map])
/-- `vamin`. -/
theorem vamin (g : Gates) (o : FormX) : Statement (.vamin g o) :=
  statement_native _ 0x27 0x02 (halves3 o.bits) 3 rfl rfl rfl rfl (by decide) (by decide) (by
    show (build27 2 g (halves3 o.bits)).map (⟨3, ·⟩) = some (3, .vamin g o, false)
    simp only [build27, opHalves3_halves3, FormX.ofBits_bits, rawX_bits, Option.map])
/-- `vamax`. -/
theorem vamax (g : Gates) (o : FormX) : Statement (.vamax g o) :=
  statement_native _ 0x27 0x03 (halves3 o.bits) 3 rfl rfl rfl rfl (by decide) (by decide) (by
    show (build27 3 g (halves3 o.bits)).map (⟨3, ·⟩) = some (3, .vamax g o, false)
    simp only [build27, opHalves3_halves3, FormX.ofBits_bits, rawX_bits, Option.map])
/-- `vafmin`. -/
theorem vafmin (g : Gates) (o : FormX) : Statement (.vafmin g o) :=
  statement_native _ 0x27 0x04 (halves3 o.bits) 3 rfl rfl rfl rfl (by decide) (by decide) (by
    show (build27 4 g (halves3 o.bits)).map (⟨3, ·⟩) = some (3, .vafmin g o, false)
    simp only [build27, opHalves3_halves3, FormX.ofBits_bits, rawX_bits, Option.map])
/-- `vafmax`. -/
theorem vafmax (g : Gates) (o : FormX) : Statement (.vafmax g o) :=
  statement_native _ 0x27 0x05 (halves3 o.bits) 3 rfl rfl rfl rfl (by decide) (by decide) (by
    show (build27 5 g (halves3 o.bits)).map (⟨3, ·⟩) = some (3, .vafmax g o, false)
    simp only [build27, opHalves3_halves3, FormX.ofBits_bits, rawX_bits, Option.map])
/-- `vrsadd`. -/
theorem vrsadd (g : Gates) (o : FormX) : Statement (.vrsadd g o) :=
  statement_native _ 0x27 0x06 (halves3 o.bits) 3 rfl rfl rfl rfl (by decide) (by decide) (by
    show (build27 6 g (halves3 o.bits)).map (⟨3, ·⟩) = some (3, .vrsadd g o, false)
    simp only [build27, opHalves3_halves3, FormX.ofBits_bits, rawX_bits, Option.map])
/-- `vrsfadd`. -/
theorem vrsfadd (g : Gates) (o : FormX) : Statement (.vrsfadd g o) :=
  statement_native _ 0x27 0x07 (halves3 o.bits) 3 rfl rfl rfl rfl (by decide) (by decide) (by
    show (build27 7 g (halves3 o.bits)).map (⟨3, ·⟩) = some (3, .vrsfadd g o, false)
    simp only [build27, opHalves3_halves3, FormX.ofBits_bits, rawX_bits, Option.map])
/-- `bararv`. -/
theorem bararv (g : Gates) (o : FormS) : Statement (.bararv g o) :=
  statement_native _ 0x28 0x00 (halves3 o.bits) 3 rfl rfl rfl rfl (by decide) (by decide) (by
    show (build28 0 g (halves3 o.bits)).map (⟨3, ·⟩) = some (3, .bararv g o, false)
    simp only [build28, opHalves3_halves3, FormS.ofBits_bits, rawS_bits, Option.map])
/-- `bardrop`. -/
theorem bardrop (g : Gates) (o : FormS) : Statement (.bardrop g o) :=
  statement_native _ 0x28 0x01 (halves3 o.bits) 3 rfl rfl rfl rfl (by decide) (by decide) (by
    show (build28 1 g (halves3 o.bits)).map (⟨3, ·⟩) = some (3, .bardrop g o, false)
    simp only [build28, opHalves3_halves3, FormS.ofBits_bits, rawS_bits, Option.map])
/-- `barwait`. -/
theorem barwait (g : Gates) (o : FormS) : Statement (.barwait g o) :=
  statement_native _ 0x28 0x02 (halves3 o.bits) 3 rfl rfl rfl rfl (by decide) (by decide) (by
    show (build28 2 g (halves3 o.bits)).map (⟨3, ·⟩) = some (3, .barwait g o, false)
    simp only [build28, opHalves3_halves3, FormS.ofBits_bits, rawS_bits, Option.map])
/-- `wcarr`. -/
theorem wcarr (g : Gates) (o : FormS) : Statement (.wcarr g o) :=
  statement_native _ 0x28 0x03 (halves3 o.bits) 3 rfl rfl rfl rfl (by decide) (by decide) (by
    show (build28 3 g (halves3 o.bits)).map (⟨3, ·⟩) = some (3, .wcarr g o, false)
    simp only [build28, opHalves3_halves3, FormS.ofBits_bits, rawS_bits, Option.map])
/-- `wcwait`. -/
theorem wcwait (g : Gates) (o : FormS) : Statement (.wcwait g o) :=
  statement_native _ 0x28 0x04 (halves3 o.bits) 3 rfl rfl rfl rfl (by decide) (by decide) (by
    show (build28 4 g (halves3 o.bits)).map (⟨3, ·⟩) = some (3, .wcwait g o, false)
    simp only [build28, opHalves3_halves3, FormS.ofBits_bits, rawS_bits, Option.map])
/-- `wccancel`. -/
theorem wccancel (g : Gates) (o : FormS) : Statement (.wccancel g o) :=
  statement_native _ 0x28 0x05 (halves3 o.bits) 3 rfl rfl rfl rfl (by decide) (by decide) (by
    show (build28 5 g (halves3 o.bits)).map (⟨3, ·⟩) = some (3, .wccancel g o, false)
    simp only [build28, opHalves3_halves3, FormS.ofBits_bits, rawS_bits, Option.map])
/-- `tld`. -/
theorem tld (g : Gates) (o : FormT) : Statement (.tld g o) :=
  statement_native _ 0x30 0x00 (halves3 o.bits) 3 rfl rfl rfl rfl (by decide) (by decide) (by
    show (build30 0 g (halves3 o.bits)).map (⟨3, ·⟩) = some (3, .tld g o, false)
    simp only [build30, opHalves3_halves3, FormT.ofBits_bits, rawT_bits, Option.map])
/-- `tst`. -/
theorem tst (g : Gates) (o : FormT) : Statement (.tst g o) :=
  statement_native _ 0x30 0x01 (halves3 o.bits) 3 rfl rfl rfl rfl (by decide) (by decide) (by
    show (build30 1 g (halves3 o.bits)).map (⟨3, ·⟩) = some (3, .tst g o, false)
    simp only [build30, opHalves3_halves3, FormT.ofBits_bits, rawT_bits, Option.map])
/-- `tmma`. -/
theorem tmma (g : Gates) (o : FormT) : Statement (.tmma g o) :=
  statement_native _ 0x30 0x02 (halves3 o.bits) 3 rfl rfl rfl rfl (by decide) (by decide) (by
    show (build30 2 g (halves3 o.bits)).map (⟨3, ·⟩) = some (3, .tmma g o, false)
    simp only [build30, opHalves3_halves3, FormT.ofBits_bits, rawT_bits, Option.map])
/-- `tmmaS`. -/
theorem tmmaS (g : Gates) (o : FormT) : Statement (.tmmaS g o) :=
  statement_native _ 0x30 0x03 (halves3 o.bits) 3 rfl rfl rfl rfl (by decide) (by decide) (by
    show (build30 3 g (halves3 o.bits)).map (⟨3, ·⟩) = some (3, .tmmaS g o, false)
    simp only [build30, opHalves3_halves3, FormT.ofBits_bits, rawT_bits, Option.map])
/-- `tdrain`. -/
theorem tdrain (g : Gates) (o : FormT) : Statement (.tdrain g o) :=
  statement_native _ 0x30 0x04 (halves3 o.bits) 3 rfl rfl rfl rfl (by decide) (by decide) (by
    show (build30 4 g (halves3 o.bits)).map (⟨3, ·⟩) = some (3, .tdrain g o, false)
    simp only [build30, opHalves3_halves3, FormT.ofBits_bits, rawT_bits, Option.map])
/-- `tcvt`. -/
theorem tcvt (g : Gates) (o : FormT) : Statement (.tcvt g o) :=
  statement_native _ 0x30 0x05 (halves3 o.bits) 3 rfl rfl rfl rfl (by decide) (by decide) (by
    show (build30 5 g (halves3 o.bits)).map (⟨3, ·⟩) = some (3, .tcvt g o, false)
    simp only [build30, opHalves3_halves3, FormT.ofBits_bits, rawT_bits, Option.map])
/-- `tzero`. -/
theorem tzero (g : Gates) (o : FormT) : Statement (.tzero g o) :=
  statement_native _ 0x30 0x06 (halves3 o.bits) 3 rfl rfl rfl rfl (by decide) (by decide) (by
    show (build30 6 g (halves3 o.bits)).map (⟨3, ·⟩) = some (3, .tzero g o, false)
    simp only [build30, opHalves3_halves3, FormT.ofBits_bits, rawT_bits, Option.map])
/-- `mattach`. -/
theorem mattach (g : Gates) (o : FormA) : Statement (.mattach g o) :=
  statement_native _ 0x31 0x00 (halves1 o.bits) 1 rfl rfl rfl rfl (by decide) (by decide) (by
    show (build31 0 g (halves1 o.bits)).map (⟨1, ·⟩) = some (1, .mattach g o, false)
    simp only [build31, opHalves1_halves1, FormA.ofBits_bits, rawA_bits, Option.map])
/-- `mdetach`. -/
theorem mdetach (g : Gates) : Statement (.mdetach g) :=
  statement_native _ 0x32 0x00 ([]) 0 rfl rfl rfl rfl (by decide) (by decide) rfl
/-- `rrun`. -/
theorem rrun (g : Gates) (o : FormY) : Statement (.rrun g o) :=
  statement_native _ 0x38 0x00 (halves2 o.bits) 2 rfl rfl rfl rfl (by decide) (by decide) (by
    show (build38 0 g (halves2 o.bits)).map (⟨2, ·⟩) = some (2, .rrun g o, false)
    simp only [build38, opHalves2_halves2, FormY.ofBits_bits, rawY_bits, Option.map])
/-- `rtw`. -/
theorem rtw (g : Gates) (o : FormY) : Statement (.rtw g o) :=
  statement_native _ 0x38 0x01 (halves2 o.bits) 2 rfl rfl rfl rfl (by decide) (by decide) (by
    show (build38 1 g (halves2 o.bits)).map (⟨2, ·⟩) = some (2, .rtw g o, false)
    simp only [build38, opHalves2_halves2, FormY.ofBits_bits, rawY_bits, Option.map])
/-- `rcommit`. -/
theorem rcommit (g : Gates) (o : FormY) : Statement (.rcommit g o) :=
  statement_native _ 0x38 0x02 (halves2 o.bits) 2 rfl rfl rfl rfl (by decide) (by decide) (by
    show (build38 2 g (halves2 o.bits)).map (⟨2, ·⟩) = some (2, .rcommit g o, false)
    simp only [build38, opHalves2_halves2, FormY.ofBits_bits, rawY_bits, Option.map])
/-- `rclass`. -/
theorem rclass (g : Gates) (o : FormY) : Statement (.rclass g o) :=
  statement_native _ 0x38 0x03 (halves2 o.bits) 2 rfl rfl rfl rfl (by decide) (by decide) (by
    show (build38 3 g (halves2 o.bits)).map (⟨2, ·⟩) = some (2, .rclass g o, false)
    simp only [build38, opHalves2_halves2, FormY.ofBits_bits, rawY_bits, Option.map])
/-- `rmiss`. -/
theorem rmiss (g : Gates) (o : FormY) : Statement (.rmiss g o) :=
  statement_native _ 0x38 0x04 (halves2 o.bits) 2 rfl rfl rfl rfl (by decide) (by decide) (by
    show (build38 4 g (halves2 o.bits)).map (⟨2, ·⟩) = some (2, .rmiss g o, false)
    simp only [build38, opHalves2_halves2, FormY.ofBits_bits, rawY_bits, Option.map])
/-- `rstat`. -/
theorem rstat (g : Gates) (o : FormA) : Statement (.rstat g o) :=
  statement_native _ 0x39 0x00 (halves1 o.bits) 1 rfl rfl rfl rfl (by decide) (by decide) (by
    show (build39 0 g (halves1 o.bits)).map (⟨1, ·⟩) = some (1, .rstat g o, false)
    simp only [build39, opHalves1_halves1, FormA.ofBits_bits, rawA_bits, Option.map])
/-- `scall`. -/
theorem scall (g : Gates) (o : FormI) : Statement (.scall g o) :=
  statement_native _ 0x3C 0x00 (halves2 o.bits) 2 rfl rfl rfl rfl (by decide) (by decide) (by
    show (build3C 0 g (halves2 o.bits)).map (⟨2, ·⟩) = some (2, .scall g o, false)
    simp only [build3C, opHalves2_halves2, FormI.ofBits_bits, rawI_bits, Option.map])
/-- `trap`. -/
theorem trap (g : Gates) (o : FormC) : Statement (.trap g o) :=
  statement_native _ 0x3D 0x00 (halves1 o.bits) 1 rfl rfl rfl rfl (by decide) (by decide) (by
    show (build3D 0 g (halves1 o.bits)).map (⟨1, ·⟩) = some (1, .trap g o, false)
    simp only [build3D, opHalves1_halves1, FormC.ofBits_bits, rawC_bits, Option.map])
/-- `bkpt`. -/
theorem bkpt (tl : BitVec 3) : Statement (.bkpt tl) := by
  have h1 : wordless (.bkpt tl) = false := rfl
  have h2 : isLortar (.bkpt tl) = false := rfl
  simp only [Statement, h1, h2, Bool.false_eq_true, if_false]
  intro _
  refine ⟨_, _, rfl, ?_, fun h => absurd ?_ h⟩ <;> revert tl <;> decide
/-- `kadd`. -/
theorem kadd (o : LFormS) : Statement (.kadd o) :=
  statement_lortar _ _ rfl rfl rfl (decodeLortar_S _ 0x01 o fun _ => rfl)
/-- `ksub`. -/
theorem ksub (o : LFormS) : Statement (.ksub o) :=
  statement_lortar _ _ rfl rfl rfl (decodeLortar_S _ 0x02 o fun _ => rfl)
/-- `kmul`. -/
theorem kmul (o : LFormS) : Statement (.kmul o) :=
  statement_lortar _ _ rfl rfl rfl (decodeLortar_S _ 0x03 o fun _ => rfl)
/-- `kand`. -/
theorem kand (o : LFormS) : Statement (.kand o) :=
  statement_lortar _ _ rfl rfl rfl (decodeLortar_S _ 0x04 o fun _ => rfl)
/-- `kor`. -/
theorem kor (o : LFormS) : Statement (.kor o) :=
  statement_lortar _ _ rfl rfl rfl (decodeLortar_S _ 0x05 o fun _ => rfl)
/-- `kxor`. -/
theorem kxor (o : LFormS) : Statement (.kxor o) :=
  statement_lortar _ _ rfl rfl rfl (decodeLortar_S _ 0x06 o fun _ => rfl)
/-- `ksll`. -/
theorem ksll (o : LFormS) : Statement (.ksll o) :=
  statement_lortar _ _ rfl rfl rfl (decodeLortar_S _ 0x07 o fun _ => rfl)
/-- `ksrl`. -/
theorem ksrl (o : LFormS) : Statement (.ksrl o) :=
  statement_lortar _ _ rfl rfl rfl (decodeLortar_S _ 0x08 o fun _ => rfl)
/-- `ksra`. -/
theorem ksra (o : LFormS) : Statement (.ksra o) :=
  statement_lortar _ _ rfl rfl rfl (decodeLortar_S _ 0x09 o fun _ => rfl)
/-- `kslt`. -/
theorem kslt (o : LFormS) : Statement (.kslt o) :=
  statement_lortar _ _ rfl rfl rfl (decodeLortar_S _ 0x0A o fun _ => rfl)
/-- `kaddi`. -/
theorem kaddi (o : LFormS) : Statement (.kaddi o) :=
  statement_lortar _ _ rfl rfl rfl (decodeLortar_S _ 0x0B o fun _ => rfl)
/-- `kli`. -/
theorem kli (o : LFormS) : Statement (.kli o) :=
  statement_lortar _ _ rfl rfl rfl (decodeLortar_S _ 0x0C o fun _ => rfl)
/-- `kbeq`. -/
theorem kbeq (o : LFormS) : Statement (.kbeq o) :=
  statement_lortar _ _ rfl rfl rfl (decodeLortar_S _ 0x10 o fun _ => rfl)
/-- `kbne`. -/
theorem kbne (o : LFormS) : Statement (.kbne o) :=
  statement_lortar _ _ rfl rfl rfl (decodeLortar_S _ 0x11 o fun _ => rfl)
/-- `kblt`. -/
theorem kblt (o : LFormS) : Statement (.kblt o) :=
  statement_lortar _ _ rfl rfl rfl (decodeLortar_S _ 0x12 o fun _ => rfl)
/-- `kbge`. -/
theorem kbge (o : LFormS) : Statement (.kbge o) :=
  statement_lortar _ _ rfl rfl rfl (decodeLortar_S _ 0x13 o fun _ => rfl)
/-- `kjmp`. -/
theorem kjmp (o : LFormS) : Statement (.kjmp o) :=
  statement_lortar _ _ rfl rfl rfl (decodeLortar_S _ 0x14 o fun _ => rfl)
/-- `kend`. -/
theorem kend (o : LFormS) : Statement (.kend o) :=
  statement_lortar _ _ rfl rfl rfl (decodeLortar_S _ 0x15 o fun _ => rfl)
/-- `lshape`. -/
theorem lshape (o : LFormS) : Statement (.lshape o) :=
  statement_lortar _ _ rfl rfl rfl (decodeLortar_S _ 0x18 o fun _ => rfl)
/-- `lwait`. -/
theorem lwait (o : LFormS) : Statement (.lwait o) :=
  statement_lortar _ _ rfl rfl rfl (decodeLortar_S _ 0x19 o fun _ => rfl)
/-- `lfence`. -/
theorem lfence (o : LFormX) : Statement (.lfence o) :=
  statement_lortar _ _ rfl rfl rfl (decodeLortar_X _ 0x1A o fun _ => rfl)
/-- `xld`. -/
theorem xld (o : LFormX) : Statement (.xld o) :=
  statement_lortar _ _ rfl rfl rfl (decodeLortar_X _ 0x20 o fun _ => rfl)
/-- `xst`. -/
theorem xst (o : LFormX) : Statement (.xst o) :=
  statement_lortar _ _ rfl rfl rfl (decodeLortar_X _ 0x21 o fun _ => rfl)
/-- `xbcast`. -/
theorem xbcast (o : LFormX) : Statement (.xbcast o) :=
  statement_lortar _ _ rfl rfl rfl (decodeLortar_X _ 0x24 o fun _ => rfl)
/-- `xadd`. -/
theorem xadd (o : LFormX) : Statement (.xadd o) :=
  statement_lortar _ _ rfl rfl rfl (decodeLortar_X _ 0x28 o fun _ => rfl)
/-- `xsub`. -/
theorem xsub (o : LFormX) : Statement (.xsub o) :=
  statement_lortar _ _ rfl rfl rfl (decodeLortar_X _ 0x29 o fun _ => rfl)
/-- `xmul`. -/
theorem xmul (o : LFormX) : Statement (.xmul o) :=
  statement_lortar _ _ rfl rfl rfl (decodeLortar_X _ 0x2A o fun _ => rfl)
/-- `xfma`. -/
theorem xfma (o : LFormX) : Statement (.xfma o) :=
  statement_lortar _ _ rfl rfl rfl (decodeLortar_X _ 0x2B o fun _ => rfl)
/-- `xmin`. -/
theorem xmin (o : LFormX) : Statement (.xmin o) :=
  statement_lortar _ _ rfl rfl rfl (decodeLortar_X _ 0x2C o fun _ => rfl)
/-- `xmax`. -/
theorem xmax (o : LFormX) : Statement (.xmax o) :=
  statement_lortar _ _ rfl rfl rfl (decodeLortar_X _ 0x2D o fun _ => rfl)
/-- `xcvt`. -/
theorem xcvt (o : LFormX) : Statement (.xcvt o) :=
  statement_lortar _ _ rfl rfl rfl (decodeLortar_X _ 0x30 o fun _ => rfl)
/-- `xmma`. -/
theorem xmma (o : LFormX) : Statement (.xmma o) :=
  statement_lortar _ _ rfl rfl rfl (decodeLortar_X _ 0x34 o fun _ => rfl)
/-- `lortarAsyncComplete`. -/
theorem lortarAsyncComplete (ctx : Nat) (id : Nat) : Statement (.lortarAsyncComplete ctx id) := noWords rfl
/-- `ecall`. -/
theorem ecall (job : Nat) : Statement (.ecall job) := noWords rfl
/-- `ebreak`. -/
theorem ebreak (job : Nat) : Statement (.ebreak job) := noWords rfl
/-- `controlProgramException`. -/
theorem controlProgramException (job : Nat) (e : CpException) (tval : Word) : Statement (.controlProgramException job e tval) := noWords rfl
/-- `stripDispatch`. -/
theorem stripDispatch (ctx : Nat) : Statement (.stripDispatch ctx) := noWords rfl
/-- `watermarkRecheck`. -/
theorem watermarkRecheck (ctx : Nat) : Statement (.watermarkRecheck ctx) := noWords rfl
/-- `blockCommit`. -/
theorem blockCommit (ctx : Nat) : Statement (.blockCommit ctx) := noWords rfl
/-- `waitResume`. -/
theorem waitResume (p : Party) : Statement (.waitResume p) := noWords rfl
/-- `replyPush`. -/
theorem replyPush (ctx : Nat) (stripb : Nat) : Statement (.replyPush ctx stripb) := noWords rfl
/-- `preemptionRequest`. -/
theorem preemptionRequest (ctx : Nat) : Statement (.preemptionRequest ctx) := noWords rfl
/-- `trapDelivery`. -/
theorem trapDelivery (p : Party) (code : Code) (tval : Word) (imprecise : Bool) : Statement (.trapDelivery p code tval imprecise) := noWords rfl
/-- `handlerComplete`. -/
theorem handlerComplete (ctx : Nat) : Statement (.handlerComplete ctx) := noWords rfl
/-- `copyComplete`. -/
theorem copyComplete (core : Nat) (id : Nat) : Statement (.copyComplete core id) := noWords rfl
/-- `copyFault`. -/
theorem copyFault (core : Nat) (id : Nat) (written : Nat) (code : Code) (addr : Word) : Statement (.copyFault core id written code addr) := noWords rfl
/-- `satchelCheck`. -/
theorem satchelCheck (ctx : Nat) : Statement (.satchelCheck ctx) := noWords rfl
/-- `scratchpadFrameFill`. -/
theorem scratchpadFrameFill (ctx : Nat) (page : Nat) : Statement (.scratchpadFrameFill ctx page) := noWords rfl
/-- `collectiveRun`. -/
theorem collectiveRun (core : Nat) (id : Nat) (others : List Contribution) : Statement (.collectiveRun core id others) := noWords rfl
/-- `drainComplete`. -/
theorem drainComplete (ctx : Nat) (id : Nat) : Statement (.drainComplete ctx id) := noWords rfl
/-- `drainContributionFault`. -/
theorem drainContributionFault (ctx : Nat) (id : Nat) (accepted : Nat) (code : Code) : Statement (.drainContributionFault ctx id accepted code) := noWords rfl
/-- `barrierEventsApply`. -/
theorem barrierEventsApply (job : Nat) (addr : Word) (events : List BarrierEvent) : Statement (.barrierEventsApply job addr events) := noWords rfl
/-- `relayAdmission`. -/
theorem relayAdmission (cluster : Nat) : Statement (.relayAdmission cluster) := noWords rfl
/-- `relayRecordLeave`. -/
theorem relayRecordLeave (cluster : Nat) : Statement (.relayRecordLeave cluster) := noWords rfl
/-- `rcommitCopyback`. -/
theorem rcommitCopyback (cluster : Nat) : Statement (.rcommitCopyback cluster) := noWords rfl
/-- `homeRequest`. -/
theorem homeRequest (core : Nat) (req : HomeReq) (line : LineKey) : Statement (.homeRequest core req line) := noWords rfl
/-- `coreDropLine`. -/
theorem coreDropLine (core : Nat) (line : LineKey) : Statement (.coreDropLine core line) := noWords rfl
/-- `l2DropLine`. -/
theorem l2DropLine (die : Nat) (line : LineKey) : Statement (.l2DropLine die line) := noWords rfl
/-- `uLineLeaseExpiry`. -/
theorem uLineLeaseExpiry (core : Nat) (line : LineKey) : Statement (.uLineLeaseExpiry core line) := noWords rfl
/-- `edgeFlush`. -/
theorem edgeFlush (job : Nat) (lidx : Nat) (edge : Nat) : Statement (.edgeFlush job lidx edge) := noWords rfl
/-- `stewardBind`. -/
theorem stewardBind (die : Nat) : Statement (.stewardBind die) := noWords rfl
/-- `quantumExpiry`. -/
theorem quantumExpiry (ctx : Nat) : Statement (.quantumExpiry ctx) := noWords rfl
/-- `accumulatorRevoke`. -/
theorem accumulatorRevoke (ctx : Nat) : Statement (.accumulatorRevoke ctx) := noWords rfl
/-- `l2ModeChange`. -/
theorem l2ModeChange (die : Nat) (partitioned : Bool) : Statement (.l2ModeChange die partitioned) := noWords rfl
/-- `go`. -/
theorem go (ctx : Nat) : Statement (.go ctx) := noWords rfl
/-- `stop`. -/
theorem stop (ctx : Nat) : Statement (.stop ctx) := noWords rfl
/-- `registerWrite`. -/
theorem registerWrite (r : StewardReg) : Statement (.registerWrite r) := noWords rfl
/-- `shootdown`. -/
theorem shootdown (job : Nat) (va : Word) (leaf : Word) : Statement (.shootdown job va leaf) := noWords rfl
/-- `pageMigration`. -/
theorem pageMigration (job : Nat) (va : Word) (paddr : Word) : Statement (.pageMigration job va paddr) := noWords rfl
/-- `migWalkRetry`. -/
theorem migWalkRetry (p : Party) : Statement (.migWalkRetry p) := noWords rfl
/-- `hello`. -/
theorem hello (r : Req) : Statement (.hello r) := noWords rfl
/-- `jobCreate`. -/
theorem jobCreate (r : Req) : Statement (.jobCreate r) := noWords rfl
/-- `jobEnd`. -/
theorem jobEnd (r : Req) : Statement (.jobEnd r) := noWords rfl
/-- `loadImage`. -/
theorem loadImage (r : Req) : Statement (.loadImage r) := noWords rfl
/-- `start`. -/
theorem start (r : Req) : Statement (.start r) := noWords rfl
/-- `launch`. -/
theorem launch (r : Req) : Statement (.launch r) := noWords rfl
/-- `wait`. -/
theorem wait (r : Req) : Statement (.wait r) := noWords rfl
/-- `cancel`. -/
theorem cancel (r : Req) : Statement (.cancel r) := noWords rfl
/-- `memRead`. -/
theorem memRead (r : Req) : Statement (.memRead r) := noWords rfl
/-- `memWrite`. -/
theorem memWrite (r : Req) : Statement (.memWrite r) := noWords rfl
/-- `breakCopy`. -/
theorem breakCopy (r : Req) : Statement (.breakCopy r) := noWords rfl
/-- `breakEnd`. -/
theorem breakEnd (r : Req) : Statement (.breakEnd r) := noWords rfl
/-- `checkpointSave`. -/
theorem checkpointSave (r : Req) : Statement (.checkpointSave r) := noWords rfl
/-- `checkpointRestore`. -/
theorem checkpointRestore (r : Req) (stream : List Byte) : Statement (.checkpointRestore r stream) := noWords rfl
/-- `telemetry`. -/
theorem telemetry (r : Req) : Statement (.telemetry r) := noWords rfl
/-- `attest`. -/
theorem attest (r : Req) : Statement (.attest r) := noWords rfl
/-- `idcert`. -/
theorem idcert (r : Req) : Statement (.idcert r) := noWords rfl
/-- `config`. -/
theorem config (r : Req) : Statement (.config r) := noWords rfl
/-- `syscallVersion`. -/
theorem syscallVersion (c : Caller) : Statement (.syscallVersion c) := noWords rfl
/-- `syscallLaunch`. -/
theorem syscallLaunch (c : Caller) : Statement (.syscallLaunch c) := noWords rfl
/-- `syscallWait`. -/
theorem syscallWait (c : Caller) : Statement (.syscallWait c) := noWords rfl
/-- `syscallCancel`. -/
theorem syscallCancel (c : Caller) : Statement (.syscallCancel c) := noWords rfl
/-- `syscallTranslate`. -/
theorem syscallTranslate (c : Caller) : Statement (.syscallTranslate c) := noWords rfl
/-- `openQueue`. -/
theorem openQueue (c : Caller) : Statement (.openQueue c) := noWords rfl
/-- `closeQueue`. -/
theorem closeQueue (c : Caller) : Statement (.closeQueue c) := noWords rfl
/-- `openGroup`. -/
theorem openGroup (c : Caller) : Statement (.openGroup c) := noWords rfl
/-- `openWindow`. -/
theorem openWindow (c : Caller) : Statement (.openWindow c) := noWords rfl
/-- `exposeRegion`. -/
theorem exposeRegion (c : Caller) : Statement (.exposeRegion c) := noWords rfl
/-- `syscallExit`. -/
theorem syscallExit (c : Caller) : Statement (.syscallExit c) := noWords rfl
/-- `uetInboundWrite`. -/
theorem uetInboundWrite (port : Nat) (key : Word) (off : Nat) (bytes : List Byte) : Statement (.uetInboundWrite port key off bytes) := noWords rfl
/-- `uetInboundRead`. -/
theorem uetInboundRead (port : Nat) (key : Word) (off : Nat) (len : Nat) : Statement (.uetInboundRead port key off len) := noWords rfl
/-- `uudPacket`. -/
theorem uudPacket (port : Nat) : Statement (.uudPacket port) := noWords rfl
/-- `train`. -/
theorem train (link : Nat) (rec : TrainRec) : Statement (.train link rec) := noWords rfl
/-- `trainResend`. -/
theorem trainResend (link : Nat) : Statement (.trainResend link) := noWords rfl
/-- `nak`. -/
theorem nak (link : Nat) (seq : BitVec 16) : Statement (.nak link seq) := noWords rfl
/-- `down`. -/
theorem down (link : Nat) (reason : BitVec 8) : Statement (.down link reason) := noWords rfl
/-- `messageFlit`. -/
theorem messageFlit (link : Nat) (f : Flit) : Statement (.messageFlit link f) := noWords rfl
/-- `idleFlit`. -/
theorem idleFlit (link : Nat) (f : Flit) : Statement (.idleFlit link f) := noWords rfl
/-- `ackTimeout`. -/
theorem ackTimeout (link : Nat) : Statement (.ackTimeout link) := noWords rfl
/-- `retrainTimeout`. -/
theorem retrainTimeout (link : Nat) : Statement (.retrainTimeout link) := noWords rfl
/-- `ldt`. -/
theorem ldt (m : Msg) : Statement (.ldt m) := noWords rfl
/-- `ldu`. -/
theorem ldu (m : Msg) : Statement (.ldu m) := noWords rfl
/-- `ownr`. -/
theorem ownr (m : Msg) : Statement (.ownr m) := noWords rfl
/-- `wr`. -/
theorem wr (m : Msg) : Statement (.wr m) := noWords rfl
/-- `reg`. -/
theorem reg (m : Msg) : Statement (.reg m) := noWords rfl
/-- `atom`. -/
theorem atom (m : Msg) : Statement (.atom m) := noWords rfl
/-- `red`. -/
theorem red (m : Msg) : Statement (.red m) := noWords rfl
/-- `key`. -/
theorem key (m : Msg) : Statement (.key m) := noWords rfl
/-- `dropn`. -/
theorem dropn (m : Msg) : Statement (.dropn m) := noWords rfl
/-- `inv`. -/
theorem inv (m : Msg) : Statement (.inv m) := noWords rfl
/-- `fwd`. -/
theorem fwd (m : Msg) : Statement (.fwd m) := noWords rfl
/-- `fwdinv`. -/
theorem fwdinv (m : Msg) : Statement (.fwdinv m) := noWords rfl
/-- `recallMsg`. -/
theorem recallMsg (m : Msg) : Statement (.recallMsg m) := noWords rfl
/-- `binv`. -/
theorem binv (m : Msg) : Statement (.binv m) := noWords rfl
/-- `data`. -/
theorem data (m : Msg) : Statement (.data m) := noWords rfl
/-- `ack`. -/
theorem ack (m : Msg) : Statement (.ack m) := noWords rfl
/-- `err`. -/
theorem err (m : Msg) : Statement (.err m) := noWords rfl
/-- `wb`. -/
theorem wb (m : Msg) : Statement (.wb m) := noWords rfl
/-- `ares`. -/
theorem ares (m : Msg) : Statement (.ares m) := noWords rfl
/-- `grant`. -/
theorem grant (m : Msg) : Statement (.grant m) := noWords rfl
/-- `cdata`. -/
theorem cdata (m : Msg) : Statement (.cdata m) := noWords rfl
/-- `cack`. -/
theorem cack (m : Msg) : Statement (.cack m) := noWords rfl
/-- `reset`. -/
theorem reset : Statement (.reset) := noWords rfl
/-- `freezePin`. -/
theorem freezePin : Statement (.freezePin) := noWords rfl
/-- `extest`. -/
theorem extest : Statement (.extest) := noWords rfl
/-- `idcode`. -/
theorem idcode : Statement (.idcode) := noWords rfl
/-- `samplePreload`. -/
theorem samplePreload : Statement (.samplePreload) := noWords rfl
/-- `tapFreeze`. -/
theorem tapFreeze : Statement (.tapFreeze) := noWords rfl
/-- `tapStatus`. -/
theorem tapStatus : Statement (.tapStatus) := noWords rfl
/-- `chainsel`. -/
theorem chainsel (chain : BitVec 16) : Statement (.chainsel chain) := noWords rfl
/-- `chainout`. -/
theorem chainout : Statement (.chainout) := noWords rfl
/-- `memaddr`. -/
theorem memaddr (addr : BitVec 48) : Statement (.memaddr addr) := noWords rfl
/-- `memread`. -/
theorem memread : Statement (.memread) := noWords rfl
/-- `resetreq`. -/
theorem resetreq : Statement (.resetreq) := noWords rfl
/-- `bypass`. -/
theorem bypass : Statement (.bypass) := noWords rfl
/-- `thermalThrottle`. -/
theorem thermalThrottle (temp : Int) : Statement (.thermalThrottle temp) := noWords rfl
/-- `clockStep`. -/
theorem clockStep (temp : Int) : Statement (.clockStep temp) := noWords rfl
/-- `thermalFreeze`. -/
theorem thermalFreeze (temp : Int) : Statement (.thermalFreeze temp) := noWords rfl
/-- `crdMessage`. -/
theorem crdMessage (m : Msg) : Statement (.crdMessage m) := noWords rfl
/-- `cwrMessage`. -/
theorem cwrMessage (m : Msg) : Statement (.cwrMessage m) := noWords rfl
/-- `receiveQueueTraffic`. -/
theorem receiveQueueTraffic (job : Nat) (queue : Nat) (t : QueueTraffic) : Statement (.receiveQueueTraffic job queue t) := noWords rfl
/-- `channelLost`. -/
theorem channelLost (chan : Nat) : Statement (.channelLost chan) := noWords rfl
/-- `softError`. -/
theorem softError (site : ErrorSite) (correctable : Bool) : Statement (.softError site correctable) := noWords rfl
/-- `uetDeliveryFailure`. -/
theorem uetDeliveryFailure (core : Nat) (id : Nat) : Statement (.uetDeliveryFailure core id) := noWords rfl
/-- `matrixOperationComplete`. -/
theorem matrixOperationComplete (cluster : Nat) : Statement (.matrixOperationComplete cluster) := noWords rfl
/-- `controlProgramInstruction`. -/
theorem controlProgramInstruction (job : Nat) : Statement (.controlProgramInstruction job) := noWords rfl
/-- `checkpointTierAck`. -/
theorem checkpointTierAck (job : Nat) : Statement (.checkpointTierAck job) := noWords rfl
/-- `powerLoss`. -/
theorem powerLoss (blown : Nat) : Statement (.powerLoss blown) := noWords rfl

end Sys2Proof.Laws.RoundTrip
end

