-- ==== Sys2Proof/Safety.lean ====
section
/-! DEFINITION. What a safe run is, and the terms statements are made in: when an instruction issues, and what state its
completion leaves. -/

namespace Sys2Proof.Machine

/-- The state after n steps, when none of them stops. -/
def runFor : Nat → State → Option State
  | 0, s => some s
  | n + 1, s => match step s with
    | .next t => runFor n t
    | _ => none

/-- A state from which every run goes on, memory staying canonical. -/
def Safe (s : State) : Prop := ∀ n, ∃ t, runFor n s = some t ∧ Memory.wf t.mem = true

/-- The instruction issues at the state s, its gates leaving s1 (R168, R178, R187, R268): its form is accepted where the party
stands, its wait gate is over, its post gate, where it acts, has a number left (R65), and no store's fault is held then (R161). In
a serial region it is one the region admits. -/
def Ready (i : Instr) (s s1 : State) : Prop :=
  formCause i false s.cur.party.place = none ∧ s.snapPoisoned i = false ∧
    (match s.myRegion with
      | some r => regionBans i = false ∧ s.regionGates (gatesOf i) r = .ok ⟨⟩ s1
      | none => s.waitGate (gatesOf i) = .ok ⟨⟩ s1) ∧
    ∀ p, s1.duePost (gatesOf i) = some p → (s1.myCtx.timeline p.tl).p + 1 < 2 ^ 64 ∧ s1.myCtx.imprecise = []

/-- The ticket of the post gate of an instruction that issues, where the gate acts (R65, R268). -/
def ticketOf (i : Instr) (s1 : State) : Option Ticket := (s1.duePost (gatesOf i)).map s1.ticketFor

/-- The state with another next address for the issuing party. -/
def State.withNext (s : State) (a : Word) : State := { s with cur := { s.cur with next := a } }

/-- A control thread or a strip is what moves next, leaving w: the strip is inside a serial region, or it is the first of the turns,
or its core's turn is first and chooses the control thread (R16, R41, R268; log 5). -/
def MovesNext (s : State) (p : Party) (w : State) : Prop :=
  s.inRegion = some p ∧ w = s ∨
    s.inRegion = none ∧ s.agenda = [] ∧ ∃ (a : Action) (r : List Action) (t : State), s.turns = a :: r ∧ t = { s with order := r } ∧
      (a = .issue p ∧ w = t ∨ ∃ k i, a = .thread k ∧ t.nextThread k = some i ∧ p = ⟨4 * k + i, .ctl⟩ ∧
        w = t.modCore k fun c => { c with turn := i })

/-- An instruction whose effects left t is complete: the number of its post, if it makes one, is taken and posted, and the party
goes on at the next address (R65, R175). -/
def finishedBy (k : Option Ticket) (t : State) : State :=
  match k with
  | none => t.dropAnswers.advance
  | some k => ((t.tookPost k).complete t.me (some k)).dropAnswers.advance

/-- An instruction whose effects left t is complete, with its post gate, where it acts (R65, R175, R268). -/
def finished (i : Instr) (s1 t : State) : State := finishedBy (ticketOf i s1) t

/-- An instruction that started an operation, leaving t, is past: its number is taken, and the operation posts it later
(R65, R119). -/
def started (i : Instr) (s1 t : State) : State :=
  match ticketOf i s1 with
  | none => t.dropAnswers.advance
  | some k => (t.tookPost k).dropAnswers.advance

/-- The groups of a vector instruction can be used (R51, R116, R117): each begins at a multiple of its grouping, the destination
holds no bound register, and every bound source has its stream's next group, which is taken, leaving t. -/
def GroupsReady (srcs : List (Nat × Nat)) (dst : Option (Nat × Nat)) (s t : State) : Prop :=
  (∀ r ∈ srcs ++ dst.toList, r.1 % r.2 = 0) ∧
    (∀ r ∈ dst, s.myCtx.groupBound s.myStrip.stripb r.1 r.2 = false) ∧
    s.takeGroups (srcs.map (·.1)) = .ok ⟨⟩ t

/-- A vector access can be made (R51, R117, R275, R276): its format is accepted, its groups begin at multiples of their grouping,
a load's destination holds no bound register, the groups of bound sources are taken, leaving t, and the tags are as R57 and R275
ask. -/
def AccessReady (o : FormM) (m : AddrMode) (store scaled : Bool) (tag : Tag) (s t : State) : Prop :=
  s.mformat o store scaled = .ok tag ∧
    (o.fv = 0 → scaled = true → o.sb ≠ 0 → tagScaled tag = true) ∧
    o.vd.toNat % s.myStrip.grp = 0 ∧
    (store = false → s.myCtx.groupBound s.myStrip.stripb o.vd.toNat s.myStrip.grp = false) ∧
    s.takeGroups ((if store then [o.vd.toNat] else []) ++ (if m = .indexed then [o.vi.toNat] else [])) = .ok ⟨⟩ t ∧
    (store = true → ∃ own, t.myStrip.groupTag o.vd.toNat s.myStrip.grp = some own ∧
      (o.fv = 1 → tagFmt own = tagFmt tag)) ∧
    (m = .indexed → t.myStrip.indexCause o.vi.toNat = none)

/-- A tensor access of a strip can be made (R109, R113, R281): the shape record h in register VI is well formed, element
width, orientation, groups and tags are as R281 asks, and every active position lies inside the tensor. -/
def TensorReady (o : FormM) (store : Bool) (h : Shape) (ps : List Nat) (s t : State) : Prop :=
  s.takeGroups ((if store then [o.vd.toNat] else []) ++ [o.vi.toNat]) = .ok ⟨⟩ t ∧
    (t.myStrip.reg o.vi.toNat).tag = 25 ∧ t.myStrip.poisonedAt [o.vi.toNat] 8 (List.range 18) = false ∧
    Shape.check (t.myStrip.record o.vi.toNat) = .ok h ∧ tensorBits (tagFmt h.ftag) = 8 * t.myStrip.ewB ∧
    h.orientOk (o.or == 1) = true ∧ o.vd.toNat % t.myStrip.grp = 0 ∧
    (store = false → t.myCtx.groupBound t.myStrip.stripb o.vd.toNat t.myStrip.grp = false) ∧
    (store = true → (t.myStrip.groupTag o.vd.toNat t.myStrip.grp).map tagFmt = some (tagFmt h.ftag)) ∧
    ps = t.myStrip.active o.msk o.mreg ∧ h.firstOutside [0] (ps.map fun p => t.myStrip.stripb + p) = none ∧
    (store = true → t.myStrip.poisonedAt [o.vd.toNat] t.myStrip.ewB ps = false)

/-- A tile access can be made (R109, R113 to R115, R319): the shape record h in register VA is well formed, the tile's element
width and the orientation are as asked, a stored tile holds the tensor's format, and every row still to do lies inside. -/
def TileReady (o : FormT) (store : Bool) (h : Shape) (s t : State) : Prop :=
  s.takeGroups [o.va.toNat] = .ok ⟨⟩ t ∧ (t.myStrip.reg o.va.toNat).tag = 25 ∧
    t.myStrip.poisonedAt [o.va.toNat] 8 (List.range 18) = false ∧ Shape.check (t.myStrip.record o.va.toNat) = .ok h ∧
    tensorBits (tagFmt h.ftag) = tshBits (t.myCtx.shapeOf o.tx) ∧ h.orientOk (o.or == 1) = true ∧
    (store = true → tagFmt (t.myCtx.tile o.tx).tag = tagFmt h.ftag) ∧
    h.firstOutside (t.rowsLeft (tshRows (t.myCtx.shapeOf o.tx))) (List.range (tshCols (t.myCtx.shapeOf o.tx))) = none

/-- The issuing context may use m accumulator rows of its grant from row0 on (R314, R317, R318, R322). -/
def ClaimHeld (s : State) (row0 m : Nat) : Prop :=
  s.myCtx.revoked = false ∧ s.myCtx.rowsGranted ≠ 0 ∧ row0 + m ≤ s.myCtx.rowsGranted ∧
    s.matrixBusy s.me = false

/-- Every one of m rows of the grant from row0 on has no MODE yet or the one of a multiply (R322). -/
def RowsTake (s : State) (row0 m : Nat) (mode : AccMode) : Prop :=
  ∀ i < m, (s.accRow s.me (row0 + i)).mode = .none ∨ (s.accRow s.me (row0 + i)).mode = mode

/-- A vector atomic or reduction store can be made (R303, R304): the element width is 32 bits, or 64 for an integer one, its
groups can be used, and the tags are as asked. -/
def AtomicReady (o : FormX) (fp : Bool) (dst : Option Nat) (tag : Tag) (s t : State) : Prop :=
  (s.myStrip.ewB = 4 ∨ s.myStrip.ewB = 8 ∧ fp = false) ∧
    GroupsReady [(o.sz.toNat, s.myStrip.grp), (o.vi.toNat, 1)] (dst.map fun d => (d, s.myStrip.grp)) s t ∧
    t.myStrip.groupTag o.sz.toNat s.myStrip.grp = some tag ∧
    (if fp then tag = 8 else isIntFmt tag.toNat = true ∧ fmtBits tag.toNat = 8 * s.myStrip.ewB) ∧
    t.myStrip.indexCause o.vi.toNat = none ∧
    t.myStrip.poisonedAt [o.sz.toNat] s.myStrip.ewB (t.myStrip.active o.msk o.mreg) = false

/-- A request of a peer can be handled at its home (R133, R134, R347, R349): its address is one of this device, no other request on
its words is in progress, what other peers hold of them has been asked for and has come, and its set of the remote filter has
room, leaving v. -/
def HomeReady (m : Msg) (me : Event) (node : Nat) (req : HomeReq) (ws : List Nat) (s v : State) : Prop :=
  ∃ t u : State, t = { s with heldBack := s.heldBack.filter (· != me) } ∧ s.owns (m.addr.toNat % 2 ^ 56) = true ∧
    unpopulated (m.addr.toNat % 2 ^ 56) = false ∧ t.inProgress (peerParty m) ws = none ∧
    (∀ r ∈ t.requests, r.party = peerParty m → r.answer ≠ none) ∧
    (∀ a ∈ t.otherAsks node req ws, ∃ r ∈ t.requests, r.party = peerParty m ∧ r.mtype = a.1 ∧ r.dst = a.2) ∧
    t.roomFor node req (s.keyOf m) = (false, u) ∧ v = { u with requests := u.requests.filter (·.party != peerParty m) }

/-- Another peer has sent the requester of a message the data that it asks for (R134). -/
def forwarded (m : Msg) (s : State) : Prop := ∃ r ∈ s.requests, r.party = peerParty m ∧ (r.mtype = 0x11 ∨ r.mtype = 0x12)

/-- A request passes the checks that every request meets first (R404 to R406): its header, the version pair its channel has
negotiated, its operation. -/
def Served (r : Req) (op : BitVec 16) (s : State) : Prop :=
  r.headerOk = true ∧ (s.channel r.chan).version = some (r.vmaj, r.vmin) ∧ r.op = op

/-- Such a request names the live job j, which is not being saved (R406, R463). -/
def ServedOn (r : Req) (op : BitVec 16) (j : Job) (s : State) : Prop :=
  Served r op s ∧ s.jobById r.jobId = some j ∧ j.ckpt = none

end Sys2Proof.Machine
end

