-- ==== Sys2Proof/Certificates/Slice0/Obligations.lean ====
section
/-! DEFINITION. The statements about the machine, by the rules of spec/ they formalise. `Ready` says that an instruction
issues, `finished` and `started` what its completion leaves, `Served` that a request passes the checks every request meets,
`HomeReady` that a peer's request can be handled at its home, `MovesNext` what a step runs (Sys2Proof/Safety.lean). A hypothesis `s.rdS k = .ok a t` says that scalar field k can be read where the party stands and holds a;
it covers the control thread, a block and a lane (R194). -/

open Sys2Proof Sys2Proof.Machine

/-- R43, R67, R394: right after reset memory lists nothing, every slot is empty and no register of a context holds anything but
zero; s0 reads zero and a write of it is discarded; another register reads as what was written. R43, R194: on the control
thread a read of s0 gives 0; a write to field k with no copy pending there sets sk and nothing else of the scalar registers,
and a write to s0 leaves every one of them. -/
def Obligations.ResetAndScalarRegisters : Prop :=
  (State.reset.mem = [] ∧ Memory.wf State.reset.mem = true ∧ State.reset.chip.booted = false ∧
  (∀ a, Memory.read State.reset.mem a = 0) ∧
  (∀ c, State.reset.ctx c = Ctx.zero ∧ State.reset.slot c = 0 ∧ slotState (State.reset.slot c) = 0) ∧
  (∀ c, (State.reset.link c).phase = .down) ∧ (∀ n, (State.reset.key n).valid = false) ∧
  (∀ (x : Ctx) (v : Word), x.sreg 0 = 0 ∧ x.setSreg 0 v = x) ∧
  (∀ (x : Ctx) (k q : SReg) (v : Word), k ≠ 0 → (x.setSreg k v).sreg q = if q = k then v else x.sreg q) ∧
  ∀ k : SReg, Ctx.zero.sreg k = 0) ∧
  (∀ (s : State) (k j : SReg) (v : Word), s.cur.party.place = .ctl →
    (s.myCtx.sreg 0 = 0) ∧
    ((s.setS k v).myCtx.sreg j = if j = 0 then 0 else if j = k then v else s.myCtx.sreg j) ∧
    (∀ c, c ≠ s.me → (s.setS k v).ctx c = s.ctx c))

/-- R177 to R185, R352 to R355: words written out from the spec's tables decode to their instructions; head 0x0000 with a tail
and 0xFFFF name none; and every instruction that the decoder accepts is well formed. -/
def Obligations.DecodingReadsTheTables : Prop :=
  decode 0b000001_100_11_00000#16 [0b0011_0001_0101_0000#16, 0b0100_0000_0000_1000#16, 0b0011_0000_1000_0001#16, 0b0000_0000_0000_0000#16] =
    .ok (.add ⟨some ⟨3, 5, 2⟩, some ⟨4, 1⟩⟩ ⟨3, 2, 1⟩) ∧
  decode 0b000010_010_00_00000#16 [0b1011_0000_1000_0001#16, 0b1111_1111_1111_1111#16] =
    .ok (.addi ⟨none, none⟩ ⟨1048571, 2, 1⟩) ∧
  decode 0b000100_010_00_00000#16 [0b1110_0000_1000_0001#16, 0b1111_1111_1111_1111#16] = .ok (.beq ⟨none, none⟩ ⟨1048574, 2, 1⟩) ∧
  decode 0b010100_011_00_00000#16 [0b0000_1100_0100_0001#16, 0b0000_0101_0100_0000#16, 0b0000_0000_0000_0000#16] =
    .ok (.vadd ⟨none, none⟩ ⟨0, 0, 0, 0, 0, 0, 0, 1, 5, 0, 0, 3, 2, 1⟩) ∧
  decode 0b100000_011_00_00010#16 [0b0011_0000_1000_1000#16, 0b0001_0000_0000_0000#16, 0b0000_0000_0000_0000#16] =
    .ok (.vlds ⟨none, none⟩ ⟨0, 0, 0, 0, 0, 1, 0, 0, 0, 0, 6, 4, 8⟩) ∧
  decode 0b100001_011_00_00010#16 [0b1000_0000_1000_0001#16, 0b0110_1111_1111_1111#16, 0b0000_0000_0000_0100#16] =
    .ok (.lw ⟨none, none⟩ ⟨4, 1, 2, 65528, 2, 1⟩) ∧
  decode 0b100110_011_00_01001#16 [0b0011_0000_1000_0001#16, 0b1100_1100_0001_0000#16, 0b0000_0000_0000_0000#16] =
    .ok (.acas ⟨none, none⟩ ⟨0, 0, 0, 0, 1, 4, 3, 0, 4, 3, 2, 1⟩) ∧
  decode 0b110000_011_00_00010#16 [0b0000_0000_0001_0001#16, 0b0010_0000_0000_0110#16, 0b0000_0000_0000_0000#16] =
    .ok (.tmma ⟨none, none⟩ ⟨0, 0, 0, 8, 0, 0, 3, 0, 0, 2, 1⟩) ∧
  decode 0b111000_010_00_00001#16 [0b0000_0100_0000_0000#16, 0b0000_0000_1100_0000#16] = .ok (.rtw ⟨none, none⟩ ⟨3, 0, 1, 0, 0⟩) ∧
  decodeLortar 0b001011_00000101_0_000_0_000110010000000111111111111111111111111111001#64 =
    .ok (.kaddi ⟨⟨5, 0, 0⟩, 3, 4, 0, 1073741817⟩) ∧
  decodeLortar 0b100000_00000000_1_010_0_001100000000001000010101000000011000000000000#64 =
    .ok (.xld ⟨⟨0, 1, 2⟩, 3, 0, 0, 4, 5, 8, 0, 0, 1, 4, 0, 0⟩) ∧
  (∀ (tl : BitVec 3) (t : List Half), decode (0x3E#6 ++ tl ++ 0#2 ++ 0#5) t = .ok (.bkpt tl)) ∧
  (∀ t, decode 0xFFFF#16 t = .illegal) ∧ decode 0x0080#16 [0] = .illegal ∧ decodeLortar 0 = .illegal ∧
  (∀ h t i, decode h t = .ok i → WellFormed i = true) ∧ ∀ w i, decodeLortar w = .ok i → WellFormed i = true

/-- R177 to R185, R352 to R355: every well-formed instruction with words is read back from the words it is encoded as, every
operand at every value that the encoding admits, and TL is the length of its tail; an operation of the device has no words. -/
def Obligations.EncodeDecodeRoundTrip : Prop := ∀ i : Instr, Sys2Proof.Laws.RoundTrip.Statement i

/-- R16, R174, R175, R185, R187, R229: when a control thread or a strip moves next and its line can be read, a step runs the
instruction that the head at its address and its tail decode to, with the next address of R175, the line held for that address
when it lies in it; the end of the heads goes to the next line, an overrunning head raises 0x03, a reserved field 0x02, a
reserved scope 0x06 and an unassigned encoding 0x01. The bytes are those just read but where the party holds its line with
others. -/
def Obligations.StepRunsTheDecodedInstruction : Prop :=
  (∀ (s w r t : State) (p : Party) (pc : Word) (bs bytes : List Byte), s.chip.frozen = false → s.chip.booted = true →
    s.chip.boot = 0 → MovesNext { s with now := s.now + 1 } p w → (p.place = .ctl ∨ ∃ b, p.place = .strip b) → pc = w.pcOf p →
    (w.ctx p.ctx).breaksAt pc = false ∨ w.passes p pc = true → w.runAt p.ctx pc.toNat = none →
    State.fetchBytes { w with cur := latchOf p pc pc } p.ctx pc = .ok bs r → r.lineAt p pc bs = (bytes, t) →
    (fetchHead (halvesOf bytes) (lineOf pc) (headOf pc) = .endOfHeads →
      step s = .next (State.refetch { t with cur := latchOf p pc (lineOf pc + 64) }).advance) ∧
    (fetchHead (halvesOf bytes) (lineOf pc) (headOf pc) = .overrun →
      step s = .next (State.takeCause { t with cur := latchOf p pc pc } 0x03 0)) ∧
    ∀ h tl next v, fetchHead (halvesOf bytes) (lineOf pc) (headOf pc) = .head h tl next →
      v = (if lineOf next = lineOf pc then State.holdLine { t with cur := latchOf p pc next } next bytes
        else State.refetch { t with cur := latchOf p pc next }) →
      (∀ i, decode h tl = .ok i → v.headOnly i = true → WellFormed i = true ∧ step s = exec i v) ∧
      (decode h tl = .illegal → step s = .next (v.takeCause 0x01 0)) ∧
      (∀ i, decode h tl = .reserved i → step s = .next (v.takeCause ((formCause i true p.place).getD 0x02) 0)) ∧
      ∀ i, decode h tl = .scope i → step s = .next (v.takeCause ((formCause i false p.place).getD 0x06) 0)) ∧
  ∀ (s : State) (p : Party) (pc : Word) (bs : List Byte),
    (∀ x ∈ (s.core (coreOf p.ctx)).held, x.1 = p → x.2.1 = pc → x.2.2 = bs) → s.lineAt p pc bs = (bs, s)

/-- R199: each register-register integer instruction writes the result its row gives, at every place it may stand, and does
nothing else; a word whose bits 31:18 are not zero is reserved. -/
def Obligations.ScalarBinaryWritesItsResult : Prop :=
  (∀ row ∈ ([(.add, fun a b => BitVec.ofNat 64 (a.toNat + b.toNat)),
      (.sub, fun a b => BitVec.ofInt 64 ((a.toNat : Int) - b.toNat)),
      (.and, fun a b => a &&& b), (.or, fun a b => a ||| b), (.xor, fun a b => a ^^^ b),
      (.sll, fun a b => BitVec.ofNat 64 (a.toNat * 2 ^ (b.toNat % 64))),
      (.srl, fun a b => BitVec.ofNat 64 (a.toNat / 2 ^ (b.toNat % 64))),
      (.sra, fun a b => BitVec.ofInt 64 (a.toInt / 2 ^ (b.toNat % 64))),
      (.slt, fun a b => if a.toInt < b.toInt then 1 else 0),
      (.sltu, fun a b => if a.toNat < b.toNat then 1 else 0),
      (.mul, fun a b => BitVec.ofNat 64 (a.toNat * b.toNat)),
      (.div, fun a b => if b = 0 then BitVec.ofNat 64 (2 ^ 64 - 1)
        else if a.toInt = -2 ^ 63 ∧ b.toInt = -1 then a else BitVec.ofInt 64 (a.toInt.tdiv b.toInt)),
      (.divu, fun a b => if b = 0 then BitVec.ofNat 64 (2 ^ 64 - 1) else BitVec.ofNat 64 (a.toNat / b.toNat)),
      (.rem, fun a b => if b = 0 then a else if a.toInt = -2 ^ 63 ∧ b.toInt = -1 then 0
        else BitVec.ofInt 64 (a.toInt - b.toInt * a.toInt.tdiv b.toInt)),
      (.remu, fun a b => if b = 0 then a else BitVec.ofNat 64 (a.toNat % b.toNat))] :
      List ((Gates → FormB → Instr) × (Word → Word → Word))),
    ∀ (g : Gates) (o : FormB) (s s1 s2 s3 s4 : State) (a b : Word), Ready (row.1 g o) s s1 →
      s1.rdS o.sy = .ok a s2 → s2.rdS o.sz = .ok b s3 → s3.dstReady o.sx = .ok ⟨⟩ s4 →
      exec (row.1 g o) s = .next (finished (row.1 g o) s1 (s4.setS o.sx (row.2 a b)))) ∧
  ∀ (m : BitVec 5) (w : BitVec 32), m.toNat < 15 → w.extractLsb' 18 14 ≠ 0 →
    ∃ i, decode (0x01#6 ++ 2#3 ++ 0#2 ++ m) (halves2 w) = .reserved i

/-- R200 to R202: the immediate instructions compute as R199 with IMM sign-extended, the unary ones as R201 says, `li` writes
IMM sign-extended, and `lea` the instruction's own address plus IMM. -/
def Obligations.ScalarImmediateAndUnaryWriteTheirResult : Prop :=
  (∀ row ∈ ([(.addi, fun a b => BitVec.ofNat 64 (a.toNat + b.toNat)), (.andi, fun a b => a &&& b),
      (.ori, fun a b => a ||| b), (.xori, fun a b => a ^^^ b),
      (.slli, fun a b => BitVec.ofNat 64 (a.toNat * 2 ^ (b.toNat % 64))),
      (.srli, fun a b => BitVec.ofNat 64 (a.toNat / 2 ^ (b.toNat % 64))),
      (.srai, fun a b => BitVec.ofInt 64 (a.toInt / 2 ^ (b.toNat % 64)))] :
      List ((Gates → FormI → Instr) × (Word → Word → Word))),
    ∀ (g : Gates) (o : FormI) (s s1 s2 s3 : State) (a : Word), Ready (row.1 g o) s s1 → s1.rdS o.sy = .ok a s2 →
      s2.dstReady o.sx = .ok ⟨⟩ s3 →
      exec (row.1 g o) s = .next (finished (row.1 g o) s1 (s3.setS o.sx (row.2 a (o.imm.signExtend 64))))) ∧
  (∀ row ∈ ([(.mov, fun a => a), (.not, fun a => BitVec.ofNat 64 (2 ^ 64 - 1 - a.toNat)),
      (.clz, fun a => if a = 0 then 64 else BitVec.ofNat 64 (63 - a.toNat.log2)),
      (.cpop, fun a => BitVec.ofNat 64 ((List.range 64).countP fun i => a.getLsbD i))] :
      List ((Gates → FormA → Instr) × (Word → Word))),
    ∀ (g : Gates) (o : FormA) (s s1 s2 s3 : State) (a : Word), Ready (row.1 g o) s s1 → s1.rdS o.sy = .ok a s2 →
      s2.dstReady o.sx = .ok ⟨⟩ s3 →
      exec (row.1 g o) s = .next (finished (row.1 g o) s1 (s3.setS o.sx (row.2 a)))) ∧
  (∀ (g : Gates) (o : FormW) (s s1 s2 : State), Ready (.li g o) s s1 → s1.dstReady o.sx = .ok ⟨⟩ s2 →
      exec (.li g o) s = .next (finished (.li g o) s1 (s2.setS o.sx (o.imm.signExtend 64)))) ∧
  ∀ (g : Gates) (o : FormW) (s s1 s2 : State), Ready (.lea g o) s s1 → s1.dstReady o.sx = .ok ⟨⟩ s2 →
      exec (.lea g o) s = .next (finished (.lea g o) s1 (s2.setS o.sx (s.cur.pc + o.imm.signExtend 64)))

/-- What the register-only instructions of R199 to R202 leave as it was, without a gate on the control thread: every other
scalar register, the flags and every control register, timelines, blocks and streams of the context, every other context, all
of memory, the bind records, jobs, counters and keys; the program counter goes to the next address. Reading a token register
may acquire (R158), which only drops untracked lines of the core. -/
def Obligations.ScalarRegisterInstructionsFrame : Prop :=
  ∀ (i : Instr) (sx : SReg) (s t : State),
    ((∃ m ∈ ([.add, .sub, .and, .or, .xor, .sll, .srl, .sra, .slt, .sltu, .mul, .div, .divu, .rem, .remu] :
        List (Gates → FormB → Instr)), ∃ o, i = m Gates.none o ∧ sx = o.sx ∧ (∃ a b s2 s3 s4, s.rdS o.sy = .ok a s2 ∧
          s2.rdS o.sz = .ok b s3 ∧ s3.dstReady o.sx = .ok ⟨⟩ s4)) ∨
      (∃ m ∈ ([.addi, .andi, .ori, .xori, .slli, .srli, .srai] : List (Gates → FormI → Instr)), ∃ o,
        i = m Gates.none o ∧ sx = o.sx ∧ (∃ a s2 s3, s.rdS o.sy = .ok a s2 ∧ s2.dstReady o.sx = .ok ⟨⟩ s3)) ∨
      (∃ m ∈ ([.mov, .not, .clz, .cpop] : List (Gates → FormA → Instr)), ∃ o,
        i = m Gates.none o ∧ sx = o.sx ∧ (∃ a s2 s3, s.rdS o.sy = .ok a s2 ∧ s2.dstReady o.sx = .ok ⟨⟩ s3)) ∨
      (∃ m ∈ ([.li, .lea] : List (Gates → FormW → Instr)), ∃ o,
        i = m Gates.none o ∧ sx = o.sx ∧ (∃ s2, s.dstReady o.sx = .ok ⟨⟩ s2))) →
    Ready i s s → s.cur.party.place = .ctl → exec i s = .next t →
    (∀ k, k ≠ sx → (t.ctx s.me).sreg k = (s.ctx s.me).sreg k) ∧
    (t.ctx s.me).pc = s.cur.next ∧ (t.ctx s.me).fmtst = s.myCtx.fmtst ∧ (t.ctx s.me).fctl = s.myCtx.fctl ∧
    (t.ctx s.me).seed = s.myCtx.seed ∧ (t.ctx s.me).tsh = s.myCtx.tsh ∧ (t.ctx s.me).tl = s.myCtx.tl ∧
    (t.ctx s.me).v = s.myCtx.v ∧ (t.ctx s.me).m = s.myCtx.m ∧ (t.ctx s.me).t = s.myCtx.t ∧
    (t.ctx s.me).vl = s.myCtx.vl ∧ (t.ctx s.me).vtype = s.myCtx.vtype ∧ (t.ctx s.me).rq = s.myCtx.rq ∧
    (t.ctx s.me).cause = s.myCtx.cause ∧ (t.ctx s.me).epc = s.myCtx.epc ∧ (t.ctx s.me).tval = s.myCtx.tval ∧
    (t.ctx s.me).queue = s.myCtx.queue ∧ (t.ctx s.me).run = s.myCtx.run ∧ (t.ctx s.me).strips = s.myCtx.strips ∧
    (t.ctx s.me).streams = s.myCtx.streams ∧ (t.ctx s.me).pend = s.myCtx.pend ∧
    (∀ c, c ≠ s.me → t.ctx c = s.ctx c) ∧ t.mem = s.mem ∧ t.bind = s.bind ∧ t.jobs = s.jobs ∧
    t.counters = s.counters ∧ t.keys = s.keys ∧ t.clusters = s.clusters ∧ t.dies = s.dies ∧ t.chip = s.chip

/-- R203, R204: a conditional branch whose condition holds, and each direct and register transfer, goes to its target once the
target passes the checks of R176; a call writes the next address to s1; a branch not taken goes on at its next address. -/
def Obligations.TransfersGoToTheirTarget : Prop :=
  (∀ row ∈ ([(.beq, fun a b => a = b), (.bne, fun a b => a ≠ b), (.blt, fun a b => a.toInt < b.toInt),
      (.bge, fun a b => b.toInt ≤ a.toInt), (.bltu, fun a b => a.toNat < b.toNat),
      (.bgeu, fun a b => b.toNat ≤ a.toNat)] : List ((Gates → FormJ → Instr) × (Word → Word → Prop))),
    ∀ (g : Gates) (o : FormJ) (s s1 s2 s3 s4 : State) (a b : Word), Ready (row.1 g o) s s1 →
      s1.rdS o.sx = .ok a s2 → s2.rdS o.sy = .ok b s3 →
      (¬ row.2 a b → exec (row.1 g o) s = .next (finished (row.1 g o) s1 s3)) ∧
      (row.2 a b → s3.checkTarget s3.me (s3.cur.pc + 2 * o.off.signExtend 64) = .ok ⟨⟩ s4 →
        exec (row.1 g o) s = .next (finished (row.1 g o) s1 (s4.withNext (s3.cur.pc + 2 * o.off.signExtend 64)).refetch))) ∧
  (∀ (g : Gates) (o : FormL) (s s1 s2 : State), Ready (.jmp g o) s s1 →
      s1.checkTarget s1.me (s1.cur.pc + 2 * o.off.signExtend 64) = .ok ⟨⟩ s2 →
      exec (.jmp g o) s = .next (finished (.jmp g o) s1 (s2.withNext (s1.cur.pc + 2 * o.off.signExtend 64)).refetch)) ∧
  (∀ (g : Gates) (o : FormL) (s s1 s2 s3 : State), Ready (.call g o) s s1 →
      s1.checkTarget s1.me (s1.cur.pc + 2 * o.off.signExtend 64) = .ok ⟨⟩ s2 →
      (s2.withNext (s1.cur.pc + 2 * o.off.signExtend 64)).refetch.dstReady 1 = .ok ⟨⟩ s3 →
      exec (.call g o) s = .next (finished (.call g o) s1 (s3.setS 1 s1.cur.next))) ∧
  (∀ (g : Gates) (o : FormA) (s s1 s2 s3 : State) (a : Word), Ready (.jr g o) s s1 → s1.rdS o.sx = .ok a s2 →
      s2.checkTarget s2.me a = .ok ⟨⟩ s3 →
      exec (.jr g o) s = .next (finished (.jr g o) s1 (s3.withNext a).refetch)) ∧
  ∀ (g : Gates) (o : FormA) (s s1 s2 s3 s4 : State) (a : Word), Ready (.callr g o) s s1 → s1.rdS o.sx = .ok a s2 →
      s2.checkTarget s2.me a = .ok ⟨⟩ s3 →
      (s3.withNext a).refetch.dstReady 1 = .ok ⟨⟩ s4 →
      exec (.callr g o) s = .next (finished (.callr g o) s1 (s4.setS 1 s2.cur.next))

/-- R205: `callt` reads TARGET and SIG of an entry aligned to 16; with the expected signature and a valid target it goes to the
target with the next address in s1; with another signature it raises cause 0x07, and an entry not aligned to 16 raises 0x22,
with TVAL the entry's address; a load or a check of the target that fails raises its cause. -/
def Obligations.CalltChecksItsEntry : Prop :=
  ∀ (g : Gates) (o : FormA) (s s1 s2 s3 : State) (e sig : Word), Ready (.callt g o) s s1 → s1.rdS o.sx = .ok e s2 →
    s2.rdS o.sy = .ok sig s3 →
    (e.toNat % 16 ≠ 0 → exec (.callt g o) s = .next (s3.dropAnswers.takeCause 0x22 e)) ∧
    (∀ c v u, e.toNat % 16 = 0 → s3.readElem s3.me (rowElem e 8 .load 3) = .trap c v u →
      exec (.callt g o) s = .next (u.dropAnswers.takeCause c v)) ∧
    ∀ (s4 s5 s6 s7 : State) (tgt found : Nat), e.toNat % 16 = 0 →
      s3.readElem s3.me (rowElem e 8 .load 3) = .ok tgt s4 →
      (∀ c v u, s4.readElem s4.me (rowElem (e + 8) 8 .load 3) = .trap c v u →
        exec (.callt g o) s = .next (u.dropAnswers.takeCause c v)) ∧
      (s4.readElem s4.me (rowElem (e + 8) 8 .load 3) = .ok found s5 →
      (BitVec.ofNat 64 found ≠ sig → exec (.callt g o) s = .next (s5.dropAnswers.takeCause 0x07 e)) ∧
      (∀ c v u, BitVec.ofNat 64 found = sig → s5.checkTarget s5.me (BitVec.ofNat 64 tgt) = .trap c v u →
        exec (.callt g o) s = .next (u.dropAnswers.takeCause c v)) ∧
      (BitVec.ofNat 64 found = sig → s5.checkTarget s5.me (BitVec.ofNat 64 tgt) = .ok ⟨⟩ s6 →
        (s6.withNext (BitVec.ofNat 64 tgt)).refetch.dstReady 1 = .ok ⟨⟩ s7 →
        exec (.callt g o) s = .next (finished (.callt g o) s1 (s7.setS 1 s5.cur.next))))

/-- R208 to R211: the floating-point instructions write the code of the result with the bits above its format zero (fcvt to an
i-format: sign-extended), and OR the flags into the party's. `farith`, `fcompare` and `convert` are the arithmetic of
Sys2Proof/Machine/Numbers.lean; a pair of formats that R85 does not convert raises cause 0x05. R176: the checks of a transfer's
target, in their order: an odd address raises 0x22; one at or above 2^57 raises 0x20; a target in a line outside lowered code
must name a head of its line, or 0x03 is raised; TVAL is the target. -/
def Obligations.FloatingPointAndTargetChecks : Prop :=
  ((∀ row ∈ ([(.fadd, .add), (.fsub, .sub), (.fmul, .mul), (.fdiv, .div)] : List ((Gates → FormF → Instr) × FOp)),
    ∀ (g : Gates) (o : FormF) (s s1 s2 s3 s4 : State) (a b : Word), Ready (row.1 g o) s s1 → s1.rdS o.sy = .ok a s2 →
      s2.rdS o.sz = .ok b s3 → s3.dstReady o.sx = .ok ⟨⟩ s4 →
      let r := farith row.2 o.fmt.toNat (arithMode o.rnd s3.fctlOf) (ftzOf s3.fctlOf) a.toNat b.toNat 0
      exec (row.1 g o) s = .next (finished (row.1 g o) s1 ((s4.setS o.sx (w64 r.1)).addFlags r.2))) ∧
  (∀ row ∈ ([(.feq, .eq), (.flt, .lt), (.fle, .le)] : List ((Gates → FormF → Instr) × FCmp)),
    ∀ (g : Gates) (o : FormF) (s s1 s2 s3 s4 : State) (a b : Word), Ready (row.1 g o) s s1 → s1.rdS o.sy = .ok a s2 →
      s2.rdS o.sz = .ok b s3 → s3.dstReady o.sx = .ok ⟨⟩ s4 →
      let r := fcompare row.2 o.fmt.toNat (ftzOf s3.fctlOf) a.toNat b.toNat
      exec (row.1 g o) s = .next (finished (row.1 g o) s1 ((s4.setS o.sx (if r.1 then 1 else 0)).addFlags r.2))) ∧
  ∀ (g : Gates) (o : FormF) (s s1 : State), Ready (.fcvt g o) s s1 →
    (convertible (o.sz.toNat % 32) o.fmt.toNat = false → exec (.fcvt g o) s = .next (s1.dropAnswers.takeCause 0x05 0)) ∧
    ∀ (s2 s3 : State) (a : Word), convertible (o.sz.toNat % 32) o.fmt.toNat = true → s1.rdS o.sy = .ok a s2 →
      s2.dstReady o.sx = .ok ⟨⟩ s3 →
      let r := convert (o.sz.toNat % 32) none o.fmt.toNat none (effMode o.rnd s2.fctlOf) (pilgrim s2.seedOf 0 0).toNat
        (effSat o.satm s2.fctlOf) (ftzOf s2.fctlOf) a.toNat
      exec (.fcvt g o) s = .next (finished (.fcvt g o) s1 ((s3.setS o.sx (codeWord o.fmt.toNat r.1)).addFlags r.2))) ∧
  (∀ (s : State) (c : Nat) (a : Word),
    (a.toNat % 2 = 1 → s.checkTarget c a = .trap 0x22 a s) ∧
    (a.toNat % 2 = 0 → 2 ^ 57 ≤ a.toNat → s.checkTarget c a = .trap 0x20 a s) ∧
    ∀ (hs : List Half) (t : State), a.toNat % 2 = 0 → a.toNat < 2 ^ 57 → s.runAt c a.toNat = none →
      s.fetchLine c a = .ok hs t →
      (targetOk hs (headOf a) = true → s.checkTarget c a = .ok ⟨⟩ t) ∧
      (targetOk hs (headOf a) = false → s.checkTarget c a = .trap 0x03 a t))

/-- R216, R218 to R222: `nop`, `fence.near` and `tlwait` have no effect beyond their gates; `vsync` goes on once no block is
queued or running, acquiring at scope 0, which has its thread fetch anew; `halt` ends the control thread at its address;
`wexit` ends the lane. R17, R47, R215: `vblk` at a line address puts one entry at the end of the block queue, with the element
count, the snapshot and its poison, SEED and FCTL as they stand, and its post for the block's commit point; a full queue stalls
it; another address raises 0x22; a store's fault held for the context is taken first. -/
def Obligations.MarkersCompleteAndVblkQueues : Prop :=
  ((∀ i ∈ ([.nop, .fenceNear, .tlwait] : List (Gates → Instr)), ∀ (g : Gates) (s s1 : State), Ready (i g) s s1 →
      exec (i g) s = .next (finished (i g) s1 s1)) ∧
  (∀ (g : Gates) (s s1 : State), Ready (.vsync g) s s1 →
      (s1.myCtx.queue ≠ [] ∨ s1.myCtx.run ≠ none → exec (.vsync g) s = .next (s1.park .blocksDone)) ∧
      (s1.myCtx.queue = [] → s1.myCtx.run = none → s1.myCtx.imprecise = [] →
        exec (.vsync g) s = .next (finished (.vsync g) s1 s1.refetch))) ∧
  (∀ (g : Gates) (s s1 : State), Ready (.halt g) s s1 → s1.myCtx.imprecise = [] →
      exec (.halt g) s = .next ((finished (.halt g) s1
        (s1.modCtx s1.me fun x => { x with halted := true, haltPc := s1.cur.pc })).settleHalt s.me)) ∧
  ∀ (g : Gates) (s s1 : State) (b p : Nat), Ready (.wexit g) s s1 → s1.cur.party.place = .lane b p →
      exec (.wexit g) s = .next (finished (.wexit g) s1
        (s1.modStrip s1.me b fun t => { t with lanePcs := t.lanePcs.filter (·.1 != p) }))) ∧
  (∀ (g : Gates) (o : FormA) (s s1 s2 s3 : State) (a n : Word), Ready (.vblk g o) s s1 → s1.rdS o.sx = .ok a s2 →
    s2.rdS o.sy = .ok n s3 →
    (a.toNat % 64 ≠ 0 → exec (.vblk g o) s = .next (s3.dropAnswers.takeCause 0x22 a)) ∧
    (∀ c v r, a.toNat % 64 = 0 → s3.myCtx.imprecise = (c, v) :: r → exec (.vblk g o) s = .next (State.takeCause
      (State.dropAnswers { s3.modCtx s3.me (fun x => { x with imprecise := r }) with cur := { s3.cur with late := true } }) c v)) ∧
    (a.toNat % 64 = 0 → s3.myCtx.imprecise = [] → 4 ≤ s3.myCtx.queue.length →
      exec (.vblk g o) s = .next (s3.park .blockSlot)) ∧
    (a.toNat % 64 = 0 → s3.myCtx.imprecise = [] → s3.myCtx.queue.length < 4 →
      exec (.vblk g o) s = .next (started (.vblk g o) s1 ((s3.modCtx s3.me fun x => { x with
        queue := x.queue ++ [⟨a, n.toNat, s3.myCtx.seed, s3.myCtx.fctl, ticketOf (.vblk g o) s1, s3.myCtx.s,
          s3.myCtx.spoison⟩]
        wants := if x.run = none ∧ x.queue = [] then s3.now else x.wants }).opBegin s3.me))))

/-- R44, R45, R212, R213: `crd` writes the named register to SX where the place may read it; `cwr` writes a value that passes
the checks of R213; a code that names no register raises 0x01 before any gate, a place the register does not list its place
cause, and a write of a read-only register or of a value wider than the register 0x02. -/
def Obligations.ControlRegistersReadAndWrite : Prop :=
  (∀ (g : Gates) (o : FormC) (s : State), creg? o.code.toNat = none →
    placeCause (.crd g o) s.cur.party.place = none → exec (.crd g o) s = .next (s.dropAnswers.takeCause 0x01 0)) ∧
  (∀ (g : Gates) (o : FormC) (s s1 : State) (r : CReg), Ready (.crd g o) s s1 → creg? o.code.toNat = some r →
      (∀ c, cregPlace r.places s1.cur.party.place = some c → exec (.crd g o) s = .next (s1.dropAnswers.takeCause c 0)) ∧
      ∀ s2, cregPlace r.places s1.cur.party.place = none → s1.dstReady o.sx = .ok ⟨⟩ s2 →
        exec (.crd g o) s = .next (finished (.crd g o) s1 (s2.setS o.sx (s1.creg o.code.toNat)))) ∧
  (∀ (g : Gates) (o : FormC) (s : State), creg? o.code.toNat = none →
    placeCause (.cwr g o) s.cur.party.place = none → exec (.cwr g o) s = .next (s.dropAnswers.takeCause 0x01 0)) ∧
  (∀ (g : Gates) (o : FormC) (s s1 : State) (r : CReg), Ready (.cwr g o) s s1 → creg? o.code.toNat = some r →
      (∀ c, cregPlace r.places s1.cur.party.place = some c → exec (.cwr g o) s = .next (s1.dropAnswers.takeCause c 0)) ∧
      (cregPlace r.places s1.cur.party.place = none → r.rw = false →
        exec (.cwr g o) s = .next (s1.dropAnswers.takeCause 0x02 0)) ∧
      ∀ s2 v, cregPlace r.places s1.cur.party.place = none → r.rw = true → s1.rdS o.sx = .ok v s2 →
        (2 ^ r.width ≤ v.toNat → exec (.cwr g o) s = .next (s2.dropAnswers.takeCause 0x02 0)) ∧
        (v.toNat < 2 ^ r.width → (o.code = 0x06 → v.toNat % 8 ≤ 5) →
          (0x10 ≤ o.code.toNat → o.code.toNat ≤ 0x17 → tshOk v.toNat = true) →
          exec (.cwr g o) s = .next (finished (.cwr g o) s1 (s2.setCreg o.code.toNat v)))) ∧
  ∀ (s : State) (v : Word), s.cur.party.place = .ctl →
    s.creg 0x00 = BitVec.ofNat 64 (s.dev * 2 ^ 10 + s.me) ∧ s.creg 0x05 = s.myCtx.seed.setWidth 64 ∧
    s.creg 0x06 = s.myCtx.fctl.setWidth 64 ∧ s.creg 0x07 = s.myCtx.fmtst.setWidth 64 ∧
    s.creg 0x40 = s.myCtx.cause.setWidth 64 ∧ s.creg 0x41 = s.myCtx.epc ∧ s.creg 0x42 = s.myCtx.tval ∧
    (s.setCreg 0x05 v).myCtx.seed = v.setWidth 32 ∧ (s.setCreg 0x06 v).myCtx.fctl = v.setWidth 5 ∧
    (s.setCreg 0x07 v).myCtx.fmtst = v.setWidth 7 ∧
    ∀ n : Fin 8, (s.setCreg (0x10 + n.val) v).myCtx.tsh[n.val] = v.setWidth 24 ∧
      ((s.setCreg (0x10 + n.val) v).myCtx.t[n.val]).tag = 0

/-- R29, R255: `mcnt`, `many` and `mfirst` push the count of ones below VL, whether there is one, and STRIPB plus the first
position or 2^64 − 1; while a lower strip is left or the queue holds 16 entries, the strip stalls with nothing pushed. R29,
R217: `rqget` pops the oldest reply-queue entry into SX; on an empty queue it stalls while a block is queued or runs and raises
0x84 otherwise. -/
def Obligations.RepliesAreCountsPositionsAndAreTaken : Prop :=
  (∀ row ∈ ([(.mcnt, fun _ n _ => BitVec.ofNat 64 n), (.many, fun _ n _ => if n = 0 then 0 else 1),
      (.mfirst, fun b _ f => (f.map fun p => BitVec.ofNat 64 (b + p)).getD (BitVec.ofNat 64 (2 ^ 64 - 1)))] :
      List ((Gates → FormK → Instr) × (Nat → Nat → Option Nat → Word))),
    ∀ (g : Gates) (o : FormK) (s s1 : State) (v : Word), Ready (row.1 g o) s s1 →
      v = row.2 s1.myStrip.stripb ((List.range s1.myStrip.vl).filter fun p => s1.myStrip.mbit o.mx p).length
        ((List.range s1.myStrip.vl).find? fun p => s1.myStrip.mbit o.mx p) →
      (s1.myCtx.rq.length < 16 → (∀ t ∈ s1.myCtx.strips, s1.myStrip.stripb ≤ t.stripb) →
        exec (row.1 g o) s = .next (finished (row.1 g o) s1
          ((s1.modCtx s1.me fun x => { x with rq := x.rq ++ [v] }).modMyStrip fun t => { t with vstart := 0 }))) ∧
      ((16 ≤ s1.myCtx.rq.length ∨ ∃ t ∈ s1.myCtx.strips, t.stripb < s1.myStrip.stripb) →
        exec (row.1 g o) s = .next (s1.park (.replyRoom s1.myStrip.stripb v s1.cur.next g.post)))) ∧
  (∀ (g : Gates) (o : FormC) (s s1 : State), Ready (.rqget g o) s s1 →
    (WellFormed (.rqget g o) = true → o.code = 0) ∧
    (∀ v rest s2, s1.myCtx.rq = v :: rest → s1.dstReady o.sx = .ok ⟨⟩ s2 →
      exec (.rqget g o) s = .next (finished (.rqget g o) s1
        ((s2.modCtx s2.me fun x => { x with rq := rest }).setS o.sx v))) ∧
    (s1.myCtx.rq = [] → s1.myCtx.queue ≠ [] ∨ s1.myCtx.run ≠ none → exec (.rqget g o) s = .next (s1.park .replyEntry)) ∧
    (s1.myCtx.rq = [] → s1.myCtx.queue = [] → s1.myCtx.run = none →
      exec (.rqget g o) s = .next (s1.dropAnswers.takeCause 0x84 0)))

/-- R223, R224, R226: `trap` takes cause CODE with TVAL = Read(SX), `bkpt` takes 0xC1, and `scall` takes 0xE0 and asks for the
service numbered IMM; a number that is no service gets all ones in the saved s4 and the context resumes. -/
def Obligations.TrapsAndSystemCallsTakeTheirCause : Prop :=
  (∀ (g : Gates) (o : FormC) (s s1 s2 : State) (v : Word), Ready (.trap g o) s s1 → s1.rdS o.sx = .ok v s2 →
    exec (.trap g o) s = .next (s2.dropAnswers.takeCause o.code v)) ∧
  (∀ (g : Gates) (o : FormC), (WellFormed (.trap g o) = true → 0xF0 ≤ o.code.toNat ∧ resumesNext o.code = true) ∧
    (o.code.toNat < 0xF0 → formCause (.trap g o) false .ctl = some 0x02)) ∧
  (∀ (tl : BitVec 3) (t : List Half) (g : BitVec 2), g ≠ 0 → decode (0x3E#6 ++ tl ++ g ++ 0#5) t = .illegal) ∧
  resumesNext 0xC1 = false ∧
  (∀ (tl : BitVec 3) (s s1 : State), Ready (.bkpt tl) s s1 →
    exec (.bkpt tl) s = .next (s1.dropAnswers.takeCause 0xC1 0)) ∧
  ∀ (g : Gates) (o : FormI) (s s1 : State), Ready (.scall g o) s s1 → s1.myCtx.imprecise = [] →
    (∀ e, serviceOf o.imm.toNat (.native s.me) = some e →
      exec (.scall g o) s = .next ((s1.dropAnswers.takeCause 0xE0 0).later e)) ∧
    (serviceOf o.imm.toNat (.native s.me) = none →
      exec (.scall g o) s = .next ((s1.dropAnswers.takeCause 0xE0 0).answerNative s.me (BitVec.allOnes 64) none))

/-- R327, R335, R426, R430, R437: a cause stops and saves its context, what it has begun in the matrix unit and at the Relay
ended: STATE of its slot is 0b10, CAUSE, EPC and TVAL hold the record's values, the 64 bytes of the record stand at the start
of the save area, and what follows is the delivery to a handler; a context that names no unit gets none. R437: a trap record is
64 bytes; its fields stand at their offsets, DISP is 1 and bytes 57 to 63 are zero. R221, R430, R437: what the record of a
cause that an instruction raises holds: the cause, CTXID, the instruction's address and TVAL; on the control thread no strip's
fields; in a strip its STRIPB, and in a lane the lane and its program counter too. R221: a fault of a strip after a halt (a
breakpoint and a step are none) is imprecise and names the halt's instruction. -/
def Obligations.CausesSaveTheContextAndItsRecord : Prop :=
  (∀ (s w : State) (code : Code) (tval : Word), w = s.stopOps s.me → ∃ t u : State,
    s.takeCause code tval = u.deliver s.me code ∧
    u = t.jobWrite (slotJob (w.slot s.me)) (slotSave (w.slot s.me)) (w.recordOf code tval).bytes ∧
    slotState (u.slot s.me) = 2 ∧ u.ctx s.me = Ctx.zero ∧
    (aget Ctx.zero u.residue (slotSave (w.slot s.me))).cause = code ∧
    (aget Ctx.zero u.residue (slotSave (w.slot s.me))).epc = (w.recordOf code tval).epc ∧
    (aget Ctx.zero u.residue (slotSave (w.slot s.me))).tval = tval ∧
    (code = 0xE0 ∨ u.unitOf s.me = none → s.takeCause code tval = u)) ∧
  (∀ r : TrapRecord, r.flags < 256 → r.striprec < 256 → r.ctx < 2 ^ 32 → r.stripb < 2 ^ 64 → r.vstart < 2 ^ 32 →
    r.lane < 2 ^ 32 → r.engno < 2 ^ 64 → r.engtl < 256 →
    r.bytes.length = 64 ∧ natAt r.bytes 0 1 = r.cause.toNat ∧ natAt r.bytes 1 1 = r.flags ∧ natAt r.bytes 2 1 = r.striprec ∧
    natAt r.bytes 3 1 = 1 ∧ natAt r.bytes 4 4 = r.ctx ∧ natAt r.bytes 8 8 = r.epc.toNat ∧ natAt r.bytes 16 8 = r.tval.toNat ∧
    natAt r.bytes 24 8 = r.stripb ∧ natAt r.bytes 32 4 = r.vstart ∧ natAt r.bytes 36 4 = r.lane ∧
    natAt r.bytes 40 8 = r.lpc.toNat ∧ natAt r.bytes 48 8 = r.engno ∧ natAt r.bytes 56 1 = r.engtl ∧ natAt r.bytes 57 7 = 0) ∧
  (∀ (s : State) (code : Code) (tval : Word),
    (s.recordOf code tval).cause = code ∧ (s.recordOf code tval).ctx = s.dev * 2 ^ 10 + s.me ∧
    (s.recordOf code tval).tval = tval ∧
    (s.cur.party.place = .ctl ∨ s.myCtx.halted = false → (s.recordOf code tval).epc = s.cur.pc) ∧
    (s.cur.party.place ≠ .ctl → s.myCtx.halted = true → code ≠ 0xC0 → code ≠ 0xC1 →
      (s.recordOf code tval).epc = s.myCtx.haltPc ∧ (s.recordOf code tval).flags % 2 = 1) ∧
    (s.cur.party.place = .ctl → (s.recordOf code tval).flags % 8 / 2 = 0 ∧ (s.recordOf code tval).stripb = 0 ∧
      (s.recordOf code tval).vstart = 0 ∧ (s.recordOf code tval).lane = 0 ∧ (s.recordOf code tval).lpc = 0) ∧
    (∀ b, s.cur.party.place = .strip b → (s.recordOf code tval).flags % 8 / 2 = 1 ∧ (s.recordOf code tval).stripb = b ∧
      (s.recordOf code tval).lane = 0) ∧
    ∀ b p, s.cur.party.place = .lane b p → (s.recordOf code tval).flags % 8 / 2 = 3 ∧ (s.recordOf code tval).stripb = b ∧
      (s.recordOf code tval).lane = p ∧ (s.recordOf code tval).lpc = s.cur.pc)

/-- R120, R161, R221, R432: a cause that comes to a party from outside an issue is taken at its next address; a fault held for
an engine operation names the operation; 0xE0 is answered with all ones and the context goes on; event 0x24 goes to the handler
alone; a party that no longer runs keeps its imprecise faults in its saved context. TRAP_DELIVERY completes in every state. -/
def Obligations.CausesReachTheirParty : Prop :=
  ∀ (p : Party) (code : Code) (tval : Word) (imprecise : Bool) (s t : State),
    t = { s with cur := s.latchFor p } →
    (code = 0x24 → exec (.trapDelivery p code tval imprecise) s = .next (s.deliverEvent p.ctx code tval)) ∧
    (code ≠ 0x24 → s.partyLives p = false →
      (imprecise = true → slotState (s.slot p.ctx) = 2 → exec (.trapDelivery p code tval imprecise) s =
        .next (s.modOwner (savedTag (slotSave (s.slot p.ctx))) fun x =>
          { x with imprecise := x.imprecise ++ [(code, tval)] })) ∧
      (imprecise = false ∨ slotState (s.slot p.ctx) ≠ 2 → exec (.trapDelivery p code tval imprecise) s = .next s)) ∧
    (code ≠ 0x24 → s.partyLives p = true →
      (∀ h u, (t.ctx p.ctx).held.find? (fun h => h.code == code && h.tval == tval) = some h → u = t.deliverHeld h →
        exec (.trapDelivery p code tval imprecise) s =
          .next (State.takeCause { u with cur := { u.cur with late := imprecise } } code tval)) ∧
      ((t.ctx p.ctx).held.find? (fun h => h.code == code && h.tval == tval) = none → code ≠ 0xE0 →
        exec (.trapDelivery p code tval imprecise) s =
          .next (State.takeCause (State.modCtx { t with cur := { t.cur with late := imprecise } } p.ctx
            (Ctx.dropImprecise code tval)) code tval)) ∧
      ((t.ctx p.ctx).held.find? (fun h => h.code == code && h.tval == tval) = none → code = 0xE0 →
        exec (.trapDelivery p code tval imprecise) s =
          .next ((State.takeCause (State.modCtx { t with cur := { t.cur with late := imprecise } } p.ctx
            (Ctx.dropImprecise code tval)) code tval).answerNative p.ctx (BitVec.allOnes 64) none))) ∧
    ∃ u, exec (.trapDelivery p code tval imprecise) s = .next u

/-- R22, R49, R243: the head of a strip gives it its type and VL = min(N − STRIPB, VLMAX), and the next strip begins VL further
on; VLMAX is 1024 × grouping ÷ element width. Anywhere but at the head of a strip `setvl` and `setvl.w` raise cause 0x09. R22,
R169: `setvl.w` reads the watermark W at the address in the block's snapshot of SX, with an acquire; W above STRIPB bounds VL
by W − STRIPB, and otherwise the strip is taken back until the word changes. -/
def Obligations.StripHeadsSetTheStrip : Prop :=
  ((∀ (g : Gates) (o : FormH) (s s1 : State), s1.atHead = false →
    (Ready (.setvl g o) s s1 → exec (.setvl g o) s = .next (s1.dropAnswers.takeCause 0x09 0)) ∧
    (Ready (.setvlW g o) s s1 → exec (.setvlW g o) s = .next (s1.dropAnswers.takeCause 0x09 0))) ∧
  (∀ (g : Gates) (o : FormH) (s s1 : State) (r : BlockRun) (b vl : Nat), Ready (.setvl g o) s s1 →
    s1.myCtx.run = some r → r.entry.start = s1.cur.pc → s1.myStrip.headDue = true → b = s1.myStrip.stripb →
    vl = min (r.entry.n - b) (1024 * 2 ^ (o.type.toNat / 4 % 4) / 2 ^ (o.type.toNat % 4)) →
    exec (.setvl g o) s = .next (finished (.setvl g o) s1
      ((s1.modMyStrip fun t => { t with vtype := o.type, vl := vl, headDue := false }).modCtx s1.me fun x =>
        { x with run := x.run.map fun r => { r with next := b + vl }, wants := s1.now })))) ∧
  (∀ (g : Gates) (o : FormH) (s s1 s2 s3 s4 : State) (w m : Nat) (p : Page), Ready (.setvlW g o) s s1 →
    s1.atHead = true →
    s1.readElem s1.me { rowElem (s1.snapS o.sx) 8 .load 3 with scopes := [4] } = .ok w s2 →
    s2.pageOf s2.me (s1.snapS o.sx).toNat false = .ok (some p, m) s3 →
    s4 = s3.acquire (coreOf s3.me) p.watermarkScope → p.watermarkScope = (if p.space = 1 then 5 else 4) ∧
    (w ≤ s3.myStrip.stripb → exec (.setvlW g o) s = .next (finished (.setvlW g o) s1
      (s4.modCtx s4.me (Ctx.retract s3.myStrip.stripb (.watermark (p.paddr s4 (s1.snapS o.sx).toNat) w))))) ∧
    (s3.myStrip.stripb < w → exec (.setvlW g o) s = .next (finished (.setvlW g o) s1
      (s4.setHead o.type (min (min (((s4.myCtx.run.map (·.entry.n)).getD 0) - s4.myStrip.stripb)
        (1024 * 2 ^ (o.type.toNat / 4 % 4) / 2 ^ (o.type.toNat % 4))) (w - s3.myStrip.stripb))))))

/-- R244 to R248: `vend` with lanes detached raises 0x0A and otherwise ends the strip; `vrejoin` waits for the detached lanes
and attaches them; when the block's last strip has ended the context's unread streams end; `vlset` writes bits 31:0 of SY to
LPCN; `vloop` counts down and goes to its target while LPCN is 2 or more; `vbany` and `vbnone` go to their target when some, or
no, bit of the mask below VL is 1. -/
def Obligations.StripControlDoesAsItsRuleSays : Prop :=
  (∀ (g : Gates) (s s1 : State), Ready (.vend g) s s1 →
    (s1.myStrip.detached ≠ 0 → exec (.vend g) s = .next (s1.dropAnswers.takeCause 0x0A 0)) ∧
    (∀ u, s1.myStrip.detached = 0 → s1.myCtx.imprecise = [] →
      u = s1.refetch.modCtx s1.me (Ctx.endStrip s1.now s1.myStrip) →
      exec (.vend g) s = .next (finished (.vend g) s1
        (if u.myCtx.strips = [] ∧ ∃ r, u.myCtx.run = some r ∧ r.entry.n ≤ r.next then u.endStreams u.me Stream.idle else u)))) ∧
  (∀ (g : Gates) (s s1 : State), Ready (.vrejoin g) s s1 →
    (s1.myStrip.lanePcs ≠ [] → exec (.vrejoin g) s = .next (s1.park (.lanesDone s1.myStrip.stripb))) ∧
    (s1.myStrip.lanePcs = [] → exec (.vrejoin g) s = .next (finished (.vrejoin g) s1
      (s1.modMyStrip fun t => { t with detached := 0, laneWait := [] })))) ∧
  (∀ (g : Gates) (o : FormA) (s s1 s2 : State) (v : Word), Ready (.vlset g o) s s1 → s1.rdS o.sy = .ok v s2 →
    exec (.vlset g o) s = .next (finished (.vlset g o) s1
      (s2.modMyStrip fun t => { t with lpc := t.lpc.setIfInBounds o.sx.toNat (v.setWidth 32) }))) ∧
  (∀ (g : Gates) (o : FormL) (s s1 : State) (n : BitVec 32), Ready (.vloop g o) s s1 →
    s1.myStrip.lpc[o.sx.toNat]? = some n →
    (n.toNat ≤ 1 → exec (.vloop g o) s = .next (finished (.vloop g o) s1
      (s1.modMyStrip fun t => { t with lpc := t.lpc.setIfInBounds o.sx.toNat 0 }))) ∧
    (∀ c v u, 2 ≤ n.toNat → s1.checkTarget s1.me (s1.cur.pc + 2 * o.off.signExtend 64) = .trap c v u →
      exec (.vloop g o) s = .next (u.dropAnswers.takeCause c v)) ∧
    ∀ s2, 2 ≤ n.toNat → s1.checkTarget s1.me (s1.cur.pc + 2 * o.off.signExtend 64) = .ok ⟨⟩ s2 →
      exec (.vloop g o) s = .next (finished (.vloop g o) s1
        ((s2.withNext (s1.cur.pc + 2 * o.off.signExtend 64)).refetch.modMyStrip fun t =>
          { t with lpc := t.lpc.setIfInBounds o.sx.toNat (n - 1) }))) ∧
  ∀ row ∈ ([(.vbany, true), (.vbnone, false)] : List ((Gates → FormL → Instr) × Bool)),
    ∀ (g : Gates) (o : FormL) (s s1 : State) (any : Prop), Ready (row.1 g o) s s1 →
      (any ↔ ∃ p < s1.myStrip.vl, (s1.myStrip.m[o.sx.toNat % 16]).bits.getLsbD p = true) →
      ((any ↔ row.2 = false) → exec (row.1 g o) s = .next (finished (row.1 g o) s1 s1)) ∧
      ∀ s2, (any ↔ row.2 = true) → s1.checkTarget s1.me (s1.cur.pc + 2 * o.off.signExtend 64) = .ok ⟨⟩ s2 →
        exec (row.1 g o) s = .next (finished (row.1 g o) s1 (s2.withNext (s1.cur.pc + 2 * o.off.signExtend 64)).refetch)

/-- R17, R19, R22 to R25, R35: at STRIP_DISPATCH the oldest queued block begins to run when none does. A VLC is awarded a lane
group while the core has one free, one that holds none before one that holds some, then the one that has waited longer, then
the lower number. An awarded VLC dispatches a saved strip, lowest STRIPB first, or else the next strip of the block: it begins
at the block's start address with the VLC's vector and mask registers and the block's snapshot, its head still to be evaluated.
R25 to R27: a block whose strips have all ended passes its commit point: where lanes stored over one another the highest lane's
bytes stand, the registers, VL, VTYPE and STRIPB of its last strip become the VLC's, its flags join FMTST, no block runs, and
its post is made. Before that BLOCK_COMMIT changes nothing. -/
def Obligations.StripsStartAndBlocksCommit : Prop :=
  ((∀ (c : Nat) (s : State), slotState (s.slot c) ≠ 1 → exec (.stripDispatch c) s = .next s) ∧
  (∀ (c : Nat) (s : State) (e : BlockEntry) (q : List BlockEntry), slotState (s.slot c) = 1 →
    (s.ctx c).run = none → (s.ctx c).queue = e :: q →
    ∃ t, exec (.stripDispatch c) s = .next t ∧ (t.ctx c).queue = q ∧ (t.ctx c).run = some (BlockRun.start e)) ∧
  (∀ (c d : Nat) (s : State), s.awarded c = true → s.awarded d = true → coreOf c = coreOf d → c = d) ∧
  (∀ (c : Nat) (s : State), s.awarded c = true → s.groupsTaken (coreOf c) < 4 ∧ s.wantsGroup c = true ∧
    ∀ i < 4, s.wantsGroup (4 * coreOf c + i) = true → 4 * coreOf c + i ≠ c →
      (((s.ctx c).groupsHeld = 0 ∧ (s.ctx (4 * coreOf c + i)).groupsHeld ≠ 0) ∨
        (((s.ctx c).groupsHeld = 0 ↔ (s.ctx (4 * coreOf c + i)).groupsHeld = 0) ∧
          ((s.ctx c).wants < (s.ctx (4 * coreOf c + i)).wants ∨
            (s.ctx c).wants = (s.ctx (4 * coreOf c + i)).wants ∧ c < 4 * coreOf c + i)))) ∧
  ∀ (c : Nat) (s u : State) (r : BlockRun), slotState (s.slot c) = 1 → u = s.modCtx c Ctx.startBlock →
    u.awarded c = true → (u.ctx c).run = some r →
    (∀ t, (u.ctx c).ordered.find? (·.resting) = some t →
      exec (.stripDispatch c) s = .next (u.modCtx c fun x =>
        { x with strips := x.strips.map fun k => if k.stripb = t.stripb then { k with resting := false } else k
                 wants := s.now })) ∧
    ((∀ t ∈ (u.ctx c).strips, t.resting = false) →
      exec (.stripDispatch c) s = .next (u.modCtx c fun x => { x with
        strips := x.strips ++ [{ Strip.zero with stripb := r.next, pc := r.entry.start, snap := r.entry.snap
                                                 snapP := r.entry.snapP, v := x.v, m := x.m, headDue := true }]
        wants := s.now }))) ∧
  ((∀ (c : Nat) (s : State), ((s.ctx c).run = none ∨ (s.ctx c).strips ≠ [] ∨
      ∃ r, (s.ctx c).run = some r ∧ r.next < r.entry.n) → exec (.blockCommit c) s = .next s) ∧
  ∀ (c : Nat) (s : State) (r : BlockRun), (s.ctx c).run = some r → r.entry.n ≤ r.next → (s.ctx c).strips = [] →
    exec (.blockCommit c) s =
        .next ((((r.stores.foldl (fun s b => s.settleByte (coreOf c) b) s).modCtx c fun x =>
          Ctx.commit (r.stores.foldl (fun s b => s.settleByte (coreOf c) b) s).now r x).complete c r.entry.post).opEnd c) ∧
      ∀ (now : Nat) (x : Ctx), (Ctx.commit now r x).run = none ∧ (Ctx.commit now r x).fmtst = x.fmtst ||| r.flags ∧
        (r.lastB = none → (Ctx.commit now r x).v = x.v ∧ (Ctx.commit now r x).m = x.m) ∧
        ∀ b, r.lastB = some b → (Ctx.commit now r x).v = r.lastV ∧ (Ctx.commit now r x).m = r.lastM ∧
          (Ctx.commit now r x).vl = BitVec.ofNat 14 r.lastVl ∧ (Ctx.commit now r x).vtype = r.lastVtype ∧
          (Ctx.commit now r x).stripb = BitVec.ofNat 64 b)

/-- R16, R29, R169: a wait that ends lets its party issue again, a watermark that changed is read again, and a strip's reply
enters the queue once no lower strip is left and an entry is free; the instruction that pushed it is then complete. -/
def Obligations.WaitsEndAndRepliesEnter : Prop :=
  (∀ (c : Nat) (s : State), exec (.watermarkRecheck c) s =
    .next (s.modCtx c fun x => { x with run := x.run.map fun r => { r with headWait := none }, wants := s.now })) ∧
  (∀ (c : Nat) (s : State), exec (.waitResume ⟨c, .ctl⟩) s = .next (s.modCtx c fun x => { x with wait := none })) ∧
  (∀ (c b : Nat) (s : State), exec (.waitResume ⟨c, .strip b⟩) s = .next (s.modStrip c b fun t => { t with wait := none })) ∧
  (∀ (c b p : Nat) (s : State), exec (.waitResume ⟨c, .lane b p⟩) s =
    .next (s.modStrip c b fun t => { t with laneWait := t.laneWait.filter (·.1 != p) })) ∧
  ∀ (c b : Nat) (s : State) (v next : Word), (s.strip c b).wait = some (.replyRoom b v next none) →
    (s.pushReady c b = false → exec (.replyPush c b) s = .next s) ∧
    (s.pushReady c b = true → ∃ u, exec (.replyPush c b) s = .next (State.advance u) ∧ (u.ctx c).rq = (s.ctx c).rq ++ [v])

/-- R249: the integer operations write, at every active position, the result of their row on the codes of the sources, read as
signed for an i-format (`vInt`), and give the destination the tag F; a source with another tag raises cause 0x05 and a poisoned
word 0xA0 with nothing written. The bitwise ones take any tags but e2m1 (0x05) and give the common tag, or 0. -/
def Obligations.VectorIntegerWritesItsResults : Prop :=
  (∀ row ∈ ([(.vadd, fun _ n a b => (a + b) % 2 ^ n), (.vsub, fun _ n a b => (((a : Int) - b) % 2 ^ n).toNat),
      (.vmul, fun _ n a b => a * b % 2 ^ n),
      (.vmulh, fun sg n a b => (vInt sg n a * vInt sg n b / 2 ^ n % 2 ^ n).toNat),
      (.vmin, fun sg n a b => if vInt sg n a ≤ vInt sg n b then a else b),
      (.vmax, fun sg n a b => if vInt sg n a ≤ vInt sg n b then b else a),
      (.vsll, fun _ n a b => a * 2 ^ (b % n) % 2 ^ n), (.vsrl, fun _ n a b => a / 2 ^ (b % n)),
      (.vsra, fun _ n a b => (vInt true n a / 2 ^ (b % n) % 2 ^ n).toNat),
      (.vsadd, fun sg n a b => (max (loOf sg n) (min (hiOf sg n) (vInt sg n a + vInt sg n b)) % 2 ^ n).toNat),
      (.vssub, fun sg n a b => (max (loOf sg n) (min (hiOf sg n) (vInt sg n a - vInt sg n b)) % 2 ^ n).toNat),
      (.vdiv, fun sg n a b => if b = 0 then 2 ^ n - 1 else ((vInt sg n a).tdiv (vInt sg n b) % 2 ^ n).toNat),
      (.vrem, fun sg n a b => if b = 0 then a else ((vInt sg n a).tmod (vInt sg n b) % 2 ^ n).toNat)] :
      List ((Gates → FormV → Instr) × (Bool → Nat → Nat → Nat → Nat))),
    ∀ (g : Gates) (o : FormV) (s s1 s2 : State) (tag : Tag) (w gr : Nat) (srcs : List Nat), Ready (row.1 g o) s s1 →
      s1.vformat o okInt = .ok tag → w = s1.myStrip.ewB → gr = s1.myStrip.grp →
      srcs = o.va.toNat :: (if o.bs == 0 then [o.vb.toNat] else []) →
      GroupsReady (srcs.map fun v => (v, gr)) (some (o.vd.toNat, gr)) s1 s2 →
      (s2.tagsAre srcs tag = false → exec (row.1 g o) s = .next ((s2.backTo s1).dropAnswers.takeCause 0x05 0)) ∧
      (s2.tagsAre srcs tag = true → s2.myStrip.poisonedAt srcs w (s2.positions o) = true →
        exec (row.1 g o) s = .next ((s2.backTo s1).dropAnswers.takeCause 0xA0 0)) ∧
      (s2.tagsAre srcs tag = true → s2.myStrip.poisonedAt srcs w (s2.positions o) = false →
        exec (row.1 g o) s = .next (finished (row.1 g o) s1 (s2.putLanes o.vd.toNat w gr tag
          ((s2.positions o).map fun p => (p, row.2 (isSignedFmt (tagFmt tag)) (8 * w) (s2.myStrip.el o.va.toNat w p)
            ((s1.second o w).at s2.myStrip w p))) 0)))) ∧
  ∀ row ∈ ([(.vand, fun a b => a &&& b), (.vor, fun a b => a ||| b), (.vxor, fun a b => a ^^^ b)] :
      List ((Gates → FormV → Instr) × (Nat → Nat → Nat))),
    ∀ (g : Gates) (o : FormV) (s s1 s2 : State) (w gr : Nat) (srcs : List Nat) (ta tb : Tag), Ready (row.1 g o) s s1 →
      (o.fv = 1 → widthOk o.fmt.toNat w = true) → w = s1.myStrip.ewB → gr = s1.myStrip.grp →
      srcs = o.va.toNat :: (if o.bs == 0 then [o.vb.toNat] else []) →
      GroupsReady (srcs.map fun v => (v, gr)) (some (o.vd.toNat, gr)) s1 s2 →
      s2.myStrip.groupTag o.va.toNat gr = some ta → (o.bs = 0 → s2.myStrip.groupTag o.vb.toNat gr = some tb) →
      ((tagFmt ta = 15 ∨ o.bs = 0 ∧ tagFmt tb = 15) →
        exec (row.1 g o) s = .next ((s2.backTo s1).dropAnswers.takeCause 0x05 0)) ∧
      (tagFmt ta ≠ 15 → (o.bs = 0 → tagFmt tb ≠ 15) → s2.myStrip.poisonedAt srcs w (s2.positions o) = false →
      exec (row.1 g o) s = .next (finished (row.1 g o) s1 (s2.putLanes o.vd.toNat w gr
        (if o.bs = 0 ∧ tb ≠ ta then 0 else ta)
        ((s2.positions o).map fun p => (p, row.2 (s2.myStrip.el o.va.toNat w p) ((s1.second o w).at s2.myStrip w p))) 0)))

/-- R250, R251: the floating-point operations write, at every active position, the code of the result of their row on the
sources, give the destination the tag F, and OR the flags of all positions into the strip's. `farith` and `fminmax` are the
arithmetic of Sys2Proof/Machine/Numbers.lean; `vfabs` clears and `vfneg` inverts the sign bit. -/
def Obligations.VectorFloatWritesItsResults : Prop :=
  ∀ row ∈ ([(.vfadd, true, false, fun f m z a b _ => farith .add f m z a b 0),
      (.vfsub, true, false, fun f m z a b _ => farith .sub f m z a b 0),
      (.vfmul, true, false, fun f m z a b _ => farith .mul f m z a b 0),
      (.vfdiv, true, false, fun f m z a b _ => farith .div f m z a b 0),
      (.vfma, true, true, fun f m z a b c => farith .fma f m z a b c),
      (.vfms, true, true, fun f m z a b c => farith .fms f m z a b c),
      (.vfmin, true, false, fun f _ z a b _ => fminmax false f z a b),
      (.vfmax, true, false, fun f _ z a b _ => fminmax true f z a b),
      (.vfsqrt, false, false, fun f m z a _ _ => farith .sqrt f m z a 0 0),
      (.vfabs, false, false, fun f _ _ a _ _ => (a % 2 ^ ((ffmt f).e + (ffmt f).m), 0)),
      (.vfneg, false, false, fun f _ _ a _ _ => (a ^^^ 2 ^ ((ffmt f).e + (ffmt f).m), 0))] :
      List ((Gates → FormV → Instr) × Bool × Bool × (Nat → RMode → Bool → Nat → Nat → Nat → Nat × Flags))),
    ∀ (g : Gates) (o : FormV) (s s1 s2 : State) (tag : Tag) (w gr : Nat) (srcs : List Nat), Ready (row.1 g o) s s1 →
      s1.vformat o okWide = .ok tag → w = s1.myStrip.ewB → gr = s1.myStrip.grp →
      srcs = o.va.toNat :: (if row.2.1 && o.bs == 0 then [o.vb.toNat] else []) ++
        (if row.2.2.1 then [o.vc.toNat] else []) →
      GroupsReady (srcs.map fun v => (v, gr)) (some (o.vd.toNat, gr)) s1 s2 →
      (s2.tagsAre srcs tag = false → exec (row.1 g o) s = .next ((s2.backTo s1).dropAnswers.takeCause 0x05 0)) ∧
      ∀ rs : List (Nat × Nat × Flags), s2.tagsAre srcs tag = true →
        s2.myStrip.poisonedAt srcs w (s2.positions o) = false →
        rs = ((s2.positions o).map fun p => (p, row.2.2.2 (tagFmt tag) (arithMode o.rnd s1.fctlOf) (ftzOf s1.fctlOf)
          (s2.myStrip.el o.va.toNat w p) (if row.2.1 then (s1.second o w).at s2.myStrip w p else 0)
          (if row.2.2.1 then s2.myStrip.el o.vc.toNat w p else 0))) →
        exec (row.1 g o) s = .next (finished (row.1 g o) s1 (s2.putLanes o.vd.toNat w gr tag
          (rs.map fun r => (r.1, r.2.1)) (rs.foldl (fun a r => a ||| r.2.2) 0)))

/-- R253, R254: a comparison writes bit p of its mask register at every active position p, and a mask instruction writes every
position below VL, with the bit its row gives; f is the first position below VL at which mY is 1, or VL. -/
def Obligations.ComparesAndMaskInstructionsWriteMaskBits : Prop :=
  (∀ row ∈ ([(.vmseq, okInt, fun _ _ _ a b => (decide (a = b), 0)), (.vmsne, okInt, fun _ _ _ a b => (decide (a ≠ b), 0)),
      (.vmslt, okInt, fun f n _ a b => (decide (vInt (isSignedFmt f) n a < vInt (isSignedFmt f) n b), 0)),
      (.vmsle, okInt, fun f n _ a b => (decide (vInt (isSignedFmt f) n a ≤ vInt (isSignedFmt f) n b), 0)),
      (.vmsltu, okInt, fun _ _ _ a b => (decide (a < b), 0)), (.vmsleu, okInt, fun _ _ _ a b => (decide (a ≤ b), 0)),
      (.vmfeq, okWide, fun f _ z a b => fcompare .eq f z a b), (.vmflt, okWide, fun f _ z a b => fcompare .lt f z a b),
      (.vmfle, okWide, fun f _ z a b => fcompare .le f z a b)] :
      List ((Gates → FormV → Instr) × (Nat → Bool → Bool) × (Nat → Nat → Bool → Nat → Nat → Bool × Flags))),
    ∀ (g : Gates) (o : FormV) (s s1 s2 : State) (tag : Tag) (w gr : Nat) (srcs : List Nat)
        (rs : List (Nat × Bool × Flags)), Ready (row.1 g o) s s1 →
      s1.vformat o row.2.1 = .ok tag → w = s1.myStrip.ewB → gr = s1.myStrip.grp →
      srcs = o.va.toNat :: (if o.bs == 0 then [o.vb.toNat] else []) →
      GroupsReady (srcs.map fun v => (v, gr)) none s1 s2 → s2.tagsAre srcs tag = true →
      s2.myStrip.poisonedAt srcs w (s2.positions o) = false →
      rs = ((s2.positions o).map fun p => (p, row.2.2 (tagFmt tag) (8 * w) (ftzOf s1.fctlOf)
        (s2.myStrip.el o.va.toNat w p) ((s1.second o w).at s2.myStrip w p))) →
      exec (row.1 g o) s = .next (finished (row.1 g o) s1 (s2.putBits (o.vd.setWidth 4)
        (rs.map fun r => (r.1, r.2.1)) (rs.foldl (fun a r => a ||| r.2.2) 0)))) ∧
  ∀ row ∈ ([(.mand, fun _ _ y z => y && z), (.mor, fun _ _ y z => y || z), (.mxor, fun _ _ y z => y != z),
      (.mnot, fun _ _ y _ => !y), (.mmv, fun _ _ y _ => y), (.msbf, fun f p _ _ => decide (p < f)),
      (.msif, fun f p _ _ => decide (p ≤ f)), (.msof, fun f p _ _ => decide (p = f))] :
      List ((Gates → FormK → Instr) × (Nat → Nat → Bool → Bool → Bool))),
    ∀ (g : Gates) (o : FormK) (s s1 : State) (f : Nat), Ready (row.1 g o) s s1 → s1.myStrip.vstart < s1.myStrip.vl →
      (f = s1.myStrip.vl ∨ s1.myStrip.mbit o.my f = true) → f ≤ s1.myStrip.vl →
      (∀ p < f, s1.myStrip.mbit o.my p = false) →
      exec (row.1 g o) s = .next (finished (row.1 g o) s1 (s1.putBits o.mx ((List.range s1.myStrip.vl).map fun p =>
        (p, row.2 f p (s1.myStrip.mbit o.my p) (s1.myStrip.mbit o.mz p))) 0))

/-- R256 to R262: `vmv`, `vid` and `vmerge` write their value at every active position; a permutation writes each position that
its row pairs with an element of VA, or with 0; the destination takes VA's tag (`vmv`: the named format's, or the source's),
and where that is scaled the scale array is copied (`giveScales`). -/
def Obligations.MovesAndPermutationsPlaceElements : Prop :=
  (∀ (g : Gates) (o : FormV) (s s1 s2 : State) (fmt own : Tag) (w gr : Nat), Ready (.vmv g o) s s1 →
    s1.vformat o okAny = .ok fmt → w = s1.myStrip.ewB → gr = s1.myStrip.grp →
    GroupsReady (if o.bs == 0 then [(o.vb.toNat, gr)] else []) (some (o.vd.toNat, gr)) s1 s2 →
    (if o.bs == 0 then s2.myStrip.groupTag o.vb.toNat gr else some fmt) = some own →
    s2.myStrip.poisonedAt (if o.bs == 0 then [o.vb.toNat] else []) w (s2.positions o) = false →
    ∀ t, t = s2.putLanes o.vd.toNat w gr (if o.fv = 1 then fmt else own)
        ((s2.positions o).map fun p => (p, (s1.second o w).at s2.myStrip w p)) 0 →
      exec (.vmv g o) s = .next (finished (.vmv g o) s1 (if o.bs = 0
        then t.giveScales s2.myStrip.begins (if o.fv = 1 then fmt else own) o.vd.toNat o.vb.toNat gr else t))) ∧
  (∀ (g : Gates) (o : FormV) (s s1 s2 : State) (tag : Tag) (w gr : Nat), Ready (.vid g o) s s1 →
    s1.vformat o okInt = .ok tag → w = s1.myStrip.ewB → gr = s1.myStrip.grp →
    GroupsReady [] (some (o.vd.toNat, gr)) s1 s2 →
    exec (.vid g o) s = .next (finished (.vid g o) s1 (s2.putLanes o.vd.toNat w gr tag
      ((s2.positions o).map fun p => (p, (s2.myStrip.stripb + p) % 2 ^ (8 * w))) 0))) ∧
  (∀ (g : Gates) (o : FormV) (s s1 s2 : State) (fmt tag : Tag) (w gr : Nat) (srcs : List Nat), Ready (.vmerge g o) s s1 →
    s1.vformat o okAny = .ok fmt → w = s1.myStrip.ewB → gr = s1.myStrip.grp →
    srcs = o.va.toNat :: (if o.bs == 0 then [o.vb.toNat] else []) →
    GroupsReady (srcs.map fun v => (v, gr)) (some (o.vd.toNat, gr)) s1 s2 →
    s2.myStrip.groupTag o.va.toNat gr = some tag → (o.bs = 0 → s2.tagsAre [o.vb.toNat] tag = true) →
    s2.myStrip.poisonedAt srcs.tail w ((s2.myStrip.active 0 0).filter fun p => s2.myStrip.mbit o.mreg p) = false →
    s2.myStrip.poisonedAt [o.va.toNat] w ((s2.myStrip.active 0 0).filter fun p => !s2.myStrip.mbit o.mreg p) = false →
    exec (.vmerge g o) s = .next (finished (.vmerge g o) s1 ((s2.putLanes o.vd.toNat w gr tag
      ((s2.myStrip.active 0 0).map fun p => (p, if s2.myStrip.mbit o.mreg p then (s1.second o w).at s2.myStrip w p
        else s2.myStrip.el o.va.toNat w p)) 0).giveScales s2.myStrip.begins tag o.vd.toNat o.va.toNat gr))) ∧
  ∀ row ∈ ([(.vcompress, false, fun _ _ sel _ => (List.range sel.length).zip (sel.map some)),
      (.vexpand, false, fun _ _ sel _ => sel.zip ((List.range sel.length).map some)),
      (.vslideup, false, fun n _ sel _ => (sel.filter fun p => n ≤ p).map fun p => (p, some (p - n))),
      (.vslidedn, false, fun n vl sel _ => sel.map fun p => (p, if p + n < vl then some (p + n) else none)),
      (.vgather, true, fun _ vl sel ix => sel.map fun p => (p, if ix p < vl then some (ix p) else none))] :
      List ((Gates → FormV → Instr) × Bool × (Nat → Nat → List Nat → (Nat → Nat) → List (Nat × Option Nat)))),
    ∀ (g : Gates) (o : FormV) (s s1 s2 : State) (fmt tag : Tag) (w gr : Nat) (sel : List Nat)
        (ms : List (Nat × Option Nat)), Ready (row.1 g o) s s1 →
      s1.vformat o okAny = .ok fmt → w = s1.myStrip.ewB → gr = s1.myStrip.grp →
      GroupsReady ((o.va.toNat :: if row.2.1 then [o.vb.toNat] else []).map fun v => (v, gr)) (some (o.vd.toNat, gr))
        s1 s2 →
      s2.myStrip.groupTag o.va.toNat gr = some tag →
      (row.2.1 = true → ∃ i, s2.myStrip.groupTag o.vb.toNat gr = some i ∧ isIntFmt i.toNat = true ∧
        fmtBits i.toNat = 8 * w) →
      sel = (if s2.myStrip.vl ≤ s2.myStrip.vstart then [] else (List.range s2.myStrip.vl).filter fun p =>
        (o.msk == 0 || s2.myStrip.mbit o.mreg p) && !s2.myStrip.isDetached p) →
      ms = row.2.2 (if o.im = 1 then o.sb.toNat else (s2.snapS o.sb).toNat) s2.myStrip.vl sel
        (fun p => s2.myStrip.el o.vb.toNat s2.myStrip.ewB p) →
      (∀ m ∈ ms, ∀ i, m.2 = some i → s2.myStrip.elBad o.va.toNat w i = false) →
      (row.2.1 = true → s2.myStrip.poisonedAt [o.vb.toNat] w sel = false) →
      exec (row.1 g o) s = .next (finished (row.1 g o) s1 ((s2.putLanes o.vd.toNat w gr tag
        (ms.map fun m => (m.1, match m.2 with | some i => s2.myStrip.el o.va.toNat w i | none => 0)) 0).giveScales
          s2.myStrip.begins tag o.vd.toNat o.va.toNat gr))

/-- R263: a reduction writes position 0 with its row's result on the initial value, bits w − 1 : 0 of SB, and the active
elements in order; a VSTART at or above VL writes nothing, and a detached lane 0 keeps its element. `redOrdered` and `redTree`
are the two sums of R90. R235, R264 to R266: `vcvt`, `vunpk` and `vpilgrim` write the converted code at every active position;
the stream of stochastic rounding is Pilgrim on SEED, the stream operand and STRIPB + p. A pair that R85 does not convert, and
e2m1, raise 0x05. -/
def Obligations.ReductionsAndConversionsWriteTheirResults : Prop :=
  (∀ row ∈ ([(.vredsum, okInt, fun _ n _ _ init xs => ((init + (xs.map (·.2)).sum) % 2 ^ n, 0)),
      (.vredmin, okIntWide, redMinMax false), (.vredmax, okIntWide, redMinMax true),
      (.vfredo, okWide, redOrdered), (.vfredt, okWide, redTree)] :
      List ((Gates → FormV → Instr) × (Nat → Bool → Bool) ×
        (Nat → Nat → RMode → Bool → Nat → List (Nat × Nat) → Nat × Flags))),
    ∀ (g : Gates) (o : FormV) (s s1 s2 : State) (tag : Tag) (w gr : Nat) (ps : List Nat) (r : Nat × Flags),
      Ready (row.1 g o) s s1 → s1.vformat o row.2.1 = .ok tag → w = s1.myStrip.ewB → gr = s1.myStrip.grp →
      GroupsReady [(o.va.toNat, gr)] (some (o.vd.toNat, gr)) s1 s2 → s2.tagsAre [o.va.toNat] tag = true →
      ps = s2.myStrip.wideActive o.msk o.mreg → s2.myStrip.poisonedAt [o.va.toNat] w ps = false →
      r = row.2.2 (tagFmt tag) (8 * w) (arithMode o.rnd s1.fctlOf) (ftzOf s1.fctlOf)
        ((s1.snapS o.sb).toNat % 2 ^ (8 * w)) (ps.map fun p => (p, s2.myStrip.el o.va.toNat w p)) →
      exec (row.1 g o) s = .next (finished (row.1 g o) s1 (if s2.myStrip.begins
        then s2.putLanes o.vd.toNat w gr tag [(0, r.1)] r.2 else s2.putLanes o.vd.toNat w gr tag [] 0))) ∧
  ((∀ (g : Gates) (o : FormV) (s s1 s2 : State) (src d : Tag) (ws wd gs gd : Nat) (ps : List Nat),
    Ready (.vcvt g o) s s1 → s1.takeGroups [o.va.toNat] = .ok ⟨⟩ s2 → src = (s2.myStrip.reg o.va.toNat).tag →
    d = o.sc ++ o.fmt →
    (convertible (tagFmt src) (tagFmt d) = false ∨ tagFmt src = 15 ∨ tagFmt d = 15 →
      exec (.vcvt g o) s = .next ((s2.backTo s1).dropAnswers.takeCause 0x05 0)) ∧
    (convertible (tagFmt src) (tagFmt d) = true → tagFmt src ≠ 15 → tagFmt d ≠ 15 →
      ws = fmtBits (tagFmt src) / 8 → wd = fmtBits (tagFmt d) / 8 → s2.myStrip.region = none ∨ ws = wd →
      max ws wd = s2.myStrip.ewB → gs = max 1 (s2.myStrip.grp * ws / s2.myStrip.ewB) →
      gd = max 1 (s2.myStrip.grp * wd / s2.myStrip.ewB) → o.vd.toNat % gd = 0 → o.va.toNat % gs = 0 →
      s2.myCtx.groupBound s2.myStrip.stripb o.vd.toNat gd = false → s2.myStrip.groupTag o.va.toNat gs = some src →
      ps = (if ws = wd then s2.positions o else s2.myStrip.wideActive o.msk o.mreg) →
      s2.myStrip.poisonedAt [o.va.toNat] ws ps = false →
      ∀ rs : List (Nat × Nat × Flags), rs = (ps.map fun p => (p, convert (tagFmt src)
          (if tagScaled src then some (s2.myStrip.scaleAt o.va.toNat ws p) else none) (tagFmt d)
          (if tagScaled d then some (s2.myStrip.scaleAt o.vd.toNat wd p) else none) (effMode o.rnd s2.fctlOf)
          (pilgrim s2.seedOf (if o.im = 1 then o.sb.signExtend 32 else (s2.snapS o.sb).setWidth 32)
            (BitVec.ofNat 32 (s2.myStrip.stripb + p))).toNat
          (effSat o.satm s2.fctlOf) (ftzOf s2.fctlOf) (s2.myStrip.el o.va.toNat ws p))) →
        exec (.vcvt g o) s = .next (finished (.vcvt g o) s1 (s2.putLanes o.vd.toNat wd gd d
          (rs.map fun r => (r.1, r.2.1)) (rs.foldl (fun a r => a ||| r.2.2) 0))))) ∧
  (∀ (g : Gates) (o : FormV) (s s1 s2 : State) (d src tag : Tag) (wd gd gs : Nat) (ps : List Nat)
      (rs : List (Nat × Nat × Flags)), Ready (.vunpk g o) s s1 → s1.vformat o okUnpack = .ok d → wd = s1.myStrip.ewB →
    gd = s1.myStrip.grp → gs = max 1 (gd / wd) →
    GroupsReady [(o.va.toNat, gs)] (some (o.vd.toNat, gd)) s1 s2 → tagFmt src = 15 →
    s2.myStrip.groupTag o.va.toNat gs = some src → ps = s2.myStrip.wideActive o.msk o.mreg →
    s2.myStrip.poisonedAt [o.va.toNat] 1 ps = false →
    tag = (if tagFmt d = 11 ∧ tagScaled src = true then d ||| 32 else d) →
    rs = (ps.map fun p => (p, convert 15
      (if tagScaled src && tagFmt d != 11 then some (s2.myStrip.scaleAt o.va.toNat 1 p) else none) (tagFmt d) none
      (effMode o.rnd s2.fctlOf) 0 (effSat o.satm s2.fctlOf) (ftzOf s2.fctlOf && tagFmt d != 11)
      (s2.myStrip.el o.va.toNat 1 p / (if o.sb = 0 then 1 else 16) % 16))) →
    exec (.vunpk g o) s = .next (finished (.vunpk g o) s1 ((s2.putLanes o.vd.toNat wd gd tag
      (rs.map fun r => (r.1, r.2.1)) (rs.foldl (fun a r => a ||| r.2.2) 0)).giveScales s2.myStrip.begins tag o.vd.toNat
        o.va.toNat gs))) ∧
  ∀ (g : Gates) (o : FormV) (s s1 s2 : State) (tag : Tag) (gr : Nat), Ready (.vpilgrim g o) s s1 →
    s1.vformat o okN32 = .ok tag → gr = s1.myStrip.grp → GroupsReady [] (some (o.vd.toNat, gr)) s1 s2 →
    exec (.vpilgrim g o) s = .next (finished (.vpilgrim g o) s1 (s2.putLanes o.vd.toNat 4 gr tag
      ((s2.positions o).map fun p => (p, (pilgrim s2.seedOf
        (if o.im = 1 then o.sb.signExtend 32 else (s2.snapS o.sb).setWidth 32)
        (BitVec.ofNat 32 (s2.myStrip.stripb + p))).toNat)) 0)))

/-- R28, R30, R72, R267 to R271: outside a serial region `vqpop` begins one at VSTART with the value its first lane receives,
and within one at its own address it begins the next lane; `vqpush` outside a region, `vqpop` at another address in one, and
both between `vdetach` and `vrejoin` raise 0x10, and e2m1 raises 0x05; `vqpush` ends its lane with the lane's element, or
passes on what the lane received where it is inactive; `vdetach` detaches the active lanes, each at its element of VA added to
SB. In a region a post is made once, when its instruction completes for the last lane (`lanePost`). -/
def Obligations.CrossLaneQueueAndDetach : Prop :=
  (∀ (s : State) (g : Gates) (lane : Nat), s.lanePost g lane =
    if lane + 1 < s.myStrip.vl ∨ s.cur.pc ∈ s.myStrip.posted then none else g.post) ∧
  (∀ (g : Gates) (o : FormV) (s s1 s2 : State) (k : Option Ticket) (tag : Tag) (v : Word),
    formCause (.vqpop g o) false s.cur.party.place = none → s.myRegion = none → s.waitGate g = .ok ⟨⟩ s1 →
    k = (s1.lanePost g s1.myStrip.vstart).map s1.ticketFor →
    (∀ p, s1.lanePost g s1.myStrip.vstart = some p → (s1.myCtx.timeline p.tl).p + 1 < 2 ^ 64 ∧ s1.myCtx.imprecise = []) →
    (s1.myStrip.detached ≠ 0 → exec (.vqpop g o) s = .next (s1.dropAnswers.takeCause 0x10 0)) ∧
    (s1.myStrip.detached = 0 → s1.vformat o okAny = .ok tag → tagFmt tag = 15 →
      exec (.vqpop g o) s = .next (s1.dropAnswers.takeCause 0x05 0)) ∧
    (s1.myStrip.detached = 0 → s1.vformat o okAny = .ok tag → tagFmt tag ≠ 15 →
      GroupsReady [] (some (o.vd.toNat, s1.myStrip.grp)) s1 s2 →
      (s2.myStrip.recv = some v ∨ s2.myStrip.recv = none ∧ s2.firstValue o = .ok v s2) →
      ∀ (t : State), t = (s2.modMyStrip fun t => { t with
          region := some ⟨s2.cur.pc, t.vstart, v, t.vl ≤ t.vstart, t.v, t.m, t.snap, t.snapP, t.flags, [s2.cur.pc]⟩
          recv := none }) →
        exec (.vqpop g o) s = .next (finishedBy k (t.putLanes o.vd.toNat t.myStrip.ewB t.myStrip.grp tag
          ((t.positions o).map fun p => (p, ((t.myStrip.region.map Region.recv).getD 0).toNat % 2 ^ (8 * t.myStrip.ewB)))
            0)))) ∧
  (∀ (g : Gates) (o : FormV) (s : State) (r : Region), formCause (.vqpop g o) false s.cur.party.place = none →
    s.myRegion = some r →
    (r.pop ≠ s.cur.pc → exec (.vqpop g o) s = .next (s.dropAnswers.takeCause 0x10 0)) ∧
    ∀ tag, r.pop = s.cur.pc → s.myStrip.detached = 0 → s.vformat o okAny = .ok tag → tagFmt tag ≠ 15 →
      (∀ p, s.duePost g = some p → (s.myCtx.timeline p.tl).p + 1 < 2 ^ 64 ∧ s.myCtx.imprecise = []) →
      GroupsReady [] (some (o.vd.toNat, s.myStrip.grp)) s s → s.myStrip.region = some r →
      exec (.vqpop g o) s = .next (finished (.vqpop g o) s (s.putLanes o.vd.toNat s.myStrip.ewB s.myStrip.grp tag
        ((s.positions o).map fun p => (p, r.recv.toNat % 2 ^ (8 * s.myStrip.ewB))) 0))) ∧
  (∀ (g : Gates) (o : FormV) (s s1 : State), Ready (.vqpush g o) s s1 →
    (s1.myRegion = none → exec (.vqpush g o) s = .next (s1.dropAnswers.takeCause 0x10 0)) ∧
    ∀ (r : Region) (s2 : State) (tag : Tag) (v : Word), s1.myRegion = some r →
      GroupsReady [(o.va.toNat, s1.myStrip.grp)] none s1 s2 → s2.myStrip.region = some r →
      s2.myStrip.groupTag o.va.toNat s1.myStrip.grp = some tag →
      (tagFmt tag = 15 → exec (.vqpush g o) s = .next ((s2.backTo s1).dropAnswers.takeCause 0x05 0)) ∧
      (tagFmt tag ≠ 15 → s2.myStrip.poisonedAt [o.va.toNat] s1.myStrip.ewB (s2.positions o) = false →
      v = (if s2.positions o = [] then r.recv
        else BitVec.ofNat 64 (s2.myStrip.el o.va.toNat s1.myStrip.ewB r.lane)) →
      (r.lane + 1 < s2.myStrip.vl → exec (.vqpush g o) s = .next (finished (.vqpush g o) s1
        (State.refetch ((s2.modMyStrip fun t => { t with region := some { r with
          lane := r.lane + 1, recv := v, inactive := false, undoV := t.v, undoM := t.m
          undoS := t.snap, undoP := t.snapP, undoFlags := t.flags } }).withNext r.pop)))) ∧
      (s2.myStrip.vl ≤ r.lane + 1 →
        exec (.vqpush g o) s = .next (finished (.vqpush g o) s1 ((s2.modCtx s2.me fun x =>
          { x with run := x.run.map (BlockRun.pushCarry (s2.myStrip.stripb + s2.myStrip.vl) v) }).modMyStrip fun t =>
            { t with region := none, pops := t.pops + 1, pushes := t.pushes + 1, vstart := 0, recv := none
                     posted := [] }))))) ∧
  ∀ (g : Gates) (o : FormV) (s s1 s2 : State) (tag : Tag), Ready (.vdetach g o) s s1 →
    GroupsReady [(o.va.toNat, s1.myStrip.grp)] none s1 s2 →
    s2.myStrip.groupTag o.va.toNat s1.myStrip.grp = some tag → isIntFmt tag.toNat = true →
    (s2.myStrip.detached ≠ 0 → exec (.vdetach g o) s = .next ((s2.backTo s1).dropAnswers.takeCause 0x10 0)) ∧
    (s2.myStrip.detached = 0 → s2.myStrip.poisonedAt [o.va.toNat] s1.myStrip.ewB (s2.positions o) = false →
      exec (.vdetach g o) s = .next (finished (.vdetach g o) s1 (s2.modMyStrip fun t => { t with
        detached := BitVec.ofNat 8192 ((s2.positions o).foldl (fun m p => m + 2 ^ p) 0)
        lanePcs := (s2.positions o).map fun p => (p, s2.snapS o.sb +
          BitVec.ofNat 64 (s2.myStrip.el o.va.toNat s1.myStrip.ewB p))
        laneLast := t.vl, laneWait := [], vstart := 0 })))

/-- R51, R53, R58, R234: what a write of vector elements and of mask bits leaves: the elements named, each once, hold the low
bits of their values, every other element its value; the tag is the one given; a mask's other bits are unchanged. R232, R233:
the format of an operation is the named one, or VTYPE.FMT, which raises 0x05 where the operation does not accept it; its width
must be the element width, or 0x0F is raised; the second source is an element of VB, the immediate sign-extended to w bits, or
the low w bits of SB in the block's snapshot. -/
def Obligations.ElementsFormatsAndSources : Prop :=
  ((∀ (r : VReg) (w i j x : Nat), w ∈ [1, 2, 4, 8] → (i + 1) * w ≤ 1024 → (j + 1) * w ≤ 1024 →
    (r.put w i x).get w j = (if j = i then x % 2 ^ (8 * w) else r.get w j) ∧ (r.put w i x).tag = r.tag ∧
      (r.put w i x).scale = r.scale) ∧
  (∀ (t : Strip) (first w p q x : Nat), w ∈ [1, 2, 4, 8] → first + p * w / 1024 < 32 →
    (t.putEl first w p x).el first w q = (if q = p then x % 2 ^ (8 * w) else t.el first w q)) ∧
  (∀ (t : Strip) (first g : Nat) (tag : Tag) (k : Nat), k < 32 →
    ((t.tagGroup first g tag).reg k).tag = (if first ≤ k ∧ k < first + g then tag else (t.reg k).tag) ∧
      ((t.tagGroup first g tag).reg k).bytes = (t.reg k).bytes) ∧
  ∀ (t : Strip) (k : MNum) (p q : Nat) (b : Bool), p < 8192 →
    (t.putMask k [(p, b)]).mbit k q = if q = p then b else t.mbit k q) ∧
  ((∀ (s : State) (o : FormV) (ok : Nat → Bool → Bool), s.vformat o ok =
    (if o.fv = 0 ∧ ok (s.myStrip.vtype.toNat / 16 % 32) (s.myStrip.vtype.toNat / 512 % 2 == 1) = false then .error 0x05
     else if (if o.fv = 1 then o.fmt.toNat else s.myStrip.vtype.toNat / 16 % 32) ∈ [0, 24, 25, 26] ∨
       fmtBits (if o.fv = 1 then o.fmt.toNat else s.myStrip.vtype.toNat / 16 % 32) =
         8 * 2 ^ (s.myStrip.vtype.toNat % 4)
     then .ok (BitVec.ofNat 6 (if o.fv = 1 then o.sc.toNat * 32 + o.fmt.toNat else s.myStrip.vtype.toNat / 16))
     else .error 0x0F)) ∧
  ∀ (s : State) (o : FormV) (t : Strip) (w p : Nat), w ∈ [1, 2, 4, 8] →
    (o.bs = 0 → (s.second o w).at t w p = t.el o.vb.toNat w p) ∧
    (o.bs = 1 → o.im = 1 → (s.second o w).at t w p = (o.sb.toInt % 2 ^ (8 * w)).toNat) ∧
    (o.bs = 1 → o.im = 0 → o.sb ≠ 0 → (s.second o w).at t w p =
      (s.myStrip.snap[o.sb.toNat]?.getD 0).toNat % 2 ^ (8 * w)) ∧
    (o.bs = 1 → o.im = 0 → o.sb = 0 → (s.second o w).at t w p = 0))

/-- What a vector instruction on registers leaves as it was, with no gate, in a strip, and no stream bound or parked in the
context, VL and a serial region's lane within their bounds: either it takes a cause, or all of memory, every other context, the
scalar and control registers of its own, every other strip, and of its own strip every vector register outside the destination
group, every mask register but a destination mask, VL, VTYPE, STRIPB, the snapshot and the loop counters are unchanged, and the
strip goes on at the next address. -/
def Obligations.VectorRegisterInstructionsFrame : Prop :=
  ∀ (i : Instr) (first len mask b : Nat) (s t : State),
    ((∃ m ∈ ([.vadd, .vsub, .vmul, .vmulh, .vmin, .vmax, .vand, .vor, .vxor, .vsll, .vsrl, .vsra, .vsadd, .vssub, .vdiv,
        .vrem, .vfadd, .vfsub, .vfmul, .vfdiv, .vfma, .vfms, .vfmin, .vfmax, .vfsqrt, .vfabs, .vfneg, .vmv, .vid,
        .vcompress, .vexpand, .vslideup, .vslidedn, .vgather, .vmerge, .vredsum, .vfredo, .vfredt, .vredmin, .vredmax,
        .vpilgrim, .vunpk] : List (Gates → FormV → Instr)), ∃ o, i = m Gates.none o ∧ first = o.vd.toNat ∧
          len = s.myStrip.grp ∧ mask = 16) ∨
      (∃ m ∈ ([.vmseq, .vmsne, .vmslt, .vmsle, .vmsltu, .vmsleu, .vmfeq, .vmflt, .vmfle] :
        List (Gates → FormV → Instr)), ∃ o, i = m Gates.none o ∧ len = 0 ∧ mask = o.vd.toNat % 16) ∨
      (∃ m ∈ ([.mand, .mor, .mxor, .mnot, .mmv, .msbf, .msif, .msof] : List (Gates → FormK → Instr)), ∃ o,
        i = m Gates.none o ∧ len = 0 ∧ mask = o.mx.toNat)) →
    Ready i s s → s.cur.party.place = .strip b → (∃ u ∈ s.myCtx.strips, u.stripb = b) → s.myCtx.streams = [] →
    s.myStrip.vl ≤ vlmax s.myStrip.vtype → (∀ r, s.myStrip.region = some r → r.lane < s.myStrip.vl) →
    exec i s = .next t →
    (∃ c, t = s.dropAnswers.takeCause c 0 ∨ t = (s.backTo s).dropAnswers.takeCause c 0) ∨
    (t.mem = s.mem ∧ t.bind = s.bind ∧ t.jobs = s.jobs ∧ t.counters = s.counters ∧ t.keys = s.keys ∧ t.cores = s.cores ∧
      t.clusters = s.clusters ∧ t.dies = s.dies ∧ t.chip = s.chip ∧ (∀ c, c ≠ s.me → t.ctx c = s.ctx c) ∧
      (t.ctx s.me).s = s.myCtx.s ∧ (t.ctx s.me).fmtst = s.myCtx.fmtst ∧ (t.ctx s.me).fctl = s.myCtx.fctl ∧
      (t.ctx s.me).seed = s.myCtx.seed ∧ (t.ctx s.me).tsh = s.myCtx.tsh ∧ (t.ctx s.me).tl = s.myCtx.tl ∧
      (t.ctx s.me).pc = s.myCtx.pc ∧ (t.ctx s.me).v = s.myCtx.v ∧ (t.ctx s.me).m = s.myCtx.m ∧
      (t.ctx s.me).t = s.myCtx.t ∧ (t.ctx s.me).rq = s.myCtx.rq ∧ (t.ctx s.me).cause = s.myCtx.cause ∧
      (t.ctx s.me).epc = s.myCtx.epc ∧ (t.ctx s.me).tval = s.myCtx.tval ∧ (t.ctx s.me).queue = s.myCtx.queue ∧
      (t.ctx s.me).run = s.myCtx.run ∧ (∀ d, d ≠ b → t.strip s.me d = s.strip s.me d) ∧
      (∀ k, ¬ (first ≤ k ∧ k < first + len) → (t.strip s.me b).reg k = s.myStrip.reg k) ∧
      (∀ k, k < 16 → k ≠ mask → (t.strip s.me b).m[k]? = s.myStrip.m[k]?) ∧
      (t.strip s.me b).vl = s.myStrip.vl ∧ (t.strip s.me b).vtype = s.myStrip.vtype ∧
      (t.strip s.me b).stripb = s.myStrip.stripb ∧ (t.strip s.me b).snap = s.myStrip.snap ∧
      (t.strip s.me b).lpc = s.myStrip.lpc ∧ (t.strip s.me b).pc = s.cur.next)

/-- R277, R283: a scalar load writes the element at Read(SY) + OFF to SX, sign-extended for `lb` and `lw`, zero-extended for
`lbu` and `lwu`, and a scalar store stores the low bits of SX there, in a lane as its lane's (R26); a cause of the access is
the instruction's. R93 to R95, R103, R105, R277: the causes of an access before it is performed, in their order: a misaligned
address 0x22; one at or above 2^57, on no page, or outside what is populated 0x20; a page that refuses the access its cause;
column orientation on a page without it 0x23; a scope of its own or of a gate that its space does not admit 0x25 (a scratchpad
admits scope 1). -/
def Obligations.ScalarAccessesAndTheirCauses : Prop :=
  ((∀ row ∈ ([(.lb, 1, true), (.lbu, 1, false), (.lw, 4, true), (.lwu, 4, false), (.ld, 8, false)] :
      List ((Gates → FormS → Instr) × Nat × Bool)),
    ∀ (g : Gates) (o : FormS) (s s1 s2 s3 s4 : State) (b : Word) (e : Elem), Ready (row.1 g o) s s1 →
      s1.rdS o.sy = .ok b s2 → s2.dstReady o.sx = .ok ⟨⟩ s3 → s3.ordBefore o.ord = .ok ⟨⟩ s4 →
      e = ⟨b + o.off.signExtend 64, row.2.1, .load, false, row.2.1, o.pol, if o.ord = 0 then [] else [o.scp.toNat], g.scopes⟩ →
      (∀ v s5, s4.readElem s4.me e = .ok v s5 →
        exec (row.1 g o) s = .next (finished (row.1 g o) s1 ((s5.setS o.sx (if row.2.2
          then BitVec.ofInt 64 (if v < 2 ^ (8 * row.2.1 - 1) then v else (v : Int) - 2 ^ (8 * row.2.1))
          else BitVec.ofNat 64 v)).ordAfter o.ord o.scp))) ∧
      ∀ c a s5, s4.readElem s4.me e = .trap c a s5 → exec (row.1 g o) s = .next (s5.dropAnswers.takeCause c a)) ∧
  ∀ row ∈ ([(.sb, 1), (.sw, 4), (.sd, 8)] : List ((Gates → FormS → Instr) × Nat)),
    ∀ (g : Gates) (o : FormS) (s s1 s2 s3 s4 : State) (b v : Word) (e : Elem) (r : R PUnit), Ready (row.1 g o) s s1 →
      s1.rdS o.sy = .ok b s2 → s2.rdS o.sx = .ok v s3 → s3.ordBefore o.ord = .ok ⟨⟩ s4 →
      e = ⟨b + o.off.signExtend 64, row.2, .store, false, row.2, o.pol, if o.ord = 0 then [] else [o.scp.toNat], g.scopes⟩ →
      r = (match s4.cur.party.place with
        | .lane _ p => s4.laneStore p e (v.toNat % 2 ^ (8 * row.2))
        | _ => s4.writeElem s4.me e (v.toNat % 2 ^ (8 * row.2))) →
      (∀ s5, r = .ok ⟨⟩ s5 → exec (row.1 g o) s = .next (finished (row.1 g o) s1 s5)) ∧
      ∀ c a s5, r = .trap c a s5 → exec (row.1 g o) s = .next (s5.dropAnswers.takeCause c a)) ∧
  (∀ (s : State) (c : Nat) (e : Elem),
    (e.va.toNat % e.n ≠ 0 → s.locate c e = .trap 0x22 e.va s) ∧
    (e.va.toNat % e.n = 0 → 2 ^ 57 ≤ e.va.toNat → s.locate c e = .trap 0x20 e.va s) ∧
    (e.va.toNat % e.n = 0 → e.va.toNat < Config.spWindow → ∀ k s1,
      s.pageOf c e.va.toNat (e.kind == .fetch) = .ok (none, k) s1 → s.locate c e = .trap k e.va s1) ∧
    (∀ (p : Page) (k : Code) (s1 : State), e.va.toNat % e.n = 0 → e.va.toNat < Config.spWindow →
      s.pageOf c e.va.toNat (e.kind == .fetch) = .ok (some p, k) s1 →
      (p.space ≠ 2 → unpopulated (p.paddr s1 e.va.toNat) = true → s.locate c e = .trap 0x20 e.va s1) ∧
      (p.space = 2 ∨ unpopulated (p.paddr s1 e.va.toNat) = false →
        (∀ r, p.refuses s1 c e.kind = some r → s.locate c e = .trap r e.va s1) ∧
        (p.refuses s1 c e.kind = none → e.col = true → p.ow = 0 ∨ p.ow ≠ e.ew → s.locate c e = .trap 0x23 e.va s1) ∧
        (p.refuses s1 c e.kind = none → e.col = false ∨ p.ow ≠ 0 ∧ p.ow = e.ew →
          ((∃ x ∈ e.scopes ++ e.gates, (if p.space = 0 then 4 else if p.space = 1 then 5 else 6) < x) →
            s.locate c e = .trap 0x25 e.va s1) ∧
          ((∀ x ∈ e.scopes ++ e.gates, x ≤ if p.space = 0 then 4 else if p.space = 1 then 5 else 6) →
            s.locate c e = .ok (.phys (p.paddr s1 e.va.toNat) p.ow) s1)))) ∧
    ∀ (n : Nat), e.va.toNat % e.n = 0 → Config.spWindow ≤ e.va.toNat → e.va.toNat < 2 ^ 57 →
      n = (e.va.toNat - Config.spWindow) / 4096 →
      (slotSpLen (s.slot c) ≤ n → s.locate c e = .trap 0x20 e.va s) ∧
      ∀ (p : Page) (k : Code) (s1 : State) (pa : Nat), n < slotSpLen (s.slot c) →
        s.pageOf c (slotSpBase (s.slot c) + n * 4096) false = .ok (some p, k) s1 →
        pa = p.paddr s1 (slotSpBase (s.slot c) + n * 4096) → p.space = 0 →
        (unpopulated pa = true → s.locate c e = .trap 0x20 e.va s1) ∧
        (unpopulated pa = false → p.masked s1 c e.kind = true → s.locate c e = .trap 0x21 e.va s1) ∧
        (unpopulated pa = false → p.masked s1 c e.kind = false → e.col = true → p.ow = 0 ∨ p.ow ≠ e.ew →
          s.locate c e = .trap 0x23 e.va s1) ∧
        (unpopulated pa = false → p.masked s1 c e.kind = false → e.col = false ∨ p.ow ≠ 0 ∧ p.ow = e.ew →
          ((∃ x ∈ e.scopes ++ e.gates, 1 < x) → s.locate c e = .trap 0x25 e.va s1) ∧
          ((∀ x ∈ e.scopes ++ e.gates, x ≤ 1) → s.locate c e = .ok (.pad n (e.va.toNat % 4096) pa p.ow) s1)))

/-- R97, R126, R134: a store to a word of this device's DRAM, under every policy and orientation, leaves its value in the bytes
of the element, every byte of memory outside them as it was, and every context, job, key and counter, and of a cluster all but
its snoop filter. R126, R145: a tracked load (policies WB and WT) of a word of this device's DRAM returns the current bytes,
and a load under any policy leaves all of memory and every context, job, key and counter as it was, and of a cluster all but
its snoop filter. -/
def Obligations.LoadsAndStoresTouchOnlyTheirBytes : Prop :=
  (∀ (s s1 t : State) (c x pa ow : Nat) (e : Elem), Memory.wf s.mem = true → e.n ∈ [1, 2, 4, 8] → pa % e.n = 0 →
    s.locate c e = .ok (.phys pa ow) s1 → s1.owns pa = true → s.writeElem c e x = .ok ⟨⟩ t →
    Memory.readN t.mem pa e.n = x % 2 ^ (8 * e.n) ∧
    (∀ a, (a < pa ∨ pa + e.n ≤ a) → Memory.read t.mem a = Memory.read s.mem a) ∧ Memory.wf t.mem = true ∧
    t.ctxs = s.ctxs ∧ t.bind = s.bind ∧ t.jobs = s.jobs ∧ t.keys = s.keys ∧ t.counters = s.counters ∧
    ∀ k, { t.cluster k with filter := [] } = { s.cluster k with filter := [] }) ∧
  (∀ (s s1 t : State) (c v pa ow : Nat) (e : Elem), e.n ∈ [1, 2, 4, 8] → pa % e.n = 0 → e.col = false →
    s.locate c e = .ok (.phys pa ow) s1 → s1.owns pa = true → s.readElem c e = .ok v t →
    t.mem = s.mem ∧ t.ctxs = s.ctxs ∧ t.bind = s.bind ∧ t.jobs = s.jobs ∧ t.keys = s.keys ∧ t.counters = s.counters ∧
    (∀ k, { t.cluster k with filter := [] } = { s.cluster k with filter := [] }) ∧ t.chip = s.chip ∧ (e.pol = 0 ∨ e.pol = 3 → v = Memory.readN s.mem pa e.n))

/-- R26, R275 to R280: a vector load writes the element at A(p) to each active position and gives the destination its tag; the
scale byte of a slot of a scaled `vld` comes with its first active position. A vector store stores each active position, as its
lane's. They go position by position (`overPositions`), on the addresses and data that stand at issue. `vldff` stops before a
position past its first that faults with 0x20 or 0x21, and marks the positions loaded in its mask. -/
def Obligations.VectorLoadsAndStores : Prop :=
  (∀ row ∈ ([(.vld, .unit, true), (.vlds, .strided, false), (.vldx, .indexed, false)] :
      List ((Gates → FormM → Instr) × AddrMode × Bool)),
    ∀ (g : Gates) (o : FormM) (s s1 s2 s3 s4 : State) (tag : Tag) (ps : List Nat) (t : Strip), Ready (row.1 g o) s s1 →
      AccessReady o row.2.1 false row.2.2 tag s1 s2 → t = s2.myStrip → ps = t.active o.msk o.mreg →
      (tagScaled tag = true → ps = [] ∨ t.stripb % 32 = 0) → s2.ordBefore o.ord = .ok ⟨⟩ s3 →
      (State.overPositions ps s3 fun p s => State.loadAt g o row.2.1 tag t ps p s) = .ok ⟨⟩ s4 →
      exec (row.1 g o) s = .next (finished (row.1 g o) s1
        ((s4.ordAfter o.ord o.scp).completed (some (o.vd.toNat, t.grp, tag))))) ∧
  (∀ (g : Gates) (o : FormM) (m : AddrMode) (tag : Tag) (t : Strip) (ps : List Nat) (p v : Nat) (s s1 : State),
    s.readElem s.me (memElem o m (tagFmt tag) g.scopes (t.vaddr o m p) t.ewB .load) = .ok v s1 →
    ((tagScaled tag = false ∨ ps.find? (fun q => q / 32 == p / 32) ≠ some p) →
      State.loadAt g o m tag t ps p s = .ok ⟨⟩ (s1.loaded o.vd.toNat t.ewB t.grp tag p v)) ∧
    ∀ x s2, tagScaled tag = true → ps.find? (fun q => q / 32 == p / 32) = some p →
      s1.readElem s1.me ⟨s1.snapS o.sb + BitVec.ofNat 64 ((s1.myStrip.stripb + 32 * (p / 32)) / 32), 1, .load, false, 1,
        o.pol, [], []⟩ = .ok x s2 →
      State.loadAt g o m tag t ps p s = .ok ⟨⟩ ((s2.loaded o.vd.toNat t.ewB t.grp tag p v).gotScale o.vd.toNat p x)) ∧
  (∀ row ∈ ([(.vst, .unit), (.vsts, .strided), (.vstx, .indexed)] : List ((Gates → FormM → Instr) × AddrMode)),
    ∀ (g : Gates) (o : FormM) (s s1 s2 s3 s4 : State) (tag : Tag) (ps : List Nat) (t : Strip), Ready (row.1 g o) s s1 →
      AccessReady o row.2 true false tag s1 s2 → t = s2.myStrip → ps = t.active o.msk o.mreg →
      (t.poisonedAt [o.vd.toNat] t.ewB ps = true →
        exec (row.1 g o) s = .next ((s2.backTo s1).dropAnswers.takeCause 0xA0 0)) ∧
      (t.poisonedAt [o.vd.toNat] t.ewB ps = false → s2.ordBefore o.ord = .ok ⟨⟩ s3 →
        (State.overPositions ps s3 fun p s => s.laneStore p (memElem o row.2 (tagFmt (t.reg o.vd.toNat).tag) g.scopes
          (t.vaddr o row.2 p) t.ewB .store) (codeOf (t.reg o.vd.toNat).tag (t.el o.vd.toNat t.ewB p))) = .ok ⟨⟩ s4 →
        exec (row.1 g o) s = .next (finished (row.1 g o) s1 (s4.modMyStrip fun t => { t with vstart := 0 })))) ∧
  (∀ (s u v : State) (p x : Nat) (e : Elem) (d : Target), s.writeElem s.me e x = .ok ⟨⟩ u →
    u.locate u.me e = .ok d v → s.laneStore p e x = .ok ⟨⟩ (v.modCtx v.me fun c =>
      { c with run := c.run.map (BlockRun.stored (v.myStrip.stripb + p) d.place e.n x) })) ∧
  (∀ (t : Strip) (o : FormM) (p : Nat) (a b : Word),
    a = (if o.sa = 0 then 0 else t.snap[o.sa.toNat]?.getD 0) → b = (if o.sb = 0 then 0 else t.snap[o.sb.toNat]?.getD 0) →
    t.vaddr o .strided p = a + BitVec.ofNat 64 (t.stripb + p) * b ∧
    (o.or = 0 → t.vaddr o .unit p = a + BitVec.ofNat 64 ((t.stripb + p) * t.ewB)) ∧
    ((t.reg o.vi.toNat).tag = 6 → t.vaddr o .indexed p = a + BitVec.ofNat 64 (t.el o.vi.toNat 4 p)) ∧
    ((t.reg o.vi.toNat).tag = 5 → t.vaddr o .indexed p = a + (BitVec.ofNat 32 (t.el o.vi.toNat 4 p)).signExtend 64)) ∧
  ∀ (g : Gates) (o : FormM) (s s1 s2 : State) (tag : Tag) (gr : Nat) (f : Option Nat) (all : List Nat) (t : Strip),
    Ready (.vldff g o) s s1 →
    s1.mformat o false false = .ok tag → t = s1.myStrip → gr = t.grp → o.vd.toNat % gr = 0 →
    all = (if t.region.isSome then t.active 0 0 else (List.range t.vl).drop t.vstart) →
    s1.myCtx.groupBound t.stripb o.vd.toNat gr = false →
    State.firstFault g o tag t (t.active 0 0) true s1 = .ok f s2 →
    exec (.vldff g o) s = .next (finished (.vldff g o) s1 ((s2.putBits o.mreg
      (all.map fun p => (p, decide (p < f.getD t.vl))) 0).modMyStrip fun u =>
        if t.begins then u.tagGroup o.vd.toNat gr tag else u))

/-- R26, R281: `vtld` and `vtst` load and store, for each active position p, the element of the tensor's view at row 0, column
STRIPB + p, as it stands at issue; a loaded group takes the tensor's tag, and where that is scaled the scale of each slot with
the slot's first active position; a register that holds no shape record raises 0x05 and a malformed record 0x27 with the first
word at fault. -/
def Obligations.TensorLoadsAndStores : Prop :=
  (∀ (g : Gates) (o : FormM) (s s1 s2 s3 s4 : State) (h : Shape) (ps : List Nat) (a : TensorAcc) (t : Strip),
    Ready (.vtld g o) s s1 → TensorReady o false h ps s1 s2 → t = s2.myStrip →
    a = ⟨o.or == 1, o.pol, if o.ord = 0 then [] else [o.scp.toNat], g.scopes⟩ → s2.ordBefore o.ord = .ok ⟨⟩ s3 →
    (State.overPositions ps s3 fun p s => State.tensorAt h a o.vd.toNat t ps p s) = .ok ⟨⟩ s4 →
    exec (.vtld g o) s = .next (finished (.vtld g o) s1
      ((s4.ordAfter o.ord o.scp).completed (some (o.vd.toNat, t.grp, h.ftag))))) ∧
  (∀ (h : Shape) (a : TensorAcc) (vd : Nat) (t : Strip) (ps : List Nat) (p v : Nat) (s s1 : State),
    s.loadTensor s.me h a 0 (t.stripb + p) = .ok v s1 →
    ((tagScaled h.ftag = false ∨ ps.find? (fun q => q / 32 == p / 32) ≠ some p) →
      State.tensorAt h a vd t ps p s = .ok ⟨⟩ (s1.loaded vd t.ewB t.grp h.ftag p v)) ∧
    ∀ x s2, tagScaled h.ftag = true → ps.find? (fun q => q / 32 == p / 32) = some p →
      s1.vtldScale h a p = .ok x s2 →
      State.tensorAt h a vd t ps p s = .ok ⟨⟩ ((s2.loaded vd t.ewB t.grp h.ftag p v).gotScale vd p x)) ∧
  (∀ (g : Gates) (o : FormM) (s s1 s2 s3 s4 : State) (h : Shape) (ps : List Nat) (a : TensorAcc) (t : Strip),
    Ready (.vtst g o) s s1 → TensorReady o true h ps s1 s2 → t = s2.myStrip →
    a = ⟨o.or == 1, o.pol, if o.ord = 0 then [] else [o.scp.toNat], g.scopes⟩ → s2.ordBefore o.ord = .ok ⟨⟩ s3 →
    (State.overPositions ps s3 fun p s => s.storeTensorAt h a p (t.el o.vd.toNat t.ewB p)) = .ok ⟨⟩ s4 →
    exec (.vtst g o) s = .next (finished (.vtst g o) s1 (s4.modMyStrip fun t => { t with vstart := 0 }))) ∧
  (∀ (h : Shape) (a : TensorAcc) (p x : Nat) (s u : State),
    s.storeTensor s.me h a 0 (s.myStrip.stripb + p) x = .ok ⟨⟩ u →
    (isBpFmt (tagFmt h.ftag) = true ∨ tagFmt h.ftag = 15 → s.storeTensorAt h a p x = .ok ⟨⟩ u) ∧
    ∀ w, isBpFmt (tagFmt h.ftag) = false → tagFmt h.ftag ≠ 15 → h.inside (h.index 0 (s.myStrip.stripb + p)) = true →
      u.laneStored p (a.elem h (h.addr (h.index 0 (s.myStrip.stripb + p))) .store) (codeOf h.ftag x) = .ok ⟨⟩ w →
      s.storeTensorAt h a p x = .ok ⟨⟩ w) ∧
  ∀ row ∈ ([(.vtld, false), (.vtst, true)] : List ((Gates → FormM → Instr) × Bool)),
    ∀ (g : Gates) (o : FormM) (s s1 s2 : State), Ready (row.1 g o) s s1 →
      s1.takeGroups ((if row.2 then [o.vd.toNat] else []) ++ [o.vi.toNat]) = .ok ⟨⟩ s2 →
      ((s2.myStrip.reg o.vi.toNat).tag ≠ 25 →
        exec (row.1 g o) s = .next ((s2.backTo s1).dropAnswers.takeCause 0x05 0)) ∧
      ∀ n, (s2.myStrip.reg o.vi.toNat).tag = 25 → s2.myStrip.poisonedAt [o.vi.toNat] 8 (List.range 18) = false →
        Shape.check (s2.myStrip.record o.vi.toNat) = .error n →
        exec (row.1 g o) s = .next ((s2.backTo s1).dropAnswers.takeCause 0x27 (BitVec.ofNat 64 n))

/-- R300, R301: a scalar atomic replaces the element at Read(SY) with its row's function of the old value and Read(SZ), `acas`
only where the old value equals Read(SW), writes the old value to SX, sign-extended from 32 bits but for the unsigned and f32
ones, and ORs the flags; with an acquire, it acquires afterwards. R134, R146: an atomic on a word of this device's DRAM returns
the element's current value, stores what its row gives and nothing when `acas` does not match, and changes no other byte of
memory and no context. -/
def Obligations.ScalarAtomicsReturnAndChangeTheirElement : Prop :=
  ((∀ row ∈ ([(.aadd, 0, true), (.aand, 1, true), (.aor, 2, true), (.axor, 3, true), (.amin, 4, true), (.amax, 5, true),
      (.aminu, 6, false), (.amaxu, 7, false), (.aswap, 8, true), (.afadd, 10, false), (.afmin, 11, false),
      (.afmax, 12, false)] : List ((Gates → FormX → Instr) × Nat × Bool)),
    ∀ (g : Gates) (o : FormX) (s s1 s2 s3 s4 s5 s6 : State) (a b : Word) (n old : Nat) (fl : Flags), Ready (row.1 g o) s s1 →
      n = (if o.w64 = 1 then 8 else 4) → s1.rdS o.sy = .ok a s2 → s2.rdS o.sz = .ok b s3 →
      s3.dstReady o.sx = .ok ⟨⟩ s4 → s4.ordBefore o.ord = .ok ⟨⟩ s5 →
      s5.atomicElem s5.me ⟨a, n, .atomic, false, n, o.pol, [o.scp.toNat], g.scopes⟩ row.2.1 (b.toNat % 2 ^ (8 * n)) 0 =
        .ok (old, fl) s6 →
      exec (row.1 g o) s = .next (finished (row.1 g o) s1
        (((s6.setS o.sx (extended row.2.2 n old)).addFlags fl).ordAfter o.ord o.scp))) ∧
  (∀ (g : Gates) (o : FormX) (s s1 s2 s3 s4 s5 s6 s7 : State) (a b c : Word) (n old : Nat) (fl : Flags), Ready (.acas g o) s s1 →
      n = (if o.w64 = 1 then 8 else 4) → s1.rdS o.sy = .ok a s2 → s2.rdS o.sz = .ok b s3 → s3.rdS o.sw = .ok c s4 →
      s4.dstReady o.sx = .ok ⟨⟩ s5 → s5.ordBefore o.ord = .ok ⟨⟩ s6 →
      s6.atomicElem s6.me ⟨a, n, .atomic, false, n, o.pol, [o.scp.toNat], g.scopes⟩ 9 (b.toNat % 2 ^ (8 * n)) (c.toNat % 2 ^ (8 * n)) =
        .ok (old, fl) s7 →
      exec (.acas g o) s = .next (finished (.acas g o) s1
        (((s7.setS o.sx (extended true n old)).addFlags fl).ordAfter o.ord o.scp))) ∧
  ∀ w old b cmp : Nat, w ∈ [32, 64] → old < 2 ^ w → b < 2 ^ w →
    atomicNew 0 w old b cmp = (some ((old + b) % 2 ^ w), 0) ∧ atomicNew 1 w old b cmp = (some (old &&& b), 0) ∧
    atomicNew 2 w old b cmp = (some (old ||| b), 0) ∧ atomicNew 3 w old b cmp = (some (old ^^^ b), 0) ∧
    atomicNew 4 w old b cmp = (some (if vInt true w b < vInt true w old then b else old), 0) ∧
    atomicNew 5 w old b cmp = (some (if vInt true w old < vInt true w b then b else old), 0) ∧
    atomicNew 6 w old b cmp = (some (min old b), 0) ∧ atomicNew 7 w old b cmp = (some (max old b), 0) ∧
    atomicNew 8 w old b cmp = (some b, 0) ∧ atomicNew 9 w old b cmp = (if old = cmp then some b else none, 0)) ∧
  (∀ (s s1 t : State) (c min b cmp pa ow old : Nat) (fl : Flags) (e : Elem), Memory.wf s.mem = true → e.n ∈ [4, 8] →
    pa % e.n = 0 → s.locate c e = .ok (.phys pa ow) s1 → s1.owns pa = true →
    s.atomicElem c e min b cmp = .ok (old, fl) t →
    old = Memory.readN s.mem pa e.n ∧ fl = (atomicNew min (8 * e.n) old b cmp).2 ∧
    Memory.readN t.mem pa e.n = ((atomicNew min (8 * e.n) old b cmp).1.getD old) % 2 ^ (8 * e.n) ∧
    (∀ a, (a < pa ∨ pa + e.n ≤ a) → Memory.read t.mem a = Memory.read s.mem a) ∧ t.ctxs = s.ctxs ∧ t.jobs = s.jobs ∧
    t.keys = s.keys ∧ t.counters = s.counters)

/-- R303, R304: a vector atomic performs, for each active position in order, the atomic of its row at SY + Idx(p) with the
element of VZ, indices and elements as they stand at issue, and writes the old value to VD with VZ's tag; a vector reduction
store adds the element there and returns nothing. -/
def Obligations.VectorAtomicsAndReductionStores : Prop :=
  (∀ row ∈ ([(.vaadd, false, fun _ => 0), (.vafadd, true, fun _ => 10), (.vamin, false, fun sg => if sg then 4 else 6),
      (.vamax, false, fun sg => if sg then 5 else 7), (.vafmin, true, fun _ => 11), (.vafmax, true, fun _ => 12)] :
      List ((Gates → FormX → Instr) × Bool × (Bool → Nat))),
    ∀ (g : Gates) (o : FormX) (s s1 s2 s3 s4 : State) (tag : Tag) (w gr : Nat) (t : Strip) (base : Word),
      Ready (row.1 g o) s s1 →
      AtomicReady o row.2.1 (some o.sx.toNat) tag s1 s2 → t = s2.myStrip → w = t.ewB → gr = t.grp →
      base = (if o.sy = 0 then 0 else t.snap[o.sy.toNat]?.getD 0) → s2.ordBefore o.ord = .ok ⟨⟩ s3 →
      (State.overPositions (t.active o.msk o.mreg) s3 fun p s =>
        (s.atomicElem s.me ⟨base + t.index o.vi.toNat p, w, .atomic, false, w, o.pol, [o.scp.toNat], g.scopes⟩
          (row.2.2 (isSignedFmt tag.toNat)) (t.el o.sz.toNat w p) 0).bind fun (old, fl) s =>
            R.done ((s.loaded o.sx.toNat w gr tag p old).addFlags fl)) = .ok ⟨⟩ s4 →
      exec (row.1 g o) s = .next (finished (row.1 g o) s1
        ((s4.ordAfter o.ord o.scp).completed (some (o.sx.toNat, gr, tag))))) ∧
  ∀ row ∈ ([(.vrsadd, false), (.vrsfadd, true)] : List ((Gates → FormX → Instr) × Bool)),
    ∀ (g : Gates) (o : FormX) (s s1 s2 s3 : State) (tag : Tag) (w : Nat) (t : Strip) (base : Word), Ready (row.1 g o) s s1 →
      AtomicReady o row.2 none tag s1 s2 → t = s2.myStrip → w = t.ewB →
      base = (if o.sy = 0 then 0 else t.snap[o.sy.toNat]?.getD 0) →
      (State.overPositions (t.active o.msk o.mreg) s2 fun p s =>
        s.reduceElem s.me ⟨base + t.index o.vi.toNat p, w, .atomic, false, w, o.pol, [o.scp.toNat], g.scopes⟩
          row.2 (t.el o.sz.toNat w p)) = .ok ⟨⟩ s3 →
      exec (row.1 g o) s = .next (finished (row.1 g o) s1 (s3.modMyStrip fun t => { t with vstart := 0 }))

/-- R129, R159, R160, R295 to R297, R299: `fence.far` acquires at its scope and serialises the cores of it; an acquire drops
the unregistered words of the core's untracked lines, from scope 2 on, and has the next instruction fetched anew; `racq` takes
a key that is free, writes its tenure to SY, drops the lines of its region and acquires at its scope, waits for one that is not
free, and raises 0x89 for one its context holds, 0x8A for one it may not use and 0x25 for a scope its region does not admit;
`rrel` writes back and releases a key its context holds, and raises 0x89 otherwise. -/
def Obligations.FencesAndKeysHandOver : Prop :=
  (∀ (g : Gates) (o : FormC) (s s1 : State), Ready (.fenceFar g o) s s1 → s1.myCtx.imprecise = [] →
    exec (.fenceFar g o) s = .next (finished (.fenceFar g o) s1
      ((scopeCores (coreOf s1.me) o.code.toNat).foldl State.serialise (s1.acquire (coreOf s1.me) o.code.toNat)))) ∧
  (∀ (s : State) (core scope : Nat), (scope < 2 → s.acquire core scope = s.refetch) ∧
    (2 ≤ scope → ∀ l ∈ ((s.acquire core scope).core core).l1, l.st = .U → l.copies = [] ∧ l.regs ≠ []) ∧
    (s.acquire core scope).mem = s.mem ∧ (s.acquire core scope).ctxs = s.ctxs ∧
    (∀ k, k ≠ core → (s.acquire core scope).core k = s.refetch.core k) ∧
    ∀ k, { s.refetch.core k with held := [] } = { s.core k with held := [] }) ∧
  (∀ (g : Gates) (o : FormA) (s s1 s2 s3 : State) (n : Word) (e : Nat), Ready (.racq g o) s s1 → s1.rdS o.sx = .ok n s2 →
    s2.dstReady o.sy = .ok ⟨⟩ s3 → s3.myCtx.imprecise = [] → e = n.toNat % 4096 →
    (2 ^ 20 ≤ n.toNat → exec (.racq g o) s = .next (s3.dropAnswers.takeCause 0x8A 0)) ∧
    (n.toNat < 2 ^ 20 → n.toNat / 4096 = s3.dev →
      (s3.keyOk e = false → exec (.racq g o) s = .next (s3.dropAnswers.takeCause 0x8A 0)) ∧
      ∀ s4 widest, s3.keyOk e = true → s3.admitted ((s3.key e).base.toNat * 128) = .ok widest s4 →
        (widest < (s4.key e).scope.toNat → exec (.racq g o) s = .next (s4.dropAnswers.takeCause 0x25 0)) ∧
        ((s4.key e).scope.toNat ≤ widest → s4.holdsKey e = true →
          exec (.racq g o) s = .next (s4.dropAnswers.takeCause 0x89 0)) ∧
        ((s4.key e).scope.toNat ≤ widest → s4.holdsKey e = false → (s4.key e).freeFor s4.me = false →
          exec (.racq g o) s = .next ((s4.modKey e (Key.join s4.me)).park (.key e))) ∧
        ∀ t, (s4.key e).scope.toNat ≤ widest → s4.holdsKey e = false → (s4.key e).freeFor s4.me = true →
          t = (s4.modKey e (Key.take s4.me)).setS o.sy (((s4.key e).tenure + 1).setWidth 64) →
          exec (.racq g o) s = .next (finished (.racq g o) s1
            (((t.keyRanges (t.key e)).foldl (fun s r => s.dropRange (coreOf s3.me) r.1 r.2) t).acquire (coreOf s3.me)
              (t.key e).scope.toNat)))) ∧
  ∀ (g : Gates) (o : FormA) (s s1 s2 : State) (n : Word) (e : Nat), Ready (.rrel g o) s s1 → s1.rdS o.sx = .ok n s2 →
    e = n.toNat % 4096 →
    (2 ^ 20 ≤ n.toNat → exec (.rrel g o) s = .next (s2.dropAnswers.takeCause 0x8A 0)) ∧
    (n.toNat < 2 ^ 20 → n.toNat / 4096 = s2.dev → s2.keyOk e = true →
      (s2.holdsKey e = false → exec (.rrel g o) s = .next (s2.dropAnswers.takeCause 0x89 0)) ∧
      (s2.holdsKey e = true → s2.myCtx.imprecise = [] →
        exec (.rrel g o) s = .next (finished (.rrel g o) s1 (s2.giveKey e (coreOf s2.me)))))

/-- R305, R306: on a barrier of this device, `bararv` adds an arrival and `bardrop` takes one from EXP, the last one starts the
next phase, and the phase before goes to SX; a drop with EXP 0 raises 0x86; `barwait` goes on with an acquire once the phase is
past its value, and waits otherwise. A barrier in the scratchpad window raises 0x21 whatever the scope. BARRIER_EVENTS_APPLY
applies the events of one cycle together. R308 to R310: on a counter that its context may use, `wcarr` takes N from it, raising
0x87 when less is left, and completes it at 0; `wcwait` waits while it runs, and then writes 1 for a cancelled one, else 0, and
acquires; `wccancel` cancels it and writes what R40 returns. A handle that names no such counter raises 0x88. -/
def Obligations.BarriersAndWorkCountersCount : Prop :=
  ((∀ b : Barrier, b.arr < 2 ^ 32 →
    b.cycle 1 0 = (if b.exp ≤ (b.arr + 1) % 2 ^ 32 then ⟨(b.ph + 1) % 2 ^ 64, 0, b.exp⟩
      else ⟨b.ph, (b.arr + 1) % 2 ^ 32, b.exp⟩, []) ∧
    b.cycle 0 1 = (if b.exp = 0 then (b, [true]) else if b.exp - 1 ≤ b.arr then (⟨(b.ph + 1) % 2 ^ 64, 0, b.exp - 1⟩, [false])
      else (⟨b.ph, b.arr, b.exp - 1⟩, [false]))) ∧
  (∀ (g : Gates) (s : State) (va : Word) (k : Access) (scp : Scope), va.toNat % 16 = 0 → Config.spWindow ≤ va.toNat →
    va.toNat < 2 ^ 57 → s.barrierAt g va k scp = .trap 0x21 va s) ∧
  (∀ row ∈ ([(.bararv, 1, 0), (.bardrop, 0, 1)] : List ((Gates → FormS → Instr) × Nat × Nat)),
    ∀ (g : Gates) (o : FormS) (s s1 s2 s3 s4 s5 s6 : State) (b va : Word) (pa : Nat), Ready (row.1 g o) s s1 →
      s1.rdS o.sy = .ok b s2 → s2.dstReady o.sx = .ok ⟨⟩ s3 → s3.myCtx.imprecise = [] → va = b + o.off.signExtend 64 →
      s3.barrierAt g va .atomic o.scp = .ok pa s4 → s4.owns pa = true → s4.barrierPeers .atomic pa va = .ok ⟨⟩ s5 →
      (R.each (wordsOf pa 16) s5 fun w s => s.consume w va) = .ok ⟨⟩ s6 →
      (true ∈ ((s6.barrier pa).cycle row.2.1 row.2.2).2 →
        exec (row.1 g o) s = .next (s6.dropAnswers.takeCause 0x86 0)) ∧
      (true ∉ ((s6.barrier pa).cycle row.2.1 row.2.2).2 → exec (row.1 g o) s = .next (finished (row.1 g o) s1
        ((s6.putBarrier (some (coreOf s6.me)) pa ((s6.barrier pa).cycle row.2.1 row.2.2).1).setS o.sx
          (BitVec.ofNat 64 (s6.barrier pa).ph))))) ∧
  (∀ (g : Gates) (o : FormS) (s s1 s2 s3 s4 s5 s6 : State) (b v va : Word) (pa : Nat), Ready (.barwait g o) s s1 →
    s1.rdS o.sy = .ok b s2 → s2.rdS o.sx = .ok v s3 → s3.myCtx.imprecise = [] → va = b + o.off.signExtend 64 →
    s3.barrierAt g va .load o.scp = .ok pa s4 → s4.owns pa = true → s4.barrierPeers .untrackedLoad pa va = .ok ⟨⟩ s5 →
    (R.each (wordsOf pa 16) s5 fun w s => s.consume w va) = .ok ⟨⟩ s6 →
    (v.toNat < (s6.barrier pa).ph → exec (.barwait g o) s = .next (finished (.barwait g o) s1
      (s6.acquire (coreOf s6.me) o.scp.toNat))) ∧
    ((s6.barrier pa).ph ≤ v.toNat → exec (.barwait g o) s = .next (s6.park (.barrier (pa + 8) v.toNat)))) ∧
  ∀ (job : Nat) (addr : Word) (evs : List BarrierEvent) (s t : State) (j : Job) (pa : Nat) (p : Page) (old : Barrier)
      (r : Barrier × List Bool), s.jobAt job = some j → s.xlate j.root addr.toNat = some (pa, p) → addr.toNat % 16 = 0 →
    s.owns pa = true → old = s.barrier pa →
    r = old.cycle (evs.filter fun e => !e.drop).length (evs.filter fun e => e.drop).length →
    t = (evs.filter fun e => !e.drop).foldl (fun s e => s.barrierResult old.ph e false) (s.putBarrier none pa r.1) →
    exec (.barrierEventsApply job addr evs) s =
      .next (((evs.filter fun e => e.drop).zip r.2).foldl (fun s x => s.barrierResult old.ph x.1 x.2) t)) ∧
  ((∀ i ∈ ([.wcarr, .wcwait, .wccancel] : List (Gates → FormS → Instr)), ∀ (g : Gates) (o : FormS) (s s1 s2 : State) (b : Word),
    Ready (i g o) s s1 → s1.rdS o.sy = .ok b s2 → s2.jobCounter s2.myJobSlot (b + o.off.signExtend 64) = none →
    exec (i g o) s = .next (s2.dropAnswers.takeCause 0x88 0)) ∧
  ∀ (g : Gates) (o : FormS) (s s1 s2 s3 : State) (b h : Word) (c : Counter), s1.rdS o.sy = .ok b s2 →
    h = b + o.off.signExtend 64 → s2.jobCounter s2.myJobSlot h = some c →
    (∀ n, Ready (.wcarr g o) s s1 → hKind h = 6 → s2.rdS o.sx = .ok n s3 →
      (c.status ≠ .running → exec (.wcarr g o) s = .next (finished (.wcarr g o) s1 s3)) ∧
      (c.status = .running → c.value < n.toNat → exec (.wcarr g o) s = .next (s3.dropAnswers.takeCause 0x87 0)) ∧
      (c.status = .running → n.toNat ≤ c.value → s3.myCtx.imprecise = [] →
        exec (.wcarr g o) s = .next (finished (.wcarr g o) s1 (s3.modCounter h fun c => { c with
          value := c.value - n.toNat, status := if c.value - n.toNat = 0 then .complete else c.status })))) ∧
    (Ready (.wcwait g o) s s1 → s2.dstReady o.sx = .ok ⟨⟩ s3 →
      (s2.contains s2.me h = true → exec (.wcwait g o) s = .next (s2.dropAnswers.takeCause 0x88 0)) ∧
      (s2.contains s2.me h = false → s3.myCtx.imprecise = [] →
        (c.status = .running → exec (.wcwait g o) s = .next (s3.park (.counter h))) ∧
        (c.status ≠ .running → exec (.wcwait g o) s = .next (finished (.wcwait g o) s1
          ((s3.setS o.sx (if c.status = .cancelled then 1 else 0)).acquire (coreOf s3.me) o.scp.toNat))))) ∧
    ∀ n t, Ready (.wccancel g o) s s1 → s2.dstReady o.sx = .ok ⟨⟩ s3 → s3.cancelLevel h = (n, t) →
      (slotState (t.slot s3.me) = 1 →
        slotState ((finished (.wccancel g o) s1 (t.setS o.sx (BitVec.ofNat 64 n))).slot s.me) = 1 →
        exec (.wccancel g o) s = .next (finished (.wccancel g o) s1 (t.setS o.sx (BitVec.ofNat 64 n)))) ∧
      (slotState (s3.slot s3.me) = 1 → slotState (t.slot s3.me) ≠ 1 → slotState (s.slot s.me) = 1 →
        slotState (t.slot s.me) ≠ 1 → ticketOf (.wccancel g o) s1 = none → exec (.wccancel g o) s = .next t))

/-- R284 to R287: a bind of a register with no stream makes one (`newStream`): a walk over the tensor of a shape record, the
context's Satchel channel, or a receive queue; a later strip's execution of the same bind is attached to the stream, and a
register bound otherwise raises 0x0D, unless the strips attached to its stream have all ended, which then ends; a parked stream
of the same kind is resumed; `vunbind` gives the stream up, and marks the elements of the strip's last group in its mask; five
streams are too many for a context: 0x11. -/
def Obligations.StreamsAreBoundAndGivenUp : Prop :=
  (∀ (g : Gates) (o : FormV) (s s1 s2 s3 : State) (h : Shape), Ready (.vbind g o) s s1 → o.vd.toNat % s1.myStrip.grp = 0 →
    s1.myCtx.boundStream o.vd = none → s1.myCtx.parkedStream o.vd = none → s1.takeGroups [o.va.toNat] = .ok ⟨⟩ s2 →
    (s2.myStrip.reg o.va.toNat).tag = 25 → s2.myStrip.poisonedAt [o.va.toNat] 8 (List.range 18) = false →
    Shape.check (s2.myStrip.record o.va.toNat) = .ok h → tensorBits (tagFmt h.ftag) = 8 * s1.myStrip.ewB →
    (h.orientOk false = true ∨ h.orientOk true = true) →
    s2.newStream o.vd .walk h.ftag (s2.myStrip.record o.va.toNat) = .ok ⟨⟩ s3 →
    exec (.vbind g o) s = .next (finished (.vbind g o) s1 s3)) ∧
  (∀ (g : Gates) (o : FormV) (s s1 s2 : State), Ready (.vbindz g o) s s1 → o.vd.toNat % s1.myStrip.grp = 0 →
    s1.myCtx.boundStream o.vd = none → s1.myCtx.parkedStream o.vd = none → s1.myStrip.ewB = 1 →
    (s1.modCtx s1.me fun x => { x with satchelTag := none }).newStream o.vd .satchel s1.myStrip.fmt [] = .ok ⟨⟩ s2 →
    exec (.vbindz g o) s = .next (finished (.vbindz g o) s1 s2)) ∧
  (∀ (g : Gates) (o : FormV) (s s1 : State), Ready (.vbindn g o) s s1 →
    (16 ≤ (s1.snapS o.sb).toNat → exec (.vbindn g o) s = .next (s1.dropAnswers.takeCause 0x02 0)) ∧
    ∀ s2, (s1.snapS o.sb).toNat < 16 → o.vd.toNat % s1.myStrip.grp = 0 → s1.myCtx.boundStream o.vd = none →
      s1.myCtx.parkedStream o.vd = none → widthOk (tagFmt (o.sc ++ o.fmt)) s1.myStrip.ewB = true →
      s1.newStream o.vd (.network (s1.snapS o.sb).toNat) (o.sc ++ o.fmt) [] = .ok ⟨⟩ s2 →
      exec (.vbindn g o) s = .next (finished (.vbindn g o) s1 s2)) ∧
  (∀ i ∈ ([.vbind, .vbindz] : List (Gates → FormV → Instr)), ∀ (g : Gates) (o : FormV) (s s1 : State) (st : Stream),
    Ready (i g o) s s1 → o.vd.toNat % s1.myStrip.grp = 0 → s1.myCtx.boundStream o.vd = some st →
    (st.pc = s1.cur.pc → s1.myStrip.stripb ∉ st.attached → exec (i g o) s = .next (finished (i g o) s1
      ((s1.modCtx s1.me fun x => x.modStream o.vd (Stream.attach s1.myStrip.stripb)).modMyStrip (Strip.forget o.vd)))) ∧
    (st.pc ≠ s1.cur.pc ∨ s1.myStrip.stripb ∈ st.attached → st.unbound = true ∨ st.attached ≠ [] →
      exec (i g o) s = .next (s1.dropAnswers.takeCause 0x0D 0))) ∧
  (∀ (g : Gates) (o : FormV) (s s1 s2 e : State) (st : Stream), Ready (.vbindz g o) s s1 → o.vd.toNat % s1.myStrip.grp = 0 →
    s1.myCtx.boundStream o.vd = some st → st.pc ≠ s1.cur.pc → st.unbound = false → st.attached = [] → s1.myStrip.ewB = 1 →
    e = s1.endStreams s1.me (· == st) →
    (e.modCtx e.me fun x => { x with satchelTag := none }).newStream o.vd .satchel e.myStrip.fmt [] = .ok ⟨⟩ s2 →
    exec (.vbindz g o) s = .next (finished (.vbindz g o) s1 s2)) ∧
  (∀ row ∈ ([(.vbind, fun o st w => st.kind = .walk ∧ o.va = o.vd ∧ tensorBits (tagFmt st.tag) = 8 * w),
      (.vbindz, fun _ st w => st.kind = .satchel ∧ w = 1)] : List ((Gates → FormV → Instr) × (FormV → Stream → Nat → Prop))),
    ∀ (g : Gates) (o : FormV) (s s1 : State) (st : Stream), Ready (row.1 g o) s s1 → o.vd.toNat % s1.myStrip.grp = 0 →
      s1.myCtx.boundStream o.vd = none → s1.myCtx.parkedStream o.vd = some st → row.2 o st s1.myStrip.ewB →
      exec (row.1 g o) s = .next (finished (row.1 g o) s1 ((s1.modCtx s1.me fun x => x.modStream o.vd fun u =>
        { u with parked := false, unbound := false, attached := [s1.myStrip.stripb], pc := s1.cur.pc
                 tag := st.tag }).modMyStrip (Strip.forget o.vd)))) ∧
  (∀ (s : State) (v : VNum) (kind : StreamKind) (tag : Tag) (shape : List Word) (u : State),
    u = (if 4 ≤ (s.modCtx s.me fun x => x.unpark v.toNat 1).myCtx.streams.length
      then (s.modCtx s.me fun x => x.unpark v.toNat 1).endStreams s.me Stream.idle
      else s.modCtx s.me fun x => x.unpark v.toNat 1) →
    (4 ≤ u.myCtx.streams.length → s.newStream v kind tag shape = .trap 0x11 0 u) ∧
    (u.myCtx.streams.length < 4 → s.newStream v kind tag shape = .ok ⟨⟩ ((u.modCtx u.me fun x => { x with
      streams := x.streams ++ [⟨v, false, kind, tag, 0, shape, u.cur.pc, [u.myStrip.stripb], false⟩] }).modMyStrip
        (Strip.forget v)))) ∧
  ∀ (g : Gates) (o : FormV) (s s1 : State), Ready (.vunbind g o) s s1 →
    (s1.myCtx.bound s1.myStrip.stripb o.vd.toNat = none → exec (.vunbind g o) s = .next (s1.dropAnswers.takeCause 0x0D 0)) ∧
    ∀ st last, s1.myCtx.bound s1.myStrip.stripb o.vd.toNat = some st →
      last = ((s1.myStrip.consumed.find? (·.1 == o.vd)).map (·.2)).getD 0 →
      exec (.vunbind g o) s = .next (finished (.vunbind g o) s1
        ((s1.modCtx s1.me fun x => x.modStream o.vd (Stream.giveUp s1.myStrip.stripb)).putBits o.mreg
          (if o.msk = 1 ∧ s1.myStrip.begins = true then (List.range s1.myStrip.vl).map fun p => (p, last.getLsbD p)
           else []) 0))

/-- R94, R118, R288, R289, R291: a copy whose operands are aligned, whose length is allowed, whose pages admit the scope of its
post and for which the core's table has a slot enters the table, its token pending and its post still to be made; one of no
bytes completes at once; a full table stalls it, a misaligned operand raises 0x22 with that operand, a copy of more than 2^36
bytes 0x26, and a post gate wider than the space of a page (for `pcopy` of its destination, for `pcopyz` of its source: the
model's reading, log 20) 0x25 with the first such address. -/
def Obligations.CopiesEnterTheTable : Prop :=
  (∀ (g : Gates) (o : FormE) (s s1 s2 s3 s4 s5 : State) (dst src n : Word), Ready (.pcopy g o) s s1 →
    s1.rdS o.sy = .ok dst s2 → s2.rdS o.sz = .ok src s3 → s3.rdS o.sw = .ok n s4 → s4.dstReady o.sx = .ok ⟨⟩ s5 →
    (dst.toNat % 4 ≠ 0 → exec (.pcopy g o) s = .next (s5.dropAnswers.takeCause 0x22 dst)) ∧
    (dst.toNat % 4 = 0 → src.toNat % 4 ≠ 0 → exec (.pcopy g o) s = .next (s5.dropAnswers.takeCause 0x22 src)) ∧
    (dst.toNat % 4 = 0 → src.toNat % 4 = 0 → n.toNat % 4 ≠ 0 →
      exec (.pcopy g o) s = .next (s5.dropAnswers.takeCause 0x22 n)) ∧
    (dst.toNat % 4 = 0 → src.toNat % 4 = 0 → n.toNat % 4 = 0 →
      (2 ^ 36 < n.toNat → exec (.pcopy g o) s = .next (s5.dropAnswers.takeCause 0x26 n)) ∧
      (∀ a, n.toNat ≤ 2 ^ 36 → s5.beyondScope (ticketOf (.pcopy g o) s1) dst.toNat n.toNat = some a →
        exec (.pcopy g o) s = .next (s5.dropAnswers.takeCause 0x25 a)) ∧
      (n.toNat ≤ 2 ^ 36 → s5.beyondScope (ticketOf (.pcopy g o) s1) dst.toNat n.toNat = none →
        (s5.slotFree = false → exec (.pcopy g o) s = .next (s5.park .copySlot)) ∧
        (n = 0 → s5.slotFree = true → exec (.pcopy g o) s = .next (started (.pcopy g o) s1
          (s5.emptyCopy o.sx (ticketOf (.pcopy g o) s1)))) ∧
        (0 < n.toNat → s5.slotFree = true → exec (.pcopy g o) s = .next (started (.pcopy g o) s1
          (s5.startCopy (.copy dst.toNat src.toNat n.toNat) o.sx (ticketOf (.pcopy g o) s1))))))) ∧
  (∀ (g : Gates) (o : FormE) (s s1 s2 s3 s4 : State) (src n : Word), Ready (.pcopyz g o) s s1 → s1.rdS o.sz = .ok src s2 →
    s2.rdS o.sw = .ok n s3 → s3.dstReady o.sx = .ok ⟨⟩ s4 →
    (src.toNat % 128 ≠ 0 → exec (.pcopyz g o) s = .next (s4.dropAnswers.takeCause 0x22 src)) ∧
    (src.toNat % 128 = 0 → n.toNat % 128 ≠ 0 → exec (.pcopyz g o) s = .next (s4.dropAnswers.takeCause 0x22 n)) ∧
    (src.toNat % 128 = 0 → n.toNat % 128 = 0 →
      (2 ^ 36 < n.toNat → exec (.pcopyz g o) s = .next (s4.dropAnswers.takeCause 0x26 n)) ∧
      (∀ a, n.toNat ≤ 2 ^ 36 → s4.beyondScope (ticketOf (.pcopyz g o) s1) src.toNat n.toNat = some a →
        exec (.pcopyz g o) s = .next (s4.dropAnswers.takeCause 0x25 a)) ∧
      (n.toNat ≤ 2 ^ 36 → s4.beyondScope (ticketOf (.pcopyz g o) s1) src.toNat n.toNat = none →
        (s4.slotFree = false → exec (.pcopyz g o) s = .next (s4.park .copySlot)) ∧
        (n = 0 → s4.slotFree = true → exec (.pcopyz g o) s = .next (started (.pcopyz g o) s1
          (s4.emptyCopy o.sx (ticketOf (.pcopyz g o) s1)))) ∧
        (0 < n.toNat → s4.slotFree = true → exec (.pcopyz g o) s = .next (started (.pcopyz g o) s1
          (s4.startCopy (.satchel src.toNat n.toNat) o.sx (ticketOf (.pcopyz g o) s1))))))) ∧
  (∀ (g : Gates) (o : FormE) (s s1 s2 s3 s4 s5 s6 : State) (a : Word) (bs : List Byte) (d : Coll) (gr : Group),
    Ready (.coll g o) s s1 → s1.rdS o.sy = .ok a s2 → s2.dstReady o.sx = .ok ⟨⟩ s3 →
    (a.toNat % 64 ≠ 0 → exec (.coll g o) s = .next (s3.dropAnswers.takeCause 0x22 a)) ∧
    (a.toNat % 64 = 0 → (∀ k, ticketOf (.coll g o) s1 = some k → 4 ≤ k.scp.toNat) →
      s3.readRun s3.me a.toNat 64 1 = .ok bs s4 → d = Coll.ofBytes bs →
      ((s4.jobOf s4.me).bind fun j => afind? j.groups d.group) = some gr → d.ok bs gr.members.length = true →
      (d.wctr = 0 ∨ hKind d.wctr = 6 ∧ (s4.jobCounter (jobSlot (slotJob (s4.slot s4.me))) d.wctr).isSome = true) →
      d.src % d.width = 0 → d.dst % d.width = 0 →
      s4.collSpace s4.me (max 1 (d.sourceBytes gr.members.length gr.rank) / 4096 + 2) d.src
        (max 1 (d.sourceBytes gr.members.length gr.rank)) = .ok true s5 →
      s5.collSpace s5.me (d.resultBytes gr.members.length / 4096 + 2) d.dst (d.resultBytes gr.members.length) = .ok true s6 →
      s6.slotFree = true →
      exec (.coll g o) s = .next (started (.coll g o) s1 ((s6.startCopy (.coll bs gr.issued) o.sx
        (ticketOf (.coll g o) s1)).issuedOn (jobSlot (slotJob (s4.slot s4.me))) d.group)))) ∧
  ∀ (s : State) (kind : CopyKind) (k : SReg) (tk : Option Ticket),
    ((s.startCopy kind k tk).core (coreOf s.me)).copies = (s.core (coreOf s.me)).copies ++
      [⟨s.nextId, s.me, jobSlot (slotJob (s.slot s.me)), kind, if k = 0 then none else some k, tk, 0, 0, none⟩] ∧
    (s.startCopy kind k tk).mem = s.mem ∧ (k ≠ 0 → ((s.startCopy kind k tk).ctx s.me).pend.any (·.1 == k) = true)

/-- R119, R120, R124, R290, R293, R294, R343 to R345: a copy that has moved its lines completes, one that meets a fault stops
and its cause is held for its unit. In a cycle of the decompression path a check that is due is decided, 0x60 where it fails, a
block is read, 0x61 at a bad header, and at most 32 of its bytes enter the buffer, its check beginning with the last. A
collective waits for its counter and every member's k-th contribution, 0x26 where one differs, and writes its result. -/
def Obligations.EnginesFinishOrStop : Prop :=
  (∀ (core id : Nat) (s : State), s.copyOf core id = none → exec (.copyComplete core id) s = .next s) ∧
  (∀ (core id dst src n : Nat) (s : State) (p : Copy), s.copyOf core id = some p → p.kind = .copy dst src n →
    (∀ t, s.copyLines core p dst src n (n / 4 + 1) p.pos = .ok ⟨⟩ t →
      exec (.copyComplete core id) s = .next (t.finishCopy core p)) ∧
    (∀ c a t, s.copyLines core p dst src n (n / 4 + 1) p.pos = .trap c a t →
      exec (.copyComplete core id) s = .next (t.failCopy core p c a)) ∧
    (∀ (m : Nat) (c : Code) (a : Word) (t : State),
      s.copyLines core p dst src (min n m) (n / 4 + 1) p.pos = .ok ⟨⟩ t →
      exec (.copyFault core id m c a) s = .next (t.failCopy core p c a)) ∧
    exec (.uetDeliveryFailure core id) s = .next (s.failCopy core p 0x20 (BitVec.ofNat 64 (dst + p.pos)))) ∧
  (∀ (ctx core : Nat) (s : State) (p : Copy), s.satchelFront ctx = some (core, p) →
    exec (.satchelCheck ctx) s = .next (s.satchelCycle core ctx)) ∧
  (∀ (core n : Nat) (s : State) (c : SatchelCheck) (r : List SatchelCheck) (p : Copy), (s.owner n).checks = c :: r →
    (1 < c.due → s.satchelChecks core n = s.modOwner n fun x =>
      { x with checks := x.checks.map fun c => { c with due := c.due - 1 } }) ∧
    (c.due ≤ 1 → s.copyOf core c.id = some p → c.wrong = false → s.satchelChecks core n =
      (s.modOwner n fun x => { x with checks := r.map fun c => { c with due := c.due - 1 } }).satchelPassed core c.id) ∧
    (c.due ≤ 1 → s.copyOf core c.id = some p → c.wrong = true → (s.core core).decoding n = none → s.satchelChecks core n =
      s.satchelFail core p 0x60 c.place (blockName c.id c.place :: r.map fun c => blockName c.id c.place))) ∧
  (∀ (core src len : Nat) (s : State) (p : Copy),
    (∀ t, s.satchelBlock core p (src + p.pos) (len - p.pos) = .ok (.header, false) t → (s.owner p.ctx).checks = [] →
      s.satchelRead core p src len = t.satchelFail core p 0x61 (src + p.pos) []) ∧
    (∀ h out wrong t, s.satchelBlock core p (src + p.pos) (len - p.pos) = .ok (.block h out wrong, false) t →
      s.satchelRead core p src len = t.modCopy core p.id fun p =>
        { p with block := some ⟨h.size, BitVec.ofNat 6 h.ftag, out, wrong⟩ }) ∧
    ∀ (b : SatchelBlock) (k : Nat) (r : SatchelRun) (u : State), k = min (min 32 (s.satchelRoom p.ctx)) (b.bytes.length - p.given) →
      r = ⟨blockName p.id (src + p.pos), b.tag, (b.bytes.drop p.given).take k⟩ →
      u = (s.modOwner p.ctx fun x => if k = 0 then x else { x with satchel := addRun r x.satchel }) →
      (p.given + k < b.bytes.length →
        s.satchelDecode core p src b = u.modCopy core p.id fun p => { p with given := p.given + k }) ∧
      (b.bytes.length ≤ p.given + k → s.satchelDecode core p src b =
        (u.modOwner p.ctx fun x => { x with checks := x.checks ++ [⟨p.id, src + p.pos, 2, b.wrong⟩] }).modCopy core p.id fun p =>
          { p with pos := p.pos + b.size, given := 0, block := none })) ∧
  ∀ (core id k : Nat) (sent others : List Contribution) (s t : State) (p : Copy) (bs : List Byte) (d : Coll),
    t = { s with heldBack := s.heldBack.filter (· != .collectiveRun core id sent) } → t.copyOf core id = some p →
    p.kind = .coll bs k → d = Coll.ofBytes bs → others = sent.filter (·.k == k) →
    (∀ (gr : Group) (far : List Nat), ((s.ownerJob p.ctx).bind fun j => afind? j.groups d.group) = some gr →
      far = (List.range gr.members.length).filter (fun r => (gr.members[r]?.map (·.1)) == some 1) → far ≠ [] →
      ∃ r ∈ far, exec (.uetDeliveryFailure core id) s =
        .next (State.failCopy { s with fresh := s.fresh + 1 } core p 0x20 (BitVec.ofNat 64 r))) ∧
    (∀ c, d.wctr ≠ 0 → t.counter d.wctr = some c →
      (c.status = .running → exec (.collectiveRun core id sent) s =
        .next { t with heldBack := t.heldBack ++ [.collectiveRun core p.id sent] }) ∧
      (c.status = .cancelled → exec (.collectiveRun core id sent) s = .next (t.finishCopy core p))) ∧
    ∀ (gr : Group), d.wctr = 0 →
      ((t.ownerJob p.ctx).bind fun j => afind? j.groups d.group) = some gr →
      (∀ q < gr.members.length, q ≠ gr.rank → ∃ c ∈ others, c.rank = q) →
      ((∃ c ∈ others, c.rank < gr.members.length ∧ d.differs gr.members.length c = true) →
        exec (.collectiveRun core id sent) s = .next (t.failCopy core p 0x26 0)) ∧
      ∀ (mine : List Byte) (srcs : List (List Byte)) (bad : Bool) (u v : State),
        (∀ c ∈ others, c.rank < gr.members.length → c.op = d.op ∧ c.ftag = d.ftag ∧ c.count = d.count ∧ c.root = d.root ∧
          c.bytes.length = d.sourceBytes gr.members.length c.rank) →
        t.engineBytes core p.ctx p.id d.src (d.sourceBytes gr.members.length gr.rank) = .ok (mine, bad) u →
        (bad = true → gr.members.any (·.1 == 1) = false) →
        srcs = (List.range gr.members.length).map (fun q =>
          if q = gr.rank then mine else ((others.find? (·.rank == q)).map (·.bytes)).getD []) →
        u.enginePut core p.ctx p.id d.dst (d.result gr.rank srcs) bad = .ok ⟨⟩ v →
        exec (.collectiveRun core id sent) s =
          .next ((v.emit (.contribution d.group gr.rank k d.op d.ftag d.count d.root mine)).finishCopy core p)

/-- R101, R105, R106, R129, R133 to R136, R461: a request of a core for a line of this device waits for one in progress on its
words, and brings the line into the core's L1, owned by an ownership request; a dropped line is no longer held, nor by any core
of a die whose L2 drops it, while a pinned line stays, a lease that ends leaves no unregistered word of a line, a page of the
scratchpad window is pinned, and an error is counted, or poisons its line, its scalar register or its word of a vector
register. -/
def Obligations.MemoryHappeningsChangeCaches : Prop :=
  (∀ (core first : Nat) (line : LineKey) (req : HomeReq) (ws : List Nat) (s t u : State),
    t = { s with heldBack := s.heldBack.filter (· != .homeRequest core req line) } → s.owns line.base = true →
    first = (footprint line).headD line.base → ws = (if req = .sisStore then [first] else footprint line) →
    (∀ r, t.inProgress homeParty ws = some r → exec (.homeRequest core req line) s =
      .next { t with heldBack := t.heldBack ++ [.homeRequest core req line] }) ∧
    (t.inProgress homeParty ws = none → t.peerAsks req (nodeOfCore core) ws = [] → t.remoteRoom core req line ws = .ok ⟨⟩ u →
      (∀ own, req = .trackedLoad own → exec (.homeRequest core req line) s =
        .next (u.loadLine core line (if own then 0 else 3) first)) ∧
      (req = .untrackedLoad → exec (.homeRequest core req line) s = .next (u.loadLine core line 1 first)) ∧
      (req = .ownStore → exec (.homeRequest core req line) s = .next (u.ownLine core line) ∧
        ∃ l ∈ ((u.ownLine core line).core core).l1, l.key = line ∧ l.st = .M) ∧
      (req = .sisStore → exec (.homeRequest core req line) s = .next (u.sisRegister core line first)) ∧
      (req = .throughStore ∨ req = .atomic → exec (.homeRequest core req line) s =
        .next (u.homeRequest core req line ws)))) ∧
  (∀ (core : Nat) (line : LineKey) (s : State), exec (.coreDropLine core line) s = .next (s.dropLine core line) ∧
    (s.owns line.base = true → ∀ l ∈ ((s.dropLine core line).core core).l1, l.key ≠ line)) ∧
  (∀ (die : Nat) (line : LineKey) (s : State),
    (s.pinnedInL2 die line = true ∨ (∀ x ∈ (s.die die).l2, x.key ≠ line) → exec (.l2DropLine die line) s = .next s) ∧
    (s.owns line.base = true → s.pinnedInL2 die line = false → (∃ x ∈ (s.die die).l2, x.key = line) → die < 4 →
      exec (.l2DropLine die line) s = .next (s.nodeDrops die line) ∧
      (∀ x ∈ ((s.nodeDrops die line).die die).l2, x.key ≠ line) ∧
      ∀ k, nodeOfCore k = die → ∀ l ∈ ((s.nodeDrops die line).core k).l1, l.key ≠ line)) ∧
  (∀ (core : Nat) (line : LineKey) (s : State), ∃ t, exec (.uLineLeaseExpiry core line) s = .next t ∧ t.mem = s.mem ∧
    ∀ l ∈ (t.core core).l1, l.key = line → l.st = .U → l.copies = []) ∧
  (∀ (ctx page : Nat) (s t : State) (p : Page), slotState (s.slot ctx) = 1 → page < slotSpLen (s.slot ctx) →
    s.enginePage ctx (slotSpBase (s.slot ctx) + page * 4096) = .ok p t → p.space = 0 →
    exec (.scratchpadFrameFill ctx page) s = .next (t.pin (coreOf ctx) (slotSpBase (s.slot ctx)) page
      (p.paddr t (slotSpBase (s.slot ctx) + page * 4096)) p.ow)) ∧
  (∀ (site : ErrorSite) (s : State), exec (.softError site true) s =
    .next (s.modTele fun t => { t with ce := t.ce + 1 })) ∧
  (∀ (base : Nat) (s : State), exec (.softError (.line base) false) s = .next (s.poisonLine base) ∧
    (s.poisonLine base).poisoned base = true) ∧
  (∀ (c : Nat) (r : SReg) (s : State), r ≠ 0 → ∃ t, exec (.softError (.scalarReg c r) false) s = .next t ∧
    (t.ctx c).spoison.getLsbD r.toNat = true ∧ (t.ctx c).s = (s.ctx c).s) ∧
  ∀ (c w : Nat) (v : VNum) (s : State), exec (.softError (.vectorWord c v w) false) s =
    .next ((s.modTele fun t => { t with ue := t.ue + 1 }).modCtx c fun x => x.poisonVector v.toNat w)

/-- R319, R320, R326, R327: `tld` puts the elements of each row still to do into the tile, with the tensor's tag and, where
that is scaled and the row its blocks' first, its scales; `tst` stores them; `tzero` clears the rows and gives the named tag;
`tcvt` writes each accumulator value of the rows converted into its format; a wrong element width raises 0x0F, a row outside
the tensor 0x28. R89, R314 to R318, R321 to R325: `mattach` claims a run of free bands for Q rows and writes MGRANT; `mdetach`
gives them up; `tmma` and `tmma.s` add the products to the rows of the claim, which they need (0x65, and 0x66 once revoked),
for a pair of formats R321 lists whose MODE the rows can take (0x05), and wait in the matrix unit's queue; `tdrain` starts a
drain of the whole grant. -/
def Obligations.TileInstructionsAndAccumulators : Prop :=
  ((∀ (g : Gates) (o : FormT) (s s1 s2 s3 : State) (h : Shape) (sh : BitVec 24) (a : TensorAcc), Ready (.tld g o) s s1 →
    TileReady o false h s1 s2 → sh = s2.myCtx.shapeOf o.tx → a = ⟨o.or == 1, o.pol, [], g.scopes⟩ →
    (State.overPositions (s2.rowsLeft (tshRows sh)) s2 fun y s => s.tileRow h a o.tx sh y) = .ok ⟨⟩ s3 →
    exec (.tld g o) s = .next (finished (.tld g o) s1 (s3.modMyStrip fun t => { t with vstart := 0 }))) ∧
  (∀ (s s1 s2 : State) (h : Shape) (a : TensorAcc) (tx : TNum) (sh : BitVec 24) (y : Nat) (vs es : List Nat),
    (R.gather (List.range (tshCols sh)) s fun x s => s.loadTensor s.me h a y x) = .ok vs s1 →
    (if tagScaled h.ftag = true ∧ y % 32 = 0 then R.gather (List.range ((tshCols sh + 31) / 32)) s1 fun bx s =>
      s.loadScale s.me h a ((List.range (min 32 (tshRows sh - y))).flatMap fun dy =>
        (List.range (min 32 (tshCols sh - 32 * bx))).map fun dx => (y + dy, 32 * bx + dx)) else .ok [] s1) = .ok es s2 →
    s.tileRow h a tx sh y = .ok ⟨⟩ (s2.modCtx s2.me fun x => x.modTile tx (TReg.loadRow (tshBits sh) y h.ftag vs es))) ∧
  (∀ (b y : Nat) (tag : Tag) (vs es : List Nat) (r : TReg), TReg.loadRow b y tag vs es r =
    ((List.range es.length).zip es).foldl (fun (r : TReg) x => r.putScale (y / 32 * 8 + x.1) x.2)
      { r.putRow b y vs with tag := tag }) ∧
  (∀ (g : Gates) (o : FormT) (s s1 s2 s3 : State) (h : Shape) (sh : BitVec 24) (a : TensorAcc), Ready (.tst g o) s s1 →
    TileReady o true h s1 s2 → sh = s2.myCtx.shapeOf o.tx → a = ⟨o.or == 1, o.pol, [], g.scopes⟩ →
    (State.overPositions (s2.rowsLeft (tshRows sh)) s2 fun y s => R.each (List.range (tshCols sh)) s fun x s =>
      s.storeTensor s.me h a y x ((s.myCtx.tile o.tx).get (tshBits sh) y x)) = .ok ⟨⟩ s3 →
    exec (.tst g o) s = .next (finished (.tst g o) s1 (s3.modMyStrip fun t => { t with vstart := 0 }))) ∧
  (∀ (g : Gates) (o : FormT) (s s1 : State) (sh : BitVec 24), Ready (.tzero g o) s s1 → sh = s1.myCtx.shapeOf o.tx →
    (o.fmt ≠ 0 → tensorBits o.fmt.toNat ≠ tshBits sh → exec (.tzero g o) s = .next (s1.dropAnswers.takeCause 0x0F 0)) ∧
    (o.fmt = 0 ∨ tensorBits o.fmt.toNat = tshBits sh → exec (.tzero g o) s = .next (finished (.tzero g o) s1
      ((s1.modCtx s1.me fun x => x.modTile o.tx fun r => { ((List.range (tshRows sh)).drop s1.myStrip.vstart).foldl
        TReg.clearRow r with tag := o.fmt.setWidth 6 }).modMyStrip fun t => { t with vstart := 0 })))) ∧
  (∀ (g : Gates) (o : FormT) (s s1 : State) (sh : BitVec 24) (row0 : Nat) (outs : List (Nat × List (Nat × Flags))),
    Ready (.tcvt g o) s s1 → sh = s1.myCtx.shapeOf o.tx → tensorBits o.fmt.toNat = tshBits sh → tshCols sh ≤ 64 →
    row0 = (s1.snapS o.sb).toNat % 2 ^ 32 → ClaimHeld s1 row0 (tshRows sh) →
    outs = (((List.range (tshRows sh)).drop s1.myStrip.vstart).map fun i => (i, (List.range (tshCols sh)).map fun c =>
      convert (if (s1.accRow s1.me (row0 + i)).mode = .int then 5 else 8) none o.fmt.toNat
        (if o.sc = 1 then some ((s1.myCtx.tile o.tx).scaleAt i (c / 32)) else none) (effMode o.rnd s1.fctlOf)
        (pilgrim s1.seedOf ((s1.snapS o.sb).extractLsb' 32 32) (BitVec.ofNat 32 (i * 256 + c))).toNat
        (effSat o.satm s1.fctlOf) (ftzOf s1.fctlOf) ((s1.accRow s1.me (row0 + i)).get c))) →
    exec (.tcvt g o) s = .next (finished (.tcvt g o) s1 (((s1.modCtx s1.me fun x => x.modTile o.tx fun r =>
      { outs.foldl (fun (r : TReg) y => r.putRow (tshBits sh) y.1 (y.2.map (·.1))) r with tag := o.sc ++ o.fmt }).addFlags
        (outs.foldl (fun f y => y.2.foldl (fun f v => f ||| v.2) f) 0)).modMyStrip fun t => { t with vstart := 0 }))) ∧
  ∀ row ∈ ([(.tld, false), (.tst, true)] : List ((Gates → FormT → Instr) × Bool)),
    ∀ (g : Gates) (o : FormT) (s s1 s2 : State) (h : Shape), Ready (row.1 g o) s s1 → s1.takeGroups [o.va.toNat] = .ok ⟨⟩ s2 →
      (s2.myStrip.reg o.va.toNat).tag = 25 → s2.myStrip.poisonedAt [o.va.toNat] 8 (List.range 18) = false →
      Shape.check (s2.myStrip.record o.va.toNat) = .ok h →
      (tensorBits (tagFmt h.ftag) ≠ tshBits (s2.myCtx.shapeOf o.tx) →
        exec (row.1 g o) s = .next ((s2.backTo s1).dropAnswers.takeCause 0x0F 0))) ∧
  ((∀ (g : Gates) (o : FormA) (s s1 s2 u : State) (q : Word), Ready (.mattach g o) s s1 → s1.rdS o.sx = .ok q s2 →
    u = s2.modCtx s2.me (fun x => { x with revoked := false }) →
    (u.myCtx.rowsGranted ≠ 0 ∨ q.toNat ∉ [64, 128, 192, 256] →
      exec (.mattach g o) s = .next (u.dropAnswers.takeCause 0x64 q)) ∧
    (u.myCtx.rowsGranted = 0 → q.toNat ∈ [64, 128, 192, 256] →
      (∀ t, u.takeBands (q.toNat / 64) = some t → exec (.mattach g o) s = .next (finished (.mattach g o) s1 t)) ∧
      (u.takeBands (q.toNat / 64) = none → exec (.mattach g o) s = .next (finished (.mattach g o) s1
        (u.modCtx u.me fun x => { x with mgrant := 0 }))))) ∧
  (∀ (g : Gates) (s s1 : State), Ready (.mdetach g) s s1 →
    (s1.myCtx.queue = [] → s1.myCtx.run = none → (∀ m ∈ (s1.cluster (clusterOf s1.me)).matq, m.ctx ≠ s1.me) →
      (∀ d ∈ (s1.cluster (clusterOf s1.me)).drains, d.ctx ≠ s1.me) →
      exec (.mdetach g) s = .next (finished (.mdetach g) s1
        ((s1.giveBands s1.me).modCtx s1.me fun x => { x with revoked := false, mgrant := 0 }))) ∧
    (s1.myCtx.queue ≠ [] ∨ s1.myCtx.run ≠ none → exec (.mdetach g) s = .next (s1.park .matrix))) ∧
  (∀ (g : Gates) (o : FormT) (s s1 : State) (a b : TReg) (mode : AccMode) (row0 : Nat) (p : Mma), Ready (.tmma g o) s s1 →
    a = s1.myCtx.tile o.tx → b = s1.myCtx.tile o.ty → (o.fmt ≠ 0 → a.tag = o.sc ++ o.fmt ∧ b.tag = o.sc ++ o.fmt) →
    (pairMode a.tag b.tag = none → exec (.tmma g o) s = .next (s1.dropAnswers.takeCause 0x05 0)) ∧
    (pairMode a.tag b.tag = some mode → tshCols (s1.myCtx.shapeOf o.tx) = tshCols (s1.myCtx.shapeOf o.ty) →
      tshBits (s1.myCtx.shapeOf o.tx) = tensorBits (tagFmt a.tag) →
      tshBits (s1.myCtx.shapeOf o.ty) = tensorBits (tagFmt b.tag) → row0 = (s1.snapS o.sb).toNat →
      (s1.myCtx.revoked = true → exec (.tmma g o) s = .next (s1.dropAnswers.takeCause 0x66 0)) ∧
      (s1.myCtx.revoked = false → s1.myCtx.rowsGranted < row0 + tshRows (s1.myCtx.shapeOf o.tx) →
        exec (.tmma g o) s = .next (s1.dropAnswers.takeCause 0x65 0)) ∧
      (ClaimHeld s1 row0 (tshRows (s1.myCtx.shapeOf o.tx)) → ¬ RowsTake s1 row0 (tshRows (s1.myCtx.shapeOf o.tx)) mode →
        exec (.tmma g o) s = .next (s1.dropAnswers.takeCause 0x05 0)) ∧
      (ClaimHeld s1 row0 (tshRows (s1.myCtx.shapeOf o.tx)) → RowsTake s1 row0 (tshRows (s1.myCtx.shapeOf o.tx)) mode →
        p = ⟨mode, tagFmt a.tag, tagFmt b.tag, tshRows (s1.myCtx.shapeOf o.tx), tshRows (s1.myCtx.shapeOf o.ty),
          tshCols (s1.myCtx.shapeOf o.tx), a.get (tshBits (s1.myCtx.shapeOf o.tx)),
          b.get (tshBits (s1.myCtx.shapeOf o.ty)), a.scales, b.scales⟩ →
        exec (.tmma g o) s = .next (started (.tmma g o) s1 (s1.multiply row0 p (ticketOf (.tmma g o) s1)))))) ∧
  (∀ (g : Gates) (o : FormT) (s s1 s2 s3 : State) (a : TReg) (mode : AccMode) (rows : List Nat), Ready (.tmmaS g o) s s1 →
    a = s1.myCtx.tile o.tx → pairMode a.tag (o.fmt.setWidth 6) = some mode → tagScaled a.tag = false →
    s1.myStrip.ewB = 4 → s1.takeGroups [o.va.toNat] = .ok ⟨⟩ s2 → s2.myStrip.indexCause o.va.toNat = none →
    s2.myStrip.vl ≤ tshCols (s2.myCtx.shapeOf o.tx) →
    s2.myStrip.poisonedAt [o.va.toNat] 4 (List.range s2.myStrip.vl) = false →
    ClaimHeld s2 (s2.snapS o.sb).toNat (tshRows (s2.myCtx.shapeOf o.tx)) →
    RowsTake s2 (s2.snapS o.sb).toNat (tshRows (s2.myCtx.shapeOf o.tx)) mode →
    (R.gather (List.range s2.myStrip.vl) s2 fun k s =>
      let va := s.snapS o.sa + s2.myStrip.index o.va.toNat k * 128
      if va.toNat % 128 != 0 then .trap 0x22 va s
      else (R.gather (List.range 32) s fun i s =>
        s.readElem s.me { rowElem (va + w64 (4 * i)) 4 .load o.pol with gates := g.scopes }).bind fun ws s => .ok (joinWords ws) s.dropAnswers) =
          .ok rows s3 →
    exec (.tmmaS g o) s = .next (started (.tmmaS g o) s1
      (s3.multiply (s2.snapS o.sb).toNat ⟨mode, tagFmt a.tag, tagFmt (o.fmt.setWidth 6), tshRows (s2.myCtx.shapeOf o.tx), 64,
        s2.myStrip.vl, a.get (tensorBits (tagFmt a.tag)),
        fun j k => rowElement (tagFmt (o.fmt.setWidth 6)) (rows[k]?.getD 0) j, fun _ _ => none, fun _ _ => none⟩
        (ticketOf (.tmmaS g o) s1)))) ∧
  (∀ (s t : State) (row0 : Nat) (p : Mma) (tk : Option Ticket), s.multiply row0 p tk = t →
    t.mem = s.mem ∧ t.cores = s.cores ∧ (t.cluster (clusterOf s.me)).matq =
      (s.cluster (clusterOf s.me)).matq ++ [⟨s.me, tk⟩] ∧
    (t.cluster (clusterOf s.me)).drains = (s.cluster (clusterOf s.me)).drains) ∧
  ∀ (g : Gates) (o : FormT) (s s1 s2 : State) (a st : Word) (widest : Nat), Ready (.tdrain g o) s s1 → a = s1.snapS o.sa →
    st = s1.snapS o.sb →
    (a.toNat % 4 ≠ 0 → exec (.tdrain g o) s = .next (s1.dropAnswers.takeCause 0x22 a)) ∧
    (a.toNat % 4 = 0 → st.toNat % 4 = 0 → ¬ (Config.spWindow ≤ a.toNat ∧ a.toNat < Config.spEnd) →
      s1.myCtx.revoked = false → s1.myCtx.rowsGranted ≠ 0 → s1.matrixBusy s1.me = false →
      (if (ticketOf (.tdrain g o) s1).isSome then s1.admitted a.toNat else .ok 7 s1) = .ok widest s2 →
      (∀ k, ticketOf (.tdrain g o) s1 = some k → k.scp.toNat ≤ widest) →
      exec (.tdrain g o) s = .next (started (.tdrain g o) s1
        (((({ s2 with nextId := s2.nextId + 1 } : State).modCluster (clusterOf s2.me) fun k => { k with drains := k.drains ++
          [⟨s2.nextId, s2.me, s2.myJobSlot, a, st, s1.myCtx.band, s1.myCtx.rowsGranted, ticketOf (.tdrain g o) s1⟩] }).opBegin
            s2.me).modMyStrip fun t => { t with vstart := 0 }))))

/-- R317, R324, R325: the matrix unit's queue completes in order, each operation making its post; a drain sends its touched
values to their homes, each leaving its row, and completes, or stops at a contribution that faults with its cause held; a claim
of a unit that is switched out is revoked once its operations are done. -/
def Obligations.MatrixHappeningsCompleteInOrder : Prop :=
  (∀ (k : Nat) (s : State) (m : MatOp) (r : List MatOp), (s.cluster k).matq = m :: r → exec (.matrixOperationComplete k) s =
    .next (((s.modCluster k fun u => { u with matq := r }).complete m.ctx m.post).settleUnit m.ctx)) ∧
  (∀ (k : Nat) (s : State), (s.cluster k).matq = [] → exec (.matrixOperationComplete k) s = .next s) ∧
  (∀ (n id : Nat) (s : State), s.drainOf n id = none → exec (.drainComplete n id) s = .next s ∧
    ∀ m c, exec (.drainContributionFault n id m c) s = .next s) ∧
  (∀ (n id k : Nat) (s : State) (d : Drain), s.drainOf n id = some (k, d) →
    (∀ t, s.drainValues k d (s.touched k d) = .ok ⟨⟩ t → exec (.drainComplete n id) s = .next (t.finishDrain k d)) ∧
    (∀ c a t, s.drainValues k d (s.touched k d) = .trap c a t →
      exec (.drainComplete n id) s = .next (t.failDrain k d c a)) ∧
    ∀ m c t x, (s.touched k d)[m]? = some x → s.drainValues k d ((s.touched k d).take m) = .ok ⟨⟩ t →
      exec (.drainContributionFault n id m c) s = .next (t.failDrain k d c
        (d.addr + BitVec.ofNat 64 x.1 * d.stride + BitVec.ofNat 64 (4 * x.2)))) ∧
  (∀ (r : AccRow) (j : Nat), j < 64 → (AccRow.leave j r).touch.getLsbD j = false ∧
    (∀ i, i < 64 → i ≠ j → (AccRow.leave j r).touch.getLsbD i = r.touch.getLsbD i) ∧ (AccRow.leave j r).get j = 0) ∧
  ∀ (ctx : Nat) (s s0 : State), s0 = { s with heldBack := s.heldBack.filter (· ≠ .accumulatorRevoke ctx) } →
    (s0.revokeOf ctx = none → exec (.accumulatorRevoke ctx) s = .next s0) ∧
    ∀ n, s0.revokeOf ctx = some n →
      (s0.claimBusy n = true →
        exec (.accumulatorRevoke ctx) s = .next { s0 with heldBack := s0.heldBack ++ [.accumulatorRevoke ctx] }) ∧
      (s0.claimBusy n = false → ∃ u : Byte, u.getLsbD 1 = true ∧ exec (.accumulatorRevoke ctx) s =
        .next ((((s0.giveBands n).modOwner n fun x => { x with mgrant := 0, revoked := true }).savedWrite n 0x630
          (List.replicate 8 0)).savedWrite n 0x47 [u]))

/-- R329 to R340: an instruction of another job raises 0x63; a valid table, class or miss action goes into the shadow bank
(0x67 otherwise, a stall while a copy-back is due); `rcommit` flips the banks and its copy-back makes them equal; `rstat` reads
a counter, 0 above 23; `rrun` starts a run, waits for it, and completes when its records have left, or raises 0x62 at the
lowest trapped position; in a cycle the records of the chain move on by one station, a recirculating record is admitted before
a new one, and each is looked up at its station, where it stays, recirculates or leaves; the first record that has left writes
its outputs. -/
def Obligations.RelayRunsRecordsThroughItsChain : Prop :=
  (∀ (s : State) (k : State → R PUnit), s.myRelay.job ≠ some (slotJob (s.slot s.me)).toNat → s.onRelay k = .trap 0x63 0 s) ∧
  (∀ i ∈ ([.rtw, .rclass, .rmiss, .rcommit] : List (Gates → FormY → Instr)), ∀ (g : Gates) (o : FormY) (s s1 : State),
    Ready (i g o) s s1 → s1.relayMine = false → exec (i g o) s = .next (s1.dropAnswers.takeCause 0x63 0)) ∧
  (∀ (g : Gates) (o : FormY) (s s1 s2 s3 s4 : State) (a : Word) (h body : List Byte), Ready (.rtw g o) s s1 →
    s1.relayMine = true → s1.rdS o.sa = .ok a s2 →
    (a.toNat % 32 ≠ 0 → exec (.rtw g o) s = .next (s2.dropAnswers.takeCause 0x22 a)) ∧
    (a.toNat % 32 = 0 → s2.image a.toNat 32 = .ok h s3 →
      s3.image (a.toNat + 32) (32 * natAt h 6 2) = .ok body s4 →
      (tableHead h = false ∨ entriesOf (natAt h 2 1) o.stn.toNat (natAt h 6 2) body = none →
        exec (.rtw g o) s = .next (s4.dropAnswers.takeCause 0x67 a)) ∧
      ∀ es, tableHead h = true → entriesOf (natAt h 2 1) o.stn.toNat (natAt h 6 2) body = some es →
        (s4.myRelay.commit = none → exec (.rtw g o) s = .next (finished (.rtw g o) s1
          (s4.modRelay (clusterOf s4.me) fun r => r.modBank (!r.act) (RelayBank.modStation o.stn.toNat
            (Station.load (natAt h 2 1) (natAt h 4 2) es))))) ∧
        (s4.myRelay.commit ≠ none → exec (.rtw g o) s = .next (s4.park .copyback)))) ∧
  (∀ (g : Gates) (o : FormY) (s s1 s2 s3 s4 : State) (a n : Word) (b : List Byte) (c : RelayClass), Ready (.rclass g o) s s1 →
    s1.relayMine = true → s1.rdS o.sa = .ok a s2 → s2.rdS o.sb = .ok n s3 → a.toNat % 64 = 0 →
    s3.image a.toNat 64 = .ok b s4 →
    (15 < n.toNat ∨ classOf b = none → exec (.rclass g o) s = .next (s4.dropAnswers.takeCause 0x67 a)) ∧
    (n.toNat ≤ 15 → classOf b = some c → s4.myRelay.commit = none → exec (.rclass g o) s = .next (finished (.rclass g o) s1
      (s4.modRelay (clusterOf s4.me) fun r => r.modBank (!r.act) fun b => { b with classes := aset b.classes n.toNat c })))) ∧
  (∀ (g : Gates) (o : FormY) (s s1 s2 : State) (a : Word), Ready (.rmiss g o) s s1 → s1.relayMine = true →
    s1.rdS o.sa = .ok a s2 →
    (actionOk a o.stn.toNat = false → exec (.rmiss g o) s = .next (s2.dropAnswers.takeCause 0x67 a)) ∧
    (actionOk a o.stn.toNat = true → s2.myRelay.commit = none → exec (.rmiss g o) s = .next (finished (.rmiss g o) s1
      (s2.modRelay (clusterOf s2.me) fun r => r.modBank (!r.act) (RelayBank.setMiss o.stn.toNat a))))) ∧
  (∀ (g : Gates) (o : FormY) (s s1 : State), Ready (.rcommit g o) s s1 → s1.relayMine = true → s1.myRelay.commit = none →
    exec (.rcommit g o) s = .next (started (.rcommit g o) s1 (s1.modRelay (clusterOf s1.me) fun r =>
      { r with act := !r.act, commit := some ⟨r.act, s1.me, ticketOf (.rcommit g o) s1⟩ }))) ∧
  (∀ (k : Nat) (s : State) (m : RelayCommit), (s.cluster k).relay.commit = some m → (s.cluster k).relay.mayCopy = true →
    exec (.rcommitCopyback k) s = .next ((s.modRelay k Relay.copyBack).complete m.ctx m.post) ∧
    ∀ r : Relay, (Relay.copyBack r).bank0 = (Relay.copyBack r).bank1 ∧ (Relay.copyBack r).commit = none ∧
      (Relay.copyBack r).act = r.act ∧ (Relay.copyBack r).bank r.act = r.bank r.act) ∧
  (∀ (g : Gates) (o : FormA) (s s1 s2 s3 : State) (n : Word), Ready (.rstat g o) s s1 → s1.relayMine = true →
    s1.rdS o.sy = .ok n s2 → s2.dstReady o.sx = .ok ⟨⟩ s3 → exec (.rstat g o) s = .next (finished (.rstat g o) s1
      (s3.setS o.sx (if n.toNat < 24 then BitVec.ofNat 64 (aget 0 s2.myRelay.counters n.toNat) else 0)))) ∧
  (∀ (g : Gates) (o : FormY) (s s1 : State) (b : Nat), formCause (.rrun g o) false s.cur.party.place = none →
    s.myRegion = none → b = s.myStrip.stripb →
    (∀ tk q u, s.myStrip.kept = some tk → s.relayMine = true → s.runOfStrip s.me b = some q →
      u = s.modRelay (clusterOf s.me) (fun r => { r with runs := r.runs.filter (·.id != q.id) }) →
      (s.myRelay.over q = false → exec (.rrun g o) s = .next (s.park (.relayRun b))) ∧
      (s.myRelay.over q = true → q.trapped = none → exec (.rrun g o) s =
        .next ((((u.modMyStrip fun t => { (if 0 < t.vl then t.tagGroup o.vd.toNat 8 5 else t) with
          vstart := 0, kept := none }).complete s.me tk).opEnd
          s.me).dropAnswers.advance)) ∧
      ∀ p c n, s.myRelay.over q = true → q.trapped = some (p, c, n) → exec (.rrun g o) s =
        .next ((u.modMyStrip fun t => { t with vstart := p }).dropAnswers.takeCause c (BitVec.ofNat 64 n))) ∧
    (s.myStrip.kept = none → g.post = none → s.waitGate g = .ok ⟨⟩ s1 → s1.relayMine = true →
      s1.runOfStrip s1.me s1.myStrip.stripb = none →
      (s1.myStrip.ewB ≠ 4 → exec (.rrun g o) s = .next (s1.dropAnswers.takeCause 0x0F 0)) ∧
      ∀ s2, s1.beginRun o none = .ok ⟨⟩ s2 → exec (.rrun g o) s = .next (s2.park (.relayRun s1.myStrip.stripb)))) ∧
  (∀ (k : Nat) (s u : State), u = s.modRelay k (fun r =>
      { r with chain := r.chain.map fun x => { x with station := x.station + 1 } }) →
    (∀ (x : RelayRec) (rest : List RelayRec), (u.cluster k).relay.recirc = x :: rest → exec (.relayAdmission k) s =
      .next ((u.modRelay k fun r => Relay.enter { r with recirc := rest } x).modRelay k Relay.stations)) ∧
    (∀ q, (u.cluster k).relay.recirc = [] → (u.cluster k).relay.nextRun = some q →
      exec (.relayAdmission k) s = .next ((u.admitNext k q).modRelay k Relay.stations)) ∧
    ((u.cluster k).relay.recirc = [] → (u.cluster k).relay.nextRun = none →
      exec (.relayAdmission k) s = .next (u.modRelay k Relay.stations))) ∧
  (∀ (r : Relay) (x : RelayRec), (Relay.enter r x).chain = r.chain ++ [{ x with station := 0 }] ∧
    (r.run? x.run = none → r.station x = r) ∧ ∀ q e, r.run? x.run = some q → e = x.look (r.bank x.bank) ((r.bank x.bank).class q.slot) →
      (e.after = .stays → (r.station x).chain = r.chain ++ [e.record] ∧ (r.station x).recirc = r.recirc) ∧
      (e.after = .again → (r.station x).chain = r.chain ∧ (r.station x).recirc = insertBy (·.first) e.record r.recirc) ∧
      (e.after = .leaves → (r.station x).chain = r.chain ∧ (r.station x).leaving = r.leaving ++ [e.record])) ∧
  (∀ (k : Nat) (s : State), (s.cluster k).relay.leaving = [] → exec (.relayRecordLeave k) s = .next s) ∧
  ∀ (k : Nat) (s : State) (x : RelayRec) (rest : List RelayRec), (s.cluster k).relay.leaving = x :: rest →
    ∃ t, exec (.relayRecordLeave k) s = .next t ∧ (t.cluster k).relay.leaving = rest ∧ t.mem = s.mem ∧ t.cores = s.cores

/-- R357, R359, R364, R365, R368: each Lortar scalar word computes its row on the native registers of R368, which the scratch
its native code leaves never touches; a branch goes to the word IMM away, which must be a word of its kernel (0x01); `lshape`
grants MT and NT; `lwait` waits; `lfence` fences far. R351, R358, R360 to R367, R369, R380: a tensor word writes its result for
each active element in order, and goes on at the element at which it stopped; `xld`, `xst` and `xmma` take a place in their
slot, the elements whose effect comes later having it when LORTAR_ASYNC_COMPLETE ends them; `xmma` needs the kernel's claim
(0x65, 0x66); `kend` waits for everything and leaves the kernel. -/
def Obligations.LortarWordsRun : Prop :=
  ((∀ (b : LBar) (async : Bool) (s s1 : State), s.lwaits b.wait = .ok ⟨⟩ s1 →
    (∀ tl, barTl b async = some tl → 2 ^ 64 ≤ (s1.myCtx.timeline tl).p + 1 → s.lbegin b async = .trap 0x85 0 s1) ∧
    ((∀ tl, barTl b async = some tl → (s1.myCtx.timeline tl).p + 1 < 2 ^ 64) → s.lbegin b async = .ok ⟨⟩ s1.scratched)) ∧
  (∀ (s : State) (k : BitVec 5), s.scratched.mem = s.mem ∧ s.scratched.cur = s.cur ∧
    s.scratched.myCtx.sreg (kReg k) = s.myCtx.sreg (kReg k)) ∧
  (∀ k : BitVec 5, kReg k = if k = 0 then 0 else if k.toNat ≤ 8 then BitVec.ofNat 6 (k.toNat + 3)
    else BitVec.ofNat 6 (k.toNat + 23)) ∧
  (∀ row ∈ ([(.kadd, fun a b => BitVec.ofNat 64 (a.toNat + b.toNat)),
      (.ksub, fun a b => BitVec.ofInt 64 ((a.toNat : Int) - b.toNat)), (.kmul, fun a b => BitVec.ofNat 64 (a.toNat * b.toNat)),
      (.kand, fun a b => a &&& b), (.kor, fun a b => a ||| b), (.kxor, fun a b => a ^^^ b),
      (.ksll, fun a b => BitVec.ofNat 64 (a.toNat * 2 ^ (b.toNat % 64))),
      (.ksrl, fun a b => BitVec.ofNat 64 (a.toNat / 2 ^ (b.toNat % 64))),
      (.ksra, fun a b => BitVec.ofInt 64 (a.toInt / 2 ^ (b.toNat % 64))),
      (.kslt, fun a b => if a.toInt < b.toInt then 1 else 0)] : List ((LFormS → Instr) × (Word → Word → Word))),
    ∀ (o : LFormS) (s s1 s2 s3 s4 s5 t : State) (a b : Word), Ready (row.1 o) s s1 → s1.lbegin o.bar false = .ok ⟨⟩ s2 →
      s2.rdS (kReg o.ka) = .ok a s3 → s3.rdS (kReg o.kb) = .ok b s4 → s4.dstReady (kReg o.kd) = .ok ⟨⟩ s5 →
      (s5.setS (kReg o.kd) (row.2 a b)).lsignal o.bar = .ok ⟨⟩ t → exec (row.1 o) s = .next (finished (row.1 o) s1 t)) ∧
  (∀ (o : LFormS) (s s1 s2 s3 s4 t : State) (a : Word), Ready (.kaddi o) s s1 → s1.lbegin o.bar false = .ok ⟨⟩ s2 →
    s2.rdS (kReg o.ka) = .ok a s3 → s3.dstReady (kReg o.kd) = .ok ⟨⟩ s4 →
    (s4.setS (kReg o.kd) (a + o.imm.signExtend 64)).lsignal o.bar = .ok ⟨⟩ t →
    exec (.kaddi o) s = .next (finished (.kaddi o) s1 t)) ∧
  (∀ (o : LFormS) (s s1 s2 s3 t : State), Ready (.kli o) s s1 → s1.lbegin o.bar false = .ok ⟨⟩ s2 →
    s2.dstReady (kReg o.kd) = .ok ⟨⟩ s3 → (s3.setS (kReg o.kd) (o.imm.signExtend 64)).lsignal o.bar = .ok ⟨⟩ t →
    exec (.kli o) s = .next (finished (.kli o) s1 t)) ∧
  (∀ row ∈ ([(.kbeq, fun a b => a = b), (.kbne, fun a b => a ≠ b), (.kblt, fun a b => a.toInt < b.toInt),
      (.kbge, fun a b => b.toInt ≤ a.toInt)] : List ((LFormS → Instr) × (Word → Word → Prop))),
    ∀ (o : LFormS) (s s1 s2 s3 s4 : State) (a b : Word), Ready (row.1 o) s s1 → s1.lbegin o.bar false = .ok ⟨⟩ s2 →
      s2.rdS (kReg o.ka) = .ok a s3 → s3.rdS (kReg o.kb) = .ok b s4 →
      (∀ t, ¬ row.2 a b → s4.lsignal o.bar = .ok ⟨⟩ t → exec (row.1 o) s = .next (finished (row.1 o) s1 t)) ∧
      ∀ s5 t, row.2 a b → s4.lbranch o.imm = .ok ⟨⟩ s5 → s5.lsignal o.bar = .ok ⟨⟩ t →
        exec (row.1 o) s = .next (finished (row.1 o) s1 t)) ∧
  (∀ (o : LFormS) (s s1 s2 s3 t : State), Ready (.kjmp o) s s1 → s1.lbegin o.bar false = .ok ⟨⟩ s2 →
    s2.lbranch o.imm = .ok ⟨⟩ s3 → s3.lsignal o.bar = .ok ⟨⟩ t → exec (.kjmp o) s = .next (finished (.kjmp o) s1 t)) ∧
  (∀ (s : State) (imm : BitVec 30) (j : Job) (r : Translation) (g : Image) (k : Kernel) (dest : Int),
    s.runAt s.me s.cur.pc.toNat = some (j, r) → j.image = some g → g.kernels[r.kidx]? = some k →
    dest = ((s.cur.pc.toNat - r.base) / 64 : Nat) - 1 + imm.toInt →
    (0 ≤ dest → dest < (g.words k : Int) →
      s.lbranch imm = .ok ⟨⟩ (s.withNext (BitVec.ofNat 64 (r.base + 64 * (dest.toNat + 1))))) ∧
    (dest < 0 ∨ (g.words k : Int) ≤ dest → s.lbranch imm = .trap 0x01 0 s)) ∧
  (∀ (o : LFormS) (s s1 s2 s3 s4 s5 s6 t : State) (m n : Word) (mt nt : Nat), Ready (.lshape o) s s1 →
    s1.lbegin o.bar false = .ok ⟨⟩ s2 → s2.rdS (kReg o.ka) = .ok m s3 → s3.rdS (kReg o.kb) = .ok n s4 →
    mt = (if m = 0 ∨ n = 0 then 0 else min m.toNat 64) →
    nt = (if m = 0 ∨ n = 0 then 0 else min n.toNat (1024 / fmtBits (o.imm.toNat % 32))) →
    (s4.modCtx s4.me fun x => (x.setSreg 20 (BitVec.ofNat 64 mt)).setSreg 21 (BitVec.ofNat 64 nt)).dstReady (kReg o.kd) =
      .ok ⟨⟩ s5 →
    (s5.setS (kReg o.kd) (BitVec.ofNat 64 mt)).dstReady (kReg (o.imm.extractLsb' 5 5)) = .ok ⟨⟩ s6 →
    (s6.setS (kReg (o.imm.extractLsb' 5 5)) (BitVec.ofNat 64 nt)).lsignal o.bar = .ok ⟨⟩ t →
    exec (.lshape o) s = .next (finished (.lshape o) s1 t)) ∧
  (∀ (o : LFormS) (s s1 s2 t : State), Ready (.lwait o) s s1 → s1.lbegin o.bar false = .ok ⟨⟩ s2 →
    s2.lsignal o.bar = .ok ⟨⟩ t → exec (.lwait o) s = .next (finished (.lwait o) s1 t)) ∧
  ∀ (o : LFormX) (s s1 s2 s3 s4 t : State), Ready (.lfence o) s s1 → s1.lbegin o.bar false = .ok ⟨⟩ s2 →
    s2.waitAll = .ok ⟨⟩ s3 → s3.vsyncs = .ok ⟨⟩ s4 → s4.myCtx.imprecise = [] →
    ((scopeCores (coreOf s4.me) o.scp.toNat).foldl State.serialise (s4.acquire (coreOf s4.me) o.scp.toNat)).lsignal o.bar =
      .ok ⟨⟩ t → exec (.lfence o) s = .next (finished (.lfence o) s1 t)) ∧
  ((∀ (s : State) (o : LFormX) (f : Nat → Nat → State → R (Nat × Flags)), s.lmap o f =
    (lsteps (fun (e : Nat × Nat) s => (f e.1 e.2 s).bind fun v s =>
      (s.xWrite o.xd (fmtBits o.fmt.toNat / 8) e.1 e.2 v.1).andThen fun s => R.done (s.addFlags v.2))
      ((List.range s.mtOf).flatMap fun i => (List.range (min s.ntOf (1024 / fmtBits o.fmt.toNat))).map fun j => (i, j))
      0 s).andThen fun s => R.done s.ldone) ∧
  (∀ (f : Nat × Nat → State → R PUnit) (e : Nat × Nat) (r : List (Nat × Nat)) (n : Nat) (s t : State),
    (n < s.myCtx.lrow → lsteps f (e :: r) n s = lsteps f r (n + 1) s) ∧
    (s.myCtx.lrow ≤ n → f e s = .ok ⟨⟩ t →
      lsteps f (e :: r) n s = lsteps f r (n + 1) (t.modCtx t.me fun x => { x with lrow := n + 1 })) ∧
    ∀ c v, s.myCtx.lrow ≤ n → f e s = .trap c v t → lsteps f (e :: r) n s = .trap c v t) ∧
  (∀ (o : LFormX) (s s1 s2 s3 s4 t : State) (a : Word), Ready (.xbcast o) s s1 → s1.lbegin o.bar false = .ok ⟨⟩ s2 →
    s2.rdS (kReg o.ka) = .ok a s3 → s3.lmap o (fun _ _ s => .ok (a.toNat % 2 ^ fmtBits o.fmt.toNat, 0) s) = .ok ⟨⟩ s4 →
    s4.lsignal o.bar = .ok ⟨⟩ t → exec (.xbcast o) s = .next (finished (.xbcast o) s1 t)) ∧
  (∀ row ∈ ([(.xadd, fun sat => if sat then ivSadd else ivAdd, fun f m z a b _ => farith .add f m z a b 0),
      (.xsub, fun sat => if sat then ivSsub else ivSub, fun f m z a b _ => farith .sub f m z a b 0),
      (.xmul, fun _ => ivMul, fun f m z a b _ => farith .mul f m z a b 0),
      (.xfma, fun _ => ivMul, fun f m z a b c => farith .fma f m z a b c),
      (.xmin, fun _ => ivMin, fun f _ z a b _ => fminmax false f z a b),
      (.xmax, fun _ => ivMax, fun f _ z a b _ => fminmax true f z a b)] :
      List ((LFormX → Instr) × (Bool → Bool → Nat → Nat → Nat → Nat) ×
        (Nat → RMode → Bool → Nat → Nat → Nat → Nat × Flags))),
    ∀ (o : LFormX) (s s1 s2 s3 t : State) (w : Nat), Ready (row.1 o) s s1 → s1.lbegin o.bar false = .ok ⟨⟩ s2 →
      w = fmtBits o.fmt.toNat / 8 →
      s2.lmap o (fun i j s => (s.xRead o.xa w i j).bind fun a s => (s.xRead o.xb w i j).bind fun b s =>
        if isIntFmt o.fmt.toNat then .ok (row.2.1 (o.satm == 1) (isSignedFmt o.fmt.toNat) (8 * w) a b, 0) s
        else (s.xRead o.xd w i j).bind fun d s => .ok (row.2.2 o.fmt.toNat (rmOf o.rnd.toNat) false a b d) s) = .ok ⟨⟩ s3 →
      s3.lsignal o.bar = .ok ⟨⟩ t → exec (row.1 o) s = .next (finished (row.1 o) s1 t)) ∧
  (∀ (o : LFormX) (s s1 s2 : State), Ready (.xcvt o) s s1 → s1.lbegin o.bar false = .ok ⟨⟩ s2 →
    convertible o.fmt.toNat o.ka.toNat = true → ∀ s3 t cols,
      cols = min s2.ntOf (min (1024 / fmtBits o.ka.toNat) (1024 / fmtBits o.fmt.toNat)) →
      lsteps (fun (i : Nat) (s : State) => (R.gather (List.range cols) s fun j s => s.xRead o.xa (fmtBits o.fmt.toNat / 8) i j).bind
        fun vs s => R.each ((List.range cols).zip vs) s fun p s =>
          (s.xWrite o.xd (fmtBits o.ka.toNat / 8) i p.1 (convert o.fmt.toNat none o.ka.toNat none (rmOf o.rnd.toNat) 0
            (o.satm == 1) false p.2).1).andThen fun s => R.done (s.addFlags (convert o.fmt.toNat none o.ka.toNat none
              (rmOf o.rnd.toNat) 0 (o.satm == 1) false p.2).2)) (List.range s2.mtOf) 0 s2 = .ok ⟨⟩ s3 →
      s3.ldone.lsignal o.bar = .ok ⟨⟩ t → exec (.xcvt o) s = .next (finished (.xcvt o) s1 t)) ∧
  (∀ row ∈ ([(.xld, 0), (.xst, 1)] : List ((LFormX → Instr) × Nat)),
    ∀ (o : LFormX) (s s1 s2 s3 s4 s5 t : State) (a b : Word), Ready (row.1 o) s s1 → s1.lbegin o.bar true = .ok ⟨⟩ s2 →
      s2.rdS (kReg o.ka) = .ok a s3 → s3.rdS (kReg o.kb) = .ok b s4 → s4.ordBefore o.ord = .ok ⟨⟩ s5 →
      s5.lasync row.2 o a b = .ok ⟨⟩ t → exec (row.1 o) s = .next (finished (row.1 o) s1 t)) ∧
  (∀ (o : LFormX) (s s1 s2 s3 : State) (k : Word), Ready (.xmma o) s s1 → s1.lbegin o.bar true = .ok ⟨⟩ s2 →
    s2.tileScratched.rdS (kReg o.ka) = .ok k s3 →
    (s3.myCtx.revoked = true → exec (.xmma o) s = .next (s3.dropAnswers.takeCause 0x66 0)) ∧
    (s3.myCtx.revoked = false → s3.myCtx.rowsGranted = 0 → exec (.xmma o) s = .next (s3.dropAnswers.takeCause 0x65 0)) ∧
    ∀ t, s3.myCtx.revoked = false → s3.myCtx.rowsGranted ≠ 0 →
      s3.lasync 2 o 0 (BitVec.ofNat 64 (min k.toNat (1024 / fmtBits o.fmt.toNat))) = .ok ⟨⟩ t →
      exec (.xmma o) s = .next (finished (.xmma o) s1 t)) ∧
  (∀ (s s1 s2 s3 : State) (kind n : Nat) (o : LFormX) (base stride : Word) (q q' : LOp),
    s.lopAt kind o base stride = (q, s1) → State.lopIssue q.rest q s1 = .ok q' s2 → s2.countOp q'.slot = .ok n s3 →
    s.lasync kind o base stride = .ok ⟨⟩ ((if o.ord = 1 then s3.acquire (coreOf s3.me) o.scp.toNat else s3).keepLop
      { q' with num := n })) ∧
  (∀ (q p : LOp) (s t : State) (e : Nat × Nat) (r : List (Nat × Nat)), p = { q with rest := e :: r } →
    (p.early e = true → s.lopOne p e = .ok ⟨⟩ t → State.lopIssue (e :: r) q s = State.lopIssue r p t) ∧
    (p.early e = false → s.lopCheck p e = .ok ⟨⟩ t →
      State.lopIssue (e :: r) q s = State.lopIssue r { p with todo := p.todo ++ [e] } t) ∧
    ∀ c v u, (if p.early e then s.lopOne p e else s.lopCheck p e) = .trap c v t → State.lopRun p p.todo t = .ok ⟨⟩ u →
      State.lopIssue (e :: r) q s = .trap c v (u.keepLop { p with todo := [] })) ∧
  (∀ (c id : Nat) (s : State) (q : LOp), (s.ctx c).lops.find? (·.id == id) = some q → slotState (s.slot c) = 1 → q.num ≠ 0 →
    (q.form.ord ≠ 2 ∨ ∀ p ∈ (s.ctx c).lops, q.id ≤ p.id) →
    (∀ t, State.lopRun q q.todo { s with cur := q.latch c } = .ok ⟨⟩ t →
      exec (.lortarAsyncComplete c id) s = .next ((t.dropAnswers.modCtx c fun x =>
        { x with lops := x.lops.filter (·.id != id) }).complete c (some ⟨q.slot, q.num, 0⟩))) ∧
    ∀ k v t, State.lopRun q q.todo { s with cur := q.latch c } = .trap k v t →
      exec (.lortarAsyncComplete c id) s = .next (t.dropAnswers.later (.trapDelivery ⟨c, .ctl⟩ k v false))) ∧
  ∀ (o : LFormS) (s s1 s2 s3 s4 t : State), Ready (.kend o) s s1 → s1.lbegin o.bar false = .ok ⟨⟩ s2 →
    s2.waitAll = .ok ⟨⟩ s3 → s3.vsyncs = .ok ⟨⟩ s4 → s4.lortarExit = .ok ⟨⟩ t →
    exec (.kend o) s = .next ((finished (.kend o) s1 t).settleHalt s.me))

/-- R36, R427, R429, R431: GO binds an empty or complete slot afresh, resumes a saved one, and at a running one is counted and
does nothing; a unit that has ended runs nothing and its slot is complete; STOP and a pre-emption save a running context, once
no instruction of it waits for a peer's answer; at the end of a handler DISP 0 resumes the context, DISP 2 leaves it, and any
other cancels the unit. -/
def Obligations.SlotsGoStopAndResume : Prop :=
  (∀ (c : Nat) (s t : State), t = { s with bind := aset s.bind c (s.slot c &&& ~~~ (1#512)) } →
    (slotState (s.slot c) = 1 → exec (.go c) s = .next (t.modTele fun k => { k with goign := k.goign + 1 })) ∧
    (slotState (s.slot c) ≠ 1 → s.slotEnded c = true → exec (.go c) s = .next (t.setSlotState c 3)) ∧
    (slotState (s.slot c) = 2 → s.slotEnded c = false → exec (.go c) s =
      .next (if ((t.resumeCtx c).ctx c).halted then (t.resumeCtx c).settleUnit c else t.resumeCtx c)) ∧
    (slotState (s.slot c) = 0 ∨ slotState (s.slot c) = 3 → s.slotEnded c = false →
      exec (.go c) s = .next (t.bindFresh c) ∧ slotState ((t.bindFresh c).slot c) = 1 ∧
      ((t.bindFresh c).slot c).getLsbD 0 = false ∧
      ((t.bindFresh c).ctx c).pc = (s.slot c).extractLsb' 448 64 ∧
      ((t.bindFresh c).ctx c).seed = (s.slot c).extractLsb' 160 32 ∧
      ((t.bindFresh c).ctx c).sreg 2 = (s.slot c).extractLsb' 256 64 ∧
      ((t.bindFresh c).ctx c).sreg 3 = (s.slot c).extractLsb' 320 64 ∧
      (∀ i < 8, ((t.bindFresh c).ctx c).sreg (BitVec.ofNat 6 (4 + i)) =
        w64 (t.jobNat (slotJob (s.slot c)) (((s.slot c).extractLsb' 384 64).toNat + 8 * i) 8)) ∧
      ((t.bindFresh c).ctx c).v = Ctx.zero.v ∧ ((t.bindFresh c).ctx c).vl = 0)) ∧
  (∀ (c : Nat) (s t : State), t = { s with heldBack := s.heldBack.filter (· ≠ .preemptionRequest c) } →
    (slotState (s.slot c) = 1 → exec (.stop c) s = .next ((s.setStop c true).later (.preemptionRequest c)) ∧
      (t.inExecution c = true → exec (.preemptionRequest c) s =
        .next { t with heldBack := t.heldBack ++ [.preemptionRequest c] }) ∧
      (t.inExecution c = false →
        exec (.preemptionRequest c) s = .next (((t.preempt c).noteStopped c).later (.stewardBind (dieOf c)))) ∧
      slotState ((t.preempt c).slot c) = 2 ∧ ((t.preempt c).slot c).getLsbD 3 = false) ∧
    (slotState (s.slot c) ≠ 1 → exec (.stop c) s = .next (s.setStop c false) ∧ exec (.preemptionRequest c) s = .next t)) ∧
  ∀ (c : Nat) (s : State),
    (slotState (s.slot c) ≠ 2 ∨ s.movedOn c = true → exec (.handlerComplete c) s = .next s) ∧
    (slotState (s.slot c) = 2 → s.movedOn c = false →
      (s.disp c = 0 → exec (.handlerComplete c) s = .next ((s.rehalt c).resumeCtx c)) ∧
      (s.disp c = 2 → exec (.handlerComplete c) s = .next s) ∧
      ∀ l u, s.disp c ≠ 0 → s.disp c ≠ 2 → s.unitOf c = some (l, u) →
        exec (.handlerComplete c) s = .next (s.cancelUnit l u))

/-- R295, R423 to R428: a bind record holds each field at its place; a Steward's write of a slot keeps STATE and calls GO and
STOP, a write of the key rack keeps TENURE, HOLDER and HELD; a Steward's decision binds the first waiting unit, or its whole
gang, or makes room for it, or asks for the mode its job wishes. R104, R419 to R422, R424, R425: a unit whose quantum is over
stops for a waiting one of its priority or above, a gang's does not; the L2 mode of a die changes only while none of its
contexts is bound; an edge whose predecessor has ended flushes its list, closes a streaming watermark, and cancels the launch
when the predecessor was cancelled or the mark cannot be written. -/
def Obligations.StewardsBindAndQuantaEnd : Prop :=
  ((∀ (job : BitVec 32) (l : Launch) (u : Unit') (saved : Bool), l.lidx < 2 ^ 32 → u.no < 2 ^ 12 → l.prio < 8 → l.splen < 256 →
    (bindRecord job l u saved).getLsbD 0 = true ∧ (bindRecord job l u saved).getLsbD 3 = false ∧
    slotState (bindRecord job l u saved) = (if saved then 2 else 0) ∧ slotJob (bindRecord job l u saved) = job ∧
    slotLidx (bindRecord job l u saved) = l.lidx ∧ slotUnit (bindRecord job l u saved) = u.no ∧
    slotPrio (bindRecord job l u saved) = l.prio ∧
    slotSave (bindRecord job l u saved) = u.savea.toNat % 2 ^ 57 / 128 * 128 ∧
    (bindRecord job l u saved).extractLsb' 448 64 = l.entry ∧ (bindRecord job l u saved).extractLsb' 384 64 = u.argp ∧
    (bindRecord job l u saved).extractLsb' 320 64 = u.tblk ∧ (bindRecord job l u saved).extractLsb' 256 64 = u.stack) ∧
  (∀ (c : Nat) (v : BitVec 512) (s : State), ∃ t, exec (.registerWrite (.slot c v)) s = .next t ∧
    slotState (t.slot c) = slotState (s.slot c) ∧ slotJob (t.slot c) = slotJob v ∧ slotLidx (t.slot c) = slotLidx v ∧
    slotUnit (t.slot c) = slotUnit v ∧ slotPrio (t.slot c) = slotPrio v ∧ slotSave (t.slot c) = slotSave v ∧
    (t.slot c).extractLsb' 192 11 = 0 ∧ (t.slot c).extractLsb' 77 4 = 0 ∧
    t.agenda = s.agenda ++ (if v.getLsbD 3 then [.stop c] else []) ++ (if v.getLsbD 0 then [.go c] else [])) ∧
  (∀ (e job : Nat) (v : BitVec 128) (s : State), e < 4096 → ∃ t, exec (.registerWrite (.key e job v)) s = .next t ∧
    (t.key e).valid = v.getLsbD 84 ∧ (t.key e).scope = v.extractLsb' 81 3 ∧ (t.key e).lenm1 = v.extractLsb' 57 24 ∧
    (t.key e).base = v.extractLsb' 7 50 ∧ (t.key e).tenure = (s.key e).tenure ∧ (t.key e).holder = (s.key e).holder ∧
    (t.key e).held = (s.key e).held ∧ ∀ n, n ≠ e → t.key n = s.key n) ∧
  (∀ (die : Nat) (s t : State), t = (s.freeRelays die).modDie die (fun d => { d with ring := [] }) →
    (t.waitingOn die = [] → exec (.stewardBind die) s = .next t) ∧
    ∀ l u r grp, t.waitingOn die = (l, u) :: r → grp = (if l.gang then t.gangOf l else [(l, u)]) →
      (∀ m, t.modeAsked die ((l, u) :: r) = some m → exec (.stewardBind die) s =
        .next (if t.dieBusy die then t else t.later (.l2ModeChange die m))) ∧
      (t.modeAsked die ((l, u) :: r) = none → t.plan grp [] = none →
        exec (.stewardBind die) s = .next (t.makeRoom grp die l.prio)) ∧
      (∀ p w, t.modeAsked die ((l, u) :: r) = none → t.plan grp [] = some p →
        w = (p.foldl (fun s (l, u, c) => s.bindUnit l u c) t).updateEligible →
        exec (.stewardBind die) s = .next (if r.isEmpty then w else w.later (.stewardBind die)))) ∧
  ∀ (s : State) (grp : List (Launch × Unit')) (p : List (Launch × Unit' × Nat)), s.plan grp [] = some p →
    p.map (fun q => (q.1, q.2.1)) = grp ∧
    ∀ q ∈ p, q.2.2 ∈ s.freeOn (q.1.dieOfUnit q.2.1.no) ∧ s.suits q.1 q.2.1 q.2.2 = true) ∧
  ((∀ (c : Nat) (s : State) (l : Launch) (u : Unit'), s.unitOf c = some (l, u) →
    (slotState (s.slot c) ≠ 1 ∨ l.gang = true → exec (.quantumExpiry c) s = .next s) ∧
    (slotState (s.slot c) = 1 → l.gang = false →
      ((s.modeAsked (dieOf c) (s.waitingOn (dieOf c))).isSome = true ∨
        (s.freeOn (dieOf c) = [] ∧ ∃ w ∈ s.waitingOn (dieOf c), l.prio ≤ w.1.prio) →
        exec (.quantumExpiry c) s = .next (s.switchOut c)) ∧
      (s.modeAsked (dieOf c) (s.waitingOn (dieOf c)) = none →
        (s.freeOn (dieOf c) ≠ [] ∨ ∀ w ∈ s.waitingOn (dieOf c), w.1.prio < l.prio) →
        exec (.quantumExpiry c) s = .next s))) ∧
  (∀ (die : Nat) (m : Bool) (s : State), (s.dieBusy die = true → exec (.l2ModeChange die m) s = .next s) ∧
    (s.dieBusy die = false → ∃ t, exec (.l2ModeChange die m) s = .next t ∧ (t.die die).part = m ∧
      t.agenda = (s.emptyDie die).agenda ++ [.stewardBind die])) ∧
  ∀ (job lidx edge : Nat) (s t : State) (l : Launch) (e : Edge) (j : Job), s.launch job lidx = some l →
    l.edges[edge]? = some e → s.jobAt job = some j →
    t = (e.flush.foldl (fun s f => s.flushEntry j.root f) s).modLaunch job lidx (Launch.satisfy edge) →
    (((s.launch job e.pred).bind fun p => p.ended) = none ∨ e.satisfied = true →
      exec (.edgeFlush job lidx edge) s = .next s) ∧
    ∀ st, ((s.launch job e.pred).bind fun p => p.ended) = some st → e.satisfied = false →
      (st = .cancelled → exec (.edgeFlush job lidx edge) s =
        .next (t.cancelLevel (handle 2 job lidx 0 0)).2.updateEligible) ∧
      (st ≠ .cancelled → e.streaming = false → exec (.edgeFlush job lidx edge) s = .next t.updateEligible) ∧
      (st ≠ .cancelled → e.streaming = true →
        (∀ u, t.storeMark job e.wmark (BitVec.allOnes 64) = some u →
          exec (.edgeFlush job lidx edge) s = .next u.updateEligible) ∧
        (t.storeMark job e.wmark (BitVec.allOnes 64) = none →
          exec (.edgeFlush job lidx edge) s = .next (t.cancelLevel (handle 2 job lidx 0 0)).2.updateEligible)))

/-- R108, R445, R446: an entry that was not valid is only written; a change of a valid leaf drops its cached translations and,
for an unmap or another place, waits for the copies that touch the page, revokes its frames and empties the caches of it; a
migration does so under MIG, moves the bytes, and writes the new place; a walk that met MIG waits as long as the leaf has it.
-/
def Obligations.PagesChangeInTheirOrder : Prop :=
  (∀ (job : Nat) (va leaf : Word) (s t : State) (j : Job) (a lo e pa : Nat), s.jobAt job = some j →
    s.entryAt va.toNat j.root walkLevels = some (a, lo, e) →
    t = { s with heldBack := s.heldBack.filter (· != .shootdown job va leaf) } →
    (bit e 63 = false → exec (.shootdown job va leaf) s = .next (t.setEntry a leaf.toNat)) ∧
    (bit e 63 = true → takesFrames e leaf.toNat = true →
      (t.pageBusy job (va.toNat / 2 ^ lo * 2 ^ lo) (va.toNat / 2 ^ lo * 2 ^ lo + 2 ^ lo) = true →
        exec (.shootdown job va leaf) s = .next { t with heldBack := t.heldBack ++ [.shootdown job va leaf] }) ∧
      (t.pageBusy job (va.toNat / 2 ^ lo * 2 ^ lo) (va.toNat / 2 ^ lo * 2 ^ lo + 2 ^ lo) = false →
        pa = (⟨e, lo, false⟩ : Page).paddr t (va.toNat / 2 ^ lo * 2 ^ lo) →
        exec (.shootdown job va leaf) s = .next ((((t.setEntry a leaf.toNat).dropTlb job fun x =>
          x.page * 2 ^ x.bits / 2 ^ lo == va.toNat / 2 ^ lo).revokeFrames pa (pa + 2 ^ lo)).leaveRange pa (pa + 2 ^ lo)))) ∧
    (bit e 63 = true → takesFrames e leaf.toNat = false →
      exec (.shootdown job va leaf) s = .next ((t.setEntry a leaf.toNat).dropTlb job fun x =>
        x.page * 2 ^ x.bits / 2 ^ lo == va.toNat / 2 ^ lo))) ∧
  (∀ (job : Nat) (va paddr : Word) (s t u : State) (j : Job) (a lo e old new : Nat), s.jobAt job = some j →
    s.entryAt va.toNat j.root walkLevels = some (a, lo, e) →
    t = { s with heldBack := s.heldBack.filter (· != .pageMigration job va paddr) } →
    (bit e 63 = false ∨ bit e 62 = false → exec (.pageMigration job va paddr) s = .next t) ∧
    (bit e 63 = true → bit e 62 = true →
      (t.pageBusy job (va.toNat / 2 ^ lo * 2 ^ lo) (va.toNat / 2 ^ lo * 2 ^ lo + 2 ^ lo) = true →
        exec (.pageMigration job va paddr) s =
          .next { t with heldBack := t.heldBack ++ [.pageMigration job va paddr] }) ∧
      (t.pageBusy job (va.toNat / 2 ^ lo * 2 ^ lo) (va.toNat / 2 ^ lo * 2 ^ lo + 2 ^ lo) = false →
        old = (⟨e, lo, false⟩ : Page).paddr t (va.toNat / 2 ^ lo * 2 ^ lo) →
        new = (⟨leafAt e paddr.toNat, lo, false⟩ : Page).paddr t (va.toNat / 2 ^ lo * 2 ^ lo) →
        u = ((((t.setEntry a (leafAt e (leafPaddr e) + 2)).dropTlb job fun x =>
          x.page * 2 ^ x.bits / 2 ^ lo == va.toNat / 2 ^ lo).revokeFrames old (old + 2 ^ lo)).leaveRange old
            (old + 2 ^ lo)) → u.owns old = true → u.owns new = true →
        exec (.pageMigration job va paddr) s = .next ((u.movePage old new lo).setEntry a (leafAt e paddr.toNat))))) ∧
  ∀ (p : Party) (s : State) (j : Job) (va : Word), s.partyWait p = some (.migration va) → s.jobOf p.ctx = some j →
    (walkFrom s va.toNat j.root walkLevels = .mig → exec (.migWalkRetry p) s = .next s) ∧
    (walkFrom s va.toNat j.root walkLevels ≠ .mig → exec (.migWalkRetry p) s = .next (s.unparkParty p))

/-- R404 to R406, R411, R463: a request with a bad header answers 4, one before the negotiation 2, one with another version
pair 1, one with another operation 3; on a job that is not there 5, and one on a job that is being saved waits its turn; HELLO
negotiates the pair 1.0 once; a channel that is lost is forgotten and nothing else changes. -/
def Obligations.RequestsAreCheckedInOrder : Prop :=
  (∀ (stream : List Byte),
    ∀ row ∈ ([(Instr.jobCreate, 0x02), (Instr.jobEnd, 0x03), (Instr.loadImage, 0x10), (Instr.start, 0x11), (Instr.launch, 0x20),
        (Instr.wait, 0x21), (Instr.cancel, 0x22), (Instr.memRead, 0x30), (Instr.memWrite, 0x31), (Instr.breakCopy, 0x40),
        (Instr.breakEnd, 0x41), (Instr.checkpointSave, 0x50), (fun r => Instr.checkpointRestore r stream, 0x50),
        (Instr.telemetry, 0x60), (Instr.attest, 0x70), (Instr.idcert, 0x71), (Instr.config, 0x80)] :
        List ((Req → Instr) × BitVec 16)),
    ∀ (r : Req) (s : State),
      (r.headerOk = false → exec (row.1 r) s = .next (s.respond r 4 [])) ∧
      (r.headerOk = true → (s.channel r.chan).version = none → exec (row.1 r) s = .next (s.respond r 2 [])) ∧
      ∀ v, r.headerOk = true → (s.channel r.chan).version = some v →
        ((r.vmaj, r.vmin) ≠ v → exec (row.1 r) s = .next (s.respond r 1 [])) ∧
        ((r.vmaj, r.vmin) = v → r.op ≠ row.2 → exec (row.1 r) s = .next (s.respond r 3 []))) ∧
  (∀ row ∈ ([(Instr.jobEnd, Event.jobEnd, 0x03, 0), (Instr.start, Event.start, 0x11, 0), (Instr.launch, Event.launch, 0x20, 128),
        (Instr.cancel, Event.cancel, 0x22, 8), (Instr.memRead, Event.memRead, 0x30, 16),
        (Instr.breakCopy, Event.breakCopy, 0x40, 16), (Instr.breakEnd, Event.breakEnd, 0x41, 16)] :
        List ((Req → Instr) × (Req → Event) × BitVec 16 × Nat)),
    ∀ (r : Req) (s : State), Served r row.2.2.1 s →
      (r.payload.length ≠ row.2.2.2 → exec (row.1 r) s = .next (s.respond r 4 [])) ∧
      (r.payload.length = row.2.2.2 → s.jobById r.jobId = none → exec (row.1 r) s = .next (s.respond r 5 [])) ∧
      ∀ j q, r.payload.length = row.2.2.2 → s.jobById r.jobId = some j → j.ckpt = some q →
        exec (row.1 r) s = .next (s.modJob j.id fun j => { j with deferred := j.deferred ++ [row.2.1 r] })) ∧
  (∀ (r : Req) (s : State), r.headerOk = true → r.op = 1 →
    (∀ v, (s.channel r.chan).version = some v → exec (.hello r) s = .next (s.respond r 2 [])) ∧
    ((s.channel r.chan).version = none → r.payload.length = 8 → r.nat 3 5 = 0 → r.nat 0 1 ≤ r.nat 1 1 →
      (1 < r.nat 0 1 ∨ r.nat 1 1 < 1 → exec (.hello r) s = .next (s.respond r 1 [])) ∧
      (r.nat 0 1 ≤ 1 → 1 ≤ r.nat 1 1 → exec (.hello r) s =
        .next ((s.modChannel r.chan fun c => { c with version := some (1, 0) }).respond r 0 [])))) ∧
  ∀ (chan : Nat) (s : State), exec (.channelLost chan) s = .next { s with channels := adel s.channels chan }

/-- R379, R388, R406, R407, R411, R413 to R416, R456: JOB_CREATE makes a job in the lowest free slot with its level's counters;
LOAD_IMAGE takes bytes until the image is complete and then loads it; START seats the control program on a service core and
runs it at its entry; LAUNCH accepts its record or answers why not; WAIT answers when its counter runs no longer; CANCEL
cancels a level; JOB_END ends the job. -/
def Obligations.JobsAreMadeLaunchedAndEnded : Prop :=
  (∀ (r : Req) (s : State) (n heap : Nat), Served r 0x02 s → r.payload.length = 16 →
    heap = (if r.nat 0 8 = 0 then 2 ^ 28 else r.nat 0 8) → heap % 2 ^ 21 = 0 → 2 ^ 24 ≤ heap → heap ≤ 2 ^ 32 →
    wishesOk (r.nat 8 8) = true → s.freeSlot = some n → heap + 2 ^ 22 ≤ s.room →
    ∃ t, exec (.jobCreate r) s = .next t ∧
      ∃ id : BitVec 32, id = BitVec.ofNat 32 ((aget 0 s.generations n + 1) % 2 ^ 16 * 2 ^ 16 + n) ∧
        t.jobs = s.jobs ++ [Job.fresh id heap (r.nat 8 8) s.takePage.1] ∧
        t.counters = s.counters ++ [Counter.fresh (handle 5 n 0 0 0) 2, Counter.fresh (handle 4 n 0 0 0) 1] ∧
        t.out = s.out ++ [.response r.chan r.vmaj r.vmin r.op 0 r.tag (w64 id.toNat) []]) ∧
  (∀ (r : Req) (s : State), Served r 0x02 s → r.payload.length = 16 → wishesOk (r.nat 8 8) = false →
    exec (.jobCreate r) s = .next (s.respond r 4 [])) ∧
  (∀ (r : Req) (s : State) (j : Job), ServedOn r 0x03 j s → r.payload = [] →
    exec (.jobEnd r) s = .next ((s.endJob j none).respond r 0 []) ∧
    ∀ q ∈ (s.endJob j none).jobs, q.id ≠ j.id) ∧
  (∀ (r : Req) (s : State) (j : Job) (buf : List (Nat × Byte)), ServedOn r 0x10 j s → 8 ≤ r.payload.length →
    (s.mayLoad j = false → exec (.loadImage r) s = .next (s.respond r 2 [])) ∧
    (s.mayLoad j = true → buf = fillBuffer j.buffer (r.nat 0 8) (r.payload.drop 8) →
      (bufferBytes buf 64 = none → exec (.loadImage r) s =
        .next ((s.modJob j.id fun j => { j with buffer := buf }).respond r 0 [])) ∧
      ∀ h size, bufferBytes buf 64 = some h → size = natAt h 24 8 →
        (64 ≤ size → buf.length < size → exec (.loadImage r) s =
          .next ((s.modJob j.id fun j => { j with buffer := buf }).respond r 0 [])) ∧
        ∀ b, buf.length = size → bufferBytes buf size = some b → exec (.loadImage r) s =
          .next (((s.modJob j.id Job.unload).loadImage j b).2.respond r ((s.modJob j.id Job.unload).loadImage j b).1 []))) ∧
  (∀ (r : Req) (s t : State) (j : Job), ServedOn r 0x11 j s → r.payload = [] →
    (j.image = none ∨ j.cp ≠ none → exec (.start r) s = .next (s.respond r 2 [])) ∧
    ∀ g, j.image = some g → j.cp = none → t = (State.unseatControl { s with reserved := adel s.reserved (jobSlot j.id) } (jobSlot j.id)).seatControl
        (jobSlot j.id) →
      exec (.start r) s = .next ((t.modJob j.id fun j =>
        { j with cp := some (ControlProgram.fresh g.cpEntry) }).respond r 0 [])) ∧
  (∀ (r : Req) (s t : State) (j : Job) (st : Nat) (h : Word), ServedOn r 0x20 j s → r.payload.length = 128 →
    s.accept j r.payload = (st, h, t) →
    exec (.launch r) s = .next (t.respond r st (if st = 0 then bytes8 h else [])) ∧
    (st ≠ 0 → t.launches = s.launches ∧ t.counters = s.counters ∧ t.keys = s.keys) ∧
    (st = 0 → h = handle 2 (jobSlot j.id) j.nextLidx 0 0)) ∧
  (∀ (r : Req) (s : State) (h : Word), Served r 0x21 s → r.payload.length = 8 → h = w64 (r.nat 0 8) →
    (s.jobById r.jobId = none → exec (.wait r) s = .next (s.respond r 5 [])) ∧
    ∀ j, s.jobById r.jobId = some j →
      (s.jobCounter (jobSlot j.id) h = none → exec (.wait r) s = .next (s.respond r 5 [])) ∧
      ∀ c, s.jobCounter (jobSlot j.id) h = some c →
        (c.status = .running → exec (.wait r) s =
          .next (s.modChannel r.chan fun c => { c with waits := c.waits ++ [(r.tag, r.job, h)] })) ∧
        (c.status ≠ .running → exec (.wait r) s =
          .next (s.respond r (if c.status = .cancelled then 11 else 0) (exitPayload h j.exitCode)))) ∧
  ∀ (r : Req) (s : State) (j : Job) (h : Word), ServedOn r 0x22 j s → r.payload.length = 8 → h = w64 (r.nat 0 8) →
    (s.jobCounter (jobSlot j.id) h = none → exec (.cancel r) s = .next (s.respond r 5 [])) ∧
    ∀ c, s.jobCounter (jobSlot j.id) h = some c →
      (c.status = .running → exec (.cancel r) s = .next ((s.cancelLevel h).2.respond r 0 [])) ∧
      (c.status ≠ .running → exec (.cancel r) s = .next (s.respond r 12 []))

/-- R395, R412, R431, R434, R453, R457, R463, R464, R468, R471: MEM_READ answers the bytes of a range, whose lines with a
failing check value become poisoned (log 43), and MEM_WRITE writes them and lets a held context or control program go on;
BREAK_COPY gives a context its own copy of a page and BREAK_END takes it away; CHECKPOINT stops a job, waits, writes its
stream, and ends at the tier's answer, or restores a stream; TELEMETRY, IDCERT, ATTEST and CONFIG answer and count as their
rules say. -/
def Obligations.ServicesAnswer : Prop :=
  (∀ (r : Req) (s : State) (j : Job), ServedOn r 0x30 j s → r.payload.length = 16 →
    (r.nat 8 8 = 0 ∨ 65536 < r.nat 8 8 ∨ s.rangeOk j false (r.nat 0 8) (r.nat 8 8) = false →
      exec (.memRead r) s = .next (s.respond r 4 [])) ∧
    (r.nat 8 8 ≠ 0 → r.nat 8 8 ≤ 65536 → s.rangeOk j false (r.nat 0 8) (r.nat 8 8) = true →
      exec (.memRead r) s = .next ((s.egress j (r.nat 0 8) (r.nat 8 8)).respond r 0
        ((s.jobRead j.id (r.nat 0 8) (r.nat 8 8)).getD [])))) ∧
  (∀ (r : Req) (s : State) (j : Job) (va : Nat) (bs : List Byte), ServedOn r 0x31 j s → 8 < r.payload.length →
    r.payload.length ≤ 65536 → va = r.nat 0 8 → bs = r.payload.drop 8 →
    (s.rangeOk j true va bs.length = false → exec (.memWrite r) s = .next (s.respond r 4 [])) ∧
    (s.rangeOk j true va bs.length = true → exec (.memWrite r) s = .next ((((s.jobWrite j.id va bs).released j va
      (va + bs.length)).releasedControl j va (va + bs.length)).respond r 0 []))) ∧
  (∀ (r : Req) (s : State) (j : Job) (c va e lo : Nat) (x : Ctx), ServedOn r 0x40 j s → r.payload.length = 16 → c = r.nat 0 8 →
    va = r.nat 8 8 → c < Config.ctxCount → va < Config.spWindow → s.boundTo c j = true → j.inHeap va = false →
    x = s.owner (s.ownerNo c) → walkFrom s va j.root walkLevels = .leaf e lo →
    (bit e 5 = false → exec (.breakCopy r) s = .next (s.respond r 4 [])) ∧
    (bit e 5 = true → (x.slotAt va).isSome = true → exec (.breakCopy r) s = .next (s.respond r 12 [])) ∧
    (bit e 5 = true → x.slotAt va = none → 8 ≤ x.slots.length ∨ s.room < 2 ^ (lo + 1) →
      exec (.breakCopy r) s = .next (s.respond r 9 [])) ∧
    (bit e 5 = true → x.slotAt va = none → x.slots.length < 8 → 2 ^ (lo + 1) ≤ s.room → exec (.breakCopy r) s =
      .next (((s.copyPage va e lo).2.modOwner (s.ownerNo c) fun x =>
        { x with slots := x.slots ++ [(s.copyPage va e lo).1] }).respond r 0 []))) ∧
  (∀ (r : Req) (s : State) (j : Job) (c va : Nat), ServedOn r 0x41 j s → r.payload.length = 16 → c = r.nat 0 8 → va = r.nat 8 8 →
    c < Config.ctxCount → s.boundTo c j = true →
    ((s.owner (s.ownerNo c)).slotAt va = none → exec (.breakEnd r) s = .next (s.respond r 4 [])) ∧
    ∀ p, (s.owner (s.ownerNo c)).slotAt va = some p → exec (.breakEnd r) s =
      .next ((s.modOwner (s.ownerNo c) fun x => { x with slots := x.slots.filter (· != p) }).respond r 0 [])) ∧
  (∀ (r : Req) (s t : State) (j : Job) (stream : List Byte), ServedOn r 0x50 j s → r.payload.length = 16 →
    (r.nat 15 1 = 0 → s.jobCancelled j = true → s.heldBack.contains (.checkpointSave r) = false →
      exec (.checkpointSave r) s = .next (s.respond r 2 [])) ∧
    (r.nat 15 1 = 0 → s.jobCancelled j = false → s.heldBack.contains (.checkpointSave r) = false →
      t = (s.running.filter fun c => slotJob (s.slot c) == j.id).foldl State.switchOut
        (s.modJob j.id fun j => { j with ckpt := some r }) →
      exec (.checkpointSave r) s = .next { t with heldBack := t.heldBack ++ [.checkpointSave r] }) ∧
    (r.nat 15 1 = 1 → exec (.checkpointRestore r stream) s = .next (s.restore r stream j))) ∧
  (∀ (r : Req) (s t : State) (j : Job), Served r 0x50 s → r.payload.length = 16 → r.nat 15 1 = 0 →
    s.heldBack.contains (.checkpointSave r) = true → s.jobById r.jobId = some j →
    t = { s with heldBack := s.heldBack.filter (· != .checkpointSave r) } →
    exec (.checkpointSave r) s = .next (t.emit (.checkpoint (w64 (r.nat 0 8)) (r.nat 8 7) (t.stream j)))) ∧
  (∀ (job : Nat) (s t u : State) (j : Job) (r : Req), s.jobAt job = some j → j.ckpt = some r →
    s.heldBack.contains (.checkpointSave r) = false →
    t = ((s.modTele fun t => { t with ckpt := t.ckpt + 1 }).respond r 0 []).modJob j.id
      (fun j => { j with ckpt := none, deferred := [] }) → u = { t with agenda := t.agenda ++ j.deferred } →
    exec (.checkpointTierAck job) s =
      .next ((List.range Config.dies).foldl (fun s d => s.later (.stewardBind d)) u)) ∧
  (∀ (r : Req) (s : State), Served r 0x60 s → r.payload = [] →
    ∃ bs, exec (.telemetry r) s = .next (State.respond { s with fresh := s.fresh + 3 } r 0 bs) ∧ bs.length = 256 ∧
      natAt bs 0 1 = s.chip.boot.toNat ∧ natAt bs 1 1 = s.chip.ports.toNat ∧
      (∀ k < 16, bit (natAt bs 2 2) k = ((s.link k).phase == .up)) ∧
      natAt bs 8 8 = s.chip.tele.ce % 2 ^ 64 ∧ natAt bs 16 8 = s.chip.tele.ue % 2 ^ 64 ∧
      natAt bs 24 8 = s.chip.tele.pcons % 2 ^ 64 ∧ natAt bs 32 8 = s.chip.tele.crcmm % 2 ^ 64 ∧
      natAt bs 40 8 = s.chip.tele.evdrop % 2 ^ 64 ∧ natAt bs 48 8 = s.chip.tele.goign % 2 ^ 64 ∧
      natAt bs 56 8 = s.chip.tele.uuddrop % 2 ^ 64 ∧ natAt bs 64 8 = s.chip.tele.ckpt % 2 ^ 64 ∧
      natAt bs 80 8 = s.chip.tele.hfault % 2 ^ 64) ∧
  (∀ (r : Req) (s : State), Served r 0x71 s → r.payload = [] →
    exec (.idcert r) s = .next (s.respond r 0 (fit 184 s.chip.flash.idcert))) ∧
  (∀ (r : Req) (s : State), Served r 0x70 s → r.payload.length = 32 →
    (r.job = 0 → exec (.attest r) s = .next (s.attest r none)) ∧
    (∀ j, r.job ≠ 0 → s.jobById r.jobId = some j → j.ckpt = none → exec (.attest r) s = .next (s.attest r j.image)) ∧
    ∀ g, (s.attest r g).chip.attests = s.chip.attests + 1) ∧
  ∀ (r : Req) (s : State), Served r 0x80 s → r.payload.length = 8 → r.nat 0 1 ≤ 7 → r.nat 1 7 ≤ 1 →
    ∃ t : State, exec (.config r) s = .next (t.respond r 0 []) ∧
      t.chip.portCredits.getLsbD (r.nat 0 1) = (r.nat 1 7 == 1) ∧
      (∀ k, k ≠ r.nat 0 1 → t.chip.portCredits.getLsbD k = s.chip.portCredits.getLsbD k) ∧ t.mem = s.mem ∧ t.jobs = s.jobs

/-- R39, R224, R284, R293, R386, R409 to R411, R443: a call in progress is answered with its status and result: the version, a
launch, a wait that is over or goes on, a cancel, a translation or its cause, queues, groups, windows and regions opened, and
the exit that ends the job; a caller that is not in a call gets nothing. -/
def Obligations.SystemCallsAnswer : Prop :=
  (∀ row ∈ [Instr.syscallVersion, .syscallLaunch, .syscallWait, .syscallCancel, .syscallTranslate, .openQueue, .closeQueue,
      .openGroup, .openWindow, .exposeRegion, .syscallExit], ∀ (c : Caller) (s : State), s.callerJob c = none →
      exec (row c) s = .next s) ∧
  ∀ (c : Caller) (s : State) (j : Job), s.callerJob c = some j →
    exec (.syscallVersion c) s = .next (s.answerCall c 0 (some 0x100)) ∧
    exec (.syscallExit c) s = .next (s.endJob j (some (s.arg c 0))) ∧
    (∀ a, a = (s.arg c 0).toNat →
      (a % 64 ≠ 0 ∨ s.rangeOk j false a 128 = false → exec (.syscallLaunch c) s = .next (s.statusWith c 4 0)) ∧
      ∀ st h t, a % 64 = 0 → s.rangeOk j false a 128 = true → s.accept j ((s.jobRead j.id a 128).getD []) = (st, h, t) →
        exec (.syscallLaunch c) s = .next (t.statusWith c st h)) ∧
    (∀ h, h = s.arg c 0 →
      (s.jobCounter (jobSlot j.id) h = none → exec (.syscallWait c) s = .next (s.status c 5) ∧
        exec (.syscallCancel c) s = .next (s.status c 5)) ∧
      ∀ k, s.jobCounter (jobSlot j.id) h = some k →
        (s.callerWithin c h = true → exec (.syscallWait c) s = .next (s.status c 5)) ∧
        (s.callerWithin c h = false → k.status = .running → exec (.syscallWait c) s = .next (s.callWaits c h)) ∧
        (s.callerWithin c h = false → k.status ≠ .running →
          exec (.syscallWait c) s = .next (s.status c (if k.status = .cancelled then 11 else 0))) ∧
        (k.status = .running → exec (.syscallCancel c) s = .next ((s.cancelLevel h).2.status c 0)) ∧
        (k.status ≠ .running → exec (.syscallCancel c) s = .next (s.status c 12))) ∧
    ((j.tableEntry (s.arg c 0).toNat = none → exec (.syscallTranslate c) s = .next (s.callCause c 0x21 (s.arg c 0))) ∧
      ∀ k t, j.tableEntry (s.arg c 0).toNat = some k →
        (∀ a, s.kernelEntry j.id k = (some a, t) → exec (.syscallTranslate c) s = .next (t.answerCall c 0 (some a))) ∧
        (s.kernelEntry j.id k = (none, t) → exec (.syscallTranslate c) s = .next (t.callCause c 0xE8 (s.arg c 0)))) ∧
    (∀ q, q = (s.arg c 0).toNat →
      (15 < q ∨ 7 < (s.arg c 1).toNat → exec (.openQueue c) s = .next (s.status c 4)) ∧
      (q ≤ 15 → (s.arg c 1).toNat ≤ 7 →
        ((afind? j.queues q).isSome = true → exec (.openQueue c) s = .next (s.status c 12)) ∧
        (afind? j.queues q = none → exec (.openQueue c) s = .next ((s.modJob j.id fun j =>
          { j with queues := aset j.queues q ⟨(s.arg c 1).toNat, s.arg c 2, [], false⟩ }).status c 0))) ∧
      (15 < q → exec (.closeQueue c) s = .next (s.status c 4)) ∧
      (q ≤ 15 → afind? j.queues q = none → exec (.closeQueue c) s = .next (s.status c 2)) ∧
      ∀ rq, q ≤ 15 → afind? j.queues q = some rq → exec (.closeQueue c) s =
        .next (((s.modJob j.id fun j => { j with queues := adel j.queues q }).emit
          (.queueClose rq.port rq.peer)).status c 0)) ∧
    (∀ g a n r, g = (s.arg c 0).toNat → a = (s.arg c 1).toNat → n = (s.arg c 2).toNat → r = (s.arg c 3).toNat →
      (15 < g → exec (.openGroup c) s = .next (s.status c 4)) ∧
      (g ≤ 15 → n = 0 → exec (.openGroup c) s =
        .next ((s.modJob j.id fun j => { j with groups := adel j.groups g }).status c 0)) ∧
      (g ≤ 15 → n = 1 ∨ 16384 < n ∨ (n ≠ 0 ∧ n ≤ r) → exec (.openGroup c) s = .next (s.status c 4)) ∧
      ∀ ms m, g ≤ 15 → 2 ≤ n → n ≤ 16384 → r < n → s.rangeOk j false a (16 * n) = true →
        (records ((s.jobRead j.id a (16 * n)).getD []) 16 n).mapM memberRec = some ms → ms[r]? = some m →
        (m.1 ≠ 0 ∨ m.2.1.toNat ≠ s.dev → exec (.openGroup c) s = .next (s.status c 4)) ∧
        (m.1 = 0 → m.2.1.toNat = s.dev → (afind? j.groups g).isSome = true →
          exec (.openGroup c) s = .next (s.status c 12)) ∧
        (m.1 = 0 → m.2.1.toNat = s.dev → afind? j.groups g = none → exec (.openGroup c) s =
          .next ((s.modJob j.id fun j => { j with groups := aset j.groups g ⟨r, 0, ms⟩ }).status c 0))) ∧
    (∀ w a b len, w = (s.arg c 0).toNat → a = (s.arg c 1).toNat →
      (255 < w ∨ s.rangeOk j false a 40 = false → exec (.openWindow c) s = .next (s.status c 4)) ∧
      (w ≤ 255 → s.rangeOk j false a 40 = true → b = (s.jobRead j.id a 40).getD [] → len = natAt b 32 8 →
        (7 < natAt b 0 1 ∨ natAt b 1 7 ≠ 0 ∨ natAt b 24 8 % 128 ≠ 0 ∨ len % 128 ≠ 0 ∨ 2 ^ 47 < len →
          exec (.openWindow c) s = .next (s.status c 4)) ∧
        (natAt b 0 1 ≤ 7 → natAt b 1 7 = 0 → natAt b 24 8 % 128 = 0 → len % 128 = 0 → len ≤ 2 ^ 47 →
          exec (.openWindow c) s = .next (((s.modJob j.id fun j =>
            { j with windows := aset j.windows w ⟨natAt b 0 1, w64 (natAt b 8 8), w64 (natAt b 16 8), natAt b 24 8, len⟩ }).mapWindow
              j.root w ((len + 65535) / 65536)).status c 0)))) ∧
    ∀ a n m, a = (s.arg c 0).toNat → n = (s.arg c 1).toNat → m = (s.arg c 2).toNat →
      (a % 128 ≠ 0 ∨ n % 128 ≠ 0 ∨ 255 < m ∨ s.rangeOk j false a n = false →
        exec (.exposeRegion c) s = .next (s.statusWith c 4 0)) ∧
      ∀ key, a % 128 = 0 → n % 128 = 0 → m ≤ 255 → s.rangeOk j false a n = true →
        key = Config.remoteKey j.id.toNat + w64 j.exposed.length →
        exec (.exposeRegion c) s = .next ((s.modJob j.id fun j =>
          { j with exposed := j.exposed ++ [⟨key, a, n, m⟩] }).answerCall c 0 (some key))

/-- R381, R382, R434: a control program that can move runs one instruction, `ecall` asks for the service of a7 or gets all
ones, `ebreak` and exception 0xC1 hold it at a record, any other exception ends its job with 2^32 plus the cause, and a stalled
instruction keeps what it has asked and is tried again; it asks under a number of its own; one that cannot move does nothing;
x0 reads 0 and a write of it is discarded. -/
def Obligations.ControlProgramsRun : Prop :=
  (∀ (n : Nat) (e : CpException) (v : Word) (s : State), s.controlReady n = none →
    exec (.controlProgramInstruction n) s = .next s ∧ exec (.ecall n) s = .next s ∧ exec (.ebreak n) s = .next s ∧
    exec (.controlProgramException n e v) s = .next s) ∧
  (∀ (n : Nat) (s t : State) (j : Job) (p : ControlProgram), s.controlReady n = some (j, p) →
    t = s.modControl n ControlProgram.enter →
    (∀ e, serviceOf (p.rx 17).toNat (.control n) = some e → exec (.ecall n) s = .next (t.later e)) ∧
    (serviceOf (p.rx 17).toNat (.control n) = none →
      exec (.ecall n) s = .next (t.answerCall (.control n) (BitVec.allOnes 64) none)) ∧
    exec (.ebreak n) s = .next (s.holdControl j p 0 (p.pc + w64 (s.rvSize j p.pc))) ∧
    (∀ v, exec (.controlProgramException n .breakpoint v) s = .next (s.holdControl j p v (p.pc + w64 (s.rvSize j p.pc)))) ∧
    (∀ e v, e ≠ .breakpoint → exec (.controlProgramException n e v) s =
      .next (s.endJob j (some (w64 (2 ^ 32 + (causeOf e).toNat))))) ∧
    ∀ v : State, v = { s with cur := engineParty (controlUnit n) } → ∀ f : State → State, (∀ x, f x = { x with cur := s.cur }) →
    (∀ c a u, v.rvFetch j p.pc = .trap c a u → exec (.controlProgramInstruction n) s = .next ((f u).controlCause n c)) ∧
    (∀ w u, v.rvFetch j p.pc = .stall w u → exec (.controlProgramInstruction n) s = .next (f u)) ∧
    (∀ size u, v.rvFetch j p.pc = .ok (none, size) u →
      exec (.controlProgramInstruction n) s = .next ((f u).controlCause n 0x01)) ∧
    (∀ size u, v.rvFetch j p.pc = .ok (some 0x73, size) u →
      exec (.controlProgramInstruction n) s = .next ((f (u.callConcierge n p)).usedUp n)) ∧
    (∀ size u, v.rvFetch j p.pc = .ok (some 0x100073, size) u →
      exec (.controlProgramInstruction n) s = .next ((f (u.holdControl j p 0 (p.pc + w64 size))).usedUp n)) ∧
    ∀ i size u, v.rvFetch j p.pc = .ok (some i, size) u → i ≠ 0x73 → i ≠ 0x100073 →
      (∀ q w, rvRun i size j p u = .ok q w →
        exec (.controlProgramInstruction n) s = .next ((f (w.modControl n fun _ => q)).usedUp n)) ∧
      (∀ c a w, rvRun i size j p u = .trap c a w →
        exec (.controlProgramInstruction n) s = .next ((f w).controlCause n c)) ∧
      ∀ c w, rvRun i size j p u = .stall c w → exec (.controlProgramInstruction n) s = .next (f w)) ∧
  ∀ (p : ControlProgram) (r k : Nat) (v : Word), p.rx 0 = 0 ∧ p.setX 0 v = p ∧
    (0 < r → r < 32 → (p.setX r v).rx k = if k = r then v else p.rx k)

/-- R284, R395, R443, R461: bytes that come in for an exposed region are written when key, port and range fit and no line of
them bars a store (the model's choice, log 56), and bytes asked of it answered when no line of them is poisoned or wrong, which
it is then at its home; others are refused; an unsolicited packet is dropped and counted; bytes for an open queue join it, and
its close ends it. -/
def Obligations.UltraEthernetReachesExposedRegions : Prop :=
  (∀ (port off : Nat) (key : Word) (bs : List Byte) (s : State),
    (s.exposedAt port key off bs.length = none → exec (.uetInboundWrite port key off bs) s = .next (s.emit (.uetRefuse port))) ∧
    ∀ j va, s.exposedAt port key off bs.length = some (j, va) → exec (.uetInboundWrite port key off bs) s =
      .next (if (linesOf va bs.length).any (s.inboundBarred j) then s.emit (.uetRefuse port)
        else (s.ingress j (bs.length / 128 + 2) va bs).emit (.uetReply port []))) ∧
  (∀ (port off len : Nat) (key : Word) (s : State),
    (s.exposedAt port key off len = none → exec (.uetInboundRead port key off len) s = .next (s.emit (.uetRefuse port))) ∧
    ∀ j va, s.exposedAt port key off len = some (j, va) →
      ((∃ a ∈ linesOf va len, s.badLine j a = true) →
        exec (.uetInboundRead port key off len) s = .next ((s.egress j va len).emit (.uetRefuse port))) ∧
      ((∀ a ∈ linesOf va len, s.badLine j a = false) → exec (.uetInboundRead port key off len) s =
        .next (s.emit (.uetReply port ((s.jobRead j.id va len).getD []))))) ∧
  (∀ (port off n : Nat) (key : Word) (s : State) (j : Job) (va : Nat), s.exposedAt port key off n = some (j, va) →
    j ∈ s.jobs ∧ j.live = true ∧ ∃ e ∈ j.exposed, e.key = key ∧ off + n ≤ e.len ∧ va = e.base + off ∧
      (e.ports = 0 ∨ bit e.ports port = true)) ∧
  (∀ (port : Nat) (s : State), exec (.uudPacket port) s = .next (s.modTele fun t => { t with uuddrop := t.uuddrop + 1 })) ∧
  ∀ (job queue : Nat) (k : QueueTraffic) (s : State),
    (s.jobAt job = none → exec (.receiveQueueTraffic job queue k) s = .next s) ∧
    ∀ j, s.jobAt job = some j →
      (afind? j.queues queue = none → exec (.receiveQueueTraffic job queue k) s = .next s) ∧
      ∀ q, afind? j.queues queue = some q →
        exec (.receiveQueueTraffic job queue k) s =
          .next (s.modJob j.id fun j => { j with queues := aset j.queues queue (q.take k) }) ∧
        (q.take .close).closed = true ∧ (q.take .close).bytes = q.bytes ∧
        ∀ bs, q.closed = false → (q.take (.bytes bs)).bytes = q.bytes ++ bs

/-- R396, R397, R400 to R403: a link comes up when a common version exists and the peer is the recorded one, and is dead
otherwise; a flit with a correct check and the next SEQ is taken, its messages delivered or sent on and its credits returned,
another one is answered with one NAK; NAK sends again from its SEQ, the sixteenth, a timeout or DOWN takes the link down to
train again, and one that does not come up in time stays down. -/
def Obligations.LinksCarryFlits : Prop :=
  (∀ (k : Nat) (r : TrainRec) (s : State),
    ((s.link k).phase ≠ .training → exec (.train k r) s = .next s) ∧
    ((s.link k).phase = .training → r.fits = false ∨ r.dev.toNat = s.dev ∨ s.recorded k ≠ some (r.dev.toNat, r.link.toNat) →
      exec (.train k r) s = .next (s.deadLink k)) ∧
    ((s.link k).phase = .training → r.fits = true → r.dev.toNat ≠ s.dev → s.recorded k = some (r.dev.toNat, r.link.toNat) →
      ∃ t u : State, exec (.train k r) s = .next u ∧ u = (t.replayFrom k none).pump k ((t.replayFrom k none).link k).ready.length ∧
        (t.link k).phase = .up ∧ (t.link k).peer = some (r.dev.toNat, r.link.toNat) ∧
        (t.link k).replay = (s.link k).replay ∧
        ((s.link k).retrained = true → (t.link k).credits = (s.link k).credits) ∧
        ((s.link k).retrained = false → ∀ i : Fin 4, (t.link k).credits[i.val] = (r.credit[i.val]?.getD 0).toNat))) ∧
  (∀ (k : Nat) (s : State),
    ((s.link k).phase = .training → exec (.trainResend k) s = .next (s.emit (.train k))) ∧
    ((s.link k).phase ≠ .training → exec (.trainResend k) s = .next s) ∧
    (∀ reason, exec (.down k reason) s = .next (s.linkDown k 0 false)) ∧
    ((s.link k).replay = [] → exec (.ackTimeout k) s = .next s) ∧
    ((s.link k).replay ≠ [] → exec (.ackTimeout k) s = .next (s.linkDown k 2 true)) ∧
    ((s.link k).phase = .training → (s.link k).retrained = true → exec (.retrainTimeout k) s = .next (s.deadLink k)) ∧
    ((s.link k).phase ≠ .training ∨ (s.link k).retrained = false → exec (.retrainTimeout k) s = .next s)) ∧
  (∀ (k : Nat) (q : BitVec 16) (s t : State) (n : Nat),
    n = (if (s.link k).naks > 0 && (s.link k).nakSeq == q then (s.link k).naks + 1 else 1) →
    t = s.modLink k (fun l => { l with naks := n, nakSeq := q }) →
    ((s.link k).phase ≠ .up → exec (.nak k q) s = .next s) ∧
    ((s.link k).phase = .up → n < 16 → exec (.nak k q) s = .next (t.replayFrom k (some q))) ∧
    ((s.link k).phase = .up → 16 ≤ n → exec (.nak k q) s = .next (t.linkDown k 1 true))) ∧
  (∀ (k : Nat) (f : Flit) (s : State),
    ((s.link k).phase ≠ .up → exec (.messageFlit k f) s = .next s ∧ exec (.idleFlit k f) s = .next s) ∧
    ((s.link k).phase = .up → f.lcrcOk = false → exec (.idleFlit k f) s = .next s) ∧
    (∀ t, (s.link k).phase = .up → f.lcrcOk = true → t = s.modLink k (Link.take f) →
      exec (.idleFlit k f) s = .next (t.pump k (t.link k).ready.length)) ∧
    ((s.link k).phase = .up → f.lcrcOk = false ∨ f.seq ≠ (s.link k).expect →
      ((s.link k).nakSent = true → exec (.messageFlit k f) s = .next s) ∧
      ((s.link k).nakSent = false → exec (.messageFlit k f) s =
        .next ((s.modLink k fun l => { l with nakSent := true }).emit (.nak k (s.link k).expect)))) ∧
    ∀ t known, (s.link k).phase = .up → f.lcrcOk = true → f.seq = (s.link k).expect →
      known = f.msgs.takeWhile (fun x => (messageEvent x.1 x.2).isSome) →
      t = known.foldl (fun s x => s.deliverMessage x.1 x.2) ((s.modLink k fun l => (l.take f).free f.msgs).modLink k fun l =>
        { l with expect := l.expect + 1, lastAck := f.seq, nakSent := false }) →
      (known.length < f.msgs.length → exec (.messageFlit k f) s = .next (t.linkDown k 4 true)) ∧
      (known = f.msgs → exec (.messageFlit k f) s = .next
        (if (t.pump k (t.link k).ready.length |>.link k).nextSeq = (t.link k).nextSeq
          then (t.pump k (t.link k).ready.length).idle k else t.pump k (t.link k).ready.length))) ∧
  ∀ (k : Nat) (reason : BitVec 8) (tell : Bool) (s : State),
    ((s.link k).phase ≠ .up → s.linkDown k reason tell = s) ∧
    ((s.link k).phase = .up → ((s.linkDown k reason tell).link k).phase = .training ∧
      ((s.linkDown k reason tell).link k).retrained = true ∧ ((s.linkDown k reason tell).link k).replay = (s.link k).replay ∧
      (s.linkDown k reason tell).out = s.out ++ (if tell then [.down k reason] else []) ++ [.train k])

/-- R133, R134, R300, R304, R347, R349, R399, R460, R462: a home answers a peer's request once no other request on its words is
in progress, what other peers hold has come, and its remote filter has room: loads with the line, ownership with the line,
unless a peer has forwarded it; writes by merging the bytes marked, registrations with the line, atomics with the old value,
reductions by adding each word, copies' reads and writes; a foreign or unpopulated address and a wrong check value get ERR,
0x20 and 0xA1. R402: a message for another device goes on to it. -/
def Obligations.HomesAnswerPeers : Prop :=
  ((∀ row ∈ ([(Instr.ldt, Event.ldt, fun _ key => footprint key), (Instr.ldu, Event.ldu, fun _ key => footprint key),
        (Instr.ownr, Event.ownr, fun _ key => footprint key), (Instr.wr, Event.wr, Msg.words), (Instr.reg, Event.reg, Msg.words),
        (Instr.red, Event.red, Msg.words), (Instr.crdMessage, Event.crdMessage, fun _ key => footprint key),
        (Instr.cwrMessage, Event.cwrMessage, Msg.words)] :
        List ((Msg → Instr) × (Msg → Event) × (Msg → LineKey → List Nat))),
    ∀ (m : Msg) (s t : State), m.dst = s.dev → t = { s with heldBack := s.heldBack.filter (· != row.2.1 m) } →
      (s.owns (m.addr.toNat % 2 ^ 56) = false ∨ unpopulated (m.addr.toNat % 2 ^ 56) = true →
        exec (row.1 m) s = .next (t.replyErr m 0x20)) ∧
      (s.owns (m.addr.toNat % 2 ^ 56) = true → unpopulated (m.addr.toNat % 2 ^ 56) = false →
        t.inProgress (peerParty m) (row.2.2 m (s.keyOf m)) ≠ none →
        exec (row.1 m) s = .next { t with heldBack := t.heldBack ++ [row.2.1 m] })) ∧
  (∀ (m : Msg) (s v : State) (n : Nat) (key : LineKey), m.dst = s.dev → n = nodeOfPeer m.src → key = s.keyOf m →
    (HomeReady m (.ldt m) n (.trackedLoad (m.pol == 0)) (footprint key) s v →
      (forwarded m s → exec (.ldt m) s =
        .next ((v.peerTransition n (.trackedLoad (m.pol == 0)) key (footprint key)).replyTo 0x21 m noMsg)) ∧
      (¬ forwarded m s → ∃ g : BitVec 2, (g = 0 ∨ m.pol = 0 ∧ g = 1) ∧ exec (.ldt m) s =
        .next ((v.peerTransition n (.trackedLoad (m.pol == 0)) key (footprint key)).replyLine 0x20 m key g))) ∧
    (HomeReady m (.ldu m) n .untrackedLoad (footprint key) s v →
      (forwarded m s → exec (.ldu m) s =
        .next ((v.peerTransition n .untrackedLoad key (footprint key)).replyTo 0x21 m noMsg)) ∧
      (¬ forwarded m s → exec (.ldu m) s =
        .next ((v.peerTransition n .untrackedLoad key (footprint key)).replyLine 0x20 m key 3))) ∧
    (HomeReady m (.ownr m) n .ownStore (footprint key) s v →
      (forwarded m s → exec (.ownr m) s =
        .next ((v.peerTransition n .ownStore key (footprint key)).replyTo 0x21 m noMsg)) ∧
      (¬ forwarded m s → exec (.ownr m) s =
        .next ((v.peerTransition n .ownStore key (footprint key)).replyLine 0x20 m key 2))) ∧
    (HomeReady m (.crdMessage m) (2 ^ 40) .untrackedLoad (footprint key) s v →
      exec (.crdMessage m) s = .next (v.replyLine 0x31 m key 0)) ∧
    (HomeReady m (.wr m) n .throughStore (m.words key) s v →
      (m.checked = false → exec (.wr m) s = .next (v.refuseLine m key)) ∧
      (m.checked = true → exec (.wr m) s = .next (((v.peerTransition n .throughStore key (m.words key)).mergeBytes m
        (m.bytes key) true).replyTo 0x21 m noMsg))) ∧
    (HomeReady m (.cwrMessage m) (2 ^ 40) .throughStore (m.words key) s v →
      (m.checked = false → exec (.cwrMessage m) s = .next (v.refuseLine m key)) ∧
      (m.checked = true → exec (.cwrMessage m) s = .next (((v.peerTransition (2 ^ 40) .throughStore key (m.words key)).mergeBytes
        m (m.bytes key) true).replyTo 0x33 m noMsg))) ∧
    (HomeReady m (.reg m) n .sisStore (m.words key) s v →
      (m.checked = false → exec (.reg m) s = .next (v.refuseLine m key)) ∧
      (m.checked = true → exec (.reg m) s = .next (((v.peerTransition n .sisStore key (m.words key)).mergeBytes m
        (m.bytes key) false).replyLine 0x20 m key 3))) ∧
    (HomeReady m (.red m) n .atomic (m.words key) s v →
      (m.checked = false → exec (.red m) s = .next (v.refuseLine m key)) ∧
      (m.checked = true → exec (.red m) s = .next (((places m (if m.w64 then 8 else 4)).foldl
        (State.reduceAt m key (if m.w64 then 8 else 4)) (v.peerTransition n .atomic key (m.words key))).replyTo 0x21 m noMsg)))) ∧
  ∀ (m : Msg) (s v : State) (n off pa : Nat), m.dst = s.dev → n = (if m.mask.getLsbD 72 then 8 else 4) →
    off = (m.mask.extractLsb' 80 16).toNat → pa = m.addr.toNat % 2 ^ 56 / 128 * 128 + off →
    (off % n ≠ 0 ∨ 128 < off + n → exec (.atom m) s = .next (s.replyErr m 0x22)) ∧
    (off % n = 0 → off + n ≤ 128 → HomeReady m (.atom m) (nodeOfPeer m.src) .atomic (wordsOf pa n) s v →
      (m.checked = false → exec (.atom m) s = .next (v.replyErr m 0xA1)) ∧
      (m.checked = true → v.badCheck.contains (pa / 128 * 128) = false → v.poisoned pa = true →
        exec (.atom m) s = .next (v.replyErr m 0xA0)) ∧
      ∀ a u, m.checked = true → v.badCheck.contains (pa / 128 * 128) = false → v.poisoned pa = false →
        v.homeAtomic none (fun s w => s.peerTransition (nodeOfPeer m.src) .atomic (rowLine pa) [w]) pa n
          (m.mask.extractLsb' 64 8).toNat (m.line.toNat / 2 ^ (8 * off) % 2 ^ (8 * n))
          ((m.mask.extractLsb' 0 64).toNat % 2 ^ (8 * n)) = (a, u) →
        exec (.atom m) s = .next (u.replyTo 0x24 m (msgBytes noMsg off n a.1)))) ∧
  (∀ row ∈ ([(Instr.ldt, 0x01), (Instr.ldu, 0x02), (Instr.ownr, 0x03), (Instr.wr, 0x04), (Instr.reg, 0x05), (Instr.atom, 0x06),
      (Instr.red, 0x07), (Instr.key, 0x08), (Instr.dropn, 0x09), (Instr.inv, 0x10), (Instr.fwd, 0x11), (Instr.fwdinv, 0x12),
      (Instr.recallMsg, 0x13), (Instr.binv, 0x14), (Instr.data, 0x20), (Instr.ack, 0x21), (Instr.err, 0x22), (Instr.wb, 0x23),
      (Instr.ares, 0x24), (Instr.grant, 0x25), (Instr.crdMessage, 0x30), (Instr.cdata, 0x31), (Instr.cwrMessage, 0x32),
      (Instr.cack, 0x33)] : List ((Msg → Instr) × BitVec 8)),
    ∀ (m : Msg) (s : State), m.dst ≠ s.dev → exec (row.1 m) s = .next (s.sendOrDrop row.2 m))

/-- R134, R136, R141, R143, R147, R296, R297, R399: a holder that is asked gives its line up, or forwards it, and says so; what
a peer returns or drops comes home, but for bytes that this device has stored since it asked; an answer goes to the request
that its TAG and line name, and without one nothing happens; a line that an invalidation has overtaken is used and not
installed; a key is granted, queued or released for a peer, and refused with 0x8A, 0x25 or 0x89. -/
def Obligations.HoldersAnswerAndAnswersEnter : Prop :=
  (∀ (m : Msg) (s : State), m.dst = s.dev →
    exec (.inv m) s = .next (s.holderAnswer m (s.keyOf m) false) ∧
    exec (.recallMsg m) s = .next (s.holderAnswer m (s.keyOf m) false) ∧
    exec (.binv m) s = .next (s.holderAnswer m (s.keyOf m) true) ∧
    (∀ key, key = s.keyOf m →
      (m.pol = 0 ∨ m.pol = 3 → exec (.fwd m) s = .next (((s.forward m key 0).shareLine key).replyTo 0x21 m noMsg)) ∧
      (m.pol ≠ 0 → m.pol ≠ 3 → exec (.fwd m) s = .next ((s.forward m key 3).replyTo 0x21 m noMsg)) ∧
      exec (.fwdinv m) s = .next ((((s.forward m key 2).giveUp key false).unregister key).replyTo 0x21 m noMsg) ∧
      (s.owns key.base = false → exec (.dropn m) s = .next (s.replyErr m 0x20) ∧ exec (.wb m) s = .next s) ∧
      (s.owns key.base = true → exec (.dropn m) s =
          .next (((s.broughtBack m key [] true).peerGone m.src (footprint key)).replyTo 0x21 m noMsg) ∧
        (s.asked m [0x10, 0x13, 0x14] false = none → exec (.wb m) s =
          .next ((s.broughtBack m key [] true).peerGone m.src (m.words key))) ∧
        ∀ r, s.asked m [0x10, 0x13, 0x14] false = some r → exec (.wb m) s =
          .next (((s.broughtBack m r.line r.stored true).peerGone m.src (footprint r.line)).answered r 0x21 m)))) ∧
  (∀ (m : Msg) (s : State), m.dst = s.dev →
    (s.owns (s.keyOf m).base = true →
      (s.asked m [0x11, 0x12] false = none → exec (.data m) s = .next s) ∧
      ∀ r, s.asked m [0x11, 0x12] false = some r → 2 ^ 64 ≤ r.addr →
        (r.mtype = 0x12 → exec (.data m) s =
          .next (((s.broughtBack m r.line r.stored true).peerGone m.src (footprint r.line)).answered r 0x20 m)) ∧
        (r.mtype = 0x11 → exec (.data m) s = .next ((s.broughtBack m r.line r.stored false).answered r 0x20 m))) ∧
    (s.owns (s.keyOf m).base = false →
      (s.asked m [0x01, 0x02, 0x03, 0x05] true = none → exec (.data m) s = .next s) ∧
      ∀ r, s.asked m [0x01, 0x02, 0x03, 0x05] true = some r → m.src = deviceOf (s.keyOf m).base → m.checked = true →
        (r.spoiled = false → r.party.ctx < 1024 → exec (.data m) s =
          .next (((s.fillPeer m r.line).grantLine (coreOf r.party.ctx) r.line m.grant).answered r 0x20 m)) ∧
        (r.spoiled = true → r.mtype = 0x01 → exec (.data m) s = .next (s.answered r 0x20 m))) ∧
    (s.asked m [0x03, 0x04, 0x07, 0x08, 0x10, 0x11, 0x12, 0x13, 0x14] false = none → exec (.ack m) s = .next s) ∧
    (∀ r, s.asked m [0x03, 0x04, 0x07, 0x08, 0x10, 0x11, 0x12, 0x13, 0x14] false = some r → r.mtype ≠ 0x03 →
      (r.mtype.toNat < 0x10 → exec (.ack m) s = .next (s.answered r 0x21 m)) ∧
      (r.mtype = 0x11 ∨ r.mtype = 0x12 → 2 ^ 64 ≤ r.addr → exec (.ack m) s = .next s) ∧
      (r.mtype = 0x11 → r.addr < 2 ^ 64 → exec (.ack m) s = .next (s.answered r 0x21 m)) ∧
      (0x10 ≤ r.mtype.toNat → r.mtype ≠ 0x11 → r.addr < 2 ^ 64 → exec (.ack m) s =
        .next ((s.peerGone m.src (footprint r.line)).answered r 0x21 m))) ∧
    (∀ r, s.requests.find? (fun r => r.tag == m.tag.toNat && r.dst == m.src && r.answer.isNone) = some r →
      exec (.err m) s = .next (s.answered r 0x22 m)) ∧
    (s.asked m [0x06] false = none → exec (.ares m) s = .next s) ∧
    (∀ r, s.asked m [0x06] false = some r → exec (.ares m) s =
      .next (if m.checked then s.answered r 0x24 m else s.answered r 0x22 { m with aux := 0xA1 })) ∧
    (s.asked m [0x30] false = none → exec (.cdata m) s = .next s) ∧
    (∀ r, s.asked m [0x30] false = some r → exec (.cdata m) s =
      .next (if m.checked then s.answered r 0x31 m else s.answered r 0x22 { m with aux := 0xA1 })) ∧
    (s.asked m [0x32] false = none → exec (.cack m) s = .next s) ∧
    (∀ r, s.asked m [0x32] false = some r → exec (.cack m) s = .next (s.answered r 0x33 m)) ∧
    (s.asked m [0x08] false = none → exec (.grant m) s = .next s) ∧
    (∀ r, s.asked m [0x08] false = some r → r.party ≠ homeParty → exec (.grant m) s = .next (s.answered r 0x25 m))) ∧
  (∀ (s : State) (r : RemoteReq) (t : BitVec 8) (m : Msg), r ∈ s.requests → r.party ≠ homeParty →
    { r with answer := some (t, m) } ∈ (s.answered r t m).requests ∧ (s.answered r t m).mem = s.mem) ∧
  ∀ (m : Msg) (s : State) (e : Nat), m.dst = s.dev → e = m.addr.toNat % 4096 →
    (2 ^ 20 ≤ m.addr.toNat ∨ m.addr.toNat / 4096 ≠ s.dev ∨ (s.key e).valid = false →
      exec (.key m) s = .next (s.replyErr m 0x8A)) ∧
    (m.addr.toNat < 2 ^ 20 → m.addr.toNat / 4096 = s.dev → (s.key e).valid = true →
      (m.aux = 0 → s.keyScopeOk (s.key e) = false → exec (.key m) s = .next (s.replyErr m 0x25)) ∧
      (m.aux = 0 → s.keyScopeOk (s.key e) = true → (s.key e).held = false → (s.key e).granted = none → (s.key e).queue = [] →
        exec (.key m) s = .next (s.grantPeer e (2 ^ 20 + m.src * 2 ^ 16 + m.tag.toNat) [])) ∧
      (m.aux = 0 → s.keyScopeOk (s.key e) = true → (s.key e).held = true ∨ (s.key e).granted ≠ none ∨ (s.key e).queue ≠ [] →
        exec (.key m) s = .next (s.modKey e (Key.join (2 ^ 20 + m.src * 2 ^ 16 + m.tag.toNat)))) ∧
      (m.aux ≠ 0 → (s.key e).held = false ∨ (s.key e).remoteHolder ≠ some m.src →
        exec (.key m) s = .next (s.replyErr m 0x89)) ∧
      (m.aux ≠ 0 → (s.key e).held = true → (s.key e).remoteHolder = some m.src →
        exec (.key m) s =
          .next ((s.replyTo 0x25 m { noMsg with addr := (s.key e).tenure.setWidth 64 }).releaseKey e)))

/-- R394, R448, R451, R454, R455: reset clears the device but for its fuses and flash and boots; a package that fails a check
of stage 0 halts it with status 1, a stage that fails with its number, and else it is up with status 0 and the SVN fuses at
least the package's; a loss of power leaves the fuses blown so far and waits for the next boot. -/
def Obligations.ResetBootsTheDevice : Prop :=
  (∀ (s t : State), exec .reset s = .next t →
    t.chip.booted = true ∧ t.chip.frozen = false ∧ t.mem = [] ∧ t.ctxs = [] ∧ t.bind = [] ∧ t.cores = [] ∧ t.dies = [] ∧
    t.jobs = [] ∧ t.launches = [] ∧ t.counters = [] ∧ t.keys = [] ∧ t.channels = [] ∧ t.chip.flash = s.chip.flash ∧
    t.chip.fuses.uds = s.chip.fuses.uds ∧ t.chip.fuses.serial = s.chip.fuses.serial ∧
    (packageOk s.chip.fuses s.chip.flash = false → t.chip.boot = 1 ∧ t.chip.fuses = s.chip.fuses ∧ t.links = []) ∧
    (packageOk s.chip.fuses s.chip.flash = true → t.chip.boot ≠ 1 ∧
      (t.chip.boot = 0 → t.chip.fuses.svn = max s.chip.fuses.svn s.chip.flash.svn ∧ ∀ k < 16, (t.link k).phase = .training) ∧
      (t.chip.boot ≠ 0 → t.chip.fuses = s.chip.fuses ∧ t.links = [] ∧
        (t.chip.boot = 2 ∨ t.chip.boot = 3 ∨ t.chip.boot = 4)))) ∧
  (∀ s : State, ∃ t, exec .reset s = .next t) ∧
  ∀ (n : Nat) (s : State), ∃ t, exec (.powerLoss n) s = .next t ∧ t.mem = [] ∧ t.ctxs = [] ∧ t.chip.booted = false ∧
    t.chip.flash = s.chip.flash ∧ s.chip.fuses.svn ≤ t.chip.fuses.svn ∧
    t.chip.fuses.svn ≤ max s.chip.fuses.svn s.chip.flash.svn

/-- R448, R449: FREEZE by pin or port stops the device and drops its ports and links; an instruction of the test access port
shifts out what its table gives, IDCODE 0x14D3456F, STATUS the boot status and both freeze bits, CHAINOUT and MEMREAD something
only in a frozen device; RESETREQ boots. R469: at 105 °C the clock begins to step down by 100 MHz until the temperature falls
below 100 °C, then up again, never above 2.1 GHz; at 115 °C the device takes FREEZE. -/
def Obligations.TestPortFreezeAndHeat : Prop :=
  ((∀ (s : State) (bits : List Byte) (ir : Byte),
    (s.tap ir bits).chip.ir = ir ∧ (s.tap ir bits).chip.dr = bits ∧ (s.tap ir bits).out = s.out ++ [.tdo bits] ∧
    (s.tap ir bits).mem = s.mem ∧ (s.tap ir bits).ctxs = s.ctxs) ∧
  (∀ (s : State) (pin : Bool), (s.freeze pin).chip.frozen = true ∧ (s.freeze pin).chip.ports = 0 ∧
    (∀ k, ((s.freeze pin).link k).phase ≠ .up) ∧
    (s.freeze pin).chip.frozenByPin = (s.chip.frozenByPin || pin) ∧ (s.freeze pin).mem = s.mem ∧
    (s.freeze pin).ctxs = s.ctxs ∧ (s.freeze pin).cores = s.cores ∧ (s.freeze pin).bind = s.bind) ∧
  (∀ s : State,
    exec .freezePin s = .next (s.freeze true) ∧ exec .tapFreeze s = .next ((s.tap 0x10 []).freeze false) ∧
    exec .idcode s = .next (s.tap 0x01 [0x6F, 0x45, 0xD3, 0x14]) ∧ exec .bypass s = .next (s.tap 0xFF [0]) ∧
    exec .resetreq s = .next ((s.tap 0x16 []).boot) ∧
    (∃ bits, exec .extest s = .next (State.tap { s with fresh := s.fresh + 1 } 0x00 bits)) ∧
    (∃ bits, exec .samplePreload s = .next (State.tap { s with fresh := s.fresh + 1 } 0x02 bits)) ∧
    (∃ bits, exec .tapStatus s = .next (s.tap 0x11 bits) ∧ bits.length = 4 ∧ natAt bits 0 1 = s.chip.boot.toNat ∧
      natAt bits 1 3 = (if s.chip.frozen then 1 else 0) + (if s.chip.frozenByPin then 2 else 0)) ∧
    (∀ n : BitVec 16, ∃ t, exec (.chainsel n) s = .next (State.tap t 0x12 (leBytes 2 n.toNat)) ∧ t.chip.chain = n ∧
      t.mem = s.mem) ∧
    (∀ a : BitVec 48, ∃ t, exec (.memaddr a) s = .next (State.tap t 0x14 (leBytes 6 a.toNat)) ∧
      t.chip.memaddr = (if s.chip.frozen then a else s.chip.memaddr)) ∧
    (s.chip.frozen = false → exec .chainout s = .next (s.tap 0x13 []) ∧ exec .memread s = .next (s.tap 0x15 [])) ∧
    (s.chip.frozen = true → s.chip.chain.toNat / 2 ^ 12 % 4 = 0 → exec .chainout s = .next (s.tap 0x13
      (chainOf (s.ctx (256 * (s.chip.chain.toNat / 2 ^ 14) + s.chip.chain.toNat % 256))))) ∧
    ∀ base, s.chip.frozen = true → base = s.phys (s.chip.memaddr.toNat / 128 * 128) → exec .memread s = .next (s.tap 0x15
      (s.homeLine base ++ leBytes 4 (s.checkOf base).toNat ++ [if s.poisoned base then 1 else 0])))) ∧
  (∀ (temp : Int) (s : State),
    (temp < 105 → exec (.thermalThrottle temp) s = .next s) ∧
    (105 ≤ temp → exec (.thermalThrottle temp) s = .next { s with chip := { s.chip with throttling := true } }) ∧
    (s.chip.throttling = true → 100 ≤ temp → exec (.clockStep temp) s =
      .next { s with chip := { s.chip with clock := s.chip.clock - 100 } }) ∧
    (s.chip.throttling = false ∨ temp < 100 → exec (.clockStep temp) s =
      .next { s with chip := { s.chip with throttling := false, clock := min 2100 (s.chip.clock + 100) } }) ∧
    (temp < 115 → exec (.thermalFreeze temp) s = .next s) ∧
    (115 ≤ temp → exec (.thermalFreeze temp) s = .next (s.freeze false)))

/-- R448: a frozen device that no reset, reset request or loss of power reaches stays frozen, its links down, and no step of
any run changes its architectural or cache state. -/
def Obligations.FrozenDeviceChangesNothing : Prop :=
  ∀ (n : Nat) (s t : State), s.chip.frozen = true → s.chip.ports = 0 → (∀ k, (s.link k).phase ≠ .up) →
    (∀ e ∈ s.agenda, e ≠ .reset ∧ e ≠ .resetreq ∧ ∀ b, e ≠ .powerLoss b) → runFor n s = some t →
    t.chip.frozen = true ∧ t.chip.ports = 0 ∧ (∀ k, (t.link k).phase ≠ .up) ∧
    (∀ e ∈ t.agenda, e ≠ .reset ∧ e ≠ .resetreq ∧ ∀ b, e ≠ .powerLoss b) ∧
    t.mem = s.mem ∧ t.poison = s.poison ∧ t.badCheck = s.badCheck ∧ t.words = s.words ∧ t.homeOld = s.homeOld ∧
    t.ctxs = s.ctxs ∧ t.bind = s.bind ∧ t.cores = s.cores ∧ t.clusters = s.clusters ∧ t.dies = s.dies ∧ t.keys = s.keys ∧
    t.jobs = s.jobs ∧ t.launches = s.launches ∧ t.counters = s.counters ∧ t.residue = s.residue ∧ t.routes = s.routes ∧
    t.remotes = s.remotes ∧ t.regTable = s.regTable ∧ t.requests = s.requests ∧ t.chip.tele = s.chip.tele ∧
    t.chip.fuses = s.chip.fuses

/-- R448, the step of it: being frozen with ports and links down, and with no reset to come, is kept by every step. -/
def Obligations.FrozenIsKeptByEveryStep : Prop :=
  ∀ (s t : State), (s.chip.frozen = true ∧ s.chip.ports = 0 ∧ (∀ k, (s.link k).phase ≠ .up) ∧
      ∀ e ∈ s.agenda, e ≠ .reset ∧ e ≠ .resetreq ∧ ∀ b, e ≠ .powerLoss b) → step s = .next t →
    t.chip.frozen = true ∧ t.chip.ports = 0 ∧ (∀ k, (t.link k).phase ≠ .up) ∧
      ∀ e ∈ t.agenda, e ≠ .reset ∧ e ≠ .resetreq ∧ ∀ b, e ≠ .powerLoss b
end

