-- ==== Sys2Proof/Laws/Maps.lean ====
section
/-! SUPPORT. Sparse maps: what a key reads as after a key is set. -/

namespace Sys2Proof.Machine

/-- The key that was set reads as its value. -/
@[simp] theorem aget_aset_same (d : α) (l : List (Nat × α)) (n : Nat) (x : α) : aget d (aset l n x) n = x := by
  induction l with
  | nil => simp [aset, aget]
  | cons p r ih =>
    obtain ⟨k, v⟩ := p
    unfold aset
    split <;> [simp [aget]; skip]
    split
    · simp [aget]
    · next h => simp [aget, h, ih]

/-- Every other key reads as before. -/
@[simp] theorem aget_aset_ne (d : α) (l : List (Nat × α)) (n m : Nat) (x : α) (h : m ≠ n) :
    aget d (aset l n x) m = aget d l m := by
  induction l with
  | nil => simp [aset, aget, Ne.symm h]
  | cons p r ih =>
    obtain ⟨k, v⟩ := p
    unfold aset
    split
    · simp [aget, Ne.symm h]
    split
    · next hk => subst hk; simp [aget, Ne.symm h]
    · simp [aget, ih]

/-- A context that was replaced. -/
@[simp] theorem State.ctx_setCtx_same (s : State) (c : Nat) (x : Ctx) : (s.setCtx c x).ctx c = x := by
  simp [State.ctx, State.setCtx]
/-- A context that was not replaced. -/
@[simp] theorem State.ctx_setCtx_ne (s : State) (c d : Nat) (x : Ctx) (h : d ≠ c) : (s.setCtx c x).ctx d = s.ctx d := by
  simp [State.ctx, State.setCtx, h]
/-- A context that was changed. -/
@[simp] theorem State.ctx_modCtx_same (s : State) (c : Nat) (f : Ctx → Ctx) : (s.modCtx c f).ctx c = f (s.ctx c) := by
  simp [State.modCtx]
/-- A context that was not changed. -/
@[simp] theorem State.ctx_modCtx_ne (s : State) (c d : Nat) (f : Ctx → Ctx) (h : d ≠ c) :
    (s.modCtx c f).ctx d = s.ctx d := by
  simp [State.modCtx, h]
/-- A core that was changed. -/
@[simp] theorem State.core_modCore_same (s : State) (k : Nat) (f : Core → Core) : (s.modCore k f).core k = f (s.core k) := by
  simp [State.core, State.modCore]
/-- A core that was not changed. -/
@[simp] theorem State.core_modCore_ne (s : State) (k j : Nat) (f : Core → Core) (h : j ≠ k) :
    (s.modCore k f).core j = s.core j := by
  simp [State.core, State.modCore, h]
/-- A cluster that was changed. -/
@[simp] theorem State.cluster_modCluster_same (s : State) (k : Nat) (f : Cluster → Cluster) :
    (s.modCluster k f).cluster k = f (s.cluster k) := by
  simp [State.cluster, State.modCluster]
/-- A die that was changed. -/
@[simp] theorem State.die_modDie_same (s : State) (k : Nat) (f : Die → Die) : (s.modDie k f).die k = f (s.die k) := by
  simp [State.die, State.modDie]
/-- A key that was changed. -/
@[simp] theorem State.key_modKey_same (s : State) (k : Nat) (f : Key → Key) : (s.modKey k f).key k = f (s.key k) := by
  simp [State.key, State.modKey]

end Sys2Proof.Machine
end

