-- ==== Sys2Proof/Laws/State.lean ====
section
/-! SUPPORT. What each update of the state leaves as it was: one lemma per field and update. -/

namespace Sys2Proof.Machine

/-! After replacing a context. -/
section
variable (s : State) (c : Nat) (x : Ctx)
@[simp] theorem State.setCtx_mem : State.mem (s.setCtx c x) = s.mem := rfl
@[simp] theorem State.setCtx_poison : State.poison (s.setCtx c x) = s.poison := rfl
@[simp] theorem State.setCtx_badCheck : State.badCheck (s.setCtx c x) = s.badCheck := rfl
@[simp] theorem State.setCtx_homeOld : State.homeOld (s.setCtx c x) = s.homeOld := rfl
@[simp] theorem State.setCtx_words : State.words (s.setCtx c x) = s.words := rfl
@[simp] theorem State.setCtx_remotes : State.remotes (s.setCtx c x) = s.remotes := rfl
@[simp] theorem State.setCtx_regTable : State.regTable (s.setCtx c x) = s.regTable := rfl
@[simp] theorem State.setCtx_bind : State.bind (s.setCtx c x) = s.bind := rfl
@[simp] theorem State.setCtx_cores : State.cores (s.setCtx c x) = s.cores := rfl
@[simp] theorem State.setCtx_clusters : State.clusters (s.setCtx c x) = s.clusters := rfl
@[simp] theorem State.setCtx_dies : State.dies (s.setCtx c x) = s.dies := rfl
@[simp] theorem State.setCtx_keys : State.keys (s.setCtx c x) = s.keys := rfl
@[simp] theorem State.setCtx_jobs : State.jobs (s.setCtx c x) = s.jobs := rfl
@[simp] theorem State.setCtx_launches : State.launches (s.setCtx c x) = s.launches := rfl
@[simp] theorem State.setCtx_counters : State.counters (s.setCtx c x) = s.counters := rfl
@[simp] theorem State.setCtx_generations : State.generations (s.setCtx c x) = s.generations := rfl
@[simp] theorem State.setCtx_nextPage : State.nextPage (s.setCtx c x) = s.nextPage := rfl
@[simp] theorem State.setCtx_residue : State.residue (s.setCtx c x) = s.residue := rfl
@[simp] theorem State.setCtx_channels : State.channels (s.setCtx c x) = s.channels := rfl
@[simp] theorem State.setCtx_links : State.links (s.setCtx c x) = s.links := rfl
@[simp] theorem State.setCtx_routes : State.routes (s.setCtx c x) = s.routes := rfl
@[simp] theorem State.setCtx_requests : State.requests (s.setCtx c x) = s.requests := rfl
@[simp] theorem State.setCtx_nextTag : State.nextTag (s.setCtx c x) = s.nextTag := rfl
@[simp] theorem State.setCtx_out : State.out (s.setCtx c x) = s.out := rfl
@[simp] theorem State.setCtx_chip : State.chip (s.setCtx c x) = s.chip := rfl
@[simp] theorem State.setCtx_agenda : State.agenda (s.setCtx c x) = s.agenda := rfl
@[simp] theorem State.setCtx_order : State.order (s.setCtx c x) = s.order := rfl
@[simp] theorem State.setCtx_heldBack : State.heldBack (s.setCtx c x) = s.heldBack := rfl
@[simp] theorem State.setCtx_farKeys : State.farKeys (s.setCtx c x) = s.farKeys := rfl
@[simp] theorem State.setCtx_reserved : State.reserved (s.setCtx c x) = s.reserved := rfl
@[simp] theorem State.setCtx_cur : State.cur (s.setCtx c x) = s.cur := rfl
@[simp] theorem State.setCtx_now : State.now (s.setCtx c x) = s.now := rfl
@[simp] theorem State.setCtx_fresh : State.fresh (s.setCtx c x) = s.fresh := rfl
@[simp] theorem State.setCtx_nextId : State.nextId (s.setCtx c x) = s.nextId := rfl
end

/-! After changing a context. -/
section
variable (s : State) (c : Nat) (f : Ctx → Ctx)
@[simp] theorem State.modCtx_mem : State.mem (s.modCtx c f) = s.mem := rfl
@[simp] theorem State.modCtx_poison : State.poison (s.modCtx c f) = s.poison := rfl
@[simp] theorem State.modCtx_badCheck : State.badCheck (s.modCtx c f) = s.badCheck := rfl
@[simp] theorem State.modCtx_homeOld : State.homeOld (s.modCtx c f) = s.homeOld := rfl
@[simp] theorem State.modCtx_words : State.words (s.modCtx c f) = s.words := rfl
@[simp] theorem State.modCtx_remotes : State.remotes (s.modCtx c f) = s.remotes := rfl
@[simp] theorem State.modCtx_regTable : State.regTable (s.modCtx c f) = s.regTable := rfl
@[simp] theorem State.modCtx_bind : State.bind (s.modCtx c f) = s.bind := rfl
@[simp] theorem State.modCtx_cores : State.cores (s.modCtx c f) = s.cores := rfl
@[simp] theorem State.modCtx_clusters : State.clusters (s.modCtx c f) = s.clusters := rfl
@[simp] theorem State.modCtx_dies : State.dies (s.modCtx c f) = s.dies := rfl
@[simp] theorem State.modCtx_keys : State.keys (s.modCtx c f) = s.keys := rfl
@[simp] theorem State.modCtx_jobs : State.jobs (s.modCtx c f) = s.jobs := rfl
@[simp] theorem State.modCtx_launches : State.launches (s.modCtx c f) = s.launches := rfl
@[simp] theorem State.modCtx_counters : State.counters (s.modCtx c f) = s.counters := rfl
@[simp] theorem State.modCtx_generations : State.generations (s.modCtx c f) = s.generations := rfl
@[simp] theorem State.modCtx_nextPage : State.nextPage (s.modCtx c f) = s.nextPage := rfl
@[simp] theorem State.modCtx_residue : State.residue (s.modCtx c f) = s.residue := rfl
@[simp] theorem State.modCtx_channels : State.channels (s.modCtx c f) = s.channels := rfl
@[simp] theorem State.modCtx_links : State.links (s.modCtx c f) = s.links := rfl
@[simp] theorem State.modCtx_routes : State.routes (s.modCtx c f) = s.routes := rfl
@[simp] theorem State.modCtx_requests : State.requests (s.modCtx c f) = s.requests := rfl
@[simp] theorem State.modCtx_nextTag : State.nextTag (s.modCtx c f) = s.nextTag := rfl
@[simp] theorem State.modCtx_out : State.out (s.modCtx c f) = s.out := rfl
@[simp] theorem State.modCtx_chip : State.chip (s.modCtx c f) = s.chip := rfl
@[simp] theorem State.modCtx_agenda : State.agenda (s.modCtx c f) = s.agenda := rfl
@[simp] theorem State.modCtx_order : State.order (s.modCtx c f) = s.order := rfl
@[simp] theorem State.modCtx_heldBack : State.heldBack (s.modCtx c f) = s.heldBack := rfl
@[simp] theorem State.modCtx_farKeys : State.farKeys (s.modCtx c f) = s.farKeys := rfl
@[simp] theorem State.modCtx_reserved : State.reserved (s.modCtx c f) = s.reserved := rfl
@[simp] theorem State.modCtx_cur : State.cur (s.modCtx c f) = s.cur := rfl
@[simp] theorem State.modCtx_now : State.now (s.modCtx c f) = s.now := rfl
@[simp] theorem State.modCtx_fresh : State.fresh (s.modCtx c f) = s.fresh := rfl
@[simp] theorem State.modCtx_nextId : State.nextId (s.modCtx c f) = s.nextId := rfl
end

/-! After changing a core. -/
section
variable (s : State) (k : Nat) (f : Core → Core)
@[simp] theorem State.modCore_mem : State.mem (s.modCore k f) = s.mem := rfl
@[simp] theorem State.modCore_poison : State.poison (s.modCore k f) = s.poison := rfl
@[simp] theorem State.modCore_badCheck : State.badCheck (s.modCore k f) = s.badCheck := rfl
@[simp] theorem State.modCore_homeOld : State.homeOld (s.modCore k f) = s.homeOld := rfl
@[simp] theorem State.modCore_words : State.words (s.modCore k f) = s.words := rfl
@[simp] theorem State.modCore_remotes : State.remotes (s.modCore k f) = s.remotes := rfl
@[simp] theorem State.modCore_regTable : State.regTable (s.modCore k f) = s.regTable := rfl
@[simp] theorem State.modCore_ctxs : State.ctxs (s.modCore k f) = s.ctxs := rfl
@[simp] theorem State.modCore_bind : State.bind (s.modCore k f) = s.bind := rfl
@[simp] theorem State.modCore_clusters : State.clusters (s.modCore k f) = s.clusters := rfl
@[simp] theorem State.modCore_dies : State.dies (s.modCore k f) = s.dies := rfl
@[simp] theorem State.modCore_keys : State.keys (s.modCore k f) = s.keys := rfl
@[simp] theorem State.modCore_jobs : State.jobs (s.modCore k f) = s.jobs := rfl
@[simp] theorem State.modCore_launches : State.launches (s.modCore k f) = s.launches := rfl
@[simp] theorem State.modCore_counters : State.counters (s.modCore k f) = s.counters := rfl
@[simp] theorem State.modCore_generations : State.generations (s.modCore k f) = s.generations := rfl
@[simp] theorem State.modCore_nextPage : State.nextPage (s.modCore k f) = s.nextPage := rfl
@[simp] theorem State.modCore_residue : State.residue (s.modCore k f) = s.residue := rfl
@[simp] theorem State.modCore_channels : State.channels (s.modCore k f) = s.channels := rfl
@[simp] theorem State.modCore_links : State.links (s.modCore k f) = s.links := rfl
@[simp] theorem State.modCore_routes : State.routes (s.modCore k f) = s.routes := rfl
@[simp] theorem State.modCore_requests : State.requests (s.modCore k f) = s.requests := rfl
@[simp] theorem State.modCore_nextTag : State.nextTag (s.modCore k f) = s.nextTag := rfl
@[simp] theorem State.modCore_out : State.out (s.modCore k f) = s.out := rfl
@[simp] theorem State.modCore_chip : State.chip (s.modCore k f) = s.chip := rfl
@[simp] theorem State.modCore_agenda : State.agenda (s.modCore k f) = s.agenda := rfl
@[simp] theorem State.modCore_order : State.order (s.modCore k f) = s.order := rfl
@[simp] theorem State.modCore_heldBack : State.heldBack (s.modCore k f) = s.heldBack := rfl
@[simp] theorem State.modCore_farKeys : State.farKeys (s.modCore k f) = s.farKeys := rfl
@[simp] theorem State.modCore_reserved : State.reserved (s.modCore k f) = s.reserved := rfl
@[simp] theorem State.modCore_cur : State.cur (s.modCore k f) = s.cur := rfl
@[simp] theorem State.modCore_now : State.now (s.modCore k f) = s.now := rfl
@[simp] theorem State.modCore_fresh : State.fresh (s.modCore k f) = s.fresh := rfl
@[simp] theorem State.modCore_nextId : State.nextId (s.modCore k f) = s.nextId := rfl
end

/-! After changing a cluster. -/
section
variable (s : State) (k : Nat) (f : Cluster → Cluster)
@[simp] theorem State.modCluster_mem : State.mem (s.modCluster k f) = s.mem := rfl
@[simp] theorem State.modCluster_poison : State.poison (s.modCluster k f) = s.poison := rfl
@[simp] theorem State.modCluster_badCheck : State.badCheck (s.modCluster k f) = s.badCheck := rfl
@[simp] theorem State.modCluster_homeOld : State.homeOld (s.modCluster k f) = s.homeOld := rfl
@[simp] theorem State.modCluster_words : State.words (s.modCluster k f) = s.words := rfl
@[simp] theorem State.modCluster_remotes : State.remotes (s.modCluster k f) = s.remotes := rfl
@[simp] theorem State.modCluster_regTable : State.regTable (s.modCluster k f) = s.regTable := rfl
@[simp] theorem State.modCluster_ctxs : State.ctxs (s.modCluster k f) = s.ctxs := rfl
@[simp] theorem State.modCluster_bind : State.bind (s.modCluster k f) = s.bind := rfl
@[simp] theorem State.modCluster_cores : State.cores (s.modCluster k f) = s.cores := rfl
@[simp] theorem State.modCluster_dies : State.dies (s.modCluster k f) = s.dies := rfl
@[simp] theorem State.modCluster_keys : State.keys (s.modCluster k f) = s.keys := rfl
@[simp] theorem State.modCluster_jobs : State.jobs (s.modCluster k f) = s.jobs := rfl
@[simp] theorem State.modCluster_launches : State.launches (s.modCluster k f) = s.launches := rfl
@[simp] theorem State.modCluster_counters : State.counters (s.modCluster k f) = s.counters := rfl
@[simp] theorem State.modCluster_generations : State.generations (s.modCluster k f) = s.generations := rfl
@[simp] theorem State.modCluster_nextPage : State.nextPage (s.modCluster k f) = s.nextPage := rfl
@[simp] theorem State.modCluster_residue : State.residue (s.modCluster k f) = s.residue := rfl
@[simp] theorem State.modCluster_channels : State.channels (s.modCluster k f) = s.channels := rfl
@[simp] theorem State.modCluster_links : State.links (s.modCluster k f) = s.links := rfl
@[simp] theorem State.modCluster_routes : State.routes (s.modCluster k f) = s.routes := rfl
@[simp] theorem State.modCluster_requests : State.requests (s.modCluster k f) = s.requests := rfl
@[simp] theorem State.modCluster_nextTag : State.nextTag (s.modCluster k f) = s.nextTag := rfl
@[simp] theorem State.modCluster_out : State.out (s.modCluster k f) = s.out := rfl
@[simp] theorem State.modCluster_chip : State.chip (s.modCluster k f) = s.chip := rfl
@[simp] theorem State.modCluster_agenda : State.agenda (s.modCluster k f) = s.agenda := rfl
@[simp] theorem State.modCluster_order : State.order (s.modCluster k f) = s.order := rfl
@[simp] theorem State.modCluster_heldBack : State.heldBack (s.modCluster k f) = s.heldBack := rfl
@[simp] theorem State.modCluster_farKeys : State.farKeys (s.modCluster k f) = s.farKeys := rfl
@[simp] theorem State.modCluster_reserved : State.reserved (s.modCluster k f) = s.reserved := rfl
@[simp] theorem State.modCluster_cur : State.cur (s.modCluster k f) = s.cur := rfl
@[simp] theorem State.modCluster_now : State.now (s.modCluster k f) = s.now := rfl
@[simp] theorem State.modCluster_fresh : State.fresh (s.modCluster k f) = s.fresh := rfl
@[simp] theorem State.modCluster_nextId : State.nextId (s.modCluster k f) = s.nextId := rfl
end

/-! After changing a die. -/
section
variable (s : State) (k : Nat) (f : Die → Die)
@[simp] theorem State.modDie_mem : State.mem (s.modDie k f) = s.mem := rfl
@[simp] theorem State.modDie_poison : State.poison (s.modDie k f) = s.poison := rfl
@[simp] theorem State.modDie_badCheck : State.badCheck (s.modDie k f) = s.badCheck := rfl
@[simp] theorem State.modDie_homeOld : State.homeOld (s.modDie k f) = s.homeOld := rfl
@[simp] theorem State.modDie_words : State.words (s.modDie k f) = s.words := rfl
@[simp] theorem State.modDie_remotes : State.remotes (s.modDie k f) = s.remotes := rfl
@[simp] theorem State.modDie_regTable : State.regTable (s.modDie k f) = s.regTable := rfl
@[simp] theorem State.modDie_ctxs : State.ctxs (s.modDie k f) = s.ctxs := rfl
@[simp] theorem State.modDie_bind : State.bind (s.modDie k f) = s.bind := rfl
@[simp] theorem State.modDie_cores : State.cores (s.modDie k f) = s.cores := rfl
@[simp] theorem State.modDie_clusters : State.clusters (s.modDie k f) = s.clusters := rfl
@[simp] theorem State.modDie_keys : State.keys (s.modDie k f) = s.keys := rfl
@[simp] theorem State.modDie_jobs : State.jobs (s.modDie k f) = s.jobs := rfl
@[simp] theorem State.modDie_launches : State.launches (s.modDie k f) = s.launches := rfl
@[simp] theorem State.modDie_counters : State.counters (s.modDie k f) = s.counters := rfl
@[simp] theorem State.modDie_generations : State.generations (s.modDie k f) = s.generations := rfl
@[simp] theorem State.modDie_nextPage : State.nextPage (s.modDie k f) = s.nextPage := rfl
@[simp] theorem State.modDie_residue : State.residue (s.modDie k f) = s.residue := rfl
@[simp] theorem State.modDie_channels : State.channels (s.modDie k f) = s.channels := rfl
@[simp] theorem State.modDie_links : State.links (s.modDie k f) = s.links := rfl
@[simp] theorem State.modDie_routes : State.routes (s.modDie k f) = s.routes := rfl
@[simp] theorem State.modDie_requests : State.requests (s.modDie k f) = s.requests := rfl
@[simp] theorem State.modDie_nextTag : State.nextTag (s.modDie k f) = s.nextTag := rfl
@[simp] theorem State.modDie_out : State.out (s.modDie k f) = s.out := rfl
@[simp] theorem State.modDie_chip : State.chip (s.modDie k f) = s.chip := rfl
@[simp] theorem State.modDie_agenda : State.agenda (s.modDie k f) = s.agenda := rfl
@[simp] theorem State.modDie_order : State.order (s.modDie k f) = s.order := rfl
@[simp] theorem State.modDie_heldBack : State.heldBack (s.modDie k f) = s.heldBack := rfl
@[simp] theorem State.modDie_farKeys : State.farKeys (s.modDie k f) = s.farKeys := rfl
@[simp] theorem State.modDie_reserved : State.reserved (s.modDie k f) = s.reserved := rfl
@[simp] theorem State.modDie_cur : State.cur (s.modDie k f) = s.cur := rfl
@[simp] theorem State.modDie_now : State.now (s.modDie k f) = s.now := rfl
@[simp] theorem State.modDie_fresh : State.fresh (s.modDie k f) = s.fresh := rfl
@[simp] theorem State.modDie_nextId : State.nextId (s.modDie k f) = s.nextId := rfl
end

/-! After changing a key-rack entry. -/
section
variable (s : State) (k : Nat) (f : Key → Key)
@[simp] theorem State.modKey_mem : State.mem (s.modKey k f) = s.mem := rfl
@[simp] theorem State.modKey_poison : State.poison (s.modKey k f) = s.poison := rfl
@[simp] theorem State.modKey_badCheck : State.badCheck (s.modKey k f) = s.badCheck := rfl
@[simp] theorem State.modKey_homeOld : State.homeOld (s.modKey k f) = s.homeOld := rfl
@[simp] theorem State.modKey_words : State.words (s.modKey k f) = s.words := rfl
@[simp] theorem State.modKey_remotes : State.remotes (s.modKey k f) = s.remotes := rfl
@[simp] theorem State.modKey_regTable : State.regTable (s.modKey k f) = s.regTable := rfl
@[simp] theorem State.modKey_ctxs : State.ctxs (s.modKey k f) = s.ctxs := rfl
@[simp] theorem State.modKey_bind : State.bind (s.modKey k f) = s.bind := rfl
@[simp] theorem State.modKey_cores : State.cores (s.modKey k f) = s.cores := rfl
@[simp] theorem State.modKey_clusters : State.clusters (s.modKey k f) = s.clusters := rfl
@[simp] theorem State.modKey_dies : State.dies (s.modKey k f) = s.dies := rfl
@[simp] theorem State.modKey_jobs : State.jobs (s.modKey k f) = s.jobs := rfl
@[simp] theorem State.modKey_launches : State.launches (s.modKey k f) = s.launches := rfl
@[simp] theorem State.modKey_counters : State.counters (s.modKey k f) = s.counters := rfl
@[simp] theorem State.modKey_generations : State.generations (s.modKey k f) = s.generations := rfl
@[simp] theorem State.modKey_nextPage : State.nextPage (s.modKey k f) = s.nextPage := rfl
@[simp] theorem State.modKey_residue : State.residue (s.modKey k f) = s.residue := rfl
@[simp] theorem State.modKey_channels : State.channels (s.modKey k f) = s.channels := rfl
@[simp] theorem State.modKey_links : State.links (s.modKey k f) = s.links := rfl
@[simp] theorem State.modKey_routes : State.routes (s.modKey k f) = s.routes := rfl
@[simp] theorem State.modKey_requests : State.requests (s.modKey k f) = s.requests := rfl
@[simp] theorem State.modKey_nextTag : State.nextTag (s.modKey k f) = s.nextTag := rfl
@[simp] theorem State.modKey_out : State.out (s.modKey k f) = s.out := rfl
@[simp] theorem State.modKey_chip : State.chip (s.modKey k f) = s.chip := rfl
@[simp] theorem State.modKey_agenda : State.agenda (s.modKey k f) = s.agenda := rfl
@[simp] theorem State.modKey_order : State.order (s.modKey k f) = s.order := rfl
@[simp] theorem State.modKey_heldBack : State.heldBack (s.modKey k f) = s.heldBack := rfl
@[simp] theorem State.modKey_farKeys : State.farKeys (s.modKey k f) = s.farKeys := rfl
@[simp] theorem State.modKey_reserved : State.reserved (s.modKey k f) = s.reserved := rfl
@[simp] theorem State.modKey_cur : State.cur (s.modKey k f) = s.cur := rfl
@[simp] theorem State.modKey_now : State.now (s.modKey k f) = s.now := rfl
@[simp] theorem State.modKey_fresh : State.fresh (s.modKey k f) = s.fresh := rfl
@[simp] theorem State.modKey_nextId : State.nextId (s.modKey k f) = s.nextId := rfl
end

/-! After changing counters of TELEMETRY. -/
section
variable (s : State) (f : Telemetry → Telemetry)
@[simp] theorem State.modTele_mem : State.mem (s.modTele f) = s.mem := rfl
@[simp] theorem State.modTele_poison : State.poison (s.modTele f) = s.poison := rfl
@[simp] theorem State.modTele_badCheck : State.badCheck (s.modTele f) = s.badCheck := rfl
@[simp] theorem State.modTele_homeOld : State.homeOld (s.modTele f) = s.homeOld := rfl
@[simp] theorem State.modTele_words : State.words (s.modTele f) = s.words := rfl
@[simp] theorem State.modTele_remotes : State.remotes (s.modTele f) = s.remotes := rfl
@[simp] theorem State.modTele_regTable : State.regTable (s.modTele f) = s.regTable := rfl
@[simp] theorem State.modTele_ctxs : State.ctxs (s.modTele f) = s.ctxs := rfl
@[simp] theorem State.modTele_bind : State.bind (s.modTele f) = s.bind := rfl
@[simp] theorem State.modTele_cores : State.cores (s.modTele f) = s.cores := rfl
@[simp] theorem State.modTele_clusters : State.clusters (s.modTele f) = s.clusters := rfl
@[simp] theorem State.modTele_dies : State.dies (s.modTele f) = s.dies := rfl
@[simp] theorem State.modTele_keys : State.keys (s.modTele f) = s.keys := rfl
@[simp] theorem State.modTele_jobs : State.jobs (s.modTele f) = s.jobs := rfl
@[simp] theorem State.modTele_launches : State.launches (s.modTele f) = s.launches := rfl
@[simp] theorem State.modTele_counters : State.counters (s.modTele f) = s.counters := rfl
@[simp] theorem State.modTele_generations : State.generations (s.modTele f) = s.generations := rfl
@[simp] theorem State.modTele_nextPage : State.nextPage (s.modTele f) = s.nextPage := rfl
@[simp] theorem State.modTele_residue : State.residue (s.modTele f) = s.residue := rfl
@[simp] theorem State.modTele_channels : State.channels (s.modTele f) = s.channels := rfl
@[simp] theorem State.modTele_links : State.links (s.modTele f) = s.links := rfl
@[simp] theorem State.modTele_routes : State.routes (s.modTele f) = s.routes := rfl
@[simp] theorem State.modTele_requests : State.requests (s.modTele f) = s.requests := rfl
@[simp] theorem State.modTele_nextTag : State.nextTag (s.modTele f) = s.nextTag := rfl
@[simp] theorem State.modTele_out : State.out (s.modTele f) = s.out := rfl
@[simp] theorem State.modTele_agenda : State.agenda (s.modTele f) = s.agenda := rfl
@[simp] theorem State.modTele_order : State.order (s.modTele f) = s.order := rfl
@[simp] theorem State.modTele_heldBack : State.heldBack (s.modTele f) = s.heldBack := rfl
@[simp] theorem State.modTele_farKeys : State.farKeys (s.modTele f) = s.farKeys := rfl
@[simp] theorem State.modTele_reserved : State.reserved (s.modTele f) = s.reserved := rfl
@[simp] theorem State.modTele_cur : State.cur (s.modTele f) = s.cur := rfl
@[simp] theorem State.modTele_now : State.now (s.modTele f) = s.now := rfl
@[simp] theorem State.modTele_fresh : State.fresh (s.modTele f) = s.fresh := rfl
@[simp] theorem State.modTele_nextId : State.nextId (s.modTele f) = s.nextId := rfl
end

/-! After changing a job. -/
section
variable (s : State) (id : BitVec 32) (f : Job → Job)
@[simp] theorem State.modJob_mem : State.mem (s.modJob id f) = s.mem := rfl
@[simp] theorem State.modJob_poison : State.poison (s.modJob id f) = s.poison := rfl
@[simp] theorem State.modJob_badCheck : State.badCheck (s.modJob id f) = s.badCheck := rfl
@[simp] theorem State.modJob_homeOld : State.homeOld (s.modJob id f) = s.homeOld := rfl
@[simp] theorem State.modJob_words : State.words (s.modJob id f) = s.words := rfl
@[simp] theorem State.modJob_remotes : State.remotes (s.modJob id f) = s.remotes := rfl
@[simp] theorem State.modJob_regTable : State.regTable (s.modJob id f) = s.regTable := rfl
@[simp] theorem State.modJob_ctxs : State.ctxs (s.modJob id f) = s.ctxs := rfl
@[simp] theorem State.modJob_bind : State.bind (s.modJob id f) = s.bind := rfl
@[simp] theorem State.modJob_cores : State.cores (s.modJob id f) = s.cores := rfl
@[simp] theorem State.modJob_clusters : State.clusters (s.modJob id f) = s.clusters := rfl
@[simp] theorem State.modJob_dies : State.dies (s.modJob id f) = s.dies := rfl
@[simp] theorem State.modJob_keys : State.keys (s.modJob id f) = s.keys := rfl
@[simp] theorem State.modJob_launches : State.launches (s.modJob id f) = s.launches := rfl
@[simp] theorem State.modJob_counters : State.counters (s.modJob id f) = s.counters := rfl
@[simp] theorem State.modJob_generations : State.generations (s.modJob id f) = s.generations := rfl
@[simp] theorem State.modJob_nextPage : State.nextPage (s.modJob id f) = s.nextPage := rfl
@[simp] theorem State.modJob_residue : State.residue (s.modJob id f) = s.residue := rfl
@[simp] theorem State.modJob_channels : State.channels (s.modJob id f) = s.channels := rfl
@[simp] theorem State.modJob_links : State.links (s.modJob id f) = s.links := rfl
@[simp] theorem State.modJob_routes : State.routes (s.modJob id f) = s.routes := rfl
@[simp] theorem State.modJob_requests : State.requests (s.modJob id f) = s.requests := rfl
@[simp] theorem State.modJob_nextTag : State.nextTag (s.modJob id f) = s.nextTag := rfl
@[simp] theorem State.modJob_out : State.out (s.modJob id f) = s.out := rfl
@[simp] theorem State.modJob_chip : State.chip (s.modJob id f) = s.chip := rfl
@[simp] theorem State.modJob_agenda : State.agenda (s.modJob id f) = s.agenda := rfl
@[simp] theorem State.modJob_order : State.order (s.modJob id f) = s.order := rfl
@[simp] theorem State.modJob_heldBack : State.heldBack (s.modJob id f) = s.heldBack := rfl
@[simp] theorem State.modJob_farKeys : State.farKeys (s.modJob id f) = s.farKeys := rfl
@[simp] theorem State.modJob_reserved : State.reserved (s.modJob id f) = s.reserved := rfl
@[simp] theorem State.modJob_cur : State.cur (s.modJob id f) = s.cur := rfl
@[simp] theorem State.modJob_now : State.now (s.modJob id f) = s.now := rfl
@[simp] theorem State.modJob_fresh : State.fresh (s.modJob id f) = s.fresh := rfl
@[simp] theorem State.modJob_nextId : State.nextId (s.modJob id f) = s.nextId := rfl
end

/-! After changing a strip. -/
section
variable (s : State) (c b : Nat) (f : Strip → Strip)
@[simp] theorem State.modStrip_mem : State.mem (s.modStrip c b f) = s.mem := rfl
@[simp] theorem State.modStrip_poison : State.poison (s.modStrip c b f) = s.poison := rfl
@[simp] theorem State.modStrip_badCheck : State.badCheck (s.modStrip c b f) = s.badCheck := rfl
@[simp] theorem State.modStrip_homeOld : State.homeOld (s.modStrip c b f) = s.homeOld := rfl
@[simp] theorem State.modStrip_words : State.words (s.modStrip c b f) = s.words := rfl
@[simp] theorem State.modStrip_remotes : State.remotes (s.modStrip c b f) = s.remotes := rfl
@[simp] theorem State.modStrip_regTable : State.regTable (s.modStrip c b f) = s.regTable := rfl
@[simp] theorem State.modStrip_bind : State.bind (s.modStrip c b f) = s.bind := rfl
@[simp] theorem State.modStrip_cores : State.cores (s.modStrip c b f) = s.cores := rfl
@[simp] theorem State.modStrip_clusters : State.clusters (s.modStrip c b f) = s.clusters := rfl
@[simp] theorem State.modStrip_dies : State.dies (s.modStrip c b f) = s.dies := rfl
@[simp] theorem State.modStrip_keys : State.keys (s.modStrip c b f) = s.keys := rfl
@[simp] theorem State.modStrip_jobs : State.jobs (s.modStrip c b f) = s.jobs := rfl
@[simp] theorem State.modStrip_launches : State.launches (s.modStrip c b f) = s.launches := rfl
@[simp] theorem State.modStrip_counters : State.counters (s.modStrip c b f) = s.counters := rfl
@[simp] theorem State.modStrip_generations : State.generations (s.modStrip c b f) = s.generations := rfl
@[simp] theorem State.modStrip_nextPage : State.nextPage (s.modStrip c b f) = s.nextPage := rfl
@[simp] theorem State.modStrip_residue : State.residue (s.modStrip c b f) = s.residue := rfl
@[simp] theorem State.modStrip_channels : State.channels (s.modStrip c b f) = s.channels := rfl
@[simp] theorem State.modStrip_links : State.links (s.modStrip c b f) = s.links := rfl
@[simp] theorem State.modStrip_routes : State.routes (s.modStrip c b f) = s.routes := rfl
@[simp] theorem State.modStrip_requests : State.requests (s.modStrip c b f) = s.requests := rfl
@[simp] theorem State.modStrip_nextTag : State.nextTag (s.modStrip c b f) = s.nextTag := rfl
@[simp] theorem State.modStrip_out : State.out (s.modStrip c b f) = s.out := rfl
@[simp] theorem State.modStrip_chip : State.chip (s.modStrip c b f) = s.chip := rfl
@[simp] theorem State.modStrip_agenda : State.agenda (s.modStrip c b f) = s.agenda := rfl
@[simp] theorem State.modStrip_order : State.order (s.modStrip c b f) = s.order := rfl
@[simp] theorem State.modStrip_heldBack : State.heldBack (s.modStrip c b f) = s.heldBack := rfl
@[simp] theorem State.modStrip_farKeys : State.farKeys (s.modStrip c b f) = s.farKeys := rfl
@[simp] theorem State.modStrip_reserved : State.reserved (s.modStrip c b f) = s.reserved := rfl
@[simp] theorem State.modStrip_cur : State.cur (s.modStrip c b f) = s.cur := rfl
@[simp] theorem State.modStrip_now : State.now (s.modStrip c b f) = s.now := rfl
@[simp] theorem State.modStrip_fresh : State.fresh (s.modStrip c b f) = s.fresh := rfl
@[simp] theorem State.modStrip_nextId : State.nextId (s.modStrip c b f) = s.nextId := rfl
end

/-! After changing the issuing strip. -/
section
variable (s : State) (f : Strip → Strip)
@[simp] theorem State.modMyStrip_mem : State.mem (s.modMyStrip f) = s.mem := rfl
@[simp] theorem State.modMyStrip_poison : State.poison (s.modMyStrip f) = s.poison := rfl
@[simp] theorem State.modMyStrip_badCheck : State.badCheck (s.modMyStrip f) = s.badCheck := rfl
@[simp] theorem State.modMyStrip_homeOld : State.homeOld (s.modMyStrip f) = s.homeOld := rfl
@[simp] theorem State.modMyStrip_words : State.words (s.modMyStrip f) = s.words := rfl
@[simp] theorem State.modMyStrip_remotes : State.remotes (s.modMyStrip f) = s.remotes := rfl
@[simp] theorem State.modMyStrip_regTable : State.regTable (s.modMyStrip f) = s.regTable := rfl
@[simp] theorem State.modMyStrip_bind : State.bind (s.modMyStrip f) = s.bind := rfl
@[simp] theorem State.modMyStrip_cores : State.cores (s.modMyStrip f) = s.cores := rfl
@[simp] theorem State.modMyStrip_clusters : State.clusters (s.modMyStrip f) = s.clusters := rfl
@[simp] theorem State.modMyStrip_dies : State.dies (s.modMyStrip f) = s.dies := rfl
@[simp] theorem State.modMyStrip_keys : State.keys (s.modMyStrip f) = s.keys := rfl
@[simp] theorem State.modMyStrip_jobs : State.jobs (s.modMyStrip f) = s.jobs := rfl
@[simp] theorem State.modMyStrip_launches : State.launches (s.modMyStrip f) = s.launches := rfl
@[simp] theorem State.modMyStrip_counters : State.counters (s.modMyStrip f) = s.counters := rfl
@[simp] theorem State.modMyStrip_generations : State.generations (s.modMyStrip f) = s.generations := rfl
@[simp] theorem State.modMyStrip_nextPage : State.nextPage (s.modMyStrip f) = s.nextPage := rfl
@[simp] theorem State.modMyStrip_residue : State.residue (s.modMyStrip f) = s.residue := rfl
@[simp] theorem State.modMyStrip_channels : State.channels (s.modMyStrip f) = s.channels := rfl
@[simp] theorem State.modMyStrip_links : State.links (s.modMyStrip f) = s.links := rfl
@[simp] theorem State.modMyStrip_routes : State.routes (s.modMyStrip f) = s.routes := rfl
@[simp] theorem State.modMyStrip_requests : State.requests (s.modMyStrip f) = s.requests := rfl
@[simp] theorem State.modMyStrip_nextTag : State.nextTag (s.modMyStrip f) = s.nextTag := rfl
@[simp] theorem State.modMyStrip_out : State.out (s.modMyStrip f) = s.out := rfl
@[simp] theorem State.modMyStrip_chip : State.chip (s.modMyStrip f) = s.chip := rfl
@[simp] theorem State.modMyStrip_agenda : State.agenda (s.modMyStrip f) = s.agenda := rfl
@[simp] theorem State.modMyStrip_order : State.order (s.modMyStrip f) = s.order := rfl
@[simp] theorem State.modMyStrip_heldBack : State.heldBack (s.modMyStrip f) = s.heldBack := rfl
@[simp] theorem State.modMyStrip_farKeys : State.farKeys (s.modMyStrip f) = s.farKeys := rfl
@[simp] theorem State.modMyStrip_reserved : State.reserved (s.modMyStrip f) = s.reserved := rfl
@[simp] theorem State.modMyStrip_cur : State.cur (s.modMyStrip f) = s.cur := rfl
@[simp] theorem State.modMyStrip_now : State.now (s.modMyStrip f) = s.now := rfl
@[simp] theorem State.modMyStrip_fresh : State.fresh (s.modMyStrip f) = s.fresh := rfl
@[simp] theorem State.modMyStrip_nextId : State.nextId (s.modMyStrip f) = s.nextId := rfl
end

/-! After sending something out. -/
section
variable (s : State) (o : Output)
@[simp] theorem State.emit_mem : State.mem (s.emit o) = s.mem := rfl
@[simp] theorem State.emit_poison : State.poison (s.emit o) = s.poison := rfl
@[simp] theorem State.emit_badCheck : State.badCheck (s.emit o) = s.badCheck := rfl
@[simp] theorem State.emit_homeOld : State.homeOld (s.emit o) = s.homeOld := rfl
@[simp] theorem State.emit_words : State.words (s.emit o) = s.words := rfl
@[simp] theorem State.emit_remotes : State.remotes (s.emit o) = s.remotes := rfl
@[simp] theorem State.emit_regTable : State.regTable (s.emit o) = s.regTable := rfl
@[simp] theorem State.emit_ctxs : State.ctxs (s.emit o) = s.ctxs := rfl
@[simp] theorem State.emit_bind : State.bind (s.emit o) = s.bind := rfl
@[simp] theorem State.emit_cores : State.cores (s.emit o) = s.cores := rfl
@[simp] theorem State.emit_clusters : State.clusters (s.emit o) = s.clusters := rfl
@[simp] theorem State.emit_dies : State.dies (s.emit o) = s.dies := rfl
@[simp] theorem State.emit_keys : State.keys (s.emit o) = s.keys := rfl
@[simp] theorem State.emit_jobs : State.jobs (s.emit o) = s.jobs := rfl
@[simp] theorem State.emit_launches : State.launches (s.emit o) = s.launches := rfl
@[simp] theorem State.emit_counters : State.counters (s.emit o) = s.counters := rfl
@[simp] theorem State.emit_generations : State.generations (s.emit o) = s.generations := rfl
@[simp] theorem State.emit_nextPage : State.nextPage (s.emit o) = s.nextPage := rfl
@[simp] theorem State.emit_residue : State.residue (s.emit o) = s.residue := rfl
@[simp] theorem State.emit_channels : State.channels (s.emit o) = s.channels := rfl
@[simp] theorem State.emit_links : State.links (s.emit o) = s.links := rfl
@[simp] theorem State.emit_routes : State.routes (s.emit o) = s.routes := rfl
@[simp] theorem State.emit_requests : State.requests (s.emit o) = s.requests := rfl
@[simp] theorem State.emit_nextTag : State.nextTag (s.emit o) = s.nextTag := rfl
@[simp] theorem State.emit_chip : State.chip (s.emit o) = s.chip := rfl
@[simp] theorem State.emit_agenda : State.agenda (s.emit o) = s.agenda := rfl
@[simp] theorem State.emit_order : State.order (s.emit o) = s.order := rfl
@[simp] theorem State.emit_heldBack : State.heldBack (s.emit o) = s.heldBack := rfl
@[simp] theorem State.emit_farKeys : State.farKeys (s.emit o) = s.farKeys := rfl
@[simp] theorem State.emit_reserved : State.reserved (s.emit o) = s.reserved := rfl
@[simp] theorem State.emit_cur : State.cur (s.emit o) = s.cur := rfl
@[simp] theorem State.emit_now : State.now (s.emit o) = s.now := rfl
@[simp] theorem State.emit_fresh : State.fresh (s.emit o) = s.fresh := rfl
@[simp] theorem State.emit_nextId : State.nextId (s.emit o) = s.nextId := rfl
end

/-! After putting a happening on the agenda. -/
section
variable (s : State) (e : Event)
@[simp] theorem State.later_mem : State.mem (s.later e) = s.mem := rfl
@[simp] theorem State.later_poison : State.poison (s.later e) = s.poison := rfl
@[simp] theorem State.later_badCheck : State.badCheck (s.later e) = s.badCheck := rfl
@[simp] theorem State.later_homeOld : State.homeOld (s.later e) = s.homeOld := rfl
@[simp] theorem State.later_words : State.words (s.later e) = s.words := rfl
@[simp] theorem State.later_remotes : State.remotes (s.later e) = s.remotes := rfl
@[simp] theorem State.later_regTable : State.regTable (s.later e) = s.regTable := rfl
@[simp] theorem State.later_ctxs : State.ctxs (s.later e) = s.ctxs := rfl
@[simp] theorem State.later_bind : State.bind (s.later e) = s.bind := rfl
@[simp] theorem State.later_cores : State.cores (s.later e) = s.cores := rfl
@[simp] theorem State.later_clusters : State.clusters (s.later e) = s.clusters := rfl
@[simp] theorem State.later_dies : State.dies (s.later e) = s.dies := rfl
@[simp] theorem State.later_keys : State.keys (s.later e) = s.keys := rfl
@[simp] theorem State.later_jobs : State.jobs (s.later e) = s.jobs := rfl
@[simp] theorem State.later_launches : State.launches (s.later e) = s.launches := rfl
@[simp] theorem State.later_counters : State.counters (s.later e) = s.counters := rfl
@[simp] theorem State.later_generations : State.generations (s.later e) = s.generations := rfl
@[simp] theorem State.later_nextPage : State.nextPage (s.later e) = s.nextPage := rfl
@[simp] theorem State.later_residue : State.residue (s.later e) = s.residue := rfl
@[simp] theorem State.later_channels : State.channels (s.later e) = s.channels := rfl
@[simp] theorem State.later_links : State.links (s.later e) = s.links := rfl
@[simp] theorem State.later_routes : State.routes (s.later e) = s.routes := rfl
@[simp] theorem State.later_requests : State.requests (s.later e) = s.requests := rfl
@[simp] theorem State.later_nextTag : State.nextTag (s.later e) = s.nextTag := rfl
@[simp] theorem State.later_out : State.out (s.later e) = s.out := rfl
@[simp] theorem State.later_chip : State.chip (s.later e) = s.chip := rfl
@[simp] theorem State.later_order : State.order (s.later e) = s.order := rfl
@[simp] theorem State.later_heldBack : State.heldBack (s.later e) = s.heldBack := rfl
@[simp] theorem State.later_farKeys : State.farKeys (s.later e) = s.farKeys := rfl
@[simp] theorem State.later_reserved : State.reserved (s.later e) = s.reserved := rfl
@[simp] theorem State.later_cur : State.cur (s.later e) = s.cur := rfl
@[simp] theorem State.later_now : State.now (s.later e) = s.now := rfl
@[simp] theorem State.later_fresh : State.fresh (s.later e) = s.fresh := rfl
@[simp] theorem State.later_nextId : State.nextId (s.later e) = s.nextId := rfl
end

/-- What was sent out last. -/
@[simp] theorem State.emit_out (s : State) (o : Output) : (s.emit o).out = s.out ++ [o] := rfl
/-- What was put on the agenda last. -/
@[simp] theorem State.later_agenda (s : State) (e : Event) : (s.later e).agenda = s.agenda ++ [e] := rfl

end Sys2Proof.Machine
end

