-- ==== Sys2Proof/Laws/Issue.lean ====
section
/-! SUPPORT. What the issue of an instruction leads to, said once for the three outcomes of its body. -/

namespace Sys2Proof.Machine

/-- Going on with a value there is. -/
@[simp] theorem R.bind_ok (a : α) (s : State) (f : α → State → R β) : (R.ok a s).bind f = f a s := rfl
/-- A cause stays. -/
@[simp] theorem R.bind_trap (c : Code) (t : Word) (s : State) (f : α → State → R β) :
    (R.trap c t s).bind f = .trap c t s := rfl
/-- A stall stays. -/
@[simp] theorem R.bind_stall (w : WaitCond) (s : State) (f : α → State → R β) : (R.stall w s).bind f = .stall w s := rfl
/-- Going on with a state there is. -/
@[simp] theorem R.andThen_ok (a : α) (s : State) (f : State → R β) : (R.ok a s).andThen f = f s := rfl
/-- A cause stays. -/
@[simp] theorem R.andThen_trap (c : Code) (t : Word) (s : State) (f : State → R β) :
    (R.trap c t s : R α).andThen f = .trap c t s := rfl
/-- A stall stays. -/
@[simp] theorem R.andThen_stall (w : WaitCond) (s : State) (f : State → R β) :
    (R.stall w s : R α).andThen f = .stall w s := rfl

/-- With no store's fault held, a synchronising operation goes on (R161). -/
theorem State.syncPoint_none (s : State) (h : s.myCtx.imprecise = []) : s.syncPoint = .ok ⟨⟩ s := by
  simp [State.syncPoint, h]

/-- The state after an instruction whose effects left t and whose post gate took a ticket or none; `own` leaves the completion to
the operation that it started (R65, R119). -/
def State.postedBy (k : Option Ticket) (own : Bool) (t : State) : State :=
  match k with
  | none => t
  | some k => if own then t.tookPost k else (t.tookPost k).complete t.me (some k)

/-- An instruction that is ready issues: what its body does is what it does, with its post beside (R65, R178, R187). -/
theorem issueR_ready {i : Instr} {s s1 : State} (own : Bool) (body : Option Ticket → State → R PUnit) (hr : Ready i s s1) :
    s.issueR i own body = (body (ticketOf i s1) s1).andThen fun t => R.done (t.postedBy (ticketOf i s1) own) := by
  obtain ⟨hf, hp, hg, hk⟩ := hr
  have post : s1.posting (s1.duePost (gatesOf i)) own body =
      (body (ticketOf i s1) s1).andThen fun t => R.done (t.postedBy (ticketOf i s1) own) := by
    unfold State.posting ticketOf
    cases hd : s1.duePost (gatesOf i) with
    | none => cases h : body none s1 <;> simp [h, State.postedBy]
    | some p =>
      obtain ⟨h64, himp⟩ := hk p hd
      simp only [ge_iff_le, Nat.not_le_of_lt h64, if_false, State.syncPoint_none s1 himp, R.andThen_ok, Option.map_some]
      rfl
  unfold State.issueR
  simp only [hf, hp, Bool.false_eq_true, if_false]
  cases hm : s.myRegion with
  | some r => rw [hm] at hg; simp only [hg.1, hg.2, Bool.false_eq_true, if_false, R.andThen_ok, post]
  | none => rw [hm] at hg; simp only [hg, R.andThen_ok, post]

/-- A meaning whose body gets through is finished. -/
theorem issue_ok {i : Instr} {s s1 t : State} {body : State → R PUnit} (hr : Ready i s s1) (hb : body s1 = .ok ⟨⟩ t) :
    issue i s body = .next (finished i s1 t) := by
  unfold issue
  rw [issueR_ready _ _ hr, hb]
  unfold finished finishedBy
  cases ticketOf i s1 <;> rfl

/-- A meaning whose body raises a cause takes it. -/
theorem issue_trap {i : Instr} {s s1 t : State} {c : Code} {v : Word} {body : State → R PUnit} (hr : Ready i s s1)
    (hb : body s1 = .trap c v t) : issue i s body = .next (t.dropAnswers.takeCause c v) := by
  unfold issue
  rw [issueR_ready _ _ hr, hb]
  rfl

/-- A meaning whose body stalls waits. -/
theorem issue_stall {i : Instr} {s s1 t : State} {w : WaitCond} {body : State → R PUnit} (hr : Ready i s s1)
    (hb : body s1 = .stall w t) : issue i s body = .next (t.park w) := by
  unfold issue
  rw [issueR_ready _ _ hr, hb]
  rfl

/-- A meaning that starts an operation goes on without its completion. -/
theorem issueOwn_ok {i : Instr} {s s1 t : State} {body : Option Ticket → State → R PUnit} (hr : Ready i s s1)
    (hb : body (ticketOf i s1) s1 = .ok ⟨⟩ t) : issueOwn i s body = .next (started i s1 t) := by
  unfold issueOwn
  rw [issueR_ready _ _ hr, hb]
  unfold started
  cases ticketOf i s1 <;> rfl

/-- A meaning that would start an operation and raises a cause takes it. -/
theorem issueOwn_trap {i : Instr} {s s1 t : State} {c : Code} {v : Word} {body : Option Ticket → State → R PUnit}
    (hr : Ready i s s1) (hb : body (ticketOf i s1) s1 = .trap c v t) :
    issueOwn i s body = .next (t.dropAnswers.takeCause c v) := by
  unfold issueOwn
  rw [issueR_ready _ _ hr, hb]
  rfl

/-- A meaning that would start an operation and stalls waits. -/
theorem issueOwn_stall {i : Instr} {s s1 t : State} {w : WaitCond} {body : Option Ticket → State → R PUnit}
    (hr : Ready i s s1) (hb : body (ticketOf i s1) s1 = .stall w t) : issueOwn i s body = .next (t.park w) := by
  unfold issueOwn
  rw [issueR_ready _ _ hr, hb]
  rfl

/-- An instruction the place or its form does not allow raises the cause of its form (R187). -/
theorem issue_form {i : Instr} {s : State} {c : Code} {body : State → R PUnit}
    (h : formCause i false s.cur.party.place = some c) : issue i s body = .next (s.dropAnswers.takeCause c 0) := by
  unfold issue State.issueR
  rw [h]
  rfl

/-- An instruction without gates, outside a serial region, is ready once its form is allowed. -/
theorem ready_ungated {i : Instr} {s : State} (hf : formCause i false s.cur.party.place = none)
    (hp : s.snapPoisoned i = false) (hg : gatesOf i = Gates.none) (hr : s.myRegion = none) : Ready i s s := by
  refine ⟨hf, hp, ?_, fun p hp => ?_⟩
  · rw [hr, hg]; rfl
  · rw [hg] at hp; simp [State.duePost, hr, Gates.none] at hp

end Sys2Proof.Machine
end

