-- ==== Sys2Proof/Laws/Memory.lean ====
section
/-! SUPPORT. Memory: every operation keeps the canonical form, a written byte reads as what was written, and every
other byte as before. -/

namespace Sys2Proof.Machine.Memory

/-- Canonical memory, one entry at a time. -/
theorem wf_cons (c : Host.Cell) (r : List Host.Cell) :
    wf (c :: r) = true ↔ c.2 ≠ 0 ∧ (∀ d ∈ r.head?, c.1 < d.1) ∧ wf r = true := by
  cases r with
  | nil => simp [wf]
  | cons d r => simp [wf, and_assoc]

/-- The tail of canonical memory is canonical. -/
theorem wf_tail {c : Host.Cell} {r : List Host.Cell} (h : wf (c :: r) = true) : wf r = true := ((wf_cons c r).1 h).2.2

/-- Below the first address nothing is listed. -/
theorem read_below {r : List Host.Cell} {a : Nat} (h : ∀ d ∈ r.head?, a < d.1) : read r a = 0 := by
  cases r with
  | nil => rfl
  | cons d r => simp [read, h d (by simp)]

/-- The first address after a write is the first address before it, or the one written. -/
theorem head_write (m : List Host.Cell) (a : Nat) (b : Byte) (x : Nat) (hx : x < a) (hm : ∀ d ∈ m.head?, x < d.1)
    (hw : wf m = true) : ∀ d ∈ (write m a b).head?, x < d.1 := by
  cases m with
  | nil => unfold write; split <;> simp_all
  | cons c r =>
    obtain ⟨k, v⟩ := c
    have hk : x < k := hm (k, v) (by simp)
    unfold write
    split
    · split <;> simp_all
    split
    · split
      · intro d hd
        have := ((wf_cons _ _).1 hw).2.1 d hd
        exact Nat.lt_trans hk this
      · simp_all
    · simp_all

/-- A write keeps the canonical form. -/
theorem wf_write (m : List Host.Cell) (a : Nat) (b : Byte) (h : wf m = true) : wf (write m a b) = true := by
  induction m with
  | nil => unfold write; split <;> simp_all [wf]
  | cons c r ih =>
    obtain ⟨k, v⟩ := c
    have hc := (wf_cons (k, v) r).1 h
    unfold write
    split
    · next hlt =>
      split
      · exact h
      · next hb => exact (wf_cons (a, b) ((k, v) :: r)).2 ⟨hb, by simpa using hlt, h⟩
    · next hge =>
      split
      · next he =>
        split
        · exact hc.2.2
        · next hb => exact (wf_cons _ _).2 ⟨hb, by subst he; exact hc.2.1, hc.2.2⟩
      · next hne => exact (wf_cons _ _).2 ⟨hc.1, head_write r a b k (by omega) hc.2.1 hc.2.2, ih hc.2.2⟩

/-- Writing n bytes of a number keeps the canonical form. -/
theorem wf_writeN (m : List Host.Cell) (a n x : Nat) (h : wf m = true) : wf (writeN m a n x) = true := by
  induction n generalizing m a x with
  | zero => exact h
  | succ n ih => exact ih _ _ _ (wf_write m a _ h)

/-- Writing a list of bytes keeps the canonical form. -/
theorem wf_writeBytes (m : List Host.Cell) (a : Nat) (bs : List Byte) (h : wf m = true) :
    wf (writeBytes m a bs) = true := by
  induction bs generalizing m a with
  | nil => exact h
  | cons b r ih => exact ih _ _ (wf_write m a b h)

/-- A byte that was written. -/
theorem read_write_same (m : List Host.Cell) (a : Nat) (b : Byte) (h : wf m = true) : read (write m a b) a = b := by
  induction m with
  | nil => unfold write; split <;> simp_all [read]
  | cons c r ih =>
    obtain ⟨k, v⟩ := c
    have hc := (wf_cons (k, v) r).1 h
    unfold write
    split
    · next hlt => split <;> simp_all [read]
    · next hge =>
      split
      · next he =>
        split
        · next hb => subst he; rw [read_below hc.2.1, hb]
        · simp [read]
      · next hne => simp [read, hge, hne, ih hc.2.2]

/-- A byte that was not written. -/
theorem read_write_ne (m : List Host.Cell) (a c : Nat) (b : Byte) (h : wf m = true) (hne : c ≠ a) :
    read (write m a b) c = read m c := by
  induction m with
  | nil =>
    unfold write
    split
    · rfl
    · simp [read, Ne.symm hne]
  | cons d r ih =>
    obtain ⟨k, v⟩ := d
    have hc := (wf_cons (k, v) r).1 h
    unfold write
    split
    · next hlt =>
      split
      · rfl
      · by_cases h1 : c < a
        · have : c < k := Nat.lt_trans h1 hlt
          simp [read, h1, this]
        · simp [read, h1, Ne.symm hne]
    · next hge =>
      split
      · next he =>
        subst he
        split
        · by_cases h1 : c < k
          · have : read r c = 0 := read_below fun d hd => Nat.lt_trans h1 (hc.2.1 d hd)
            simp [read, h1, this]
          · simp [read, h1, Ne.symm hne]
        · simp [read, Ne.symm hne]
      · next hk => simp [read, ih hc.2.2]

/-- Bytes outside a number that was written. -/
theorem read_writeN_outside (m : List Host.Cell) (a n x c : Nat) (h : wf m = true) (hc : c < a ∨ a + n ≤ c) :
    read (writeN m a n x) c = read m c := by
  induction n generalizing m a x with
  | zero => rfl
  | succ n ih =>
    unfold writeN
    rw [ih _ _ _ (wf_write m a _ h) (by omega), read_write_ne m a c _ h (by omega)]

/-- Bytes outside a list of bytes that was written. -/
theorem read_writeBytes_outside (m : List Host.Cell) (a c : Nat) (bs : List Byte) (h : wf m = true)
    (hc : c < a ∨ a + bs.length ≤ c) : read (writeBytes m a bs) c = read m c := by
  induction bs generalizing m a with
  | nil => rfl
  | cons b r ih =>
    simp only [List.length_cons] at hc
    unfold writeBytes
    rw [ih _ _ (wf_write m a b h) (by omega), read_write_ne m a c b h (by omega)]

/-- A number that was written reads back, modulo its width. -/
theorem readN_writeN (m : List Host.Cell) (a n x : Nat) (h : wf m = true) :
    readN (writeN m a n x) a n = x % 256 ^ n := by
  induction n generalizing m a x with
  | zero => simp [readN, Nat.mod_one]
  | succ n ih =>
    have hw := wf_write m a (BitVec.ofNat 8 x) h
    unfold writeN readN
    rw [ih _ _ _ hw, read_writeN_outside _ _ _ _ _ hw (by omega), read_write_same m a _ h, BitVec.toNat_ofNat,
      show 256 ^ (n + 1) = 256 * 256 ^ n from Nat.pow_succ']
    exact (Nat.mod_mul (x := x) (a := 256) (b := 256 ^ n)).symm

/-- A run of bytes outside a number that was written. -/
theorem readN_writeN_outside (m : List Host.Cell) (a n x c k : Nat) (h : wf m = true) (hc : c + k ≤ a ∨ a + n ≤ c) :
    readN (writeN m a n x) c k = readN m c k := by
  induction k generalizing c with
  | zero => rfl
  | succ k ih =>
    unfold readN
    rw [read_writeN_outside m a n x c h (by omega), ih (c + 1) (by omega)]

/-- The first address of a part of canonical memory is above what lies before the whole. -/
theorem head_filter (m : List Host.Cell) (f : Host.Cell → Bool) (x : Nat) (hm : ∀ d ∈ m.head?, x < d.1)
    (hw : wf m = true) : ∀ d ∈ (m.filter f).head?, x < d.1 := by
  induction m generalizing x with
  | nil => simp
  | cons c r ih =>
    have hc := (wf_cons c r).1 hw
    have hx : x < c.1 := hm c (by simp)
    by_cases hf : f c = true
    · simpa [hf] using hx
    · rw [List.filter_cons_of_neg hf]
      exact ih x (fun d hd => Nat.lt_trans hx (hc.2.1 d hd)) hc.2.2

/-- A part of canonical memory is canonical. -/
theorem wf_filter (m : List Host.Cell) (f : Host.Cell → Bool) (hw : wf m = true) : wf (m.filter f) = true := by
  induction m with
  | nil => rfl
  | cons c r ih =>
    have hc := (wf_cons c r).1 hw
    by_cases hf : f c = true
    · rw [List.filter_cons_of_pos hf]
      exact (wf_cons _ _).2 ⟨hc.1, head_filter r f c.1 hc.2.1 hc.2.2, ih hc.2.2⟩
    · rw [List.filter_cons_of_neg hf]; exact ih hc.2.2

/-- Copying bytes one at a time keeps the canonical form. -/
theorem wf_foldl_write {α : Type} (l : List α) (f : α → Nat) (g : α → Byte) (m : List Host.Cell) (hw : wf m = true) :
    wf (l.foldl (fun m c => write m (f c) (g c)) m) = true := by
  induction l generalizing m with
  | nil => exact hw
  | cons c r ih => exact ih _ (wf_write m _ _ hw)

/-- Memory after reset is canonical. -/
theorem wf_reset : wf State.reset.mem = true := rfl

end Sys2Proof.Machine.Memory
end

