-- ==== Sys2Proof/Laws/Scalar.lean ====
section
/-! SUPPORT. What the shared scalar operations give: reads and writes of fields, transfers, and the arithmetic of R199. -/

namespace Sys2Proof.Machine

/-- A control register exists exactly when its number names one (R44). -/
theorem creg?_isSome : ∀ n : BitVec 8, (creg? n.toNat).isSome = cregNamed n.toNat := by decide +kernel

/-- A write whose field is ready. -/
theorem State.wrS_ok {s t : State} {k : SReg} (v : Word) (h : s.dstReady k = .ok ⟨⟩ t) :
    s.wrS k v = .ok ⟨⟩ (t.setS k v) := by
  unfold State.wrS; rw [h]; rfl

/-- Two sources and a destination. -/
theorem State.binS_ok {s s2 s3 s4 : State} {sx sy sz : SReg} {a b : Word} (f : Word → Word → Word)
    (ha : s.rdS sy = .ok a s2) (hb : s2.rdS sz = .ok b s3) (hd : s3.dstReady sx = .ok ⟨⟩ s4) :
    s.binS sx sy sz f = .ok ⟨⟩ (s4.setS sx (f a b)) := by
  unfold State.binS; rw [ha, R.bind_ok, hb, R.bind_ok, State.wrS_ok _ hd]

/-- A source, an immediate and a destination. -/
theorem State.immS_ok {s s2 s3 : State} {sx sy : SReg} {a : Word} (imm : BitVec 20) (f : Word → Word → Word)
    (ha : s.rdS sy = .ok a s2) (hd : s2.dstReady sx = .ok ⟨⟩ s3) :
    s.immS sx sy imm f = .ok ⟨⟩ (s3.setS sx (f a (imm.signExtend 64))) := by
  unfold State.immS; rw [ha, R.bind_ok, State.wrS_ok _ hd]

/-- A source and a destination. -/
theorem State.unS_ok {s s2 s3 : State} {sx sy : SReg} {a : Word} (f : Word → Word)
    (ha : s.rdS sy = .ok a s2) (hd : s2.dstReady sx = .ok ⟨⟩ s3) : s.unS sx sy f = .ok ⟨⟩ (s3.setS sx (f a)) := by
  unfold State.unS; rw [ha, R.bind_ok, State.wrS_ok _ hd]

/-- A transfer to a target that passes its checks (R176). -/
theorem State.jump_ok {s t : State} {a : Word} (h : s.checkTarget s.me a = .ok ⟨⟩ t) :
    s.jump a = .ok ⟨⟩ (t.withNext a).refetch := by
  unfold State.jump; rw [h]; rfl

/-- A call to a target that passes its checks (R204). -/
theorem State.callTo_ok {s t u : State} {a : Word} (h : s.checkTarget s.me a = .ok ⟨⟩ t)
    (hd : (t.withNext a).refetch.dstReady 1 = .ok ⟨⟩ u) : s.callTo a = .ok ⟨⟩ (u.setS 1 s.cur.next) := by
  unfold State.callTo; rw [State.jump_ok h, R.andThen_ok, State.wrS_ok _ hd]

/-- A conditional branch that is taken (R203). -/
theorem State.branch_taken {s s2 s3 t : State} {o : FormJ} {a b : Word} {cond : Word → Word → Bool}
    (ha : s.rdS o.sx = .ok a s2) (hb : s2.rdS o.sy = .ok b s3) (hc : cond a b = true)
    (h : s3.checkTarget s3.me (s3.cur.pc + 2 * o.off.signExtend 64) = .ok ⟨⟩ t) :
    s.branch o cond = .ok ⟨⟩ (t.withNext (s3.cur.pc + 2 * o.off.signExtend 64)).refetch := by
  unfold State.branch; rw [ha, R.bind_ok, hb, R.bind_ok, if_pos hc]; exact State.jump_ok h

/-- A conditional branch that is not taken (R203). -/
theorem State.branch_untaken {s s2 s3 : State} {o : FormJ} {a b : Word} {cond : Word → Word → Bool}
    (ha : s.rdS o.sx = .ok a s2) (hb : s2.rdS o.sy = .ok b s3) (hc : cond a b = false) :
    s.branch o cond = .ok ⟨⟩ s3 := by
  unfold State.branch; rw [ha, R.bind_ok, hb, R.bind_ok, hc]; rfl

/-- A party that fetches anew changes what its core holds for it and nothing else (R229). -/
theorem State.refetch_cores (s : State) : ∃ cs, s.refetch = { s with cores := cs } := by
  unfold State.refetch
  split <;> exact ⟨_, rfl⟩

/-- An acquire changes the caches of the core, and marks fills in flight, and nothing else (R147, R158). -/
theorem State.acquire_cores (s : State) (core scope : Nat) :
    ∃ (cs : List (Nat × Core)) (rs : List RemoteReq), s.acquire core scope = { s with cores := cs, requests := rs } := by
  obtain ⟨cs, hc⟩ := s.refetch_cores
  unfold State.acquire
  simp only [hc]
  split <;> exact ⟨_, _, rfl⟩

/-- A read of a token register keeps the state, or acquires once for the copy that wrote it, with no store's fault held (R66,
R150, R158, R161). -/
theorem State.tokenRead_ok {s t : State} {k : SReg} (h : s.tokenRead k = .ok ⟨⟩ t) :
    t = s ∨ s.myCtx.imprecise = [] ∧ ∃ (l : List (SReg × Scope)) (cs : List (Nat × Core)) (rs : List RemoteReq),
      t = { s with ctxs := aset s.ctxs s.me { s.myCtx with tokenScopes := l }, cores := cs, requests := rs } := by
  unfold State.tokenRead at h
  dsimp only at h
  split at h
  · cases h
  split at h
  · cases h
  split at h
  · left; exact (R.ok.inj h).2.symm
  · right
    next tk _ =>
      cases hi : s.myCtx.imprecise with
      | cons p r => simp [State.syncPoint, hi] at h
      | nil =>
        rw [State.syncPoint_none s hi, R.andThen_ok] at h
        obtain ⟨cs, rs, hc⟩ := State.acquire_cores
          (s.modCtx s.me fun x => { x with tokenScopes := x.tokenScopes.filter (· != tk) }) (coreOf s.me) tk.2.toNat
        exact ⟨rfl, _, cs, rs, (R.ok.inj h).2.symm.trans hc⟩

/-- A read of a scalar field on the control thread that gives a value: the register's, and the state after (R194). -/
theorem State.rdS_ctl_ok {s t : State} {k : SReg} {a : Word} (hp : s.cur.party.place = .ctl) (h : s.rdS k = .ok a t) :
    s.tokenRead k = .ok ⟨⟩ t ∧ a = t.myCtx.sreg k := by
  unfold State.rdS at h
  rw [hp] at h
  dsimp only at h
  cases ht : s.tokenRead k with
  | ok u s' =>
    rw [ht, R.andThen_ok] at h
    split at h
    · cases h
    · injection h with h1 h2; subst h2; exact ⟨rfl, h1.symm⟩
  | trap c v s' => rw [ht] at h; cases h
  | stall w s' => rw [ht] at h; cases h

/-- A field that is ready leaves the state as it was. -/
theorem State.dstReady_ok {s t : State} {k : SReg} (h : s.dstReady k = .ok ⟨⟩ t) : t = s := by
  unfold State.dstReady at h
  split at h
  · split at h <;> cases h; rfl
  · cases h; rfl
  · split at h
    · cases h
    split at h
    · cases h
    split at h
    · cases h
    · cases h; rfl

end Sys2Proof.Machine
end

