-- ==== Sys2Proof/Laws/Vector.lean ====
section
/-! SUPPORT. What the shared vector operations give: the groups of an instruction, the lanes it writes, the elements of a
register. -/

namespace Sys2Proof.Machine

/-- The groups of an instruction that can be used (R51, R116, R117). -/
theorem State.vgroups_ok {s t u : State} {srcs : List (Nat × Nat)} {dst : Option (Nat × Nat)} {body : State → R PUnit}
    (h : GroupsReady srcs dst s t) (hb : body t = .ok ⟨⟩ u) : s.vgroups srcs dst body = .ok ⟨⟩ u := by
  obtain ⟨h1, h2, h3⟩ := h
  unfold State.vgroups
  rw [if_neg, if_neg, h3, R.andThen_ok, hb]
  · rfl
  · cases dst <;> simp_all
  · simp only [List.any_eq_true, not_exists, not_and]
    intro r hr; simp [h1 r hr]

/-- A cause of an instruction whose groups were taken gives them back (R116, R195). -/
theorem State.vgroups_trap {s t u : State} {srcs : List (Nat × Nat)} {dst : Option (Nat × Nat)} {body : State → R PUnit}
    {c : Code} {v : Word} (h : GroupsReady srcs dst s t) (hb : body t = .trap c v u) :
    s.vgroups srcs dst body = .trap c v (u.backTo s) := by
  obtain ⟨h1, h2, h3⟩ := h
  unfold State.vgroups
  rw [if_neg, if_neg, h3, R.andThen_ok, hb]
  · rfl
  · cases dst <;> simp_all
  · simp only [List.any_eq_true, not_exists, not_and]
    intro r hr; simp [h1 r hr]

/-- A stall of an instruction whose groups were taken gives them back (R116, R196). -/
theorem State.vgroups_stall {s t u : State} {srcs : List (Nat × Nat)} {dst : Option (Nat × Nat)} {body : State → R PUnit}
    {w : WaitCond} (h : GroupsReady srcs dst s t) (hb : body t = .stall w u) :
    s.vgroups srcs dst body = .stall w (u.backTo s) := by
  obtain ⟨h1, h2, h3⟩ := h
  unfold State.vgroups
  rw [if_neg, if_neg, h3, R.andThen_ok, hb]
  · rfl
  · cases dst <;> simp_all
  · simp only [List.any_eq_true, not_exists, not_and]
    intro r hr; simp [h1 r hr]

/-- An elementwise result whose sources hold no poison (R462). -/
theorem State.mapLanes_ok {s : State} {ps srcs : List Nat} {vd w g : Nat} {tag : Tag} {f : Strip → Nat → Nat × Flags}
    (h : s.myStrip.poisonedAt srcs w ps = false) :
    s.mapLanes ps srcs vd w g tag f = .ok ⟨⟩ (s.putLanes vd w g tag (ps.map fun p => (p, (f s.myStrip p).1))
      ((ps.map fun p => (f s.myStrip p).2).foldl (fun a e => a ||| e) 0)) := by
  unfold State.mapLanes
  dsimp only
  rw [h]
  simp [List.map_map, List.foldl_map, Function.comp_def]

/-- The vector registers a second source reads (R233). -/
@[simp] theorem State.second_regs (s : State) (o : FormV) (w : Nat) :
    (s.second o w).regs = if o.bs == 0 then [o.vb.toNat] else [] := by
  unfold State.second
  split
  · rfl
  · split <;> rfl

/-- An instruction that completes keeps what it took. -/
@[simp] theorem R.orBack_ok (a : α) (s s0 : State) : (R.ok a s).orBack s0 = .ok a s := rfl
/-- An instruction that raises a cause gives back what it took (R195). -/
@[simp] theorem R.orBack_trap (c : Code) (v : Word) (s s0 : State) :
    (R.trap c v s : R α).orBack s0 = .trap c v (s.backTo s0) := rfl
/-- An instruction that stalls gives back what it took (R196). -/
@[simp] theorem R.orBack_stall (w : WaitCond) (s s0 : State) :
    (R.stall w s : R α).orBack s0 = .stall w (s.backTo s0) := rfl

/-- A code reads no register (R233). -/
@[simp] theorem Src.regs_code (x : Nat) : (Src.code x).regs = [] := rfl
/-- A vector source reads its group (R233). -/
@[simp] theorem Src.regs_vec (v : Nat) : (Src.vec v).regs = [v] := rfl

/-- Results without flags add none (R70). -/
@[simp] theorem foldl_no_flags (l : List Nat) : (l.map fun _ => (0 : Flags)).foldl (fun a e => a ||| e) 0 = 0 := by
  induction l with
  | nil => rfl
  | cons _ _ ih => simpa using ih

end Sys2Proof.Machine
end

