-- ==== Sys2Proof/Tests/Slice0.lean ====
section
/-! SUPPORT. Tests: ill-formed instructions are refused, words decode as the spec's tables lay them out, small steps give the
spec's results, and every statement's hypotheses are met by concrete states (`witness_…`). -/

set_option Elab.async false

open Sys2Proof Sys2Proof.Machine

namespace Sys2Proof.Tests

/-! Small states. -/

/-- The value of a result. -/
def val? {α : Type} : R α → Option α
  | .ok a _ => some a
  | _ => none
/-- The state of a result. -/
def after {α : Type} : R α → State
  | .ok _ s => s
  | .trap _ _ s => s
  | .stall _ s => s
/-- The cause of a result. -/
def cause? {α : Type} : R α → Option (Code × Word)
  | .trap c v _ => some (c, v)
  | _ => none
/-- What a result waits for. -/
def stall? {α : Type} : R α → Option WaitCond
  | .stall w _ => some w
  | _ => none
/-- The next state of an outcome. -/
def nextOr (s : State) : Host.Outcome State Fault Refusal → State
  | .next t => t
  | _ => s

theorem ok_of_val {α : Type} {r : R α} {a : α} (h : val? r = some a := by decide +kernel) : r = .ok a (after r) := by
  cases r <;> simp_all [val?, after]
theorem trap_of_cause {α : Type} {r : R α} {c : Code} {v : Word} (h : cause? r = some (c, v)) : r = .trap c v (after r) := by
  cases r <;> simp_all [cause?, after]
theorem stall_of {α : Type} {r : R α} {w : WaitCond} (h : stall? r = some w) : r = .stall w (after r) := by
  cases r <;> simp_all [stall?, after]
theorem ready_plain {i : Instr} {s : State} (h : formCause i false s.cur.party.place = none := by decide +kernel)
    (hr : s.myRegion = none := by decide +kernel) (hg : gatesOf i = Gates.none := by rfl) (hp : s.snapPoisoned i = false := by decide +kernel) : Ready i s s := by
  refine ⟨h, hp, ?_⟩; rw [hr, hg]; exact ⟨rfl, fun p hp => by unfold State.duePost at hp; rw [hr] at hp; cases hp⟩

theorem ready_gated {i : Instr} {s : State} (p : PostGate) (h : formCause i false s.cur.party.place = none)
    (hr : s.myRegion = none) (hw : val? (s.waitGate (gatesOf i)) = some ⟨⟩) (hp : (gatesOf i).post = some p)
    (hn : ((after (s.waitGate (gatesOf i))).myCtx.timeline p.tl).p + 1 < 2 ^ 64)
    (hi : (after (s.waitGate (gatesOf i))).myCtx.imprecise = [])
    (hq : (after (s.waitGate (gatesOf i))).myRegion = none := by decide +kernel)
    (hs : s.snapPoisoned i = false := by decide +kernel) : Ready i s (after (s.waitGate (gatesOf i))) := by
  refine ⟨h, hs, ?_⟩; rw [hr]; refine ⟨ok_of_val hw, fun q h => ?_⟩
  unfold State.duePost at h; rw [hq] at h; dsimp only at h; rw [hp] at h; cases h; exact ⟨hn, hi⟩

/-- No gates. -/
abbrev ng : Gates := Gates.none

/-- Context 0 runs in a job, its control thread at a line that holds `nop`. -/
def base : State := State.reset.withFetchWord 16 1
/-- The same with writable memory at virtual address 0x80000000. -/
def data : State := base.mapAt 4 0x1000 0x80000000 (leafOf 0x100000000 attrW) walkLevels
/-- The same with scalar registers set on the control thread. -/
def withS (s : State) (l : List (SReg × Word)) : State := s.modCtx 0 fun x => l.foldl (fun x (k, v) => x.setSreg k v) x
/-- The strip at STRIPB 0 of four 32-bit elements in context 0 issues. -/
def strip (f : Strip → Strip) : State :=
  let t := f { Strip.zero with vl := 4, vtype := 2 }
  let s := data.modCtx 0 fun x => { x with strips := [t], run := some { BlockRun.zero with entry := { BlockEntry.zero with n := 4 } } }
  { s with cur := ⟨⟨0, .strip 0⟩, 0, 2, none, false⟩ }
/-- A wayfarer thread of it issues. -/
def lane (f : Strip → Strip) : State := { strip f with cur := ⟨⟨0, .lane 0 1⟩, 0, 2, none, false⟩ }
/-- Context 0 with a change. -/
def ctl (f : Ctx → Ctx) : State := data.modCtx 0 f

/-- Context 0 with queued blocks. -/
def queued (n : Nat) : State := ctl fun x => { x with queue := List.replicate n BlockEntry.zero }
/-- The state with a word of memory written, at physical address 0x100001000, which virtual address 0x80001000 reaches. -/
def at4K (n v : Nat) (s : State) : State := { s with mem := Memory.writeN s.mem 0x100001000 n v }

/-- Groups that no stream is bound to. -/
theorem groups_ok {srcs : List (Nat × Nat)} {dst : Option (Nat × Nat)} {s : State}
    (h1 : ∀ r ∈ srcs ++ dst.toList, r.1 % r.2 = 0 := by decide +kernel)
    (h2 : ∀ r ∈ dst, s.myCtx.groupBound s.myStrip.stripb r.1 r.2 = false := by decide +kernel)
    (h3 : val? (s.takeGroups (srcs.map (·.1))) = some ⟨⟩ := by decide +kernel) :
    GroupsReady srcs dst s (after (s.takeGroups (srcs.map (·.1)))) := ⟨h1, h2, ok_of_val h3⟩

/-- Integer registers. -/
def ints (t : Strip) : Strip :=
  { (((t.tagGroup 1 1 6).tagGroup 2 1 6).tagGroup 4 1 6).putEl 1 4 3 7 with vtype := 98 }
/-- Floating-point registers. -/
def floats (t : Strip) : Strip := { ((t.tagGroup 1 1 8).tagGroup 2 1 8).tagGroup 4 1 8 with vtype := 130 }
/-- Form V with two register sources. -/
def fv (vc vb va vd : VNum) : FormV := ⟨0, 0, vc, 0, 0, 0, 0, 0, 0, 0, 0, vb, va, vd⟩
/-- Form V with a scalar source, s0. -/
def fs (va vd : VNum) : FormV := ⟨0, 0, 0, 0, 0, 0, 0, 0, 0, 0, 1, 0, va, vd⟩
/-- Form S with an offset. -/
def fsc (off : BitVec 16) (sy sx : SReg) : FormS := ⟨0, 0, 0, off, sy, sx⟩
/-- The element that a scalar access of n bytes reaches at an address. -/
def accessOf (va : Word) (n : Nat) (k : Access) : Elem := ⟨va, n, k, false, n, 0, [], []⟩
/-- An address register. -/
def ptr (s : State) : State := withS s [(5, 0x80001000), (6, 9), (7, 3)]
/-- A strip whose snapshot holds the address of the data in s5. -/
def vmem (t : Strip) : Strip := { ints t with snap := t.snap.setIfInBounds 5 0x80001000 }
/-- Form M over s5. -/
def fm (vi vd : VNum) : FormM := ⟨0, 0, 0, 0, 0, 0, 0, 0, 0, vi, 0, 5, vd⟩
/-- A shape record of a row of 64 f32 elements in register 3. -/
def shaped (t : Strip) : Strip :=
  { ((((t.tagGroup 3 1 25).putEl 3 8 0 0x108).putEl 3 8 1 0x80001000).putEl 3 8 8 (64 + 2 ^ 48)).putEl 3 8 13 4 with
    vtype := 130 }
/-- The shape it stands for. -/
def row64 : Shape := ⟨false, false, 8, 0x80001000, 0, [0], [64], [0], [1], [4], [0]⟩
/-- Unit 0, with a status, and its launch, of one unit that waits on nothing. -/
def unit0 (st : UStatus) : Unit' := ⟨0, [], 0, 0, 0, 0x80001000, st, true, 0, none, false⟩
def launch0 (st : UStatus) : Launch :=
  ⟨0, 0, 0, 3, 1, false, 0, 0, 0, 0, [], false, 0, 0, 0, [unit0 st], some 0, none, none⟩
/-- Context 0 runs unit 0 of launch 0. -/
def launched (st : UStatus) : State := { data with launches := [launch0 st] }
/-- The data with one scratchpad page, backed by the page at virtual address 0x80000000. -/
def padded : State :=
  { data with bind := data.bind.map fun b => (b.1, b.2 ||| (0x80000#512 <<< 211) ||| (1#512 <<< 203)) }
/-- A barrier at 0x80001000 in phase 4 with ARR 1 of EXP n, and a work counter of value 3. -/
def synced (n : Nat) (c : CStatus) : State :=
  withS { data with
      mem := Memory.writeN (Memory.writeN (Memory.writeN data.mem 0x100001000 4 n) 0x100001004 4 1) 0x100001008 8 4
      counters := [⟨handle 6 0 0 0 0, 3, c, false⟩] }
    [(5, 0x80001000), (6, handle 6 0 0 0 0), (7, 4), (8, 3)]
/-- A tensor access with no gate and no order. -/
def plainAcc : TensorAcc := ⟨false, 0, [], []⟩
/-- Context 0 holds the first band. -/
def granted (x : Ctx) : Ctx := { x with mgrant := 64 }
/-- Core 0 has one engine operation of context 0. -/
def copying (kind : CopyKind) (s : State) : State := s.modCore 0 fun k => { k with copies := [⟨1, 0, 0, kind, none, none, 0, 0, none⟩] }
/-- A group of two members, of which this is the first. -/
def pair : Group := ⟨0, 0, [(0, 0, 0, 0), (0, 1, 0, 0)]⟩
/-- Link 3, with device 7's link 5 as its recorded peer, in a phase. -/
def linked (f : Link → Link) : State :=
  ({ data with chip := { data.chip with flash := { data.chip.flash with peers := [(3, 7, 5)] } } } : State).modLink 3 f
/-- Link 3 is up. -/
def up (f : Link → Link) : State := linked fun l => f { l with phase := .up, peer := some (7, 5) }

/-- A request of a device, not the message's, is in progress on the line of the data. -/
def serving : RemoteReq := ⟨1, ⟨2 ^ 41 + 2 ^ 16 + 3, .ctl⟩, 0x11, 0x100001000, rowLine 0x100001000, 1, none, false, []⟩

/-! Ill-formed instructions (R181, R182, R185, R187). -/

/-- A format fadd does not accept: i8. -/
theorem test_wf_refuses_format : WellFormed (.fadd Gates.none ⟨0, 0, 2, 3, 2, 1⟩) = false := by decide
/-- A format code above 26. -/
theorem test_wf_refuses_format_code : WellFormed (.vfma Gates.none ⟨0, 1, 4, 0, 0, 0, 27, 0, 0, 0, 0, 3, 2, 1⟩) = false := by decide
/-- A field the instruction does not take. -/
theorem test_wf_refuses_untaken_field : WellFormed (.mattach Gates.none ⟨2, 1⟩) = false := by decide
/-- RND 7. -/
theorem test_wf_refuses_rounding : WellFormed (.fadd Gates.none ⟨0, 7, 8, 3, 2, 1⟩) = false := by decide
/-- SATM 3. -/
theorem test_wf_refuses_saturation : WellFormed (.fcvt Gates.none ⟨3, 0, 8, 2, 2, 1⟩) = false := by decide
/-- IM with BS 0. -/
theorem test_wf_refuses_immediate : WellFormed (.vadd Gates.none ⟨1, 0, 0, 0, 0, 0, 0, 0, 0, 3, 0, 3, 2, 1⟩) = false := by decide
/-- MK without MSK. -/
theorem test_wf_refuses_mask : WellFormed (.vadd Gates.none ⟨0, 0, 0, 0, 0, 0, 0, 0, 5, 0, 0, 3, 2, 1⟩) = false := by decide
/-- A shift of 64 (R200). -/
theorem test_wf_refuses_shift : WellFormed (.slli Gates.none ⟨64, 2, 1⟩) = false := by decide
/-- Loop counter 4. -/
theorem test_wf_refuses_counter : WellFormed (.vlset Gates.none ⟨5, 4⟩) = false := by decide
/-- Mask register 16 in a 6-bit field. -/
theorem test_wf_refuses_mask_number : WellFormed (.vbany Gates.none ⟨0, 16⟩) = false := by decide
/-- A software cause below 0xF0 (R223). -/
theorem test_wf_refuses_cause : WellFormed (.trap Gates.none ⟨0xEF, 1⟩) = false := by decide
/-- Scope 7 in a gate. -/
theorem test_wf_refuses_gate_scope : WellFormed (.nop ⟨some ⟨0, 1, 7⟩, none⟩) = false := by decide
/-- Scope 7 in CODE. -/
theorem test_wf_refuses_scope : WellFormed (.fenceFar Gates.none ⟨7, 0⟩) = false := by decide
/-- tlwait without a wait gate (R218). -/
theorem test_wf_refuses_tlwait : WellFormed (.tlwait Gates.none) = false := by decide
/-- SIG without SIGE (R352). -/
theorem test_wf_refuses_signal : WellFormed (.kadd ⟨⟨0, 0, 1⟩, 1, 2, 3, 0⟩) = false := by decide
/-- A scope with a weak access (R181). -/
theorem test_wf_refuses_weak_scope : WellFormed (.lw Gates.none ⟨2, 0, 0, 0, 2, 1⟩) = false := by decide

/-! Words written out bit by bit from R177, R178, R181, R184, R352 to R354: head MAJ, TL, GATE, MIN; operand halfwords. -/

theorem test_decodes_nop : decode 0b000000_000_00_00001#16 [] = .ok (.nop ⟨none, none⟩) := by decide
theorem test_decodes_add : decode 0b000001_100_11_00000#16 [0b0011_0001_0101_0000#16, 0b0100_0000_0000_1000#16, 0b0011_0000_1000_0001#16, 0b0000_0000_0000_0000#16] =
    .ok (.add ⟨some ⟨3, 5, 2⟩, some ⟨4, 1⟩⟩ ⟨3, 2, 1⟩) := by decide
theorem test_decodes_addi : decode 0b000010_010_00_00000#16 [0b1011_0000_1000_0001#16, 0b1111_1111_1111_1111#16] =
    .ok (.addi ⟨none, none⟩ ⟨1048571, 2, 1⟩) := by decide
theorem test_decodes_cpop : decode 0b000011_001_00_00011#16 [0b0000_1000_0100_1001#16] =
    .ok (.cpop ⟨none, none⟩ ⟨33, 9⟩) := by decide
theorem test_decodes_beq : decode 0b000100_010_00_00000#16 [0b1110_0000_1000_0001#16, 0b1111_1111_1111_1111#16] =
    .ok (.beq ⟨none, none⟩ ⟨1048574, 2, 1⟩) := by decide
theorem test_decodes_call : decode 0b000101_010_00_00001#16 [0b0000_0111_1000_0000#16, 0b0000_0000_0000_0000#16] =
    .ok (.call ⟨none, none⟩ ⟨30, 0⟩) := by decide
theorem test_decodes_vblk : decode 0b000110_010_10_00011#16 [0b0010_0000_0001_1000#16, 0b0000_0001_0100_0100#16] =
    .ok (.vblk ⟨none, some ⟨2, 3⟩⟩ ⟨5, 4⟩) := by decide
theorem test_decodes_li : decode 0b000111_100_00_00000#16 [0b0000_0000_0000_0111#16, 0b0000_0000_0000_0011#16, 0b0000_0000_0000_0000#16, 0b1111_1111_0000_0000#16] =
    .ok (.li ⟨none, none⟩ ⟨280375465082883, 7⟩) := by decide
theorem test_decodes_fadd : decode 0b001000_010_00_00000#16 [0b0011_0000_1000_0001#16, 0b0000_0001_0010_0000#16] =
    .ok (.fadd ⟨none, none⟩ ⟨0, 2, 8, 3, 2, 1⟩) := by decide
theorem test_decodes_crd : decode 0b001001_001_00_00000#16 [0b0000_0001_1000_0011#16] =
    .ok (.crd ⟨none, none⟩ ⟨6, 3⟩) := by decide
theorem test_decodes_setvl : decode 0b010000_001_00_00000#16 [0b0000_0000_0000_0101#16] =
    .ok (.setvl ⟨none, none⟩ ⟨0, 5⟩) := by decide
theorem test_decodes_vend : decode 0b010001_000_00_00000#16 [] = .ok (.vend ⟨none, none⟩) := by decide
theorem test_decodes_vlset : decode 0b010010_001_00_00000#16 [0b0000_0001_0100_0010#16] =
    .ok (.vlset ⟨none, none⟩ ⟨5, 2⟩) := by decide
theorem test_decodes_vloop : decode 0b010011_010_00_00000#16 [0b1111_1110_0000_0011#16, 0b1111_1111_1111_1111#16] =
    .ok (.vloop ⟨none, none⟩ ⟨67108856, 3⟩) := by decide
theorem test_decodes_vadd : decode 0b010100_011_00_00000#16 [0b0000_1100_0100_0001#16, 0b0000_0101_0100_0000#16, 0b0000_0000_0000_0000#16] =
    .ok (.vadd ⟨none, none⟩ ⟨0, 0, 0, 0, 0, 0, 0, 1, 5, 0, 0, 3, 2, 1⟩) := by decide
theorem test_decodes_vfma : decode 0b010101_011_00_00100#16 [0b0000_1100_0100_0001#16, 0b0100_0000_0000_0000#16, 0b0000_1001_0000_0011#16] =
    .ok (.vfma ⟨none, none⟩ ⟨0, 1, 4, 0, 0, 3, 8, 0, 0, 0, 0, 3, 2, 1⟩) := by decide
theorem test_decodes_vmslt : decode 0b010110_011_00_00010#16 [0b1000_0000_0100_0111#16, 0b0000_0000_0011_1101#16, 0b0001_0000_0000_0000#16] =
    .ok (.vmslt ⟨none, none⟩ ⟨1, 0, 0, 0, 0, 0, 0, 0, 0, 61, 1, 0, 2, 7⟩) := by decide
theorem test_decodes_mand : decode 0b010111_001_00_00000#16 [0b0000_0011_0010_0001#16] =
    .ok (.mand ⟨none, none⟩ ⟨3, 2, 1⟩) := by decide
theorem test_decodes_vmerge : decode 0b011000_011_00_00111#16 [0b0000_1100_0100_0001#16, 0b0000_0101_0000_0000#16, 0b0000_0000_0000_0000#16] =
    .ok (.vmerge ⟨none, none⟩ ⟨0, 0, 0, 0, 0, 0, 0, 1, 4, 0, 0, 3, 2, 1⟩) := by decide
theorem test_decodes_vredsum : decode 0b011001_011_00_00000#16 [0b1000_0000_0100_0001#16, 0b0000_0000_0000_0011#16, 0b0000_0000_0000_0000#16] =
    .ok (.vredsum ⟨none, none⟩ ⟨0, 0, 0, 0, 0, 0, 0, 0, 0, 3, 1, 0, 2, 1⟩) := by decide
theorem test_decodes_vlds : decode 0b100000_011_00_00010#16 [0b0011_0000_1000_1000#16, 0b0001_0000_0000_0000#16, 0b0000_0000_0000_0000#16] =
    .ok (.vlds ⟨none, none⟩ ⟨0, 0, 0, 0, 0, 1, 0, 0, 0, 0, 6, 4, 8⟩) := by decide
theorem test_decodes_lw : decode 0b100001_011_00_00010#16 [0b1000_0000_1000_0001#16, 0b0110_1111_1111_1111#16, 0b0000_0000_0000_0100#16] =
    .ok (.lw ⟨none, none⟩ ⟨4, 1, 2, 65528, 2, 1⟩) := by decide
theorem test_decodes_vunbind : decode 0b100010_011_00_00011#16 [0b0000_0000_0000_1001#16, 0b0000_0000_0000_0000#16, 0b0000_0000_0000_0000#16] =
    .ok (.vunbind ⟨none, none⟩ ⟨0, 0, 0, 0, 0, 0, 0, 0, 0, 0, 0, 0, 0, 9⟩) := by decide
theorem test_decodes_pcopy : decode 0b100011_010_00_00000#16 [0b0011_0000_1000_0001#16, 0b0000_0000_0001_0000#16] =
    .ok (.pcopy ⟨none, none⟩ ⟨4, 3, 2, 1⟩) := by decide
theorem test_decodes_racq : decode 0b100100_001_00_00000#16 [0b0000_0000_1000_0001#16] =
    .ok (.racq ⟨none, none⟩ ⟨2, 1⟩) := by decide
theorem test_decodes_fenceFar : decode 0b100101_001_00_00000#16 [0b0000_0001_0100_0000#16] =
    .ok (.fenceFar ⟨none, none⟩ ⟨5, 0⟩) := by decide
theorem test_decodes_acas : decode 0b100110_011_00_01001#16 [0b0011_0000_1000_0001#16, 0b1100_1100_0001_0000#16, 0b0000_0000_0000_0000#16] =
    .ok (.acas ⟨none, none⟩ ⟨0, 0, 0, 0, 1, 4, 3, 0, 4, 3, 2, 1⟩) := by decide
theorem test_decodes_vaadd : decode 0b100111_011_00_00000#16 [0b0011_0000_1000_0001#16, 0b0011_0000_0000_0000#16, 0b0000_0000_1011_0110#16] =
    .ok (.vaadd ⟨none, none⟩ ⟨0, 5, 1, 6, 0, 3, 0, 0, 0, 3, 2, 1⟩) := by decide
theorem test_decodes_barwait : decode 0b101000_011_00_00010#16 [0b0000_0000_1000_0001#16, 0b0000_0000_0000_0001#16, 0b0000_0000_0000_0000#16] =
    .ok (.barwait ⟨none, none⟩ ⟨0, 0, 0, 16, 2, 1⟩) := by decide
theorem test_decodes_tmma : decode 0b110000_011_00_00010#16 [0b0000_0000_0001_0001#16, 0b0010_0100_0000_0110#16, 0b0000_0000_0000_0000#16] =
    .ok (.tmma ⟨none, none⟩ ⟨0, 0, 0, 9, 0, 0, 3, 0, 0, 2, 1⟩) := by decide
theorem test_decodes_mattach : decode 0b110001_001_00_00000#16 [0b0000_0000_0000_0001#16] =
    .ok (.mattach ⟨none, none⟩ ⟨0, 1⟩) := by decide
theorem test_decodes_mdetach : decode 0b110010_000_00_00000#16 [] = .ok (.mdetach ⟨none, none⟩) := by decide
theorem test_decodes_rtw : decode 0b111000_010_00_00001#16 [0b0000_0100_0000_0000#16, 0b0000_0000_1100_0000#16] =
    .ok (.rtw ⟨none, none⟩ ⟨3, 0, 1, 0, 0⟩) := by decide
theorem test_decodes_rstat : decode 0b111001_001_00_00000#16 [0b0000_0000_1000_0001#16] =
    .ok (.rstat ⟨none, none⟩ ⟨2, 1⟩) := by decide
theorem test_decodes_scall : decode 0b111100_010_00_00000#16 [0b0000_0000_0000_0000#16, 0b0000_0000_0000_0001#16] =
    .ok (.scall ⟨none, none⟩ ⟨16, 0, 0⟩) := by decide
theorem test_decodes_trap : decode 0b111101_001_00_00000#16 [0b0011_1100_0100_0001#16] =
    .ok (.trap ⟨none, none⟩ ⟨241, 1⟩) := by decide
theorem test_decodes_bkpt : decode 0b111110_000_00_00000#16 [] = .ok (.bkpt 0) := by decide
theorem test_decodes_kaddi : decodeLortar 0b001011_00000101_0_000_0_000110010000000111111111111111111111111111001#64 =
    .ok (.kaddi ⟨⟨5, 0, 0⟩, 3, 4, 0, 1073741817⟩) := by decide
theorem test_decodes_kbeq : decodeLortar 0b010000_00000000_0_000_0_000000000100010000000000000000000000000001100#64 =
    .ok (.kbeq ⟨⟨0, 0, 0⟩, 0, 1, 2, 12⟩) := by decide
theorem test_decodes_xld : decodeLortar 0b100000_00000000_1_010_0_001100000000001000010101000000011000000000000#64 =
    .ok (.xld ⟨⟨0, 1, 2⟩, 3, 0, 0, 4, 5, 8, 0, 0, 1, 4, 0, 0⟩) := by decide
theorem test_decodes_xfma : decodeLortar 0b101011_00000000_0_000_0_000100100011000000000001000000000000010000000#64 =
    .ok (.xfma ⟨⟨0, 0, 0⟩, 1, 2, 3, 0, 0, 8, 0, 0, 0, 0, 1, 0⟩) := by decide

/-! The hypotheses of the statements about scalar instructions, control transfers and traps are met. Context 0 stands in
`withS base`, on its control thread. -/

theorem witness_ScalarBinaryWritesItsResult :
    (∃ s1 s2 s3 s4 : State, Ready (.add ng ⟨3, 2, 1⟩) (withS base [(2, 5), (3, BitVec.allOnes 64)]) s1 ∧
      s1.rdS 2 = .ok 5 s2 ∧ s2.rdS 3 = .ok (BitVec.allOnes 64) s3 ∧ s3.dstReady 1 = .ok ⟨⟩ s4) ∧
    (∃ s1 s2 s3 s4 : State, Ready (.div ng ⟨3, 2, 0⟩) (withS base [(2, 1#64 <<< 63), (3, BitVec.allOnes 64)]) s1 ∧
      s1.rdS 2 = .ok (1#64 <<< 63) s2 ∧ s2.rdS 3 = .ok (BitVec.allOnes 64) s3 ∧ s3.dstReady 0 = .ok ⟨⟩ s4) ∧
    (BitVec.extractLsb' 18 14 (1#32 <<< 18)) ≠ 0 :=
  ⟨⟨_, _, _, _, ready_plain, ok_of_val, ok_of_val,
      ok_of_val⟩,
    ⟨_, _, _, _, ready_plain, ok_of_val, ok_of_val,
      ok_of_val⟩, by decide⟩

/-- A gated instruction issues: the wait gate's value is reached, the post gate takes the next number. -/
theorem witness_ReadyWithGates : ∃ s1 : State,
    Ready (.add ⟨some ⟨3, 0, 2⟩, some ⟨4, 1⟩⟩ ⟨3, 2, 1⟩) base s1 ∧
      (ticketOf (.add ⟨some ⟨3, 0, 2⟩, some ⟨4, 1⟩⟩ ⟨3, 2, 1⟩) s1).isSome = true :=
  ⟨_, ready_gated ⟨4, 1⟩ rfl (by decide +kernel) (by decide +kernel) rfl (by decide +kernel) (by decide +kernel),
    by decide +kernel⟩

theorem witness_ScalarImmediateAndUnaryWriteTheirResult :
    (∃ s1 s2 s3 : State, Ready (.addi ng ⟨0xFFFFF, 2, 1⟩) base s1 ∧ s1.rdS 2 = .ok 0 s2 ∧ s2.dstReady 1 = .ok ⟨⟩ s3) ∧
    (∃ s1 s2 s3 : State, Ready (.clz ng ⟨2, 1⟩) base s1 ∧ s1.rdS 2 = .ok 0 s2 ∧ s2.dstReady 1 = .ok ⟨⟩ s3) ∧
    (∃ s1 s2 : State, Ready (.li ng ⟨1, 63⟩) base s1 ∧ s1.dstReady 63 = .ok ⟨⟩ s2) ∧
    ∃ s1 s2 : State, Ready (.lea ng ⟨1, 63⟩) base s1 ∧ s1.dstReady 63 = .ok ⟨⟩ s2 :=
  ⟨⟨_, _, _, ready_plain, ok_of_val, ok_of_val⟩,
    ⟨_, _, _, ready_plain, ok_of_val, ok_of_val⟩,
    ⟨_, _, ready_plain, ok_of_val⟩,
    ⟨_, _, ready_plain, ok_of_val⟩⟩

theorem witness_ScalarRegisterInstructionsFrame : ∃ (s2 s3 s4 t : State), base.rdS 2 = .ok 0 s2 ∧ s2.rdS 3 = .ok 0 s3 ∧
    s3.dstReady 1 = .ok ⟨⟩ s4 ∧ Ready (.add ng ⟨3, 2, 1⟩) base base ∧ base.cur.party.place = .ctl ∧
    exec (.add ng ⟨3, 2, 1⟩) base = .next t :=
  ⟨_, _, _, _, ok_of_val, ok_of_val, ok_of_val,
    ready_plain, by decide +kernel, rfl⟩

theorem witness_TransfersGoToTheirTarget :
    (∃ s1 s2 s3 s4 : State, Ready (.beq ng ⟨0, 3, 2⟩) base s1 ∧ s1.rdS 2 = .ok 0 s2 ∧ s2.rdS 3 = .ok 0 s3 ∧
      s3.checkTarget s3.me (s3.cur.pc + 2 * (0#20).signExtend 64) = .ok ⟨⟩ s4) ∧
    (∃ s1 s2 s3 : State, Ready (.beq ng ⟨0, 3, 2⟩) (withS base [(3, 1)]) s1 ∧ s1.rdS 2 = .ok 0 s2 ∧ s2.rdS 3 = .ok 1 s3) ∧
    (∃ s1 s2 : State, Ready (.jmp ng ⟨0, 0⟩) base s1 ∧
      s1.checkTarget s1.me (s1.cur.pc + 2 * (0#26).signExtend 64) = .ok ⟨⟩ s2) ∧
    (∃ s1 s2 s3 : State, Ready (.call ng ⟨0, 0⟩) base s1 ∧
      s1.checkTarget s1.me (s1.cur.pc + 2 * (0#26).signExtend 64) = .ok ⟨⟩ s2 ∧
      (s2.withNext (s1.cur.pc + 2 * (0#26).signExtend 64)).dstReady 1 = .ok ⟨⟩ s3) ∧
    (∃ s1 s2 s3 : State, Ready (.jr ng ⟨0, 5⟩) base s1 ∧ s1.rdS 5 = .ok 0 s2 ∧ s2.checkTarget s2.me 0 = .ok ⟨⟩ s3) ∧
    ∃ s1 s2 s3 s4 : State, Ready (.callr ng ⟨0, 5⟩) base s1 ∧ s1.rdS 5 = .ok 0 s2 ∧ s2.checkTarget s2.me 0 = .ok ⟨⟩ s3 ∧
      (s3.withNext 0).dstReady 1 = .ok ⟨⟩ s4 :=
  ⟨⟨_, _, _, _, ready_plain, ok_of_val, ok_of_val,
      ok_of_val⟩,
    ⟨_, _, _, ready_plain, ok_of_val, ok_of_val⟩,
    ⟨_, _, ready_plain, ok_of_val⟩,
    ⟨_, _, _, ready_plain, ok_of_val, ok_of_val⟩,
    ⟨_, _, _, ready_plain, ok_of_val, ok_of_val⟩,
    ⟨_, _, _, _, ready_plain, ok_of_val, ok_of_val,
      ok_of_val⟩⟩

/-- An entry at 0x80001000 with TARGET 0 and SIG 7. -/
def table : State := { data with mem := Memory.writeN data.mem 0x100001008 8 7 }

theorem witness_CalltChecksItsEntry :
    (∃ s1 s2 s3 : State, Ready (.callt ng ⟨6, 5⟩) (withS table [(5, 0x80001008), (6, 7)]) s1 ∧ s1.rdS 5 = .ok 0x80001008 s2 ∧
      s2.rdS 6 = .ok 7 s3 ∧ (0x80001008#64).toNat % 16 ≠ 0) ∧
    (∃ (s1 s2 s3 u : State) (c : Code) (v : Word), Ready (.callt ng ⟨6, 5⟩) (withS table [(5, 0x200000000000), (6, 7)]) s1 ∧
      s1.rdS 5 = .ok 0x200000000000 s2 ∧ s2.rdS 6 = .ok 7 s3 ∧ s3.readElem s3.me (rowElem 0x200000000000 8 .load 3) = .trap c v u) ∧
    (∃ s1 s2 s3 s4 s5 s6 s7 : State, Ready (.callt ng ⟨6, 5⟩) (withS table [(5, 0x80001000), (6, 7)]) s1 ∧
      s1.rdS 5 = .ok 0x80001000 s2 ∧ s2.rdS 6 = .ok 7 s3 ∧ s3.readElem s3.me (rowElem 0x80001000 8 .load 3) = .ok 0 s4 ∧
      s4.readElem s4.me (rowElem (0x80001000 + 8) 8 .load 3) = .ok 7 s5 ∧ s5.checkTarget s5.me (BitVec.ofNat 64 0) = .ok ⟨⟩ s6 ∧
      (s6.withNext (BitVec.ofNat 64 0)).dstReady 1 = .ok ⟨⟩ s7) ∧
    (BitVec.ofNat 64 7 ≠ 8#64) :=
  ⟨⟨_, _, _, ready_plain, ok_of_val, ok_of_val, by decide⟩,
    ⟨_, _, _, _, 0x20, 0x200000000000, ready_plain, ok_of_val,
      ok_of_val, trap_of_cause (by decide +kernel)⟩,
    ⟨_, _, _, _, _, _, _, ready_plain, ok_of_val, ok_of_val,
      ok_of_val, ok_of_val, ok_of_val,
      ok_of_val⟩, by decide⟩

theorem witness_FloatingPointAndTargetChecks :
    (∃ s1 s2 s3 s4 : State, Ready (.fadd ng ⟨0, 0, 8, 3, 2, 1⟩) (withS base [(2, 0x3F800000), (3, 0x40000000)]) s1 ∧
      s1.rdS 2 = .ok 0x3F800000 s2 ∧ s2.rdS 3 = .ok 0x40000000 s3 ∧ s3.dstReady 1 = .ok ⟨⟩ s4) ∧
    (∃ s1 s2 s3 s4 : State, Ready (.feq ng ⟨0, 0, 8, 3, 2, 1⟩) base s1 ∧ s1.rdS 2 = .ok 0 s2 ∧ s2.rdS 3 = .ok 0 s3 ∧
      s3.dstReady 1 = .ok ⟨⟩ s4) ∧
    (∃ s1 : State, Ready (.fcvt ng ⟨0, 0, 8, 15, 2, 1⟩) base s1) ∧
    (∃ s1 s2 s3 : State, Ready (.fcvt ng ⟨0, 0, 9, 8, 2, 1⟩) base s1 ∧
      convertible ((8#6).toNat % 32) (9#5).toNat = true ∧ s1.rdS 2 = .ok 0 s2 ∧ s2.dstReady 1 = .ok ⟨⟩ s3) ∧
    (∃ (hs : List Half) (t : State), base.runAt 0 (0#64).toNat = none ∧ base.fetchLine 0 0 = .ok hs t ∧
      targetOk hs (headOf 0) = true) ∧
    ∃ (hs : List Half) (t : State), base.runAt 0 (62#64).toNat = none ∧ base.fetchLine 0 62 = .ok hs t ∧
      targetOk hs (headOf 62) = false := by
  refine ⟨⟨_, _, _, _, ready_plain, ok_of_val, ok_of_val,
      ok_of_val⟩,
    ⟨_, _, _, _, ready_plain, ok_of_val, ok_of_val,
      ok_of_val⟩, ⟨_, ready_plain⟩,
    ⟨_, _, _, ready_plain, by decide, ok_of_val, ok_of_val⟩,
    ⟨(val? (base.fetchLine 0 0)).getD [], _, by decide +kernel, ok_of_val, by decide +kernel⟩,
    ⟨(val? (base.fetchLine 0 62)).getD [], _, by decide +kernel, ok_of_val, by decide +kernel⟩⟩

/-- R199, R211: results of the spec's rows. -/
theorem test_add_wraps : (nextOr base (exec (.add ng ⟨3, 2, 1⟩) (withS base [(2, 5), (3, BitVec.allOnes 64)]))).myCtx.sreg 1 = 4 :=
  by decide +kernel
theorem test_div_by_zero_is_all_ones :
    (nextOr base (exec (.div ng ⟨3, 2, 1⟩) (withS base [(2, 5)]))).myCtx.sreg 1 = BitVec.allOnes 64 := by decide +kernel
theorem test_sra_keeps_the_sign :
    (nextOr base (exec (.sra ng ⟨3, 2, 1⟩) (withS base [(2, -8), (3, 65)]))).myCtx.sreg 1 = -4 := by decide +kernel
theorem test_fadd_one_and_two : (nextOr base (exec (.fadd ng ⟨0, 0, 8, 3, 2, 1⟩)
    (withS base [(2, 0x3F800000), (3, 0x40000000)]))).myCtx.sreg 1 = 0x40400000 := by decide +kernel
theorem test_s0_discards : (nextOr base (exec (.li ng ⟨5, 0⟩) base)).myCtx.sreg 0 = 0 := by decide +kernel

theorem witness_MarkersCompleteAndVblkQueues :
    (∃ s1 : State, Ready (.nop ng) base s1) ∧
    (∃ s1 : State, Ready (.vsync ng) (queued 1) s1 ∧ s1.myCtx.queue ≠ []) ∧
    (∃ s1 : State, Ready (.vsync ng) base s1 ∧ s1.myCtx.queue = [] ∧ s1.myCtx.run = none ∧ s1.myCtx.imprecise = []) ∧
    (∃ s1 : State, Ready (.halt ng) base s1 ∧ s1.myCtx.imprecise = []) ∧
    (∃ s1 : State, Ready (.wexit ng) (lane fun t => t) s1 ∧ s1.cur.party.place = .lane 0 1) ∧
    (∃ s1 s2 s3 : State, Ready (.vblk ng ⟨2, 1⟩) (withS base [(1, 64), (2, 9)]) s1 ∧ s1.rdS 1 = .ok 64 s2 ∧
      s2.rdS 2 = .ok 9 s3 ∧ s3.myCtx.queue.length < 4) ∧
    (∃ s1 s2 s3 : State, Ready (.vblk ng ⟨2, 1⟩) (withS (queued 4) [(1, 64), (2, 9)]) s1 ∧ s1.rdS 1 = .ok 64 s2 ∧
      s2.rdS 2 = .ok 9 s3 ∧ 4 ≤ s3.myCtx.queue.length) ∧
    ∃ s1 s2 s3 : State, Ready (.vblk ng ⟨2, 1⟩) (withS base [(1, 62), (2, 9)]) s1 ∧ s1.rdS 1 = .ok 62 s2 ∧
      s2.rdS 2 = .ok 9 s3 :=
  ⟨⟨_, ready_plain⟩, ⟨_, ready_plain, by decide +kernel⟩,
    ⟨_, ready_plain, by decide +kernel, by decide +kernel, by decide +kernel⟩,
    ⟨_, ready_plain, by decide +kernel⟩,
    ⟨_, ready_plain, by decide +kernel⟩,
    ⟨_, _, _, ready_plain, ok_of_val, ok_of_val,
      by decide +kernel⟩,
    ⟨_, _, _, ready_plain, ok_of_val, ok_of_val,
      by decide +kernel⟩,
    ⟨_, _, _, ready_plain, ok_of_val, ok_of_val⟩⟩

theorem witness_ControlRegistersReadAndWrite :
    (creg? 0xFF = none ∧ placeCause (.crd ng ⟨0xFF, 3⟩) base.cur.party.place = none ∧
      placeCause (.cwr ng ⟨0x0B, 3⟩) base.cur.party.place = none ∧ creg? 0x0B = none) ∧
    (∃ (s1 s2 : State) (r : CReg), Ready (.crd ng ⟨0x06, 3⟩) base s1 ∧ creg? 0x06 = some r ∧
      cregPlace r.places s1.cur.party.place = none ∧ s1.dstReady 3 = .ok ⟨⟩ s2) ∧
    (∃ (s1 : State) (r : CReg) (c : Code), Ready (.crd ng ⟨0x03, 3⟩) base s1 ∧ creg? 0x03 = some r ∧
      cregPlace r.places s1.cur.party.place = some c) ∧
    (∃ (s1 : State) (r : CReg), Ready (.cwr ng ⟨0x00, 3⟩) base s1 ∧ creg? 0x00 = some r ∧
      cregPlace r.places s1.cur.party.place = none ∧ r.rw = false) ∧
    (∃ (s1 s2 : State) (r : CReg), Ready (.cwr ng ⟨0x06, 3⟩) (withS base [(3, 32)]) s1 ∧ creg? 0x06 = some r ∧
      cregPlace r.places s1.cur.party.place = none ∧ r.rw = true ∧ s1.rdS 3 = .ok 32 s2 ∧ 2 ^ r.width ≤ (32#64).toNat) ∧
    ∃ (s1 s2 : State) (r : CReg), Ready (.cwr ng ⟨0x06, 3⟩) (withS base [(3, 29)]) s1 ∧ creg? 0x06 = some r ∧
      cregPlace r.places s1.cur.party.place = none ∧ r.rw = true ∧ s1.rdS 3 = .ok 29 s2 ∧ (29#64).toNat < 2 ^ r.width ∧
      (29#64).toNat % 8 ≤ 5 :=
  ⟨by decide +kernel,
    ⟨_, _, _, ready_plain, rfl, by decide +kernel, ok_of_val⟩,
    ⟨_, ⟨⟨false, true, false⟩, true, 13⟩, 0x01, ready_plain, rfl, by decide +kernel⟩,
    ⟨_, _, ready_plain, rfl, by decide +kernel, rfl⟩,
    ⟨_, _, _, ready_plain, rfl, by decide +kernel, rfl, ok_of_val, by decide⟩,
    ⟨_, _, _, ready_plain, rfl, by decide +kernel, rfl, ok_of_val, by decide,
      by decide⟩⟩

theorem witness_RepliesAreCountsPositionsAndAreTaken :
    (∃ s1 : State, Ready (.mcnt ng ⟨0, 0, 1⟩) (strip id) s1 ∧ s1.myCtx.rq.length < 16 ∧
      ∀ t ∈ s1.myCtx.strips, s1.myStrip.stripb ≤ t.stripb) ∧
    (∃ s1 : State, Ready (.mcnt ng ⟨0, 0, 1⟩) ((strip id).modCtx 0 fun x => { x with rq := List.replicate 16 0 }) s1 ∧
      16 ≤ s1.myCtx.rq.length) ∧
    (∃ s1 s2 : State, Ready (.rqget ng ⟨0, 3⟩) (ctl fun x => { x with rq := [7] }) s1 ∧ s1.myCtx.rq = [7] ∧
      s1.dstReady 3 = .ok ⟨⟩ s2) ∧
    (∃ s1 : State, Ready (.rqget ng ⟨0, 3⟩) (queued 1) s1 ∧ s1.myCtx.rq = [] ∧ s1.myCtx.queue ≠ []) ∧
    ∃ s1 : State, Ready (.rqget ng ⟨0, 3⟩) base s1 ∧ s1.myCtx.rq = [] ∧ s1.myCtx.queue = [] ∧ s1.myCtx.run = none :=
  ⟨⟨_, ready_plain, by decide +kernel, by decide +kernel⟩,
    ⟨_, ready_plain, by decide +kernel⟩,
    ⟨_, _, ready_plain, by decide +kernel, ok_of_val⟩,
    ⟨_, ready_plain, by decide +kernel, by decide +kernel⟩,
    ⟨_, ready_plain, by decide +kernel, by decide +kernel, by decide +kernel⟩⟩

theorem witness_TrapsAndSystemCallsTakeTheirCause :
    (∃ s1 s2 : State, Ready (.trap ng ⟨0xF0, 3⟩) base s1 ∧ s1.rdS 3 = .ok 0 s2) ∧
    formCause (.trap ng ⟨0xEF, 3⟩) false .ctl = some 0x02 ∧
    (∃ s1 : State, Ready (.bkpt 0) base s1) ∧
    (∃ s1 : State, Ready (.scall ng ⟨0, 0, 0⟩) base s1 ∧ s1.myCtx.imprecise = []) ∧
    (∃ e, serviceOf (0#20).toNat (.native 0) = some e) ∧ serviceOf (0xFFFFF#20).toNat (.native 0) = none :=
  ⟨⟨_, _, ready_plain, ok_of_val⟩, by decide,
    ⟨_, ready_plain⟩, ⟨_, ready_plain, by decide +kernel⟩,
    ⟨_, rfl⟩, rfl⟩

/-- A record at the widest values of its fields. -/
theorem witness_CausesSaveTheContextAndItsRecord :
    (∃ r : TrapRecord, r.flags < 256 ∧ r.striprec < 256 ∧ r.ctx < 2 ^ 32 ∧ r.stripb < 2 ^ 64 ∧ r.vstart < 2 ^ 32 ∧
      r.lane < 2 ^ 32 ∧ r.engno < 2 ^ 64 ∧ r.engtl < 256 ∧ r.flags = 255 ∧ r.engno = 2 ^ 64 - 1) ∧
    base.cur.party.place = .ctl ∧ (strip id).cur.party.place = .strip 0 ∧ (lane id).cur.party.place = .lane 0 1 ∧
    base.unitOf base.me = none ∧
    ((strip id).modCtx 0 fun x => { x with halted := true }).myCtx.halted = true :=
  ⟨⟨{ (base.recordOf 0xC1 0) with flags := 255, striprec := 255, ctx := 2 ^ 32 - 1, stripb := 2 ^ 64 - 1, vstart := 2 ^ 32 - 1
                                  lane := 2 ^ 32 - 1, engno := 2 ^ 64 - 1, engtl := 255 }, by decide⟩,
    by decide +kernel⟩

theorem witness_CausesReachTheirParty :
    base.partyLives ⟨0, .ctl⟩ = true ∧ base.partyLives ⟨0, .strip 0⟩ = false ∧ base.partyLives ⟨1, .ctl⟩ = false ∧
    slotState ({ base with bind := [(1, 4)] }.slot 1) = 2 ∧ slotState (base.slot 1) ≠ 2 ∧
    (base.ctx 0).held.find? (fun h => h.code == 0xA0 && h.tval == 0) = none ∧
    ((ctl fun x => { x with held := [⟨0xA0, 0, 1, some 3, none, false⟩] }).ctx 0).held.find?
      (fun h => h.code == 0xA0 && h.tval == 0) = some ⟨0xA0, 0, 1, some 3, none, false⟩ := by
  refine ⟨?_, ?_, ?_, ?_, ?_, ?_, ?_⟩ <;> decide +kernel

/-- R255: of four positions the mask has two ones. -/
theorem test_mcnt_counts : ((nextOr base (exec (.mcnt ng ⟨0, 0, 1⟩)
    (strip fun t => t.putMask 1 [(0, true), (3, true), (5, true)]))).ctx 0).rq = [2] := by decide +kernel

/-! The hypotheses of the statements about strips and vector instructions are met: the strip at STRIPB 0 of context 0, of four
32-bit elements, with registers 1, 2 and 4 of the format n32 or f32. -/

theorem witness_StripHeadsSetTheStrip_setvl :
    (∃ s1 : State, Ready (.setvl ng ⟨0, 2⟩) (strip id) s1 ∧ s1.atHead = false) ∧
    (∃ s1 : State, Ready (.setvlW ng ⟨0, 2⟩) (strip id) s1 ∧ s1.atHead = false) ∧
    ∃ (s1 : State) (r : BlockRun), Ready (.setvl ng ⟨0, 2⟩) (strip fun t => { t with headDue := true }) s1 ∧
      s1.myCtx.run = some r ∧ r.entry.start = s1.cur.pc ∧ s1.myStrip.headDue = true :=
  ⟨⟨_, ready_plain, by decide +kernel⟩, ⟨_, ready_plain, by decide +kernel⟩,
    ⟨_, _, ready_plain, rfl, by decide +kernel, by decide +kernel⟩⟩

/-- A strip whose head is due and whose watermark stands at virtual address 0x80001000. -/
def marked (v : Nat) : State :=
  at4K 8 v (strip fun t => { t with headDue := true, snap := Vector.replicate 64 0x80001000 })

/-- A watermark that has not passed the strip, and one that has. -/
theorem witness_StripHeadsSetTheStrip_watermark : ∀ w ∈ [0, 3], ∃ (s1 s2 s3 : State) (p : Page) (m : Nat),
    Ready (.setvlW ng ⟨5, 2⟩) (marked w) s1 ∧ s1.atHead = true ∧
      s1.readElem s1.me { rowElem (s1.snapS 5) 8 .load 3 with scopes := [4] } = .ok w s2 ∧
      s2.pageOf s2.me (s1.snapS 5).toNat false = .ok (some p, m) s3 ∧ s3.myStrip.stripb = 0 := by
  intro w hw
  rcases List.mem_pair.mp hw with rfl | rfl <;>
    exact ⟨_, _, _, ⟨2 ^ 63 + 2 ^ 62 + 0x100000000 + attrW, 31, false⟩, 0, ready_plain, by decide +kernel, ok_of_val,
      ok_of_val, by decide +kernel⟩

theorem witness_StripControlDoesAsItsRuleSays :
    (∃ s1 : State, Ready (.vend ng) (strip fun t => { t with detached := 1 }) s1 ∧ s1.myStrip.detached ≠ 0) ∧
    (∃ s1 : State, Ready (.vend ng) (strip id) s1 ∧ s1.myStrip.detached = 0 ∧ s1.myCtx.imprecise = []) ∧
    (∃ s1 u : State, Ready (.vend ng) (strip fun t => { t with vl := 4 }) s1 ∧ u = s1.refetch.modCtx s1.me (Ctx.endStrip s1.now s1.myStrip) ∧
      u.myCtx.strips = [] ∧ (∃ r, u.myCtx.run = some r) ∧ s1.myCtx.imprecise = []) ∧
    (∃ s1 : State, Ready (.vrejoin ng) (strip fun t => { t with lanePcs := [(1, 0)] }) s1 ∧ s1.myStrip.lanePcs ≠ []) ∧
    (∃ s1 : State, Ready (.vrejoin ng) (strip id) s1 ∧ s1.myStrip.lanePcs = []) ∧
    (∃ s1 s2 : State, Ready (.vlset ng ⟨5, 2⟩) (strip id) s1 ∧ s1.rdS 5 = .ok 0 s2) ∧
    (∃ s1 : State, Ready (.vloop ng ⟨0, 3⟩) (strip fun t => { t with lpc := Vector.replicate 4 1 }) s1 ∧
      s1.myStrip.lpc[(3#6).toNat]? = some 1) ∧
    (∃ s1 s2 : State, Ready (.vloop ng ⟨0, 3⟩) (strip fun t => { t with lpc := Vector.replicate 4 2 }) s1 ∧
      s1.myStrip.lpc[(3#6).toNat]? = some 2 ∧
      s1.checkTarget s1.me (s1.cur.pc + 2 * (0#26).signExtend 64) = .ok ⟨⟩ s2) ∧
    (∃ s1 u : State, Ready (.vloop ng ⟨0x1FFFFFF, 3⟩) (strip fun t => { t with lpc := Vector.replicate 4 2 }) s1 ∧
      s1.checkTarget s1.me (s1.cur.pc + 2 * (0x1FFFFFF#26).signExtend 64) = .trap 0x03 0x3FFFFFE u) ∧
    (∃ s1 s2 : State, Ready (.vbnone ng ⟨0, 3⟩) (strip id) s1 ∧
      (∀ p < s1.myStrip.vl, (s1.myStrip.m[(3#6).toNat % 16]).bits.getLsbD p = false) ∧
      s1.checkTarget s1.me (s1.cur.pc + 2 * (0#26).signExtend 64) = .ok ⟨⟩ s2) ∧
    ∃ s1 s2 : State, Ready (.vbany ng ⟨0, 3⟩) (strip fun t => t.putMask 3 [(3, true)]) s1 ∧
      (∃ p < s1.myStrip.vl, (s1.myStrip.m[(3#6).toNat % 16]).bits.getLsbD p = true) ∧
      s1.checkTarget s1.me (s1.cur.pc + 2 * (0#26).signExtend 64) = .ok ⟨⟩ s2 :=
  ⟨⟨_, ready_plain, by decide +kernel⟩,
    ⟨_, ready_plain, by decide +kernel, by decide +kernel⟩,
    ⟨_, _, ready_plain, rfl, by decide +kernel, ⟨_, rfl⟩, by decide +kernel⟩,
    ⟨_, ready_plain, by decide +kernel⟩,
    ⟨_, ready_plain, by decide +kernel⟩,
    ⟨_, _, ready_plain, ok_of_val⟩,
    ⟨_, ready_plain, by decide +kernel⟩,
    ⟨_, _, ready_plain, by decide +kernel, ok_of_val⟩,
    ⟨_, _, ready_plain, trap_of_cause (by decide +kernel)⟩,
    ⟨_, _, ready_plain, by decide +kernel, ok_of_val⟩,
    ⟨_, _, ready_plain, ⟨3, by decide +kernel, by decide +kernel⟩, ok_of_val⟩⟩

/-- Context 0 with a block of one element and strips. -/
def oneBlock (l : List Strip) : State :=
  ctl fun x => { x with run := some { BlockRun.zero with entry := { BlockEntry.zero with n := 1 } }, strips := l }
/-- A saved strip waits for a lane group, and a new strip does. -/
theorem witness_StripsStartAndBlocksCommit_dispatch :
    slotState (base.slot 9) ≠ 1 ∧
    (slotState ((queued 1).slot 0) = 1 ∧ ((queued 1).ctx 0).run = none ∧
      ((queued 1).ctx 0).queue = BlockEntry.zero :: []) ∧
    (∃ (u : State) (r : BlockRun), u = (oneBlock [{ Strip.zero with resting := true }]).modCtx 0 Ctx.startBlock ∧
      u.awarded 0 = true ∧ (u.ctx 0).run = some r ∧ ∃ t, (u.ctx 0).ordered.find? (·.resting) = some t) ∧
    ∃ (u : State) (r : BlockRun), u = (oneBlock []).modCtx 0 Ctx.startBlock ∧ u.awarded 0 = true ∧
      (u.ctx 0).run = some r ∧ ∀ t ∈ (u.ctx 0).strips, t.resting = false :=
  ⟨by decide +kernel, by decide +kernel, ⟨_, _, rfl, by decide +kernel, rfl, _, rfl⟩,
    ⟨_, _, rfl, by decide +kernel, rfl, by decide +kernel⟩⟩

theorem witness_StripsStartAndBlocksCommit_commit :
    (base.ctx 0).run = none ∧ (oneBlock [Strip.zero]).myCtx.strips ≠ [] ∧
    (∃ r, (oneBlock []).myCtx.run = some r ∧ r.next < r.entry.n) ∧
    ∃ (s : State) (r : BlockRun), (s.ctx 0).run = some r ∧ r.entry.n ≤ r.next ∧ (s.ctx 0).strips = [] :=
  ⟨by decide +kernel, by decide +kernel, ⟨_, rfl, by decide⟩,
    ⟨ctl fun x => { x with run := some BlockRun.zero }, _, rfl, by decide, by decide +kernel⟩⟩

theorem witness_WaitsEndAndRepliesEnter :
    (∃ s : State, (s.strip 0 0).wait = some (.replyRoom 0 7 2 none) ∧ s.pushReady 0 0 = true) ∧
    ∃ s : State, (s.strip 0 0).wait = some (.replyRoom 0 7 2 none) ∧ s.pushReady 0 0 = false :=
  ⟨⟨strip fun t => { t with wait := some (.replyRoom 0 7 2 none) }, by decide +kernel, by decide +kernel⟩,
    ⟨(strip fun t => { t with wait := some (.replyRoom 0 7 2 none) }).modCtx 0 fun x => { x with rq := List.replicate 16 0 },
      by decide +kernel, by decide +kernel⟩⟩

theorem witness_VectorIntegerWritesItsResults :
    (∃ s1 s2 : State, Ready (.vadd ng (fv 0 2 1 4)) (strip ints) s1 ∧ s1.vformat (fv 0 2 1 4) okInt = .ok 6 ∧
      GroupsReady [(1, s1.myStrip.grp), (2, s1.myStrip.grp)] (some (4, s1.myStrip.grp)) s1 s2 ∧
      s2.tagsAre [1, 2] 6 = true ∧ s2.myStrip.poisonedAt [1, 2] s1.myStrip.ewB (s2.positions (fv 0 2 1 4)) = false) ∧
    (∃ s1 s2 : State, Ready (.vadd ng (fv 0 3 1 4)) (strip ints) s1 ∧ s1.vformat (fv 0 3 1 4) okInt = .ok 6 ∧
      GroupsReady [(1, s1.myStrip.grp), (3, s1.myStrip.grp)] (some (4, s1.myStrip.grp)) s1 s2 ∧
      s2.tagsAre [1, 3] 6 = false) ∧
    ∃ s1 s2 : State, Ready (.vand ng (fv 0 2 1 4)) (strip floats) s1 ∧
      GroupsReady [(1, s1.myStrip.grp), (2, s1.myStrip.grp)] (some (4, s1.myStrip.grp)) s1 s2 ∧
      s2.myStrip.groupTag 1 1 = some 8 ∧ s2.myStrip.groupTag 2 1 = some 8 ∧
      s2.myStrip.poisonedAt [1, 2] s1.myStrip.ewB (s2.positions (fv 0 2 1 4)) = false :=
  ⟨⟨_, _, ready_plain, by decide +kernel,
      groups_ok, by decide +kernel, by decide +kernel⟩,
    ⟨_, _, ready_plain, by decide +kernel,
      groups_ok, by decide +kernel⟩,
    ⟨_, _, ready_plain,
      groups_ok, by decide +kernel, by decide +kernel,
      by decide +kernel⟩⟩

theorem witness_VectorFloatWritesItsResults :
    (∃ s1 s2 : State, Ready (.vfma ng (fv 4 2 1 4)) (strip floats) s1 ∧ s1.vformat (fv 4 2 1 4) okWide = .ok 8 ∧
      GroupsReady [(1, s1.myStrip.grp), (2, s1.myStrip.grp), (4, s1.myStrip.grp)] (some (4, s1.myStrip.grp)) s1 s2 ∧
      s2.tagsAre [1, 2, 4] 8 = true ∧ s2.myStrip.poisonedAt [1, 2, 4] s1.myStrip.ewB (s2.positions (fv 4 2 1 4)) = false) ∧
    ∃ s1 s2 : State, Ready (.vfadd ng (fv 0 3 1 4)) (strip floats) s1 ∧ s1.vformat (fv 0 3 1 4) okWide = .ok 8 ∧
      GroupsReady [(1, s1.myStrip.grp), (3, s1.myStrip.grp)] (some (4, s1.myStrip.grp)) s1 s2 ∧
      s2.tagsAre [1, 3] 8 = false :=
  ⟨⟨_, _, ready_plain, by decide +kernel,
      groups_ok, by decide +kernel, by decide +kernel⟩,
    ⟨_, _, ready_plain, by decide +kernel,
      groups_ok, by decide +kernel⟩⟩

theorem witness_ComparesAndMaskInstructionsWriteMaskBits :
    (∃ s1 s2 : State, Ready (.vmslt ng (fv 0 2 1 4)) (strip ints) s1 ∧ s1.vformat (fv 0 2 1 4) okInt = .ok 6 ∧
      GroupsReady [(1, s1.myStrip.grp), (2, s1.myStrip.grp)] none s1 s2 ∧ s2.tagsAre [1, 2] 6 = true ∧
      s2.myStrip.poisonedAt [1, 2] s1.myStrip.ewB (s2.positions (fv 0 2 1 4)) = false) ∧
    (∃ s1 : State, Ready (.mand ng ⟨3, 2, 1⟩) (strip id) s1 ∧ s1.myStrip.vstart < s1.myStrip.vl ∧
      ∀ p < s1.myStrip.vl, s1.myStrip.mbit 2 p = false) ∧
    ∃ s1 : State, Ready (.msof ng ⟨0, 2, 1⟩) (strip fun t => t.putMask 2 [(3, true)]) s1 ∧
      s1.myStrip.vstart < s1.myStrip.vl ∧ s1.myStrip.mbit 2 3 = true ∧ 3 ≤ s1.myStrip.vl ∧
      ∀ p < 3, s1.myStrip.mbit 2 p = false :=
  ⟨⟨_, _, ready_plain, by decide +kernel,
      groups_ok, by decide +kernel, by decide +kernel⟩,
    ⟨_, ready_plain, by decide +kernel, by decide +kernel⟩,
    ⟨_, ready_plain, by decide +kernel, by decide +kernel, by decide +kernel, by decide +kernel⟩⟩

theorem witness_MovesAndPermutationsPlaceElements :
    (∃ s1 s2 : State, Ready (.vmv ng (fv 0 2 0 4)) (strip ints) s1 ∧ s1.vformat (fv 0 2 0 4) okAny = .ok 6 ∧
      GroupsReady [(2, s1.myStrip.grp)] (some (4, s1.myStrip.grp)) s1 s2 ∧ s2.myStrip.groupTag 2 1 = some 6 ∧
      s2.myStrip.poisonedAt [2] s1.myStrip.ewB (s2.positions (fv 0 2 0 4)) = false) ∧
    (∃ s1 s2 : State, Ready (.vid ng (fv 0 0 0 4)) (strip ints) s1 ∧ s1.vformat (fv 0 0 0 4) okInt = .ok 6 ∧
      GroupsReady [] (some (4, s1.myStrip.grp)) s1 s2) ∧
    (∃ s1 s2 : State, Ready (.vmerge ng { fv 0 2 1 4 with msk := 1 }) (strip ints) s1 ∧ s1.vformat { fv 0 2 1 4 with msk := 1 } okAny = .ok 6 ∧
      GroupsReady [(1, s1.myStrip.grp), (2, s1.myStrip.grp)] (some (4, s1.myStrip.grp)) s1 s2 ∧
      s2.myStrip.groupTag 1 1 = some 6 ∧ s2.tagsAre [2] 6 = true ∧ s2.myStrip.poisonedAt [1, 2] 4 [0, 1, 2, 3] = false) ∧
    ∃ s1 s2 : State, Ready (.vgather ng (fv 0 2 1 4)) (strip ints) s1 ∧ s1.vformat (fv 0 2 1 4) okAny = .ok 6 ∧
      GroupsReady [(1, s1.myStrip.grp), (2, s1.myStrip.grp)] (some (4, s1.myStrip.grp)) s1 s2 ∧
      s2.myStrip.groupTag 1 1 = some 6 ∧ s2.myStrip.groupTag 2 1 = some 6 ∧ isIntFmt (6#6).toNat = true ∧
      fmtBits (6#6).toNat = 8 * s1.myStrip.ewB ∧ (∀ p < 4, s2.myStrip.el 2 4 p = 0) ∧ s2.myStrip.elBad 1 4 0 = false ∧
      s2.myStrip.poisonedAt [2] 4 [0, 1, 2, 3] = false :=
  ⟨⟨_, _, ready_plain, by decide +kernel,
      groups_ok, by decide +kernel, by decide +kernel⟩,
    ⟨_, _, ready_plain, by decide +kernel,
      groups_ok⟩,
    ⟨_, _, ready_plain, by decide +kernel,
      groups_ok, by decide +kernel, by decide +kernel,
      by decide +kernel⟩,
    ⟨_, _, ready_plain, by decide +kernel,
      groups_ok, by decide +kernel, by decide +kernel,
      by decide, by decide +kernel, by decide +kernel, by decide +kernel, by decide +kernel⟩⟩

theorem witness_ReductionsAndConversionsWriteTheirResults :
    (∃ s1 s2 : State, Ready (.vredsum ng (fs 1 4)) (strip ints) s1 ∧ s1.vformat (fs 1 4) okInt = .ok 6 ∧
      GroupsReady [(1, s1.myStrip.grp)] (some (4, s1.myStrip.grp)) s1 s2 ∧ s2.tagsAre [1] 6 = true ∧
      s2.myStrip.poisonedAt [1] 4 (s2.myStrip.wideActive 0 0) = false) ∧
    (∃ s1 s2 : State, Ready (.vcvt ng { fs 1 4 with fv := 1, fmt := 15 }) (strip ints) s1 ∧
      s1.takeGroups [1] = .ok ⟨⟩ s2) ∧
    (∃ s1 s2 : State, Ready (.vcvt ng { fs 1 4 with fv := 1, fmt := 8 }) (strip ints) s1 ∧
      s1.takeGroups [1] = .ok ⟨⟩ s2 ∧ (s2.myStrip.reg 1).tag = 6 ∧ convertible (tagFmt 6) (tagFmt 8) = true ∧
      s2.myStrip.region = none ∧ max (fmtBits 6 / 8) (fmtBits 8 / 8) = s2.myStrip.ewB ∧
      s2.myCtx.groupBound s2.myStrip.stripb 4 1 = false ∧ s2.myStrip.groupTag 1 1 = some 6 ∧
      s2.myStrip.poisonedAt [1] 4 (s2.positions { fs 1 4 with fv := 1, fmt := 8 }) = false) ∧
    (∃ s1 s2 : State, Ready (.vunpk ng { fs 1 4 with im := 1 }) (strip fun t => { t.tagGroup 1 1 15 with vtype := 130 }) s1 ∧
      s1.vformat { fs 1 4 with im := 1 } okUnpack = .ok 8 ∧ GroupsReady [(1, 1)] (some (4, s1.myStrip.grp)) s1 s2 ∧
      s2.myStrip.groupTag 1 1 = some 15 ∧ s2.myStrip.poisonedAt [1] 1 (s2.myStrip.wideActive 0 0) = false) ∧
    ∃ s1 s2 : State, Ready (.vpilgrim ng (fs 0 4)) (strip ints) s1 ∧ s1.vformat (fs 0 4) okN32 = .ok 6 ∧
      GroupsReady [] (some (4, s1.myStrip.grp)) s1 s2 :=
  ⟨⟨_, _, ready_plain, by decide +kernel,
      groups_ok, by decide +kernel, by decide +kernel⟩,
    ⟨_, _, ready_plain, ok_of_val⟩,
    ⟨_, _, ready_plain, ok_of_val, by decide +kernel, by decide,
      by decide +kernel, by decide +kernel, by decide +kernel, by decide +kernel, by decide +kernel⟩,
    ⟨_, _, ready_plain, by decide +kernel,
      groups_ok, by decide +kernel, by decide +kernel⟩,
    ⟨_, _, ready_plain, by decide +kernel,
      groups_ok⟩⟩

/-- A serial region whose `vqpop` stands at the address of the issuing party. -/
def inRegion (l : Nat) (t : Strip) : Strip :=
  { ints t with region := some ⟨0, l, 5, false, t.v, t.m, t.snap, 0, 0, [0]⟩ }
/-- Form V on registers of 8-bit e2m1. -/
def pairs (t : Strip) : Strip := { t.tagGroup 1 1 15 with vtype := 240 }
/-- A post gate on timeline 0. -/
def pg : Gates := { ng with post := some ⟨0, 0⟩ }

theorem ready_region {i : Instr} {s : State} {r : Region}
    (h : formCause i false s.cur.party.place = none := by decide +kernel) (hr : s.myRegion = some r := by rfl)
    (hb : regionBans i = false := by rfl) (hg : val? (s.regionGates (gatesOf i) r) = some ⟨⟩ := by decide +kernel)
    (hq : (after (s.regionGates (gatesOf i) r)).duePost (gatesOf i) = none := by decide +kernel)
    (hp : s.snapPoisoned i = false := by decide +kernel) : Ready i s (after (s.regionGates (gatesOf i) r)) := by
  refine ⟨h, hp, ?_, fun p h => ?_⟩
  · rw [hr]; exact ⟨hb, ok_of_val hg⟩
  · rw [hq] at h; cases h

/-- `vqpop` outside a region: where it traps, with no post due and with one due. -/
theorem witness_CrossLaneQueueAndDetach_vqpopRegion :
    (formCause (.vqpop ng (fs 0 4)) false (strip ints).cur.party.place = none ∧ (strip ints).myRegion = none ∧
      (strip ints).lanePost ng 0 = none) ∧
    (∃ s1 s2 : State, (strip ints).waitGate ng = .ok ⟨⟩ s1 ∧ s1.myStrip.detached = 0 ∧ s1.vformat (fs 0 4) okAny = .ok 6 ∧
      GroupsReady [] (some (4, s1.myStrip.grp)) s1 s2 ∧ s2.myStrip.recv = none ∧ s2.firstValue (fs 0 4) = .ok 0 s2) ∧
    (∃ s1 : State, (strip fun t => { t with detached := 1 }).waitGate ng = .ok ⟨⟩ s1 ∧ s1.myStrip.detached ≠ 0) ∧
    (∃ s1 : State, (strip pairs).waitGate ng = .ok ⟨⟩ s1 ∧ s1.myStrip.detached = 0 ∧
      s1.vformat (fs 0 4) okAny = .ok 15) ∧
    ∃ (s1 : State) (p : PostGate), (strip fun t => { ints t with vl := 1 }).waitGate pg = .ok ⟨⟩ s1 ∧
      s1.lanePost pg s1.myStrip.vstart = some p ∧ (s1.myCtx.timeline p.tl).p + 1 < 2 ^ 64 ∧ s1.myCtx.imprecise = [] := by
  refine ⟨by decide +kernel, ⟨after ((strip ints).waitGate ng), _, ok_of_val, by decide +kernel, by decide +kernel, groups_ok,
    by decide +kernel, rfl⟩, ⟨_, ok_of_val, by decide +kernel⟩, ⟨_, ok_of_val, by decide +kernel, by decide +kernel⟩,
    ⟨_, _, ok_of_val, rfl, by decide +kernel, by decide +kernel⟩⟩

/-- In a region: `vqpop` at its own address and at another. -/
theorem witness_CrossLaneQueueAndDetach_vqpopLane :
    (∃ r : Region, (strip (inRegion 1)).myRegion = some r ∧ r.pop = (strip (inRegion 1)).cur.pc ∧
      (strip (inRegion 1)).myStrip.detached = 0 ∧ (strip (inRegion 1)).vformat (fs 0 4) okAny = .ok 6 ∧
      (strip (inRegion 1)).duePost ng = none ∧
      GroupsReady [] (some (4, (strip (inRegion 1)).myStrip.grp)) (strip (inRegion 1)) (strip (inRegion 1))) ∧
    (∃ p : PostGate, (strip (inRegion 3)).duePost pg = some p ∧ ((strip (inRegion 3)).myCtx.timeline p.tl).p + 1 < 2 ^ 64) ∧
    ∃ (s : State) (r : Region), formCause (.vqpop ng (fs 0 4)) false s.cur.party.place = none ∧ s.myRegion = some r ∧
      r.pop ≠ s.cur.pc :=
  ⟨⟨_, rfl, by decide +kernel, by decide +kernel, by decide +kernel, by decide +kernel, by decide +kernel, by decide +kernel, rfl⟩,
    ⟨_, rfl, by decide +kernel⟩, ⟨(strip (inRegion 1)).withNext 0 |> fun s => { s with cur := { s.cur with pc := 2 } }, _,
      by decide +kernel, rfl, by decide +kernel⟩⟩

/-- `vqpush` outside a region, for a lane before the last, for the last, of an inactive lane, and of e2m1 elements. -/
theorem witness_CrossLaneQueueAndDetach_vqpush :
    (∃ s1 : State, Ready (.vqpush ng (fv 0 0 1 0)) (strip ints) s1 ∧ s1.myRegion = none) ∧
    (∃ (s1 s2 : State) (r : Region), Ready (.vqpush ng (fv 0 0 1 0)) (strip (inRegion 0)) s1 ∧ s1.myRegion = some r ∧
      GroupsReady [(1, s1.myStrip.grp)] none s1 s2 ∧ s2.myStrip.region = some r ∧ s2.myStrip.groupTag 1 1 = some 6 ∧
      s2.myStrip.poisonedAt [1] 4 (s2.positions (fv 0 0 1 0)) = false ∧ s2.positions (fv 0 0 1 0) = [0] ∧
      r.lane + 1 < s2.myStrip.vl) ∧
    (∃ (s1 s2 : State) (r : Region), Ready (.vqpush ng (fv 0 0 1 0)) (strip (inRegion 3)) s1 ∧ s1.myRegion = some r ∧
      GroupsReady [(1, s1.myStrip.grp)] none s1 s2 ∧ s2.myStrip.region = some r ∧ s2.myStrip.groupTag 1 1 = some 6 ∧
      s2.myStrip.poisonedAt [1] 4 (s2.positions (fv 0 0 1 0)) = false ∧ s2.myStrip.vl ≤ r.lane + 1) ∧
    (∃ (s1 : State) (r : Region), Ready (.vqpush ng { fv 0 0 1 0 with msk := 1 }) (strip (inRegion 0)) s1 ∧
      s1.myStrip.region = some r ∧ s1.positions { fv 0 0 1 0 with msk := 1 } = []) ∧
    ∃ (s1 s2 : State) (r : Region), Ready (.vqpush ng (fv 0 0 1 0)) (strip fun t => pairs (inRegion 0 t)) s1 ∧
      s1.myRegion = some r ∧ GroupsReady [(1, s1.myStrip.grp)] none s1 s2 ∧ s2.myStrip.region = some r ∧
      s2.myStrip.groupTag 1 1 = some 15 :=
  ⟨⟨_, ready_plain, by decide +kernel⟩,
    ⟨_, _, _, ready_region, rfl, groups_ok, rfl, by decide +kernel, by decide +kernel, by decide +kernel, by decide +kernel⟩,
    ⟨_, _, _, ready_region, rfl, groups_ok, rfl, by decide +kernel, by decide +kernel, by decide +kernel⟩,
    ⟨_, _, ready_region, rfl, by decide +kernel⟩, ⟨_, _, _, ready_region, rfl, groups_ok, rfl, by decide +kernel⟩⟩

theorem witness_CrossLaneQueueAndDetach_vdetach :
    (∃ s1 s2 : State, Ready (.vdetach ng (fs 1 0)) (strip ints) s1 ∧ GroupsReady [(1, s1.myStrip.grp)] none s1 s2 ∧
      s2.myStrip.groupTag 1 1 = some 6 ∧ isIntFmt (6#6).toNat = true ∧ s2.myStrip.detached = 0 ∧
      s2.myStrip.poisonedAt [1] 4 (s2.positions (fs 1 0)) = false) ∧
    ∃ s1 s2 : State, Ready (.vdetach ng (fs 1 0)) (strip fun t => { ints t with detached := 1 }) s1 ∧
      GroupsReady [(1, s1.myStrip.grp)] none s1 s2 ∧ s2.myStrip.groupTag 1 1 = some 6 ∧ s2.myStrip.detached ≠ 0 :=
  ⟨⟨_, _, ready_plain, groups_ok, by decide +kernel, by decide, by decide +kernel, by decide +kernel⟩,
    ⟨_, _, ready_plain, groups_ok, by decide +kernel, by decide +kernel⟩⟩

theorem witness_VectorRegisterInstructionsFrame : ∃ t : State,
    Ready (.vadd ng (fv 0 2 1 4)) (strip ints) (strip ints) ∧ (strip ints).cur.party.place = .strip 0 ∧
    (∃ u ∈ (strip ints).myCtx.strips, u.stripb = 0) ∧ (strip ints).myCtx.streams = [] ∧
    (strip ints).myStrip.vl ≤ vlmax (strip ints).myStrip.vtype ∧ (strip ints).myStrip.region = none ∧
    exec (.vadd ng (fv 0 2 1 4)) (strip ints) = .next t :=
  ⟨_, ready_plain, by decide +kernel, by decide +kernel, by decide +kernel, by decide +kernel,
    by decide +kernel, rfl⟩

/-- R249: element 3 of register 1 is 7. -/
theorem test_vadd_adds : ((nextOr base (exec (.vadd ng (fv 0 1 1 4)) (strip ints))).strip 0 0).el 4 4 3 = 14 := by
  decide +kernel
/-- R262, R233: the immediate of `vslideup` moves the elements up. -/
theorem test_vslideup_moves : ((nextOr base (exec (.vslidedn ng ⟨1, 0, 0, 0, 0, 0, 0, 0, 0, 2, 1, 0, 1, 4⟩)
    (strip ints))).strip 0 0).el 4 4 1 = 7 := by decide +kernel

/-! The hypotheses of the statements about memory, synchronisation, streams and engines are met: the words at virtual address
0x80000000 + x lie at physical address 0x100000000 + x of device 0. -/

theorem witness_ScalarAccessesAndTheirCauses :
    (∃ s1 s2 s3 s4 s5 : State, Ready (.lw ng (fsc 0 5 1)) (ptr data) s1 ∧ s1.rdS 5 = .ok 0x80001000 s2 ∧
      s2.dstReady 1 = .ok ⟨⟩ s3 ∧ s3.ordBefore 0 = .ok ⟨⟩ s4 ∧ s4.readElem s4.me (accessOf 0x80001000 4 .load) = .ok 0 s5) ∧
    (∃ s1 s2 s3 s4 s5 : State, Ready (.lw ng (fsc 2 5 1)) (ptr data) s1 ∧ s1.rdS 5 = .ok 0x80001000 s2 ∧
      s2.dstReady 1 = .ok ⟨⟩ s3 ∧ s3.ordBefore 0 = .ok ⟨⟩ s4 ∧
      s4.readElem s4.me (accessOf 0x80001002 4 .load) = .trap 0x22 0x80001002 s5) ∧
    (∃ s1 s2 s3 s4 s5 : State, Ready (.sd ng (fsc 0 5 6)) (ptr data) s1 ∧ s1.rdS 5 = .ok 0x80001000 s2 ∧
      s2.rdS 6 = .ok 9 s3 ∧ s3.ordBefore 0 = .ok ⟨⟩ s4 ∧
      s4.writeElem s4.me (accessOf 0x80001000 8 .store) 9 = .ok ⟨⟩ s5) ∧
    (∃ (s1 : State) (k : Code), data.pageOf 0 (2 ^ 48) false = .ok (none, k) s1) ∧
    (∃ (p : Page) (k : Code) (s1 : State), data.pageOf 0 0x80001000 false = .ok (some p, k) s1 ∧
      unpopulated (p.paddr s1 0x80001000) = false ∧ p.refuses s1 0 .store = none ∧ p.ow = 0) ∧
    (∃ (p : Page) (k : Code) (s1 : State), base.pageOf 0 0 false = .ok (some p, k) s1 ∧
      (p.refuses s1 0 .store).isSome = true) := by
  refine ⟨⟨_, _, _, _, _, ready_plain, ok_of_val, ok_of_val,
      ok_of_val, ok_of_val⟩,
    ⟨_, _, _, _, _, ready_plain, ok_of_val, ok_of_val,
      ok_of_val, trap_of_cause (by decide +kernel)⟩,
    ⟨_, _, _, _, _, ready_plain, ok_of_val, ok_of_val,
      ok_of_val, ok_of_val⟩,
    ⟨_, 0x20, ok_of_val⟩,
    ⟨⟨2 ^ 63 + 2 ^ 62 + 0x100000000 + attrW, 31, false⟩, 0, _, ok_of_val, by decide +kernel,
      by decide +kernel, by decide +kernel⟩,
    ⟨((val? (base.pageOf 0 0 false)).bind (·.1)).getD ⟨0, 0, false⟩, 0, _, ok_of_val, by decide +kernel⟩⟩

theorem witness_LoadsAndStoresTouchOnlyTheirBytes :
    (∃ s1 t : State, Memory.wf data.mem = true ∧
      data.locate 0 (accessOf 0x80001000 8 .store) = .ok (.phys 0x100001000 0) s1 ∧ s1.owns 0x100001000 = true ∧
      data.writeElem 0 (accessOf 0x80001000 8 .store) (2 ^ 64 - 1) = .ok ⟨⟩ t) ∧
    ∃ s1 t : State, data.locate 0 (accessOf 0x80001000 8 .load) = .ok (.phys 0x100001000 0) s1 ∧
      s1.owns 0x100001000 = true ∧ data.readElem 0 (accessOf 0x80001000 8 .load) = .ok 0 t :=
  ⟨⟨_, _, by decide +kernel, ok_of_val, by decide +kernel, ok_of_val⟩,
    ⟨_, _, ok_of_val, by decide +kernel, ok_of_val⟩⟩

theorem access_ok {o : FormM} {m : AddrMode} {store scaled : Bool} {tag : Tag} {s : State}
    (h1 : s.mformat o store scaled = .ok tag) (h2 : o.fv = 0 → scaled = true → o.sb ≠ 0 → tagScaled tag = true)
    (h3 : o.vd.toNat % s.myStrip.grp = 0)
    (h4 : store = false → s.myCtx.groupBound s.myStrip.stripb o.vd.toNat s.myStrip.grp = false)
    (h5 : val? (s.takeGroups ((if store then [o.vd.toNat] else []) ++ (if m = .indexed then [o.vi.toNat] else []))) = some ⟨⟩)
    (h6 : store = true → ∃ own, (after (s.takeGroups ((if store then [o.vd.toNat] else []) ++
      (if m = .indexed then [o.vi.toNat] else [])))).myStrip.groupTag o.vd.toNat s.myStrip.grp = some own ∧
        (o.fv = 1 → tagFmt own = tagFmt tag))
    (h7 : m = .indexed → (after (s.takeGroups ((if store then [o.vd.toNat] else []) ++
      (if m = .indexed then [o.vi.toNat] else [])))).myStrip.indexCause o.vi.toNat = none) :
    AccessReady o m store scaled tag s (after (s.takeGroups ((if store then [o.vd.toNat] else []) ++
      (if m = .indexed then [o.vi.toNat] else [])))) := ⟨h1, h2, h3, h4, ok_of_val h5, h6, h7⟩

theorem witness_VectorLoadsAndStores :
    (∃ s1 s2 s3 s4 : State, Ready (.vldx ng (fm 2 4)) (strip vmem) s1 ∧ AccessReady (fm 2 4) .indexed false false 6 s1 s2 ∧
      s2.ordBefore 0 = .ok ⟨⟩ s3 ∧ (State.overPositions (s2.myStrip.active 0 0) s3 fun p s =>
        State.loadAt ng (fm 2 4) .indexed 6 s2.myStrip (s2.myStrip.active 0 0) p s) = .ok ⟨⟩ s4) ∧
    (∃ s1 s2 s3 s4 : State, Ready (.vst ng (fm 0 1)) (strip vmem) s1 ∧ AccessReady (fm 0 1) .unit true false 6 s1 s2 ∧
      s2.myStrip.poisonedAt [1] 4 (s2.myStrip.active 0 0) = false ∧ s2.ordBefore 0 = .ok ⟨⟩ s3 ∧
      (State.overPositions (s2.myStrip.active 0 0) s3 fun p s => s.laneStore p (memElem (fm 0 1) .unit 6 ng.scopes
        (s2.myStrip.vaddr (fm 0 1) .unit p) 4 .store) (codeOf 6 (s2.myStrip.el 1 4 p))) = .ok ⟨⟩ s4) ∧
    (∃ s1 s2 : State, Ready (.vst ng (fm 0 1)) (strip fun t => (vmem t).setReg 1 fun r => { r with poison := 1 }) s1 ∧
      AccessReady (fm 0 1) .unit true false 6 s1 s2 ∧ s2.myStrip.poisonedAt [1] 4 (s2.myStrip.active 0 0) = true) ∧
    ∃ s1 s2 : State, Ready (.vldff ng { fm 0 4 with msk := 1, mreg := 2 }) (strip vmem) s1 ∧
      s1.mformat { fm 0 4 with msk := 1, mreg := 2 } false false = .ok 6 ∧ s1.myCtx.groupBound s1.myStrip.stripb 4 1 = false ∧
      State.firstFault ng { fm 0 4 with msk := 1, mreg := 2 } 6 s1.myStrip (s1.myStrip.active 0 0) true s1 = .ok none s2 := by
  refine ⟨⟨_, _, _, _, ready_plain,
      access_ok (by decide +kernel) (by decide) (by decide +kernel) (fun _ => by decide +kernel) (by decide +kernel) (nofun)
        (fun _ => by decide +kernel), ok_of_val, ok_of_val⟩,
    ⟨_, _, _, _, ready_plain,
      access_ok (by decide +kernel) (by decide) (by decide +kernel) nofun (by decide +kernel)
        (fun _ => ⟨6, by decide +kernel, by decide⟩) nofun, by decide +kernel, ok_of_val, ok_of_val⟩,
    ⟨_, _, ready_plain,
      access_ok (by decide +kernel) (by decide) (by decide +kernel) nofun (by decide +kernel)
        (fun _ => ⟨6, by decide +kernel, by decide⟩) nofun, by decide +kernel⟩,
    ⟨_, _, ready_plain, by decide +kernel, by decide +kernel, ok_of_val⟩⟩

/-- A scaled load whose slot's scale stands at address 0: what `loadAt` does at the slot's first position and at a later one,
and a lane's store. -/
theorem witness_VectorLoadsAndStores_position :
    (∃ (v : Nat) (s1 s2 : State), (strip vmem).readElem 0 (memElem { fm 0 4 with sb := 5 } .unit 6 ng.scopes
        ((strip vmem).myStrip.vaddr (fm 0 4) .unit 0) 4 .load) = .ok v s1 ∧ tagScaled 0x26 = true ∧
      ([0, 1] : List Nat).find? (fun q => q / 32 == 0) = some 0 ∧ ([0, 1] : List Nat).find? (fun q => q / 32 == 1 / 32) ≠ some 1 ∧
      s1.readElem s1.me ⟨s1.snapS 5 + BitVec.ofNat 64 ((s1.myStrip.stripb + 32 * 0) / 32), 1, .load, false, 1, 0, [], []⟩ =
        .ok 0 s2) ∧
    ∃ (u v : State) (d : Target), (strip vmem).writeElem 0 (accessOf 0x80001000 4 .store) 7 = .ok ⟨⟩ u ∧
      u.locate u.me (accessOf 0x80001000 4 .store) = .ok d v :=
  ⟨⟨0, _, _, ok_of_val, by decide, by decide, by decide, ok_of_val⟩, ⟨_, _, .phys 0x100001000 0, ok_of_val, ok_of_val⟩⟩

theorem witness_TensorLoadsAndStores :
    (∃ s1 s2 s3 s4 : State, Ready (.vtld ng { fm 3 4 with sa := 0 }) (strip shaped) s1 ∧
      TensorReady { fm 3 4 with sa := 0 } false row64 [0, 1, 2, 3] s1 s2 ∧ s2.ordBefore 0 = .ok ⟨⟩ s3 ∧
      (State.overPositions [0, 1, 2, 3] s3 fun p s => State.tensorAt row64 plainAcc 4 s2.myStrip [0, 1, 2, 3] p s) =
        .ok ⟨⟩ s4) ∧
    (∃ s1 s2 s3 s4 : State, Ready (.vtst ng { fm 3 4 with sa := 0 }) (strip fun t => shaped (t.tagGroup 4 1 8)) s1 ∧
      TensorReady { fm 3 4 with sa := 0 } true row64 [0, 1, 2, 3] s1 s2 ∧ s2.ordBefore 0 = .ok ⟨⟩ s3 ∧
      (State.overPositions [0, 1, 2, 3] s3 fun p s => s.storeTensorAt row64 plainAcc p (s2.myStrip.el 4 s2.myStrip.ewB p)) =
        .ok ⟨⟩ s4) ∧
    (∃ s1 s2 : State, Ready (.vtld ng { fm 1 4 with sa := 0 }) (strip ints) s1 ∧ s1.takeGroups [1] = .ok ⟨⟩ s2 ∧
      (s2.myStrip.reg 1).tag ≠ 25) ∧
    ∃ s1 s2 : State, Ready (.vtld ng { fm 3 4 with sa := 0 }) (strip fun t => t.tagGroup 3 1 25) s1 ∧
      s1.takeGroups [3] = .ok ⟨⟩ s2 ∧ (s2.myStrip.reg 3).tag = 25 ∧
      s2.myStrip.poisonedAt [3] 8 (List.range 18) = false ∧ Shape.check (s2.myStrip.record 3) = .error 0 := by
  refine ⟨⟨_, after ((strip shaped).takeGroups [3]), _, _, ready_plain,
      ⟨ok_of_val, by decide +kernel, by decide +kernel, by decide +kernel, by decide +kernel,
        by decide +kernel, by decide +kernel, fun _ => by decide +kernel, nofun, by decide +kernel, by decide +kernel, nofun⟩,
      ok_of_val, ok_of_val⟩,
    ⟨_, after ((strip fun t => shaped (t.tagGroup 4 1 8)).takeGroups [4, 3]), _, _,
      ready_plain,
      ⟨ok_of_val, by decide +kernel, by decide +kernel, by decide +kernel, by decide +kernel,
        by decide +kernel, by decide +kernel, nofun, fun _ => by decide +kernel, by decide +kernel, by decide +kernel,
        fun _ => by decide +kernel⟩,
      ok_of_val, ok_of_val⟩,
    ⟨_, _, ready_plain, ok_of_val, by decide +kernel⟩,
    ⟨_, _, ready_plain, ok_of_val, by decide +kernel,
      by decide +kernel, by decide +kernel⟩⟩

/-- One position of a tensor access: a load with a scale of its slot, a store. -/
theorem witness_TensorLoadsAndStores_position :
    (∃ (v : Nat) (s1 s2 : State), (strip shaped).loadTensor 0 { row64 with ftag := 0x2A, sbase := 0x80001000 } plainAcc 0 0 = .ok v s1 ∧
      tagScaled 0x2A = true ∧ s1.vtldScale { row64 with ftag := 0x2A, sbase := 0x80001000 } plainAcc 0 = .ok 0 s2) ∧
    ∃ u w : State, (strip shaped).storeTensor 0 row64 plainAcc 0 (0 + 1) 7 = .ok ⟨⟩ u ∧
      row64.inside (row64.index 0 (0 + 1)) = true ∧
      u.laneStored 1 (plainAcc.elem row64 (row64.addr (row64.index 0 (0 + 1))) .store) (codeOf 8 7) = .ok ⟨⟩ w :=
  ⟨⟨0, _, _, ok_of_val, by decide, ok_of_val⟩, ⟨_, _, ok_of_val, by decide, ok_of_val⟩⟩

/-- Form X on a 64-bit element. -/
def fx (w64 : BitVec 1) : FormX := ⟨0, 0, 0, 0, w64, 0, 0, 0, 0, 6, 5, 1⟩

theorem witness_ScalarAtomicsReturnAndChangeTheirElement :
    (∃ s1 s2 s3 s4 s5 s6 : State, Ready (.aadd ng (fx 1)) (ptr data) s1 ∧ s1.rdS 5 = .ok 0x80001000 s2 ∧
      s2.rdS 6 = .ok 9 s3 ∧ s3.dstReady 1 = .ok ⟨⟩ s4 ∧ s4.ordBefore 0 = .ok ⟨⟩ s5 ∧
      s5.atomicElem s5.me ⟨0x80001000, 8, .atomic, false, 8, 0, [0], []⟩ 0 9 0 = .ok (0, 0) s6) ∧
    (∃ s1 s2 s3 s4 s5 s6 s7 : State, Ready (.acas ng { fx 0 with sw := 7 }) (ptr data) s1 ∧ s1.rdS 5 = .ok 0x80001000 s2 ∧
      s2.rdS 6 = .ok 9 s3 ∧ s3.rdS 7 = .ok 3 s4 ∧ s4.dstReady 1 = .ok ⟨⟩ s5 ∧ s5.ordBefore 0 = .ok ⟨⟩ s6 ∧
      s6.atomicElem s6.me ⟨0x80001000, 4, .atomic, false, 4, 0, [0], []⟩ 9 9 3 = .ok (0, 0) s7) ∧
    ∃ s1 t : State, Memory.wf data.mem = true ∧
      data.locate 0 ⟨0x80001000, 8, .atomic, false, 8, 0, [0], []⟩ = .ok (.phys 0x100001000 0) s1 ∧
      s1.owns 0x100001000 = true ∧ data.atomicElem 0 ⟨0x80001000, 8, .atomic, false, 8, 0, [0], []⟩ 0 9 0 = .ok (0, 0) t :=
  ⟨⟨_, _, _, _, _, _, ready_plain, ok_of_val,
      ok_of_val, ok_of_val, ok_of_val, ok_of_val⟩,
    ⟨_, _, _, _, _, _, _, ready_plain, ok_of_val,
      ok_of_val, ok_of_val, ok_of_val, ok_of_val,
      ok_of_val⟩,
    ⟨_, _, by decide +kernel, ok_of_val, by decide +kernel, ok_of_val⟩⟩

/-- Form X on vectors. -/
def fxv : FormX := ⟨0, 2, 0, 0, 0, 0, 0, 0, 0, 1, 5, 4⟩

theorem witness_VectorAtomicsAndReductionStores :
    (∃ s1 s2 s3 s4 : State, Ready (.vaadd ng fxv) (strip vmem) s1 ∧ AtomicReady fxv false (some 4) 6 s1 s2 ∧
      s2.ordBefore 0 = .ok ⟨⟩ s3 ∧ (State.overPositions [0, 1, 2, 3] s3 fun p s =>
        (s.atomicElem s.me ⟨0x80001000 + s2.myStrip.index 2 p, 4, .atomic, false, 4, 0, [0], []⟩ 0 (s2.myStrip.el 1 4 p)
          0).bind fun (old, fl) s => R.done ((s.loaded 4 4 1 6 p old).addFlags fl)) = .ok ⟨⟩ s4) ∧
    ∃ s1 s2 s3 : State, Ready (.vrsadd ng { fxv with sx := 0 }) (strip vmem) s1 ∧
      AtomicReady { fxv with sx := 0 } false none 6 s1 s2 ∧ (State.overPositions [0, 1, 2, 3] s2 fun p s =>
        s.reduceElem s.me ⟨0x80001000 + s2.myStrip.index 2 p, 4, .atomic, false, 4, 0, [0], []⟩ false
          (s2.myStrip.el 1 4 p)) = .ok ⟨⟩ s3 :=
  ⟨⟨_, _, _, _, ready_plain,
      ⟨by decide +kernel, groups_ok, by decide +kernel,
        by decide +kernel, by decide +kernel, by decide +kernel⟩, ok_of_val, ok_of_val⟩,
    ⟨_, _, _, ready_plain,
      ⟨by decide +kernel, groups_ok, by decide +kernel,
        by decide +kernel, by decide +kernel, by decide +kernel⟩, ok_of_val⟩⟩

/-- The window of the scratchpad, a page of it that is backed, and one that is not. -/
theorem witness_ScalarAccessesAndTheirCauses_scratchpad :
    (slotSpLen (data.slot 0) ≤ 0 ∧ ∀ a : Word, a = BitVec.ofNat 64 Config.spWindow → a.toNat % 8 = 0 ∧
      Config.spWindow ≤ a.toNat ∧ a.toNat < 2 ^ 57) ∧
    ∃ (p : Page) (k : Code) (s1 : State), 0 < slotSpLen (padded.slot 0) ∧
      padded.pageOf 0 (slotSpBase (padded.slot 0) + 0 * 4096) false = .ok (some p, k) s1 ∧ p.space = 0 ∧
      unpopulated (p.paddr s1 (slotSpBase (padded.slot 0) + 0 * 4096)) = false ∧ p.masked s1 0 .load = false ∧ p.ow = 0 := by
  refine ⟨⟨by decide +kernel, fun a h => by subst h; decide +kernel⟩,
    ⟨⟨2 ^ 63 + 2 ^ 62 + 0x100000000 + attrW, 31, false⟩, 0, _, by decide +kernel, ok_of_val, by decide +kernel,
      by decide +kernel, by decide +kernel, by decide +kernel⟩⟩

/-- R277: `lb` sign-extends; R301: `amin` reads signed and returns the old value. -/
theorem test_lb_sign_extends : (nextOr base (exec (.lb ng (fsc 3 5 1))
    (ptr { data with mem := Memory.writeN data.mem 0x100001000 4 0x80000000 }))).myCtx.sreg 1 = 0xFFFFFFFFFFFFFF80 := by
  decide +kernel
theorem test_lwu_zero_extends : (nextOr base (exec (.lwu ng (fsc 0 5 1))
    (ptr { data with mem := Memory.writeN data.mem 0x100001000 4 0x80000000 }))).myCtx.sreg 1 = 0x80000000 := by
  decide +kernel
theorem test_aadd_returns_the_old_value : (fun t : State => (t.myCtx.sreg 1, Memory.readN t.mem 0x100001000 4))
    (nextOr base (exec (.aadd ng (fx 0)) (ptr { data with mem := Memory.writeN data.mem 0x100001000 4 0xFFFFFFFF }))) =
      (0xFFFFFFFFFFFFFFFF, 8) := by decide +kernel

/-- Key 7 of this device as a change of its entry makes it: in use for the job of context 0, over the line at 0x80001000. -/
def keyed (f : Key → Key) : State :=
  withS (data.modKey 7 fun k => f { k with valid := true, job := 0, base := 0x80001000#50 >>> 7, scope := 2 }) [(5, 7)]

theorem witness_FencesAndKeysHandOver :
    (∃ s1 : State, Ready (.fenceFar ng ⟨4, 0⟩) data s1 ∧ s1.myCtx.imprecise = []) ∧
    (∃ s1 s2 s3 s4 : State, Ready (.racq ng ⟨6, 5⟩) (keyed id) s1 ∧ s1.rdS 5 = .ok 7 s2 ∧ s2.dstReady 6 = .ok ⟨⟩ s3 ∧
      s3.myCtx.imprecise = [] ∧ (7#64).toNat / 4096 = s3.dev ∧ s3.keyOk 7 = true ∧
      s3.admitted ((s3.key 7).base.toNat * 128) = .ok 4 s4 ∧ (s4.key 7).scope.toNat ≤ 4 ∧ s4.holdsKey 7 = false ∧
      (s4.key 7).freeFor s4.me = true) ∧
    (∃ s1 s2 s3 s4 : State, Ready (.racq ng ⟨6, 5⟩) (keyed fun k => { k with held := true, holder := 1 }) s1 ∧
      s1.rdS 5 = .ok 7 s2 ∧ s2.dstReady 6 = .ok ⟨⟩ s3 ∧ s3.myCtx.imprecise = [] ∧ s3.keyOk 7 = true ∧
      s3.admitted ((s3.key 7).base.toNat * 128) = .ok 4 s4 ∧ (s4.key 7).scope.toNat ≤ 4 ∧ s4.holdsKey 7 = false ∧
      (s4.key 7).freeFor s4.me = false) ∧
    (∃ s1 s2 s3 s4 : State, Ready (.racq ng ⟨6, 5⟩) (keyed fun k => { k with held := true, holder := 0 }) s1 ∧
      s1.rdS 5 = .ok 7 s2 ∧ s2.dstReady 6 = .ok ⟨⟩ s3 ∧ s3.myCtx.imprecise = [] ∧ s3.keyOk 7 = true ∧
      s3.admitted ((s3.key 7).base.toNat * 128) = .ok 4 s4 ∧ (s4.key 7).scope.toNat ≤ 4 ∧ s4.holdsKey 7 = true) ∧
    (∃ s1 s2 s3 s4 : State, Ready (.racq ng ⟨6, 5⟩) (keyed fun k => { k with scope := 6 }) s1 ∧
      s1.rdS 5 = .ok 7 s2 ∧ s2.dstReady 6 = .ok ⟨⟩ s3 ∧ s3.myCtx.imprecise = [] ∧ s3.keyOk 7 = true ∧
      s3.admitted ((s3.key 7).base.toNat * 128) = .ok 4 s4 ∧ 4 < (s4.key 7).scope.toNat) ∧
    (∃ s1 s2 s3 : State, Ready (.racq ng ⟨6, 5⟩) (withS data [(5, 7)]) s1 ∧ s1.rdS 5 = .ok 7 s2 ∧
      s2.dstReady 6 = .ok ⟨⟩ s3 ∧ s3.myCtx.imprecise = [] ∧ s3.keyOk 7 = false) ∧
    (∃ s1 s2 s3 : State, Ready (.racq ng ⟨6, 5⟩) (withS data [(5, 2 ^ 20)]) s1 ∧ s1.rdS 5 = .ok (2 ^ 20) s2 ∧
      s2.dstReady 6 = .ok ⟨⟩ s3 ∧ s3.myCtx.imprecise = [] ∧ 2 ^ 20 ≤ (2 ^ 20 : Word).toNat) ∧
    (∃ s1 s2 : State, Ready (.rrel ng ⟨0, 5⟩) (keyed id) s1 ∧ s1.rdS 5 = .ok 7 s2 ∧ s2.keyOk 7 = true ∧
      s2.holdsKey 7 = false) ∧
    ∃ s1 s2 : State, Ready (.rrel ng ⟨0, 5⟩) (keyed fun k => { k with held := true, holder := 0 }) s1 ∧ s1.rdS 5 = .ok 7 s2 ∧
      s2.keyOk 7 = true ∧ s2.holdsKey 7 = true ∧ s2.myCtx.imprecise = [] := by
  refine ⟨⟨_, ready_plain, by decide +kernel⟩,
    ⟨_, _, _, _, ready_plain, ok_of_val,
      ok_of_val, by decide +kernel, by decide +kernel, by decide +kernel, ok_of_val,
      by decide +kernel, by decide +kernel, by decide +kernel⟩,
    ⟨_, _, _, _, ready_plain, ok_of_val,
      ok_of_val, by decide +kernel, by decide +kernel, ok_of_val,
      by decide +kernel, by decide +kernel, by decide +kernel⟩,
    ⟨_, _, _, _, ready_plain, ok_of_val,
      ok_of_val, by decide +kernel, by decide +kernel, ok_of_val,
      by decide +kernel, by decide +kernel⟩,
    ⟨_, _, _, _, ready_plain, ok_of_val,
      ok_of_val, by decide +kernel, by decide +kernel, ok_of_val,
      by decide +kernel⟩,
    ⟨_, _, _, ready_plain, ok_of_val,
      ok_of_val, by decide +kernel, by decide +kernel⟩,
    ⟨_, _, _, ready_plain, ok_of_val,
      ok_of_val, by decide +kernel, by decide +kernel⟩,
    ⟨_, _, ready_plain, ok_of_val, by decide +kernel,
      by decide +kernel⟩,
    ⟨_, _, ready_plain, ok_of_val, by decide +kernel,
      by decide +kernel, by decide +kernel⟩⟩

theorem witness_BarriersAndWorkCountersCount :
    (∃ s1 s2 s3 s4 s5 s6 : State, Ready (.bararv ng (fsc 0 5 1)) (synced 2 .running) s1 ∧ s1.rdS 5 = .ok 0x80001000 s2 ∧
      s2.dstReady 1 = .ok ⟨⟩ s3 ∧ s3.myCtx.imprecise = [] ∧
      s3.barrierAt ng 0x80001000 .atomic 0 = .ok 0x100001000 s4 ∧ s4.owns 0x100001000 = true ∧
      s4.barrierPeers .atomic 0x100001000 0x80001000 = .ok ⟨⟩ s5 ∧
      (R.each (wordsOf 0x100001000 16) s5 fun w s => s.consume w 0x80001000) = .ok ⟨⟩ s6 ∧
      true ∉ ((s6.barrier 0x100001000).cycle 1 0).2) ∧
    (∃ s1 s2 s3 s4 s5 s6 : State, Ready (.bardrop ng (fsc 0 5 1)) (synced 0 .running) s1 ∧ s1.rdS 5 = .ok 0x80001000 s2 ∧
      s2.dstReady 1 = .ok ⟨⟩ s3 ∧ s3.myCtx.imprecise = [] ∧
      s3.barrierAt ng 0x80001000 .atomic 0 = .ok 0x100001000 s4 ∧ s4.owns 0x100001000 = true ∧
      s4.barrierPeers .atomic 0x100001000 0x80001000 = .ok ⟨⟩ s5 ∧
      (R.each (wordsOf 0x100001000 16) s5 fun w s => s.consume w 0x80001000) = .ok ⟨⟩ s6 ∧
      true ∈ ((s6.barrier 0x100001000).cycle 0 1).2) ∧
    (∃ s1 s2 s3 s4 s5 s6 : State, Ready (.barwait ng (fsc 0 5 8)) (synced 2 .running) s1 ∧ s1.rdS 5 = .ok 0x80001000 s2 ∧
      s2.rdS 8 = .ok 3 s3 ∧ s3.myCtx.imprecise = [] ∧ s3.barrierAt ng 0x80001000 .load 0 = .ok 0x100001000 s4 ∧
      s4.owns 0x100001000 = true ∧ s4.barrierPeers .untrackedLoad 0x100001000 0x80001000 = .ok ⟨⟩ s5 ∧
      (R.each (wordsOf 0x100001000 16) s5 fun w s => s.consume w 0x80001000) = .ok ⟨⟩ s6 ∧ 3 < (s6.barrier 0x100001000).ph) ∧
    (∃ s1 s2 s3 s4 s5 s6 : State, Ready (.barwait ng (fsc 0 5 7)) (synced 2 .running) s1 ∧ s1.rdS 5 = .ok 0x80001000 s2 ∧
      s2.rdS 7 = .ok 4 s3 ∧ s3.myCtx.imprecise = [] ∧ s3.barrierAt ng 0x80001000 .load 0 = .ok 0x100001000 s4 ∧
      s4.owns 0x100001000 = true ∧ s4.barrierPeers .untrackedLoad 0x100001000 0x80001000 = .ok ⟨⟩ s5 ∧
      (R.each (wordsOf 0x100001000 16) s5 fun w s => s.consume w 0x80001000) = .ok ⟨⟩ s6 ∧ (s6.barrier 0x100001000).ph ≤ 4) ∧
    (∃ (j : Job) (p : Page), data.jobAt 0 = some j ∧ data.xlate j.root 0x80001000 = some (0x100001000, p) ∧
      data.owns 0x100001000 = true) ∧
    (∃ s1 s2 s3 : State, Ready (.wcarr ng (fsc 0 6 8)) (synced 2 .running) s1 ∧
      s1.rdS 6 = .ok (handle 6 0 0 0 0) s2 ∧ s2.jobCounter s2.myJobSlot (handle 6 0 0 0 0) =
        some ⟨handle 6 0 0 0 0, 3, .running, false⟩ ∧ hKind (handle 6 0 0 0 0) = 6 ∧ s2.rdS 8 = .ok 3 s3 ∧
      s3.myCtx.imprecise = []) ∧
    (∃ s1 s2 s3 : State, Ready (.wcarr ng (fsc 0 6 7)) (synced 2 .running) s1 ∧ s1.rdS 6 = .ok (handle 6 0 0 0 0) s2 ∧
      s2.rdS 7 = .ok 4 s3 ∧ 3 < (4#64).toNat) ∧
    (∃ s1 s2 : State, Ready (.wcarr ng (fsc 0 5 8)) (synced 2 .running) s1 ∧ s1.rdS 5 = .ok 0x80001000 s2 ∧
      s2.jobCounter s2.myJobSlot 0x80001000 = none) ∧
    (∃ s1 s2 s3 : State, Ready (.wcwait ng (fsc 0 6 1)) (synced 2 .cancelled) s1 ∧ s1.rdS 6 = .ok (handle 6 0 0 0 0) s2 ∧
      s2.jobCounter s2.myJobSlot (handle 6 0 0 0 0) = some ⟨handle 6 0 0 0 0, 3, .cancelled, false⟩ ∧
      s2.dstReady 1 = .ok ⟨⟩ s3 ∧ s2.contains s2.me (handle 6 0 0 0 0) = false ∧ s3.myCtx.imprecise = []) ∧
    ∃ (s1 s2 s3 t : State) (n : Nat), Ready (.wccancel ng (fsc 0 6 1)) (synced 2 .running) s1 ∧
      s1.rdS 6 = .ok (handle 6 0 0 0 0) s2 ∧ s2.dstReady 1 = .ok ⟨⟩ s3 ∧ s3.cancelLevel (handle 6 0 0 0 0) = (n, t) ∧
      slotState (t.slot s3.me) = 1 ∧
      slotState ((finished (.wccancel ng (fsc 0 6 1)) s1 (t.setS 1 (BitVec.ofNat 64 n))).slot 0) = 1 := by
  refine ⟨⟨_, _, _, _, _, _, ready_plain, ok_of_val,
      ok_of_val, by decide +kernel, ok_of_val, by decide +kernel,
      ok_of_val, ok_of_val, by decide +kernel⟩,
    ⟨_, _, _, _, _, _, ready_plain, ok_of_val,
      ok_of_val, by decide +kernel, ok_of_val, by decide +kernel,
      ok_of_val, ok_of_val, by decide +kernel⟩,
    ⟨_, _, _, _, _, _, ready_plain, ok_of_val,
      ok_of_val, by decide +kernel, ok_of_val, by decide +kernel,
      ok_of_val, ok_of_val, by decide +kernel⟩,
    ⟨_, _, _, _, _, _, ready_plain, ok_of_val,
      ok_of_val, by decide +kernel, ok_of_val, by decide +kernel,
      ok_of_val, ok_of_val, by decide +kernel⟩,
    ⟨placedJob, ⟨2 ^ 63 + 2 ^ 62 + 0x100000000 + attrW, 31, false⟩, by decide +kernel, by decide +kernel, by decide +kernel⟩,
    ⟨_, _, _, ready_plain, ok_of_val, by decide +kernel,
      by decide, ok_of_val, by decide +kernel⟩,
    ⟨_, _, _, ready_plain, ok_of_val,
      ok_of_val, by decide⟩,
    ⟨_, _, ready_plain, ok_of_val, by decide +kernel⟩,
    ⟨_, _, _, ready_plain, ok_of_val, by decide +kernel,
      ok_of_val, by decide +kernel, by decide +kernel⟩,
    ⟨_, _, _, _, _, ready_plain, ok_of_val,
      ok_of_val, rfl, by decide +kernel, by decide +kernel⟩⟩

/-- A context cancels the launch that its own unit belongs to. -/
theorem witness_BarriersAndWorkCountersCount_counters : ∃ (s s1 s2 s3 t : State) (n : Nat), Ready (.wccancel ng (fsc 0 6 1)) s s1 ∧
      s1.rdS 6 = .ok (handle 2 0 0 0 0) s2 ∧ s2.dstReady 1 = .ok ⟨⟩ s3 ∧ s3.cancelLevel (handle 2 0 0 0 0) = (n, t) ∧
      (s2.jobCounter s2.myJobSlot (handle 2 0 0 0 0)).isSome = true ∧ s2.contains s2.me (handle 2 0 0 0 0) = true ∧
      slotState (s3.slot s3.me) = 1 ∧ slotState (t.slot s3.me) ≠ 1 ∧ slotState (s.slot s.me) = 1 ∧
      slotState (t.slot s.me) ≠ 1 ∧ ticketOf (.wccancel ng (fsc 0 6 1)) s1 = none := by
  refine ⟨withS { launched (.bound 0) with counters := [⟨handle 2 0 0 0 0, 1, .running, false⟩] } [(6, handle 2 0 0 0 0)],
    _, _, _, _, _, ready_plain, ok_of_val, ok_of_val, Prod.mk.eta.symm, by decide +kernel, by decide +kernel, by decide +kernel,
    by decide +kernel, by decide +kernel, by decide +kernel, by decide +kernel⟩

/-- A stream that walks register 4, bound at address 0 by the strip at STRIPB 128. -/
def walk4 (parked : Bool) (by_ : List Nat) : Stream := ⟨4, parked, .walk, 8, 0, [], 0, by_, false⟩
/-- A strip in a context with streams. -/
def streamed (f : Strip → Strip) (l : List Stream) : State := (strip f).modCtx 0 fun x => { x with streams := l }

theorem witness_StreamsAreBoundAndGivenUp :
    (∃ s1 s2 s3 : State, Ready (.vbind ng (fv 0 0 3 4)) (strip shaped) s1 ∧ s1.myCtx.boundStream 4 = none ∧
      s1.myCtx.parkedStream 4 = none ∧ s1.takeGroups [3] = .ok ⟨⟩ s2 ∧ (s2.myStrip.reg 3).tag = 25 ∧
      s2.myStrip.poisonedAt [3] 8 (List.range 18) = false ∧ Shape.check (s2.myStrip.record 3) = .ok row64 ∧
      tensorBits (tagFmt row64.ftag) = 8 * s1.myStrip.ewB ∧ row64.orientOk false = true ∧
      s2.newStream 4 .walk row64.ftag (s2.myStrip.record 3) = .ok ⟨⟩ s3) ∧
    (∃ s1 s2 : State, Ready (.vbindz ng (fv 0 0 0 4)) (strip fun t => { t with vtype := 16 }) s1 ∧
      s1.myCtx.boundStream 4 = none ∧ s1.myCtx.parkedStream 4 = none ∧ s1.myStrip.ewB = 1 ∧
      (s1.modCtx s1.me fun x => { x with satchelTag := none }).newStream 4 .satchel s1.myStrip.fmt [] = .ok ⟨⟩ s2) ∧
    (∃ s1 s2 : State, Ready (.vbindn ng { fs 0 4 with fv := 1, fmt := 8, sb := 5 })
        (strip fun t => { t with snap := t.snap.setIfInBounds 5 15 }) s1 ∧
      (s1.snapS 5).toNat < 16 ∧ s1.myCtx.boundStream 4 = none ∧ s1.myCtx.parkedStream 4 = none ∧
      widthOk (tagFmt 8) s1.myStrip.ewB = true ∧ s1.newStream 4 (.network (s1.snapS 5).toNat) 8 [] = .ok ⟨⟩ s2) ∧
    (∃ s1 : State, Ready (.vbindn ng { fs 0 4 with fv := 1, fmt := 8, sb := 5 })
        (strip fun t => { t with snap := t.snap.setIfInBounds 5 16 }) s1 ∧ 16 ≤ (s1.snapS 5).toNat) ∧
    (∃ s1 : State, Ready (.vbind ng (fv 0 0 3 4)) (streamed shaped [walk4 false [128]]) s1 ∧
      s1.myCtx.boundStream 4 = some (walk4 false [128]) ∧ (walk4 false [128]).pc = s1.cur.pc ∧ s1.myStrip.stripb ∉ [128]) ∧
    (∃ s1 : State, Ready (.vbind ng (fv 0 0 3 4)) (streamed shaped [walk4 false [0]]) s1 ∧
      s1.myCtx.boundStream 4 = some (walk4 false [0]) ∧ s1.myStrip.stripb ∈ [0]) ∧
    (∃ s1 : State, Ready (.vbind ng (fv 0 0 4 4)) (streamed shaped [walk4 true []]) s1 ∧ s1.myCtx.boundStream 4 = none ∧
      s1.myCtx.parkedStream 4 = some (walk4 true []) ∧ tensorBits (tagFmt (walk4 true []).tag) = 8 * s1.myStrip.ewB) ∧
    (∃ (s s1 s2 e : State) (st : Stream), Ready (.vbindz ng (fv 0 0 0 4)) s s1 ∧ s1.myCtx.boundStream 4 = some st ∧
      st.pc ≠ s1.cur.pc ∧ st.unbound = false ∧ st.attached = [] ∧ s1.myStrip.ewB = 1 ∧
      e = s1.endStreams s1.me (· == st) ∧
      (e.modCtx e.me fun x => { x with satchelTag := none }).newStream 4 .satchel e.myStrip.fmt [] = .ok ⟨⟩ s2) ∧
    ((streamed shaped [walk4 false [0]]).myCtx.streams.length < 4 ∧
      (((streamed shaped (List.replicate 4 (walk4 false []))).modCtx 0 (fun x => x.unpark (5#5).toNat 1)).endStreams 0
        Stream.idle).myCtx.streams.length = 0) ∧
    (4 ≤ ((streamed shaped (List.replicate 4 (walk4 false [0]))).modCtx 0 (fun x => x.unpark (5#5).toNat 1)).myCtx.streams.length) ∧
    (∃ s1 : State, Ready (.vunbind ng (fv 0 0 0 4)) (strip id) s1 ∧ s1.myCtx.bound s1.myStrip.stripb 4 = none) ∧
    ∃ s1 : State, Ready (.vunbind ng (fv 0 0 0 4)) (streamed id [walk4 false [0]]) s1 ∧
      s1.myCtx.bound s1.myStrip.stripb 4 = some (walk4 false [0]) := by
  refine ⟨⟨_, _, _, ready_plain, by decide +kernel, by decide +kernel,
      ok_of_val, by decide +kernel, by decide +kernel, by decide +kernel, by decide +kernel,
      by decide +kernel, ok_of_val⟩,
    ⟨_, _, ready_plain, by decide +kernel, by decide +kernel, by decide +kernel,
      ok_of_val⟩,
    ⟨_, _, ready_plain, by decide +kernel, by decide +kernel, by decide +kernel,
      by decide +kernel, ok_of_val⟩,
    ⟨_, ready_plain, by decide +kernel⟩,
    ⟨_, ready_plain, by decide +kernel, by decide +kernel, by decide +kernel⟩,
    ⟨_, ready_plain, by decide +kernel, by decide +kernel⟩,
    ⟨_, ready_plain, by decide +kernel, by decide +kernel, by decide +kernel⟩,
    ⟨streamed (fun t => { t with vtype := 16 }) [{ walk4 false [] with pc := 64 }], _, _, _, _, ready_plain, rfl,
      by decide +kernel, rfl, rfl, by decide +kernel, rfl, ok_of_val⟩,
    by decide +kernel, by decide +kernel,
    ⟨_, ready_plain, by decide +kernel⟩,
    ⟨_, ready_plain, by decide +kernel⟩⟩

/-- R296: a tenure begins one above the one before. -/
theorem test_racq_begins_a_tenure :
    (nextOr base (exec (.racq ng ⟨6, 5⟩) (keyed fun k => { k with tenure := 8 }))).myCtx.sreg 6 = 9 := by decide +kernel
/-- R306: the second of two arrivals starts the next phase, and the phase before is returned. -/
theorem test_bararv_starts_a_phase : (fun t : State => (t.myCtx.sreg 1, t.barrier 0x100001000))
    (nextOr base (exec (.bararv ng (fsc 0 5 1)) (synced 2 .running))) = (4, ⟨5, 0, 2⟩) := by decide +kernel

/-- Context 0 with operands of an engine operation in s5, s6 and s7. -/
def engine (a b c : Word) : State := withS data [(5, a), (6, b), (7, c)]
/-- The copy table of core 0 is full. -/
def full (s : State) : State := s.modCore 0 fun k =>
  { k with copies := List.replicate Config.copyTable ⟨1, 0, 0, .copy 0 0 4, none, none, 0, 0, none⟩ }
/-- A descriptor of an all-reduce of one n32 element in group 3, from 0x80002000 to 0x80003000. -/
def descriptor : List Byte :=
  leBytes 8 (6 * 2 ^ 8 + 3 * 2 ^ 16) ++ leBytes 8 0x80002000 ++ leBytes 8 0x80003000 ++ leBytes 8 1 ++ List.replicate 32 0
/-- A job with that group, and the descriptor at 0x80001000. -/
def grouped (s : State) : State :=
  { s with
    mem := Memory.writeN s.mem 0x100001000 64 (natAt descriptor 0 64)
    jobs := s.jobs.map fun j => { j with groups := [(3, pair)] } }

theorem witness_CopiesEnterTheTable :
    (∃ s1 s2 s3 s4 s5 : State, Ready (.pcopy ng ⟨7, 6, 5, 1⟩) (engine 0x80001000 0x80002000 (2 ^ 36)) s1 ∧
      s1.rdS 5 = .ok 0x80001000 s2 ∧ s2.rdS 6 = .ok 0x80002000 s3 ∧ s3.rdS 7 = .ok (2 ^ 36) s4 ∧
      s4.dstReady 1 = .ok ⟨⟩ s5 ∧ s5.beyondScope none 0x80001000 (2 ^ 36) = none ∧ s5.slotFree = true) ∧
    (∃ s1 s2 s3 s4 s5 : State, Ready (.pcopy ng ⟨7, 6, 5, 1⟩) (full (engine 0x80001000 0x80002000 4)) s1 ∧
      s1.rdS 5 = .ok 0x80001000 s2 ∧ s2.rdS 6 = .ok 0x80002000 s3 ∧ s3.rdS 7 = .ok 4 s4 ∧
      s4.dstReady 1 = .ok ⟨⟩ s5 ∧ s5.slotFree = false) ∧
    (∃ s1 s2 s3 s4 s5 : State, Ready (.pcopy ng ⟨7, 6, 5, 1⟩) (engine 0x80001002 0x80002001 2) s1 ∧
      s1.rdS 5 = .ok 0x80001002 s2 ∧ s2.rdS 6 = .ok 0x80002001 s3 ∧ s3.rdS 7 = .ok 2 s4 ∧ s4.dstReady 1 = .ok ⟨⟩ s5) ∧
    (∃ s1 s2 s3 s4 s5 : State, Ready (.pcopy ⟨none, some ⟨4, 6⟩⟩ ⟨7, 6, 5, 1⟩) (engine 0x80001000 0x80002000 4) s1 ∧
      s1.rdS 5 = .ok 0x80001000 s2 ∧ s2.rdS 6 = .ok 0x80002000 s3 ∧ s3.rdS 7 = .ok 4 s4 ∧ s4.dstReady 1 = .ok ⟨⟩ s5 ∧
      s5.beyondScope (ticketOf (.pcopy ⟨none, some ⟨4, 6⟩⟩ ⟨7, 6, 5, 1⟩) s1) 0x80001000 4 =
        some 0x80001000) ∧
    (∃ s1 s2 s3 s4 : State, Ready (.pcopyz ng ⟨7, 6, 0, 1⟩) (engine 0 0x80002000 128) s1 ∧ s1.rdS 6 = .ok 0x80002000 s2 ∧
      s2.rdS 7 = .ok 128 s3 ∧ s3.dstReady 1 = .ok ⟨⟩ s4 ∧ s4.beyondScope none 0x80002000 128 = none ∧ s4.slotFree = true) ∧
    ∃ s1 s2 s3 s4 s5 s6 : State, Ready (.coll ng ⟨0, 0, 5, 1⟩) (grouped (engine 0x80001000 0 0)) s1 ∧
      s1.rdS 5 = .ok 0x80001000 s2 ∧ s2.dstReady 1 = .ok ⟨⟩ s3 ∧ s3.readRun s3.me 0x80001000 64 1 = .ok descriptor s4 ∧
      ((s4.jobOf s4.me).bind fun j => afind? j.groups (Coll.ofBytes descriptor).group) = some pair ∧
      (Coll.ofBytes descriptor).ok descriptor pair.members.length = true ∧ (Coll.ofBytes descriptor).wctr = 0 ∧
      (Coll.ofBytes descriptor).src % (Coll.ofBytes descriptor).width = 0 ∧
      (Coll.ofBytes descriptor).dst % (Coll.ofBytes descriptor).width = 0 ∧
      s4.collSpace s4.me (4 / 4096 + 2) (Coll.ofBytes descriptor).src 4 = .ok true s5 ∧
      s5.collSpace s5.me (4 / 4096 + 2) (Coll.ofBytes descriptor).dst 4 = .ok true s6 ∧
      (Coll.ofBytes descriptor).sourceBytes 2 0 = 4 ∧ (Coll.ofBytes descriptor).resultBytes 2 = 4 ∧ s6.slotFree = true := by
  refine ⟨⟨_, _, _, _, _, ready_plain, ok_of_val,
      ok_of_val, ok_of_val, ok_of_val, by decide, by decide +kernel⟩,
    ⟨_, _, _, _, _, ready_plain, ok_of_val,
      ok_of_val, ok_of_val, ok_of_val, by decide +kernel⟩,
    ⟨_, _, _, _, _, ready_plain, ok_of_val,
      ok_of_val, ok_of_val, ok_of_val⟩,
    ⟨_, _, _, _, _, ready_gated ⟨4, 6⟩ (by decide +kernel) (by decide +kernel) (by decide +kernel) rfl (by decide +kernel)
      (by decide +kernel), ok_of_val, ok_of_val, ok_of_val,
      ok_of_val, by decide +kernel⟩,
    ⟨_, _, _, _, ready_plain, ok_of_val,
      ok_of_val, ok_of_val, by decide, by decide +kernel⟩,
    ⟨_, _, _, _, _, _, ready_plain, ok_of_val,
      ok_of_val, ok_of_val, by decide +kernel, by decide +kernel, by decide,
      by decide, by decide, ok_of_val, ok_of_val, by decide +kernel, by decide +kernel, by decide +kernel⟩⟩

/-- A Satchel block of one byte, as is, at 0x80001000, with a magic number and a check value. -/
def block (magic check : Nat) : State :=
  let v := magic + 2 ^ 16 + check * 2 ^ 64 + 2 ^ 96 + 9 * 2 ^ 320
  { data with mem := Memory.writeN data.mem 0x100001000 41 v }
/-- What the view of a block says. -/
def viewOf : R (BlockView × Bool) → Option (Option (List Byte × Bool) × Bool)
  | .ok (.header, b) _ => some (none, b)
  | .ok (.block _ out wrong, b) _ => some (some (out, wrong), b)
  | _ => none
theorem view_block {r : R (BlockView × Bool)} {out : List Byte} {wrong b : Bool} (h : viewOf r = some (some (out, wrong), b)) :
    ∃ (x : Satchel) (t : State), r = .ok (.block x out wrong, b) t := by
  unfold viewOf at h; split at h <;> simp_all
theorem view_header {r : R (BlockView × Bool)} {b : Bool} (h : viewOf r = some (none, b)) :
    ∃ t : State, r = .ok (.header, b) t := by
  unfold viewOf at h; split at h <;> simp_all

/-- The Satchel copy of `block` in core 0's table. -/
def chan : Copy := ⟨1, 0, 0, .satchel 0x80001000 128, none, none, 0, 0, none⟩
/-- A channel whose block is read, with checks. -/
def checking (l : List SatchelCheck) (s : State) : State :=
  (copying (.satchel 0x80001000 128) s).modOwner 0 fun x => { x with checks := l }

theorem witness_EnginesFinishOrStop_copies :
    data.copyOf 0 1 = none ∧
    (∃ (s t : State) (p : Copy), s.copyOf 0 1 = some p ∧ p.kind = .copy 0x80002000 0x80001000 8 ∧
      s.copyLines 0 p 0x80002000 0x80001000 8 (8 / 4 + 1) p.pos = .ok ⟨⟩ t) ∧
    ∃ (s t : State) (p : Copy) (c : Code) (a : Word), s.copyOf 0 1 = some p ∧ p.kind = .copy 0x200000000000 0x80001000 8 ∧
      s.copyLines 0 p 0x200000000000 0x80001000 8 (8 / 4 + 1) p.pos = .trap c a t :=
  ⟨by decide +kernel, ⟨copying (.copy 0x80002000 0x80001000 8) data, _, _, rfl, rfl, ok_of_val⟩,
    ⟨copying (.copy 0x200000000000 0x80001000 8) data, _, _, 0x20, 0x200000000000, rfl, rfl, trap_of_cause (by decide +kernel)⟩⟩

theorem witness_EnginesFinishOrStop_satchel :
    (∃ (s : State), s.satchelFront 0 = some (0, chan)) ∧
    (∀ due ∈ [1, 2], ∀ wrong : Bool, ∃ (s : State) (c : SatchelCheck) (r : List SatchelCheck) (p : Copy),
      (s.owner 0).checks = c :: r ∧ c.due = due ∧ s.copyOf 0 c.id = some p ∧ c.wrong = wrong) ∧
    (∃ (s : State) (c : SatchelCheck), (s.owner 0).checks = [c] ∧ c.wrong = true ∧ s.copyOf 0 c.id ≠ none ∧
      (s.core 0).decoding 0 = none) ∧
    (∃ (s t : State), s.satchelBlock 0 chan 0x80001000 128 = .ok (.header, false) t ∧ (s.owner chan.ctx).checks = []) ∧
    (∃ (s t : State) (h : Satchel) (wrong : Bool), s.satchelBlock 0 chan 0x80001000 128 = .ok (.block h [9] wrong, false) t) ∧
    ∃ (s : State) (a b : SatchelBlock) (k : Nat), k = min (min 32 (s.satchelRoom chan.ctx)) (a.bytes.length - chan.given) ∧
      chan.given + k < a.bytes.length ∧ b.bytes.length ≤ chan.given + min (min 32 (s.satchelRoom chan.ctx)) b.bytes.length := by
  obtain ⟨t1, h1⟩ := view_header (r := State.satchelBlock (copying (.satchel 0x80001000 128) (block 0 0)) 0
    chan 0x80001000 128) (b := false) (by decide +kernel)
  obtain ⟨x2, t2, h2⟩ := view_block (r := State.satchelBlock (copying (.satchel 0x80001000 128) (block 0x5A7C 0)) 0
    chan 0x80001000 128) (out := [9]) (wrong := true) (b := false) (by decide +kernel)
  refine ⟨⟨copying (.satchel 0x80001000 128) data, by decide +kernel⟩, fun due hd wrong =>
      ⟨checking [⟨1, 0x80001000, due, wrong⟩] data, _, _, _, rfl, rfl, rfl, rfl⟩,
    ⟨(checking [⟨1, 0x80001000, 1, true⟩] data).modCopy 0 1 fun p => { p with pos := 128 }, ⟨1, 0x80001000, 1, true⟩, by decide +kernel⟩,
    ⟨_, t1, h1, by decide +kernel⟩, ⟨_, t2, x2, true, h2⟩,
    ⟨data, ⟨128, 8, List.replicate 33 0, false⟩, ⟨128, 8, [9], false⟩, _, rfl, by decide +kernel, by decide +kernel⟩⟩

/-- A collective on the descriptor, and the other member's contribution to it, of OP 0. -/
def gathering (s : State) : State := copying (.coll descriptor 0) (grouped s)
def contribution (op : Nat) : Contribution :=
  ⟨1, 0, op, (Coll.ofBytes descriptor).ftag, (Coll.ofBytes descriptor).count, (Coll.ofBytes descriptor).root, [0, 0, 0, 0]⟩

/-- A group whose other member is reached over Ultra Ethernet. -/
def farPair : Group := ⟨0, 0, [(0, 0, 0, 0), (1, 0, 2, 9)]⟩

theorem witness_EnginesFinishOrStop_collectives :
    (∃ (s : State) (p : Copy), s.copyOf 0 1 = some p ∧ p.kind = .coll descriptor 0 ∧ (Coll.ofBytes descriptor).wctr = 0 ∧
      ((s.ownerJob p.ctx).bind fun j => afind? j.groups (Coll.ofBytes descriptor).group) = some pair ∧
      (∀ q < 2, q ≠ pair.rank → ∃ c ∈ [contribution 1], c.rank = q) ∧
      (Coll.ofBytes descriptor).differs 2 (contribution 1) = true) ∧
    (∀ st ∈ [CStatus.running, .cancelled], ∃ (t : State) (c : Counter), t.counter (handle 6 0 0 0 0) = some c ∧ c.status = st) ∧
    (∃ (s : State) (p : Copy) (gr : Group), s.copyOf 0 1 = some p ∧ p.kind = .coll descriptor 0 ∧
      ((s.ownerJob p.ctx).bind fun j => afind? j.groups (Coll.ofBytes descriptor).group) = some gr ∧
      (List.range gr.members.length).filter (fun r => (gr.members[r]?.map (·.1)) == some 1) = [1]) ∧
    ∃ (s u v : State) (p : Copy) (mine : List Byte), s.copyOf 0 1 = some p ∧ p.kind = .coll descriptor 0 ∧
      ((s.ownerJob p.ctx).bind fun j => afind? j.groups (Coll.ofBytes descriptor).group) = some pair ∧
      (Coll.ofBytes descriptor).op = 0 ∧ (contribution 0).bytes.length = (Coll.ofBytes descriptor).sourceBytes 2 1 ∧
      s.engineBytes 0 p.ctx p.id 0x80002000 4 = .ok (mine, false) u ∧
      u.enginePut 0 p.ctx p.id 0x80003000 ((Coll.ofBytes descriptor).result 0 [mine, [0, 0, 0, 0]]) false = .ok ⟨⟩ v :=
  ⟨⟨gathering data, _, rfl, rfl, by decide, by decide +kernel, by decide +kernel, by decide +kernel⟩,
    fun st h => ⟨synced 2 st, ⟨handle 6 0 0 0 0, 3, st, false⟩, by revert st; decide +kernel, rfl⟩,
    ⟨copying (.coll descriptor 0) { data with jobs := data.jobs.map fun j => { j with groups := [(3, farPair)] } }, _, farPair, rfl, rfl,
      by decide +kernel, by decide⟩,
    ⟨gathering data, _, _, _, [0, 0, 0, 0], rfl, rfl, by decide +kernel, by decide, by decide, ok_of_val, ok_of_val⟩⟩

/-- Die 0's L2 holds the line of the data. -/
def inL2 : State := data.modDie 0 fun d => { d with l2 := [⟨0, rowLine 0x100001000, true⟩] }

theorem witness_MemoryHappeningsChangeCaches :
    (data.owns 0x100001000 = true ∧ (footprint (rowLine 0x100001000)).headD 0 = 0x100001000 ∧
      data.inProgress homeParty (footprint (rowLine 0x100001000)) = none ∧
      ∀ req ∈ [HomeReq.trackedLoad true, .untrackedLoad, .ownStore, .sisStore, .throughStore, .atomic],
        data.peerAsks req (nodeOfCore 0) (footprint (rowLine 0x100001000)) = [] ∧
        val? (data.remoteRoom 0 req (rowLine 0x100001000) (footprint (rowLine 0x100001000))) = some ⟨⟩) ∧
    ({ data with requests := [serving] }.inProgress homeParty (footprint (rowLine 0x100001000)) = some serving) ∧
    (rowLine 0x100001000).base = 0x100001000 ∧
    (inL2.owns 0x100001000 = true ∧ inL2.pinnedInL2 0 (rowLine 0x100001000) = false ∧
      ∃ x ∈ (inL2.die 0).l2, x.key = rowLine 0x100001000) ∧
    (inL2.modCore 0 fun c => { c with frames := [⟨0, 0, 0x100001000, false, 0, [], [], 0⟩] }).pinnedInL2 0
      (rowLine 0x100001000) = true ∧
    ∃ (t : State) (p : Page), slotState (padded.slot 0) = 1 ∧ 0 < slotSpLen (padded.slot 0) ∧
      padded.enginePage 0 (slotSpBase (padded.slot 0) + 0 * 4096) = .ok p t ∧ p.space = 0 :=
  ⟨by decide +kernel, by decide +kernel, by decide, by decide +kernel, by decide +kernel,
    ⟨_, ⟨2 ^ 63 + 2 ^ 62 + 0x100000000 + attrW, 31, false⟩, by decide +kernel, by decide +kernel, ok_of_val, by decide +kernel⟩⟩

/-- Tile 0 has the shape of one row of one n32 or f32 element, tile 1 and 2 that of one row and column of bf16. -/
def tiled (f : Ctx → Ctx) (g : Strip → Strip) : State :=
  (strip g).modCtx 0 fun x => f { ((x.modTile 1 fun r => { r with tag := 9 }).modTile 2 fun r => { r with tag := 9 }) with
    tsh := ((x.tsh.setIfInBounds 0 3).setIfInBounds 1 2).setIfInBounds 2 2 }
/-- Form T. -/
def ft (fmt : BitVec 5) (va : VNum) (ty tx : TNum) : FormT := ⟨0, 0, 0, fmt, 0, 0, 0, 0, va, ty, tx⟩

/-- The rows of band 0 hold integers. -/
def intRows (s : State) : State := s.modCluster 0 fun k => { k with rows := [(0, ⟨0, .int, 8⟩)] }
theorem claim_held {s : State} {r m : Nat} (h : s.myCtx.revoked = false ∧ s.myCtx.rowsGranted ≠ 0 ∧
    r + m ≤ s.myCtx.rowsGranted ∧ s.matrixBusy s.me = false := by decide +kernel) : ClaimHeld s r m := h
theorem rows_take {s : State} {r m : Nat} {mode : AccMode} (h : ∀ i < m, (s.accRow s.me (r + i)).mode = .none ∨
    (s.accRow s.me (r + i)).mode = mode := by decide +kernel) : RowsTake s r m mode := h
theorem rows_refuse {s : State} {r m : Nat} {mode : AccMode} (h : ¬ ∀ i < m, (s.accRow s.me (r + i)).mode = .none ∨
    (s.accRow s.me (r + i)).mode = mode := by decide +kernel) : ¬ RowsTake s r m mode := h

theorem witness_TileInstructionsAndAccumulators :
    (∃ s1 s2 s3 : State, Ready (.tld ng (ft 0 3 0 0)) (tiled id shaped) s1 ∧ TileReady (ft 0 3 0 0) false row64 s1 s2 ∧
      (State.overPositions (s2.rowsLeft (tshRows (s2.myCtx.shapeOf 0))) s2 fun y s =>
        s.tileRow row64 plainAcc 0 (s2.myCtx.shapeOf 0) y) = .ok ⟨⟩ s3) ∧
    (∃ (s1 s2 : State) (vs es : List Nat), (R.gather (List.range 1) (tiled id shaped) fun x s =>
        s.loadTensor s.me { row64 with ftag := 0x2A, sbase := 0x80001000 } plainAcc 0 x) = .ok vs s1 ∧
      (R.gather (List.range ((1 + 31) / 32)) s1 fun _ s =>
        s.loadScale s.me { row64 with ftag := 0x2A, sbase := 0x80001000 } plainAcc [(0, 0)]) = .ok es s2) ∧
    (∃ s1 s2 s3 : State, Ready (.tst ng (ft 0 3 0 0)) (tiled (fun x => x.modTile 0 fun r => { r with tag := 8 }) shaped) s1 ∧
      TileReady (ft 0 3 0 0) true row64 s1 s2 ∧
      (State.overPositions (s2.rowsLeft (tshRows (s2.myCtx.shapeOf 0))) s2 fun y s =>
        R.each (List.range (tshCols (s2.myCtx.shapeOf 0))) s fun x s => s.storeTensor s.me row64 plainAcc y x
          ((s.myCtx.tile 0).get 32 y x)) = .ok ⟨⟩ s3) ∧
    (∃ s1 : State, Ready (.tzero ng (ft 8 0 0 0)) (tiled id id) s1 ∧
      tensorBits (8#5).toNat = tshBits (s1.myCtx.shapeOf 0)) ∧
    (∃ s1 : State, Ready (.tzero ng (ft 9 0 0 0)) (tiled id id) s1 ∧
      tensorBits (9#5).toNat ≠ tshBits (s1.myCtx.shapeOf 0)) ∧
    (∃ s1 : State, Ready (.tcvt ng (ft 8 0 0 0)) (tiled granted id) s1 ∧
      tensorBits (8#5).toNat = tshBits (s1.myCtx.shapeOf 0) ∧ tshCols (s1.myCtx.shapeOf 0) ≤ 64 ∧
      ClaimHeld s1 ((s1.snapS 0).toNat % 2 ^ 32) (tshRows (s1.myCtx.shapeOf 0))) ∧
    (∃ s1 s2 : State, Ready (.mattach ng ⟨0, 5⟩) (withS data [(5, 256)]) s1 ∧ s1.rdS 5 = .ok 256 s2 ∧
      s2.myCtx.rowsGranted = 0 ∧ ((s2.modCtx s2.me Ctx.unmark).takeBands (256 / 64)).isSome = true) ∧
    (∃ s1 s2 : State, Ready (.mattach ng ⟨0, 5⟩) (withS data [(5, 65)]) s1 ∧ s1.rdS 5 = .ok 65 s2 ∧
      (65#64).toNat ∉ [64, 128, 192, 256]) ∧
    (∃ s1 s2 : State, Ready (.mattach ng ⟨0, 5⟩) ((withS data [(5, 64)]).modCluster 0 fun k =>
        { k with holders := Vector.replicate 4 (some 1) }) s1 ∧ s1.rdS 5 = .ok 64 s2 ∧ s2.myCtx.rowsGranted = 0 ∧
      (s2.modCtx s2.me Ctx.unmark).takeBands (64 / 64) = none) ∧
    (∃ s1 : State, Ready (.mdetach ng) (ctl granted) s1 ∧ s1.myCtx.queue = [] ∧ s1.myCtx.run = none ∧
      (s1.cluster (clusterOf s1.me)).matq = [] ∧ (s1.cluster (clusterOf s1.me)).drains = []) ∧
    (∃ s1 : State, Ready (.mdetach ng) (queued 1) s1 ∧ s1.myCtx.queue ≠ []) ∧
    (∃ s1 : State, Ready (.tmma ng (ft 0 0 2 1)) (tiled granted id) s1 ∧
      pairMode (s1.myCtx.tile 1).tag (s1.myCtx.tile 2).tag = some .fp ∧
      tshCols (s1.myCtx.shapeOf 1) = tshCols (s1.myCtx.shapeOf 2) ∧
      tshBits (s1.myCtx.shapeOf 1) = tensorBits 9 ∧ tshBits (s1.myCtx.shapeOf 2) = tensorBits 9 ∧
      ClaimHeld s1 (s1.snapS 0).toNat (tshRows (s1.myCtx.shapeOf 1)) ∧
      RowsTake s1 (s1.snapS 0).toNat (tshRows (s1.myCtx.shapeOf 1)) .fp) ∧
    (∃ s1 : State, Ready (.tmma ng (ft 0 0 2 1)) (intRows (tiled granted id)) s1 ∧
      pairMode (s1.myCtx.tile 1).tag (s1.myCtx.tile 2).tag = some .fp ∧
      ClaimHeld s1 (s1.snapS 0).toNat (tshRows (s1.myCtx.shapeOf 1)) ∧
      ¬ RowsTake s1 (s1.snapS 0).toNat (tshRows (s1.myCtx.shapeOf 1)) .fp) ∧
    (∃ s1 : State, Ready (.tmma ng (ft 0 0 2 1)) (tiled (fun x => { x with revoked := true }) id) s1 ∧
      pairMode (s1.myCtx.tile 1).tag (s1.myCtx.tile 2).tag = some .fp ∧ s1.myCtx.revoked = true) ∧
    (∃ s1 : State, Ready (.tmma ng (ft 0 0 2 1)) (tiled id id) s1 ∧
      s1.myCtx.revoked = false ∧ s1.myCtx.rowsGranted < (s1.snapS 0).toNat + tshRows (s1.myCtx.shapeOf 1)) ∧
    (∃ s1 : State, Ready (.tmma ng (ft 0 0 0 1)) (tiled id id) s1 ∧
      pairMode (s1.myCtx.tile 1).tag (s1.myCtx.tile 0).tag = none) ∧
    (∃ (s1 s2 s3 : State) (rows : List Nat), Ready (.tmmaS ng { ft 9 1 0 1 with sa := 5 })
        (tiled granted fun t => { vmem t with vl := 1 }) s1 ∧
      pairMode (s1.myCtx.tile 1).tag 9 = some .fp ∧ tagScaled (s1.myCtx.tile 1).tag = false ∧ s1.myStrip.ewB = 4 ∧
      s1.takeGroups [1] = .ok ⟨⟩ s2 ∧ s2.myStrip.indexCause 1 = none ∧ s2.myStrip.vl ≤ tshCols (s2.myCtx.shapeOf 1) ∧
      s2.myStrip.poisonedAt [1] 4 (List.range s2.myStrip.vl) = false ∧
      ClaimHeld s2 (s2.snapS 0).toNat (tshRows (s2.myCtx.shapeOf 1)) ∧
      RowsTake s2 (s2.snapS 0).toNat (tshRows (s2.myCtx.shapeOf 1)) .fp ∧
      (R.gather (List.range s2.myStrip.vl) s2 fun k s =>
        let va := s.snapS 5 + s2.myStrip.index 1 k * 128
        if va.toNat % 128 != 0 then .trap 0x22 va s
        else (R.gather (List.range 32) s fun i s =>
          s.readElem s.me { rowElem (va + w64 (4 * i)) 4 .load 0 with gates := ng.scopes }).bind fun ws s => .ok (joinWords ws) s.dropAnswers) =
            .ok rows s3) ∧
    (∃ s1 : State, Ready (.tdrain ng { ft 0 0 0 0 with sa := 5 }) (tiled granted vmem) s1 ∧ (s1.snapS 5).toNat % 4 = 0 ∧
      (s1.snapS 0).toNat % 4 = 0 ∧ ¬ (Config.spWindow ≤ (s1.snapS 5).toNat ∧ (s1.snapS 5).toNat < Config.spEnd) ∧
      s1.myCtx.revoked = false ∧ s1.myCtx.rowsGranted ≠ 0 ∧ s1.matrixBusy s1.me = false) ∧
    val? (data.admitted 0x80001000) = some 4 ∧
    ∃ s1 : State, Ready (.tdrain ng { ft 0 0 0 0 with sa := 5 }) (tiled granted fun t =>
        { t with snap := t.snap.setIfInBounds 5 2 }) s1 ∧ (s1.snapS 5).toNat % 4 ≠ 0 := by
  refine ⟨⟨_, after ((tiled id shaped).takeGroups [3]), _, ready_plain,
      ⟨ok_of_val, by decide +kernel, by decide +kernel, by decide +kernel, by decide +kernel,
        by decide +kernel, nofun, by decide +kernel⟩, ok_of_val⟩,
    ⟨_, _, [0], [0], ok_of_val, ok_of_val⟩,
    ⟨_, after ((tiled (fun x => x.modTile 0 fun r => { r with tag := 8 }) shaped).takeGroups [3]), _,
      ready_plain,
      ⟨ok_of_val, by decide +kernel, by decide +kernel, by decide +kernel, by decide +kernel,
        by decide +kernel, fun _ => by decide +kernel, by decide +kernel⟩, ok_of_val⟩,
    ⟨_, ready_plain, by decide +kernel⟩,
    ⟨_, ready_plain, by decide +kernel⟩,
    ⟨_, ready_plain, by decide +kernel, by decide +kernel, claim_held⟩,
    ⟨_, _, ready_plain, ok_of_val, by decide +kernel,
      by decide +kernel⟩,
    ⟨_, _, ready_plain, ok_of_val, by decide⟩,
    ⟨_, _, ready_plain, ok_of_val, by decide +kernel,
      by decide +kernel⟩,
    ⟨_, ready_plain, by decide +kernel, by decide +kernel, by decide +kernel,
      by decide +kernel⟩,
    ⟨_, ready_plain, by decide +kernel⟩,
    ⟨_, ready_plain, by decide +kernel, by decide +kernel, by decide +kernel, by decide +kernel, claim_held, rows_take⟩,
    ⟨_, ready_plain, by decide +kernel, claim_held, rows_refuse⟩,
    ⟨_, ready_plain, by decide +kernel, by decide +kernel⟩,
    ⟨_, ready_plain, by decide +kernel, by decide +kernel⟩,
    ⟨_, ready_plain, by decide +kernel⟩,
    ⟨_, _, _, [0], ready_plain, by decide +kernel, by decide +kernel,
      by decide +kernel, ok_of_val, by decide +kernel, by decide +kernel, by decide +kernel,
      claim_held, rows_take, ok_of_val⟩,
    ⟨_, ready_plain, by decide +kernel, by decide +kernel, by decide +kernel,
      by decide +kernel, by decide +kernel, by decide +kernel⟩, by decide +kernel,
    ⟨_, ready_plain, by decide +kernel⟩⟩

/-- Cluster 0 with a drain of context 0 whose row 0 is touched at column 3. -/
def draining : State :=
  (ctl granted).modCluster 0 fun k => { k with
    rows := [(0, ⟨0, .fp, 8⟩)], drains := [⟨5, 0, 0, 0x80001000, 256, 0, 64, none⟩] }

theorem witness_MatrixHappeningsCompleteInOrder :
    (∃ s : State, (s.cluster 0).matq = [⟨0, none⟩]) ∧ (data.cluster 0).matq = [] ∧ data.drainOf 0 5 = none ∧
    (∃ (k : Nat) (d : Drain) (t : State), draining.drainOf 0 5 = some (k, d) ∧
      draining.drainValues k d (draining.touched k d) = .ok ⟨⟩ t ∧ draining.touched k d ≠ []) ∧
    (∃ r : AccRow, (5 : Nat) < 64 ∧ r.touch.getLsbD 5 = true) ∧
    data.revokeOf 0 = none ∧
    ({ data with residue := [(7, granted Ctx.zero)] }.revokeOf (2 ^ 20 + 7) = some (2 ^ 20 + 7) ∧
      { data with residue := [(7, granted Ctx.zero)] }.claimBusy (2 ^ 20 + 7) = false) ∧
    ({ data with residue := [(7, granted Ctx.zero)] }.modCluster 0 fun k => { k with matq := [⟨2 ^ 20 + 7, none⟩] }).claimBusy
      (2 ^ 20 + 7) = true := by
  refine ⟨⟨data.modCluster 0 fun k => { k with matq := [⟨0, none⟩] }, by decide +kernel⟩, by decide +kernel, by decide +kernel,
    ⟨0, ⟨5, 0, 0, 0x80001000, 256, 0, 64, none⟩, _, by decide +kernel, ok_of_val, by decide +kernel⟩,
    ⟨⟨0, .fp, 32⟩, by decide⟩, by decide +kernel, by decide +kernel, by decide +kernel⟩

/-- Cluster 0's Relay is bound to the job of context 0. -/
def mine (f : Relay → Relay) (s : State) : State :=
  s.modCluster 0 fun k => { k with relay := f { k.relay with job := some (slotJob (s.slot 0)).toNat } }
/-- A commit of context 0 whose copy-back has not ended. -/
def due : RelayCommit := ⟨false, 0, none⟩
/-- A record and a run of the strip at STRIPB 0, all of whose positions are final. -/
def record0 : RelayRec := ⟨1, 0, Vector.replicate 8 0, false, 0, false, 0, 0, 0, none⟩
def run0 : RelayRun := ⟨1, 0, 0, 8, 16, 0, 4, 4, none, [0, 1, 2, 3]⟩
/-- A class record of eight fields without masks or keys. -/
def classRec : List Byte := [8, 255, 255, 0, 0, 0, 0, 0] ++ List.replicate 16 255 ++ List.replicate 40 0
/-- A table head of an exact-match table (kind 1) with one entry. -/
def oneEntry : Nat := 0x7AB1 + 2 ^ 16 + 2 ^ 48

/-- A strip of records in registers 16 to 23, and a class for them. -/
def starting : State :=
  mine (fun r => r.modBank false fun b => { b with classes := [(0, ⟨8, none, none, []⟩)] })
    (strip fun t => { t.tagGroup 16 8 24 with vtype := 2 })

theorem witness_RelayRunsRecordsThroughItsChain :
    data.myRelay.job ≠ some (slotJob (data.slot data.me)).toNat ∧
    (∃ s1 : State, Ready (.rcommit ng ⟨0, 0, 0, 0, 0⟩) data s1 ∧ s1.relayMine = false) ∧
    (∃ (s1 s2 s3 s4 : State) (h body : List Byte), Ready (.rtw ng ⟨3, 0, 5, 0, 0⟩) (mine id (ptr (at4K 64 oneEntry data))) s1 ∧
      s1.relayMine = true ∧ s1.rdS 5 = .ok 0x80001000 s2 ∧ s2.image 0x80001000 32 = .ok h s3 ∧
      s3.image (0x80001000 + 32) (32 * natAt h 6 2) = .ok body s4 ∧ tableHead h = true ∧
      (entriesOf (natAt h 2 1) 3 (natAt h 6 2) body).isSome = true ∧ s4.myRelay.commit = none) ∧
    (∃ (s1 s2 s3 s4 : State) (h body : List Byte), Ready (.rtw ng ⟨3, 0, 5, 0, 0⟩) (mine id (ptr data)) s1 ∧
      s1.relayMine = true ∧ s1.rdS 5 = .ok 0x80001000 s2 ∧ s2.image 0x80001000 32 = .ok h s3 ∧
      s3.image (0x80001000 + 32) (32 * natAt h 6 2) = .ok body s4 ∧ tableHead h = false) ∧
    (∃ (s1 s2 s3 s4 : State) (b : List Byte) (c : RelayClass),
      Ready (.rclass ng ⟨0, 6, 5, 0, 0⟩) (mine id (ptr (at4K 64 (natAt classRec 0 64) data))) s1 ∧
      s1.relayMine = true ∧ s1.rdS 5 = .ok 0x80001000 s2 ∧ s2.rdS 6 = .ok 9 s3 ∧ s3.image 0x80001000 64 = .ok b s4 ∧
      (9#64).toNat ≤ 15 ∧ classOf b = some c ∧ s4.myRelay.commit = none) ∧
    (∃ s1 s2 : State, Ready (.rmiss ng ⟨8, 0, 1, 0, 0⟩) (mine id data) s1 ∧ s1.relayMine = true ∧ s1.rdS 1 = .ok 0 s2 ∧
      actionOk 0 8 = true ∧ s2.myRelay.commit = none) ∧
    (∃ s1 s2 : State, Ready (.rmiss ng ⟨8, 0, 1, 0, 0⟩) (mine id (withS data [(1, 2 ^ 40)])) s1 ∧ s1.relayMine = true ∧
      s1.rdS 1 = .ok (2 ^ 40) s2 ∧ actionOk (2 ^ 40) 8 = false) ∧
    (∃ s1 : State, Ready (.rcommit ng ⟨0, 0, 0, 0, 0⟩) (mine id data) s1 ∧ s1.relayMine = true ∧ s1.myRelay.commit = none) ∧
    (∃ s : State, (s.cluster 0).relay.commit = some due ∧ (s.cluster 0).relay.mayCopy = true) ∧
    (∃ s1 s2 s3 : State, Ready (.rstat ng ⟨6, 1⟩) (mine id (withS data [(6, 23)])) s1 ∧ s1.relayMine = true ∧
      s1.rdS 6 = .ok 23 s2 ∧ s2.dstReady 1 = .ok ⟨⟩ s3) ∧
    (∃ s : State, s.myRegion = none ∧ s.myStrip.kept = some none ∧ s.relayMine = true ∧ s.runOfStrip s.me 0 = some run0 ∧
      s.myRelay.over run0 = true) ∧
    (∃ s1 s2 : State, starting.waitGate ng = .ok ⟨⟩ s1 ∧ s1.relayMine = true ∧
      s1.myStrip.kept = none ∧ s1.runOfStrip s1.me s1.myStrip.stripb = none ∧ s1.beginRun ⟨0, 0, 0, 16, 8⟩ none = .ok ⟨⟩ s2) ∧
    (∃ s u : State, u = s.modRelay 0 (fun r => { r with chain := r.chain.map fun x => { x with station := x.station + 1 } }) ∧
      (u.cluster 0).relay.recirc = [record0]) ∧
    (∃ s u : State, u = s.modRelay 0 (fun r => { r with chain := r.chain.map fun x => { x with station := x.station + 1 } }) ∧
      (u.cluster 0).relay.recirc = [] ∧ (u.cluster 0).relay.nextRun = some { run0 with next := 0, gone := [] }) ∧
    ((data.modRelay 0 id).cluster 0).relay.recirc = [] ∧ ((data.modRelay 0 id).cluster 0).relay.nextRun = none ∧
    ∃ s : State, (s.cluster 0).relay.leaving = [record0] := by
  refine ⟨by decide +kernel, ⟨_, ready_plain, by decide +kernel⟩,
    ⟨_, _, _, _, leBytes 32 oneEntry, List.replicate 32 0, ready_plain,
      by decide +kernel, ok_of_val, ok_of_val, ok_of_val,
      by decide, by decide +kernel, by decide +kernel⟩,
    ⟨_, _, _, _, List.replicate 32 0, [], ready_plain, by decide +kernel,
      ok_of_val, ok_of_val, ok_of_val, by decide⟩,
    ⟨_, _, _, _, classRec, ⟨8, none, none, List.replicate 8 (none, none)⟩,
      ready_plain, by decide +kernel, ok_of_val,
      ok_of_val, ok_of_val, by decide, by decide, by decide +kernel⟩,
    ⟨_, _, ready_plain, by decide +kernel, ok_of_val, by decide,
      by decide +kernel⟩,
    ⟨_, _, ready_plain, by decide +kernel, ok_of_val, by decide⟩,
    ⟨_, ready_plain, by decide +kernel, by decide +kernel⟩,
    ⟨mine (fun r => { r with commit := some due }) data, by decide +kernel, by decide +kernel⟩,
    ⟨_, _, _, ready_plain, by decide +kernel, ok_of_val,
      ok_of_val⟩,
    ⟨mine (fun r => { r with runs := [run0] }) (strip fun t => { t with kept := some none }), by decide +kernel,
      by decide +kernel, by decide +kernel, by decide +kernel, by decide +kernel⟩,
    ⟨after (starting.waitGate ng), _, ok_of_val, by decide +kernel, by decide +kernel, by decide +kernel,
      ok_of_val⟩,
    ⟨mine (fun r => { r with recirc := [record0] }) data, _, rfl, by decide +kernel⟩,
    ⟨mine (fun r => { r with runs := [{ run0 with next := 0, gone := [] }] }) data, _, rfl, by decide +kernel, by decide +kernel⟩,
    by decide +kernel, by decide +kernel,
    ⟨mine (fun r => { r with leaving := [record0] }) data, by decide +kernel⟩⟩

/-- A run that waits, and one with a trapped position; records that stay, recirculate and leave. -/
theorem witness_RelayRunsRecordsThroughItsChain_ends :
    (∃ s : State, s.myStrip.kept = some none ∧ s.relayMine = true ∧ s.runOfStrip s.me 0 = some { run0 with next := 0 } ∧
      s.myRelay.over { run0 with next := 0 } = false) ∧
    (∃ (s : State) (q : RelayRun), s.myStrip.kept = some none ∧ s.relayMine = true ∧ s.runOfStrip s.me 0 = some q ∧
      s.myRelay.over q = true ∧ q.trapped = some (2, 0x62, 5)) ∧
    (starting.relayMine = true ∧ (starting.modMyStrip fun t => { t with vtype := 0 }).myStrip.ewB ≠ 4) ∧
    (∃ r : Relay, r.run? 0 = none) ∧
    ∀ e ∈ [After.stays, .again, .leaves], ∃ (r : Relay) (x : RelayRec) (q : RelayRun), r.run? x.run = some q ∧
      (x.look (r.bank x.bank) ((r.bank x.bank).class q.slot)).after = e := by
  refine ⟨⟨mine (fun r => { r with runs := [{ run0 with next := 0 }] }) (strip fun t => { t with kept := some none }),
      by decide +kernel⟩,
    ⟨mine (fun r => { r with runs := [{ run0 with trapped := some (2, 0x62, 5) }] }) (strip fun t => { t with kept := some none }),
      _, by decide +kernel, by decide +kernel, rfl, by decide +kernel, rfl⟩, by decide +kernel,
    ⟨data.myRelay, by decide +kernel⟩, fun e he => ?_⟩
  simp only [List.mem_cons, List.not_mem_nil, or_false] at he
  rcases he with rfl | rfl | rfl
  · exact ⟨(mine (fun r => { r with runs := [run0] }) data).myRelay, record0, run0, by decide +kernel, by decide +kernel⟩
  · exact ⟨(mine (fun r => { r.modBank false (fun b => { b with
        stations := Vector.replicate 8 ⟨1, [], 10 * 2 ^ 60⟩, classes := [(0, ⟨8, none, none, List.replicate 8 (some 0, none)⟩)] }) with
          runs := [run0] }) data).myRelay, record0, run0, by decide +kernel, by decide +kernel⟩
  · exact ⟨(mine (fun r => { r with runs := [run0] }) data).myRelay, { record0 with station := 7 }, run0, by decide +kernel,
      by decide +kernel⟩

/-- Context 0 with tensor registers at 0x80000000, MT and NT 1. -/
def lortar : State := withS data [(12, 0x80000000), (2, 0x80040000), (20, 1), (21, 1), (4, 3), (5, 4), (6, 0x80020000)]
/-- The same with MT 0: an operation of no elements, whose choices decide nothing. -/
def empty : State := lortar.modCtx 0 fun x => x.setSreg 20 0
/-- Form S without barriers, over k1 and k2 to k3. -/
def ls (imm : BitVec 30) : LFormS := ⟨⟨0, 0, 0⟩, 3, 1, 2, imm⟩
/-- Form X on f32. -/
def lx (fmt : BitVec 5) : LFormX := ⟨⟨0, 0, 0⟩, 1, 2, 3, 1, 2, fmt, 0, 0, 0, 0, 0, 0⟩
/-- An acquiring load of f32 into X1. -/
def ld1 : LFormX := { lx 8 with xa := 0, xb := 0, ka := 3, kb := 0, ord := 1, scp := 4 }
/-- An image with one kernel of four words, and its job once the kernel is published at 0x1000. -/
def kernelImage : Image := ⟨[⟨3, 0, 32⟩], [⟨0, 0, BitVec.allOnes 64, 0, 0, [], false⟩], [], 0, 0, [], []⟩
def kernelJob : Job := { placedJob with image := some kernelImage, translations := [⟨0, 0x1000, 0x1000, true, 0⟩] }
/-- Context 0 at its second word. -/
def kernel : State :=
  let s := lortar
  { s with jobs := [kernelJob], cur := { s.cur with pc := 0x1080, next := 0x10C0 } }

theorem witness_LortarWordsRun :
    (∃ s1 s2 s3 s4 s5 t : State, Ready (.kadd (ls 0)) lortar s1 ∧ s1.lbegin ⟨0, 0, 0⟩ false = .ok ⟨⟩ s2 ∧ s2.rdS (kReg 1) = .ok 3 s3 ∧
      s3.rdS (kReg 2) = .ok 4 s4 ∧ s4.dstReady (kReg 3) = .ok ⟨⟩ s5 ∧
      (s5.setS (kReg 3) 7).lsignal ⟨0, 0, 0⟩ = .ok ⟨⟩ t) ∧
    (∃ s1 s2 s3 s4 s5 t : State, Ready (.kblt { ls 1 with kd := 0 }) kernel s1 ∧ s1.lbegin ⟨0, 0, 0⟩ false = .ok ⟨⟩ s2 ∧ s2.rdS (kReg 1) = .ok 3 s3 ∧
      s3.rdS (kReg 2) = .ok 4 s4 ∧ s4.lbranch 1 = .ok ⟨⟩ s5 ∧ s5.lsignal ⟨0, 0, 0⟩ = .ok ⟨⟩ t) ∧
    (∃ (j : Job) (r : Translation) (g : Image) (k : Kernel), kernel.runAt 0 kernel.cur.pc.toNat = some (j, r) ∧
      j.image = some g ∧ g.kernels[r.kidx]? = some k ∧ g.words k = 4 ∧
      ((kernel.cur.pc.toNat - r.base) / 64 : Nat) - 1 + (2#30).toInt < (4 : Int) ∧
      (4 : Int) ≤ ((kernel.cur.pc.toNat - r.base) / 64 : Nat) - 1 + (3#30).toInt) ∧
    (∃ s1 s2 s3 s4 s5 s6 t : State, Ready (.lshape { ls 8 with imm := 8 + 4 * 32 }) lortar s1 ∧ s1.lbegin ⟨0, 0, 0⟩ false = .ok ⟨⟩ s2 ∧
      s2.rdS (kReg 1) = .ok 3 s3 ∧ s3.rdS (kReg 2) = .ok 4 s4 ∧
      (s4.modCtx s4.me fun x => (x.setSreg 20 3).setSreg 21 4).dstReady (kReg 3) = .ok ⟨⟩ s5 ∧
      (s5.setS (kReg 3) 3).dstReady (kReg 4) = .ok ⟨⟩ s6 ∧ (s6.setS (kReg 4) 4).lsignal ⟨0, 0, 0⟩ = .ok ⟨⟩ t) ∧
    (∃ s1 s2 t : State, Ready (.lwait { ls 0 with bar := ⟨255, 0, 0⟩, kd := 0, ka := 0, kb := 0 }) lortar s1 ∧
      s1.lbegin ⟨255, 0, 0⟩ false = .ok ⟨⟩ s2 ∧ s2.lsignal ⟨255, 0, 0⟩ = .ok ⟨⟩ t) ∧
    (∃ s1 s2 s3 s4 : State, Ready (.lfence ⟨⟨0, 0, 0⟩, 0, 0, 0, 0, 0, 0, 0, 0, 0, 4, 0, 0⟩) lortar s1 ∧ s1.lbegin ⟨0, 0, 0⟩ false = .ok ⟨⟩ s2 ∧
      s2.waitAll = .ok ⟨⟩ s3 ∧ s3.vsyncs = .ok ⟨⟩ s4 ∧ s4.myCtx.imprecise = []) ∧
    (∃ s1 s2 s3 s4 : State, Ready (.xbcast { lx 8 with xa := 0, xb := 0, kb := 0 }) lortar s1 ∧ s1.lbegin ⟨0, 0, 0⟩ false = .ok ⟨⟩ s2 ∧
      s2.rdS (kReg 1) = .ok 3 s3 ∧
      s3.lmap { lx 8 with xa := 0, xb := 0, kb := 0 } (fun _ _ s => .ok (3 % 2 ^ fmtBits 8, 0) s) = .ok ⟨⟩ s4) ∧
    (∃ s1 s2 s3 : State, Ready (.xadd { lx 8 with ka := 0, kb := 0 }) lortar s1 ∧ s1.lbegin ⟨0, 0, 0⟩ false = .ok ⟨⟩ s2 ∧
      s2.lmap { lx 8 with ka := 0, kb := 0 } (fun i j s => (s.xRead 2 4 i j).bind fun a s => (s.xRead 3 4 i j).bind fun b s =>
        .ok (farith .add 8 (rmOf 0) false a b 0) s) = .ok ⟨⟩ s3) ∧
    (∃ s1 s2 : State, Ready (.xcvt { lx 8 with xb := 0, ka := 9, kb := 0 }) lortar s1 ∧ s1.lbegin ⟨0, 0, 0⟩ false = .ok ⟨⟩ s2 ∧
      convertible 8 9 = true) ∧
    (∃ s1 s2 s3 s4 s5 t : State, Ready (.xld ld1) lortar s1 ∧
      s1.lbegin ⟨0, 0, 0⟩ true = .ok ⟨⟩ s2 ∧ s2.rdS (kReg 3) = .ok 0x80020000 s3 ∧ s3.rdS (kReg 0) = .ok 0 s4 ∧
      s4.ordBefore 1 = .ok ⟨⟩ s5 ∧ s5.lasync 0 ld1 0x80020000 0 = .ok ⟨⟩ t) ∧
    (∃ s1 s2 s3 t : State, Ready (.xmma { lx 9 with kb := 0 }) (empty.modCtx 0 granted) s1 ∧
      s1.lbegin ⟨0, 0, 0⟩ true = .ok ⟨⟩ s2 ∧ s2.tileScratched.rdS (kReg 1) = .ok 3 s3 ∧ s3.myCtx.revoked = false ∧
      s3.myCtx.rowsGranted ≠ 0 ∧ s3.lasync 2 { lx 9 with kb := 0 } 0 3 = .ok ⟨⟩ t) ∧
    (∃ s1 s2 s3 : State, Ready (.xmma { lx 9 with kb := 0 }) lortar s1 ∧ s1.lbegin ⟨0, 0, 0⟩ true = .ok ⟨⟩ s2 ∧
      s2.tileScratched.rdS (kReg 1) = .ok 3 s3 ∧ s3.myCtx.revoked = false ∧ s3.myCtx.rowsGranted = 0) ∧
    (∃ s1 s2 s3 : State, Ready (.xmma { lx 9 with kb := 0 }) (lortar.modCtx 0 fun x => { x with revoked := true }) s1 ∧
      s1.lbegin ⟨0, 0, 0⟩ true = .ok ⟨⟩ s2 ∧ s2.tileScratched.rdS (kReg 1) = .ok 3 s3 ∧ s3.myCtx.revoked = true) ∧
    ∃ s1 s2 s3 s4 t : State, Ready (.kend ⟨⟨0, 0, 0⟩, 0, 0, 0, 0⟩) lortar s1 ∧ s1.lbegin ⟨0, 0, 0⟩ false = .ok ⟨⟩ s2 ∧ s2.waitAll = .ok ⟨⟩ s3 ∧
      s3.vsyncs = .ok ⟨⟩ s4 ∧ s4.lortarExit = .ok ⟨⟩ t := by
  refine ⟨⟨_, _, _, _, _, _, ready_plain, ok_of_val,
      ok_of_val, ok_of_val, ok_of_val, ok_of_val⟩,
    ⟨_, _, _, _, _, _, ready_plain, ok_of_val,
      ok_of_val, ok_of_val, ok_of_val, ok_of_val⟩,
    ⟨kernelJob, ⟨0, 0x1000, 0x1000, true, 0⟩, kernelImage, _, by decide +kernel, rfl, rfl, by decide, by decide +kernel,
      by decide +kernel⟩,
    ⟨_, _, _, _, _, _, _, ready_plain, ok_of_val,
      ok_of_val, ok_of_val, ok_of_val, ok_of_val,
      ok_of_val⟩,
    ⟨_, _, _, ready_plain, ok_of_val,
      ok_of_val⟩,
    ⟨_, _, _, _, ready_plain, ok_of_val,
      ok_of_val, ok_of_val, by decide +kernel⟩,
    ⟨_, _, _, _, ready_plain, ok_of_val,
      ok_of_val, ok_of_val⟩,
    ⟨_, _, _, ready_plain, ok_of_val, ok_of_val⟩,
    ⟨_, _, ready_plain, ok_of_val, by decide⟩,
    ⟨_, _, _, _, _, _, ready_plain, ok_of_val, ok_of_val, ok_of_val, ok_of_val, ok_of_val⟩,
    ⟨_, _, _, _, ready_plain, ok_of_val, ok_of_val, by decide +kernel, by decide +kernel, ok_of_val⟩,
    ⟨_, _, _, ready_plain, ok_of_val, ok_of_val, by decide +kernel, by decide +kernel⟩,
    ⟨_, _, _, ready_plain, ok_of_val, ok_of_val, by decide +kernel⟩,
    ⟨_, _, _, _, _, ready_plain, ok_of_val, ok_of_val, ok_of_val, ok_of_val⟩⟩

/-- An operation of one element at 0x80020000 whose slot is 7: a load (0) or a store (1) of an order. -/
def op1 (kind : Nat) (ord : BitVec 2) : LOp :=
  ⟨1, kind, { ld1 with ord := ord }, 0x80020000, 0, 1, 1, 0, 7, 1, 0, [(0, 0)], []⟩

/-- Elements of an operation that act at issue and later, one that raises a cause, and an operation that ends. -/
theorem witness_LortarWordsRun_async :
    (∃ (q q' : LOp) (s1 s2 s3 : State), lortar.lopAt 0 ld1 0x80020000 0 = (q, s1) ∧
      State.lopIssue q.rest q s1 = .ok q' s2 ∧ s2.countOp q'.slot = .ok 1 s3) ∧
    (∃ t : State, (op1 0 1).early (0, 0) = true ∧ lortar.lopOne (op1 0 1) (0, 0) = .ok ⟨⟩ t) ∧
    (∃ t : State, (op1 1 2).early (0, 0) = false ∧ lortar.lopCheck (op1 1 2) (0, 0) = .ok ⟨⟩ t) ∧
    (∃ t u : State, { op1 0 1 with base := 0x200000000000 }.early (0, 0) = true ∧
      lortar.lopOne { op1 0 1 with base := 0x200000000000 } (0, 0) = .trap 0x20 0x200000000000 t ∧
      State.lopRun { op1 0 1 with base := 0x200000000000 } [] t = .ok ⟨⟩ u) ∧
    (∃ (s t : State) (q : LOp), (s.ctx 0).lops.find? (·.id == 1) = some q ∧ slotState (s.slot 0) = 1 ∧ q.num ≠ 0 ∧
      q.form.ord = 2 ∧ (∀ p ∈ (s.ctx 0).lops, q.id ≤ p.id) ∧
      State.lopRun q q.todo { s with cur := q.latch 0 } = .ok ⟨⟩ t) ∧
    (∃ (s t : State) (q : LOp), (s.ctx 0).lops.find? (·.id == 1) = some q ∧ q.form.ord ≠ 2 ∧
      State.lopRun q q.todo { s with cur := q.latch 0 } = .trap 0x20 0x200000000000 t) ∧
    ((lortar.modCtx 0 fun x => { x with lrow := 1 }).myCtx.lrow = 1 ∧ lortar.myCtx.lrow = 0) ∧
    ∃ s t : State, s.lwaits 0 = .ok ⟨⟩ t ∧ barTl ⟨0, 1, 0⟩ false = some 8 ∧ 2 ^ 64 ≤ (t.myCtx.timeline 8).p + 1 := by
  refine ⟨⟨_, { (lortar.lopAt 0 ld1 0x80020000 0).1 with rest := [] }, _, _, _, Prod.mk.eta.symm, ok_of_val, ok_of_val⟩, ⟨_, by decide, ok_of_val⟩, ⟨_, by decide, ok_of_val⟩,
    ⟨_, _, by decide, trap_of_cause (by decide +kernel), ok_of_val⟩,
    ⟨lortar.modCtx 0 fun x => { x with lops := [op1 1 2] }, _, _, rfl, by decide +kernel, by decide, by decide,
      by decide +kernel, ok_of_val⟩,
    ⟨lortar.modCtx 0 fun x => { x with lops := [{ op1 0 0 with base := 0x200000000000 }] }, _, _, rfl, by decide,
      trap_of_cause (by decide +kernel)⟩, by decide +kernel, ⟨lortar.modCtx 0 fun x => x.modTl 8 fun t => { t with p := 2 ^ 64 - 1 }, _,
      ok_of_val, by decide, by decide +kernel⟩⟩

/-- R334, R359: results of the rules' rows. -/
theorem test_ksub_wraps : (nextOr base (exec (.ksub (ls 0)) lortar)).myCtx.sreg (kReg 3) = -1 := by decide +kernel
theorem test_rstat_reads_zero_above_23 :
    (nextOr base (exec (.rstat ng ⟨6, 1⟩) (mine id (withS data [(6, 24), (1, 5)])))).myCtx.sreg 1 = 0 := by decide +kernel

/-! The hypotheses of the statements about slots, Stewards, pages, services and the control program are met. -/

/-- Context 0's slot with another STATE. -/
def slotIn (state : Nat) (s : State) : State := { s with bind := [(0, 0x10000#512 <<< 128 ||| BitVec.ofNat 512 (2 * state))] }

/-- Context 0 is saved at 0x80001000, its handler having written a DISP. -/
def handled (disp : Nat) : State :=
  { launched (.bound 0) with
    bind := [(0, 0x10000#512 <<< 128 ||| 0x1000020#512 <<< 27 ||| 4)], mem := Memory.writeN data.mem 0x100001003 1 disp }

theorem witness_SlotsGoStopAndResume :
    slotState (data.slot 0) = 1 ∧
    (slotState ((slotIn 3 (launched .cancelled)).slot 0) ≠ 1 ∧ (slotIn 3 (launched .cancelled)).slotEnded 0 = true) ∧
    (slotState ((slotIn 2 (launched (.saved 0))).slot 0) = 2 ∧ (slotIn 2 (launched (.saved 0))).slotEnded 0 = false) ∧
    (slotState ((slotIn 0 (launched (.waiting 0))).slot 0) = 0 ∧ (slotIn 0 (launched (.waiting 0))).slotEnded 0 = false) ∧
    (slotState ((slotIn 3 data).slot 0) = 3 ∧ (slotIn 3 data).slotEnded 0 = false) ∧
    (slotState ((slotIn 2 (launched (.saved 0))).slot 0) = 2 ∧ (slotIn 2 (launched (.saved 0))).movedOn 0 = true) ∧
    (slotState ((slotIn 2 (launched (.bound 0))).slot 0) = 2 ∧ (slotIn 2 (launched (.bound 0))).movedOn 0 = false ∧
      (slotIn 2 (launched (.bound 0))).disp 0 = 0) ∧
    (∃ s : State, slotState (s.slot 0) = 2 ∧ s.movedOn 0 = false ∧ s.disp 0 = 2) ∧
    ∃ s : State, slotState (s.slot 0) = 2 ∧ s.movedOn 0 = false ∧ s.disp 0 = 1 ∧
      s.unitOf 0 = some (launch0 (.bound 0), unit0 (.bound 0)) := by
  refine ⟨?_, ?_, ?_, ?_, ?_, ?_, ?_, ⟨handled 2, ?_⟩, ⟨handled 1, ?_⟩⟩ <;> decide +kernel

/-- An instruction of context 0 waits for a peer's answer. -/
theorem witness_SlotsGoStopAndResume_inExecution :
    ({ data with requests := [⟨4, ⟨0, .ctl⟩, 0x01, 7 * 2 ^ 48, rowLine (7 * 2 ^ 48), 7, some (0x02, noMsg), false, []⟩] } : State).inExecution 0 =
      true ∧ data.inExecution 0 = false ∧
    (data.partyLives ⟨0, .strip 0⟩ = false ∧ slotState ((slotIn 2 data).slot 0) = 2 ∧
      (slotIn 2 data).partyLives ⟨0, .ctl⟩ = false) ∧ data.unitOf 0 = none ∧ (launched (.bound 0)).unitOf 0 ≠ none := by
  refine ⟨?_, ?_, ?_, ?_, ?_⟩ <;> decide +kernel

/-- A launch of which one edge names launch 0 as its predecessor. -/
def follower (streaming sat : Bool) : Launch :=
  { launch0 (.waiting 0) with lidx := 1, edges := [⟨0, streaming, [], 0x80001000, sat⟩] }
/-- Launch 0 has ended and its follower waits. -/
def ended (st : CStatus) (streaming : Bool) : State :=
  { data with launches := [{ launch0 .complete with ended := some st }, follower streaming false] }
/-- A job with a wish for the partitioned mode on die 0. -/
def wishing (s : State) : State := { s with jobs := s.jobs.map fun j => { j with partitioned := true, wishDies := 1 } }

theorem witness_StewardsBindAndQuantaEnd :
    ((launch0 (.waiting 0)).lidx < 2 ^ 32 ∧ (unit0 (.waiting 0)).no < 2 ^ 12 ∧ (launch0 (.waiting 0)).prio < 8 ∧
      (launch0 (.waiting 0)).splen < 256) ∧
    data.waitingOn 0 = [] ∧
    (∃ s : State, s.waitingOn 0 = [(launch0 (.waiting 0), unit0 (.waiting 0))] ∧
      s.modeAsked 0 [(launch0 (.waiting 0), unit0 (.waiting 0))] = none ∧
      s.plan [(launch0 (.waiting 0), unit0 (.waiting 0))] [] = some [(launch0 (.waiting 0), unit0 (.waiting 0), 1)]) ∧
    (∃ s : State, s.waitingOn 0 = [(launch0 (.waiting 0), unit0 (.waiting 0))] ∧
      s.modeAsked 0 [(launch0 (.waiting 0), unit0 (.waiting 0))] = some true) ∧
    (∃ s : State, s.waitingOn 0 = [(launch0 (.waiting 0), unit0 (.waiting 0))] ∧
      s.modeAsked 0 [(launch0 (.waiting 0), unit0 (.waiting 0))] = none ∧
      s.plan [(launch0 (.waiting 0), unit0 (.waiting 0))] [] = none) ∧
    (∃ s : State, s.unitOf 0 = some (launch0 (.bound 0), unit0 (.bound 0)) ∧ slotState (s.slot 0) = 1 ∧
      (launch0 (.bound 0)).gang = false ∧ s.modeAsked 0 (s.waitingOn 0) = none ∧ s.freeOn 0 ≠ []) ∧
    (data.dieBusy 0 = true ∧ State.reset.dieBusy 0 = false) ∧
    (∀ b, ∃ s : State, s.launch 0 1 = some (follower b false) ∧ (follower b false).edges[0]?.isSome = true ∧
      ((s.launch 0 0).bind fun p => p.ended) = some .complete ∧ s.jobAt 0 = some placedJob) ∧
    (∃ s : State, ((s.launch 0 0).bind fun p => p.ended) = some .cancelled) ∧
    ((ended .complete true).storeMark 0 0x80001000 (BitVec.allOnes 64)).isSome = true ∧
    (ended .complete true).storeMark 0 0x200000000000 (BitVec.allOnes 64) = none := by
  refine ⟨by decide, by decide +kernel, ⟨launched (.waiting 0), by decide +kernel, by decide +kernel, by decide +kernel⟩,
    ⟨wishing (launched (.waiting 0)), by decide +kernel, by decide +kernel⟩,
    ⟨{ launched (.waiting 0) with bind := (List.range 256).map fun c => (c, 2) }, by decide +kernel, by decide +kernel,
      by decide +kernel⟩,
    ⟨launched (.bound 0), by decide +kernel⟩, by decide +kernel, fun b => ⟨ended .complete b, by cases b <;> decide +kernel⟩,
    ⟨ended .cancelled false, by decide +kernel⟩, by decide +kernel, by decide +kernel⟩

/-- The page of the data, unmapped or with another place. -/
theorem witness_PagesChangeInTheirOrder :
    data.jobAt 0 = some placedJob ∧
    (∃ a lo e, data.entryAt 0x80001000 placedJob.root walkLevels = some (a, lo, e) ∧ bit e 63 = true ∧
      takesFrames e 0 = true ∧ takesFrames e (leafOf 0x100000000 0) = false ∧ data.pageBusy 0 0x80000000 0x100000000 = false) ∧
    (∃ s : State, s.pageBusy 0 0x80000000 0x100000000 = true) ∧
    (∃ a lo e, data.entryAt 0x100000000 placedJob.root walkLevels = some (a, lo, e) ∧ bit e 63 = false) ∧
    ((data.setEntry 0x1000 0).owns 0x100000000 = true ∧ data.owns 0x180000000 = true) ∧
    ∃ s : State, s.partyWait ⟨0, .ctl⟩ = some (.migration 0x80001000) ∧ s.jobOf 0 = some placedJob ∧
      walkFrom s (0x80001000#64).toNat placedJob.root walkLevels ≠ .mig := by
  refine ⟨by decide +kernel, ⟨12296, 31, 2 ^ 63 + 2 ^ 62 + 0x100000000 + attrW, by decide +kernel, by decide, by decide,
      by decide, by decide +kernel⟩, ⟨copying (.copy 0x80002000 0x80001000 8) data, by decide +kernel⟩,
    ⟨12304, 31, 0, by decide +kernel, by decide⟩, by decide +kernel,
    ⟨ctl fun x => { x with wait := some (.migration 0x80001000) }, by decide +kernel, by decide +kernel, by decide +kernel⟩⟩

/-- Context 0 with its save area at 0x80000000 and poison in s5. -/
def poisonedS5 : State :=
  State.modCtx { data with bind := aset data.bind 0 (data.slot 0 ||| (0x1000000#512 <<< 27)) } 0
    fun x => { x.setSreg 5 7 with spoison := 32 }

/-- R440: a save marks the line of a poisoned register in the save area and sets header bit POISON; a restore brings it back. -/
theorem test_poison_saved :
    (poisonedS5.preempt 0).poison = [0x100000100] ∧
    (((poisonedS5.preempt 0).restored 0x10000 0x80000000).map fun (x : Ctx) => (x.spoison, x.sreg 5)) =
      (some (32, 7) : Option (BitVec 64 × Word)) := by decide +kernel

/-- R225: the pass that a breakpoint gives is for its party and its address. -/
theorem test_breakpoint_pass :
    ((base.givePass ⟨0, .ctl⟩ 0x40).passes ⟨0, .ctl⟩ 0x40, (base.givePass ⟨0, .ctl⟩ 0x40).passes ⟨0, .ctl⟩ 0x44) =
      (true, false) := by decide +kernel

/-- R18, R462: `vadd` whose SB names a poisoned word of the snapshot raises 0xA0 with nothing written; an immediate reads none. -/
theorem test_snapshot_poison :
    (strip fun t => { t with snapP := 32 }).snapPoisoned (.vadd ng { fs 1 2 with bs := 1, sb := 5 }) = true ∧
    (strip fun t => { t with snapP := 32 }).snapPoisoned (.vadd ng { fs 1 2 with bs := 1, sb := 5, im := 1 }) = false := by
  decide +kernel

/-- A request on channel 0 with an operation, for the job of context 0, and a payload. -/
def req (op : BitVec 16) (p : List Byte) : Req := ⟨0, 0x4351, 1, 0, op, 0, 9, 0x10000, BitVec.ofNat 32 p.length, 0, p⟩
/-- Channel 0 has negotiated the pair 1.0. -/
def spoken (s : State) : State := s.modChannel 0 fun c => { c with version := some (1, 0) }
/-- Two numbers as a payload of 16 bytes. -/
def two (a b : Nat) : List Byte := leBytes 8 a ++ leBytes 8 b

theorem witness_RequestsAreCheckedInOrder :
    ({ req 3 [] with magic := 0 } : Req).headerOk = false ∧ ({ req 3 [] with zero := 1 } : Req).headerOk = false ∧
    (req 3 []).headerOk = true ∧ (data.channel 0).version = none ∧ ((spoken data).channel 0).version = some (1, 0) ∧
    ((2, 0) ≠ ((1, 0) : Byte × Byte)) ∧ (req 4 []).op ≠ 3 ∧
    (Served (req 3 []) 0x03 (spoken data) ∧ (spoken data).jobById (req 3 []).jobId = some placedJob) ∧
    (Served { req 3 [] with job := 7 } 0x03 (spoken data) ∧
      (spoken data).jobById ({ req 3 [] with job := 7 } : Req).jobId = none) ∧
    (∃ s : State, Served (req 3 []) 0x03 s ∧ ∃ j q, s.jobById (req 3 []).jobId = some j ∧ j.ckpt = some q) ∧
    ((req 1 [1, 1, 0, 0, 0, 0, 0, 0]).payload.length = 8 ∧ (req 1 [1, 1, 0, 0, 0, 0, 0, 0]).nat 3 5 = 0 ∧
      (req 1 [1, 1, 0, 0, 0, 0, 0, 0]).nat 0 1 ≤ 1 ∧ 1 ≤ (req 1 [1, 1, 0, 0, 0, 0, 0, 0]).nat 1 1) ∧
    (1 < (req 1 [2, 3, 0, 0, 0, 0, 0, 0]).nat 0 1 ∧
      (req 1 [2, 3, 0, 0, 0, 0, 0, 0]).nat 0 1 ≤ (req 1 [2, 3, 0, 0, 0, 0, 0, 0]).nat 1 1) := by
  refine ⟨by decide, by decide, by decide, by decide +kernel, by decide +kernel, by decide, by decide,
    ⟨⟨by decide, by decide +kernel, rfl⟩, by decide +kernel⟩, ⟨⟨by decide, by decide +kernel, rfl⟩, by decide +kernel⟩,
    ⟨{ spoken data with jobs := [{ placedJob with ckpt := some (req 0x50 []) }] }, ⟨by decide, by decide +kernel, rfl⟩,
      { placedJob with ckpt := some (req 0x50 []) }, _, by decide +kernel, rfl⟩, by decide, by decide⟩

/-- The job of context 0 with a change. -/
def jobbed (f : Job → Job) : State := { spoken data with jobs := [f placedJob] }
theorem served_on {r : Req} {op : BitVec 16} {j : Job} {s : State} (h : r.headerOk = true := by decide +kernel)
    (hv : (s.channel r.chan).version = some (r.vmaj, r.vmin) := by decide +kernel) (ho : r.op = op := by rfl)
    (hj : s.jobById r.jobId = some j := by decide +kernel) (hc : j.ckpt = none := by rfl) : ServedOn r op j s := ⟨⟨h, hv, ho⟩, hj, hc⟩
/-- An image with no kernel. -/
def bare : Image := ⟨[], [], [], 0, 0x2000, [], []⟩
/-- A running control program. -/
def running (f : ControlProgram → ControlProgram) : State := jobbed fun j => { j with cp := some (f (ControlProgram.fresh 0x80001000)) }

theorem witness_JobsAreMadeLaunchedAndEnded :
    (Served (req 2 (two 0 0)) 0x02 (spoken data) ∧ (req 2 (two 0 0)).payload.length = 16 ∧ (2 ^ 28) % 2 ^ 21 = 0 ∧
      wishesOk ((req 2 (two 0 0)).nat 8 8) = true ∧ (spoken data).freeSlot = some 1 ∧ 2 ^ 28 + 2 ^ 22 ≤ (spoken data).room) ∧
    wishesOk ((req 2 (two 0 2)).nat 8 8) = false ∧
    ServedOn (req 3 []) 0x03 placedJob (spoken data) ∧
    (ServedOn (req 0x10 (two 0 0)) 0x10 placedJob (spoken data) ∧ (spoken data).mayLoad placedJob = true ∧
      bufferBytes (fillBuffer placedJob.buffer ((req 0x10 (two 0 0)).nat 0 8) ((req 0x10 (two 0 0)).payload.drop 8)) 64 =
        none) ∧
    (∃ (s : State) (j : Job), ServedOn (req 0x10 (two 0 0)) 0x10 j s ∧ s.mayLoad j = false) ∧
    (∃ (buf : List (Nat × Byte)) (h : List Byte), buf = fillBuffer [] 0 (leBytes 64 (65 * 2 ^ 192)) ∧
      bufferBytes buf 64 = some h ∧ natAt h 24 8 = 65 ∧ buf.length < 65) ∧
    (∃ (buf : List (Nat × Byte)) (h : List Byte), buf = fillBuffer [] 0 (leBytes 64 (64 * 2 ^ 192)) ∧
      bufferBytes buf 64 = some h ∧ natAt h 24 8 = 64 ∧ buf.length = 64) ∧
    (ServedOn (req 0x11 []) 0x11 placedJob (spoken data) ∧ placedJob.image = none) ∧
    (∃ (s : State) (j : Job), ServedOn (req 0x11 []) 0x11 j s ∧ j.image = some bare ∧ j.cp = none) ∧
    (ServedOn (req 0x20 (List.replicate 128 0)) 0x20 placedJob (spoken data) ∧
      (spoken data).accept placedJob (List.replicate 128 0) = (4, 0, spoken data)) ∧
    (∃ s : State, Served (req 0x21 (bytes8 (handle 6 0 0 0 0))) 0x21 s ∧
      s.jobCounter 0 (handle 6 0 0 0 0) = some ⟨handle 6 0 0 0 0, 3, .running, false⟩) ∧
    (∃ s : State, Served (req 0x21 (bytes8 (handle 6 0 0 0 0))) 0x21 s ∧
      s.jobCounter 0 (handle 6 0 0 0 0) = some ⟨handle 6 0 0 0 0, 3, .cancelled, false⟩) ∧
    (spoken data).jobCounter 0 0 = none := by
  refine ⟨⟨⟨by decide, by decide +kernel, rfl⟩, by decide, by decide, by decide, by decide +kernel, by decide +kernel⟩, by decide,
    served_on,
    ⟨served_on, by decide +kernel, by decide +kernel⟩,
    ⟨jobbed fun j => { j with cp := some (ControlProgram.fresh 0) }, { placedJob with cp := some (ControlProgram.fresh 0) },
      served_on, by decide +kernel⟩,
    ⟨_, leBytes 64 (65 * 2 ^ 192), rfl, by decide +kernel, by decide +kernel, by decide +kernel⟩,
    ⟨_, leBytes 64 (64 * 2 ^ 192), rfl, by decide +kernel, by decide +kernel, by decide +kernel⟩,
    ⟨served_on, rfl⟩,
    ⟨jobbed fun j => { j with image := some bare }, { placedJob with image := some bare },
      served_on, rfl, rfl⟩,
    ⟨served_on, by rfl⟩,
    ⟨spoken (synced 2 .running), ⟨by decide, by decide +kernel, rfl⟩, by decide +kernel⟩,
    ⟨spoken (synced 2 .cancelled), ⟨by decide, by decide +kernel, rfl⟩, by decide +kernel⟩, by decide +kernel⟩

/-- The job of context 0 is being saved. -/
def saving : State := jobbed fun j => { j with ckpt := some (req 0x50 (two 0 0)) }
/-- The save has been taken up and waits. -/
def held50 : State := { jobbed id with heldBack := [.checkpointSave (req 0x50 (two 0 0))] }
/-- The data's page is per-context capable. -/
def capable : State := spoken (base.mapAt 4 0x1000 0x80000000 (leafOf 0x100000000 (attrW + 32)) walkLevels)

theorem witness_ServicesAnswer :
    (ServedOn (req 0x30 (two 0x80001000 65536)) 0x30 placedJob (spoken data) ∧
      (spoken data).rangeOk placedJob false 0x80001000 65536 = true) ∧
    (spoken data).rangeOk placedJob false 0x200000000000 1 = false ∧
    (ServedOn (req 0x31 (leBytes 8 0x80001000 ++ [7])) 0x31 placedJob (spoken data) ∧
      (spoken data).rangeOk placedJob true 0x80001000 1 = true) ∧
    (ServedOn (req 0x40 (two 0 0x80001000)) 0x40 placedJob capable ∧ 0x80001000 < Config.spWindow ∧
      capable.boundTo 0 placedJob = true ∧ placedJob.inHeap 0x80001000 = false ∧
      walkFrom capable 0x80001000 placedJob.root walkLevels = .leaf (2 ^ 63 + 2 ^ 62 + 0x100000000 + attrW + 32) 31 ∧
      bit (2 ^ 63 + 2 ^ 62 + 0x100000000 + attrW + 32) 5 = true ∧
      (capable.owner (capable.ownerNo 0)).slotAt 0x80001000 = none ∧ (capable.owner (capable.ownerNo 0)).slots.length < 8 ∧
      2 ^ 32 ≤ capable.room) ∧
    (walkFrom (spoken data) 0x80001000 placedJob.root walkLevels = .leaf (2 ^ 63 + 2 ^ 62 + 0x100000000 + attrW) 31 ∧
      bit (2 ^ 63 + 2 ^ 62 + 0x100000000 + attrW) 5 = false) ∧
    (∃ s : State, ServedOn (req 0x41 (two 0 0x80001000)) 0x41 placedJob s ∧ s.boundTo 0 placedJob = true ∧
      (s.owner (s.ownerNo 0)).slotAt 0x80001000 = some ⟨0x80000000, 31, 0⟩) ∧
    (ServedOn (req 0x50 (two 0 0)) 0x50 placedJob (spoken data) ∧ (req 0x50 (two 0 0)).nat 15 1 = 0 ∧
      (spoken data).jobCancelled placedJob = false ∧
      (spoken data).heldBack.contains (.checkpointSave (req 0x50 (two 0 0))) = false) ∧
    (∃ s : State, ServedOn (req 0x50 (two 0 0)) 0x50 placedJob s ∧ s.jobCancelled placedJob = true ∧
      s.heldBack.contains (.checkpointSave (req 0x50 (two 0 0))) = false) ∧
    (ServedOn (req 0x50 (two 0 (2 ^ 56))) 0x50 placedJob (spoken data) ∧ (req 0x50 (two 0 (2 ^ 56))).nat 15 1 = 1) ∧
    (Served (req 0x50 (two 0 0)) 0x50 held50 ∧ held50.heldBack.contains (.checkpointSave (req 0x50 (two 0 0))) = true ∧
      held50.jobById (req 0x50 (two 0 0)).jobId = some placedJob) ∧
    (∃ (j : Job) (r : Req), saving.jobAt 0 = some j ∧ j.ckpt = some r ∧
      saving.heldBack.contains (.checkpointSave r) = false) ∧
    Served (req 0x60 []) 0x60 (spoken data) ∧ Served (req 0x71 []) 0x71 (spoken data) ∧
    Served { req 0x70 (List.replicate 32 0) with job := 0 } 0x70 (spoken data) ∧
    ServedOn (req 0x70 (List.replicate 32 0)) 0x70 placedJob (spoken data) ∧
    (Served (req 0x80 [7, 1, 0, 0, 0, 0, 0, 0]) 0x80 (spoken data) ∧ (req 0x80 [7, 1, 0, 0, 0, 0, 0, 0]).nat 0 1 ≤ 7 ∧
      (req 0x80 [7, 1, 0, 0, 0, 0, 0, 0]).nat 1 7 ≤ 1) := by
  refine ⟨⟨served_on, by decide +kernel⟩, by decide +kernel,
    ⟨served_on, by decide +kernel⟩,
    ⟨served_on, by decide, by decide +kernel, by decide,
      by decide +kernel, by decide, by decide +kernel, by decide +kernel, by decide +kernel⟩,
    ⟨by decide +kernel, by decide⟩,
    ⟨(spoken data).modCtx 0 fun x => { x with slots := [⟨0x80000000, 31, 0⟩] },
      served_on, by decide +kernel, by decide +kernel⟩,
    ⟨served_on, by decide, by decide +kernel, by decide +kernel⟩,
    ⟨{ spoken data with counters := [⟨handle 5 0 0 0 0, 2, .cancelled, false⟩] },
      served_on, by decide +kernel, by decide +kernel⟩,
    ⟨served_on, by decide⟩,
    ⟨⟨by decide, by decide +kernel, rfl⟩, by decide +kernel, by decide +kernel⟩,
    ⟨{ placedJob with ckpt := some (req 0x50 (two 0 0)) }, _, by decide +kernel, rfl, by decide +kernel⟩, ⟨by decide, by decide +kernel, rfl⟩, ⟨by decide, by decide +kernel, rfl⟩,
    ⟨by decide, by decide +kernel, rfl⟩, served_on,
    ⟨by decide, by decide +kernel, rfl⟩, by decide, by decide⟩

/-- The control program of the job in slot 0 in a call with arguments a0 to a3. -/
def calling (s : State) (f : Job → Job) (a : List Word) : State :=
  let x := ((List.range 4).zip a).foldl (fun (x : Vector Word 32) p => x.setIfInBounds (10 + p.1) p.2) (Vector.replicate 32 0)
  { s with jobs := s.jobs.map fun j => f { j with cp := some { ControlProgram.fresh 0 with calling := true, x := x } } }
/-- Context 0 in a call: its record at 0x80001000 has cause 0xE0, and its s4 holds v. -/
def nativeCall (v : Nat) : State :=
  { data with
    bind := [(0, 0x10000#512 <<< 128 ||| 0x1000020#512 <<< 27 ||| 4)]
    mem := Memory.writeN (Memory.writeN data.mem 0x100001000 1 0xE0) 0x100001120 8 v }
/-- An image whose table at 0x3000 has one entry, of a native kernel. -/
def native : Image := ⟨[⟨6, 0x3000, 16⟩, ⟨4, 0x4000, 64⟩], [⟨0, 0, 0, 0, 0, [], true⟩], [0], 0, 0, [], []⟩
/-- The bytes of a group of two members, or of a window record, at 0x80001000. -/
def listed (bs : List Byte) : State := at4K bs.length (natAt bs 0 bs.length) data

theorem witness_SystemCallsAnswer :
    data.callerJob (.native 0) = none ∧ data.callerJob (.control 0) = none ∧
    (∃ j, (nativeCall 7).callerJob (.native 0) = some j ∧ (nativeCall 7).arg (.native 0) 0 = 7) ∧
    (∃ j, (calling data id [0x80001040]).callerJob (.control 0) = some j ∧
      (calling data id [0x80001040]).arg (.control 0) 0 = 0x80001040 ∧
      (calling data id [0x80001040]).rangeOk j false 0x80001040 128 = true ∧
      (calling data id [0x80001040]).accept j (((calling data id [0x80001040]).jobRead j.id 0x80001040 128).getD []) =
        (4, 0, calling data id [0x80001040])) ∧
    (∀ c, ∃ s : State, s.jobCounter 0 (s.arg (.control 0) 0) = some ⟨handle 6 0 0 0 0, 3, c, false⟩ ∧
      s.callerWithin (.control 0) (s.arg (.control 0) 0) = false) ∧
    (∃ s : State, s.jobCounter 0 (s.arg (.control 0) 0) = none) ∧
    (∃ s : State, s.callerWithin (.control 0) (s.arg (.control 0) 0) = true ∧
      (s.jobCounter 0 (s.arg (.control 0) 0)).isSome = true) ∧
    (∃ (s t : State) (j : Job), s.callerJob (.control 0) = some j ∧ s.arg (.control 0) 0 = 0x3000 ∧
      j.tableEntry 0x3000 = some 0 ∧ s.kernelEntry j.id 0 = (some 0x4000, t)) ∧
    placedJob.tableEntry 0x3000 = none ∧
    (∃ s : State, (s.arg (.control 0) 0).toNat = 15 ∧ (s.arg (.control 0) 1).toNat = 7 ∧
      (s.callerJob (.control 0)).map (fun j => afind? j.queues 15) = some none) ∧
    (∃ s : State, (s.arg (.control 0) 0).toNat = 16) ∧
    (∃ s : State, (s.arg (.control 0) 0).toNat = 15 ∧
      (s.callerJob (.control 0)).bind (fun j => afind? j.queues 15) = some ⟨7, 0, [], false⟩) ∧
    (∃ (j : Job) (ms : List (Byte × Byte × Byte × Word)) (s : State),
      s.callerJob (.control 0) = some j ∧ (s.arg (.control 0) 0).toNat = 15 ∧ (s.arg (.control 0) 1).toNat = 0x80001000 ∧
      (s.arg (.control 0) 2).toNat = 2 ∧ (s.arg (.control 0) 3).toNat = 0 ∧ s.rangeOk j false 0x80001000 32 = true ∧
      (records ((s.jobRead j.id 0x80001000 32).getD []) 16 2).mapM memberRec = some ms ∧
      ms = pair.members ∧ afind? j.groups 15 = none) ∧
    (∃ (j : Job) (s : State), s.callerJob (.control 0) = some j ∧ (s.arg (.control 0) 0).toNat = 255 ∧
      s.rangeOk j false 0x80001000 40 = true ∧ natAt ((s.jobRead j.id 0x80001000 40).getD []) 0 1 = 7 ∧
      natAt ((s.jobRead j.id 0x80001000 40).getD []) 1 7 = 0 ∧
      natAt ((s.jobRead j.id 0x80001000 40).getD []) 24 8 % 128 = 0 ∧
      natAt ((s.jobRead j.id 0x80001000 40).getD []) 32 8 = 2 ^ 47) ∧
    ∃ (j : Job) (s : State), s.callerJob (.control 0) = some j ∧ (s.arg (.control 0) 0).toNat = 0x80001000 ∧
      (s.arg (.control 0) 1).toNat = 128 ∧ (s.arg (.control 0) 2).toNat = 255 ∧
      s.rangeOk j false 0x80001000 128 = true := by
  refine ⟨?_, ?_, ⟨placedJob, ?_, ?_⟩,
    ⟨((calling data id [0x80001040]).callerJob (.control 0)).getD placedJob, ?_, ?_, ?_, ?_⟩,
    fun c => ⟨calling (synced 2 c) id [handle 6 0 0 0 0], by cases c <;> decide +kernel, by cases c <;> decide +kernel⟩,
    ⟨calling data id [0], ?_⟩,
    ⟨calling { data with counters := [⟨handle 5 0 0 0 0, 2, .running, false⟩] } id [handle 5 0 0 0 0], ?_, ?_⟩,
    ⟨calling data (fun j => { j with image := some native }) [0x3000], _,
      ((calling data (fun j => { j with image := some native }) [0x3000]).callerJob (.control 0)).getD placedJob, ?_, ?_, ?_,
      rfl⟩, ?_, ⟨calling data id [15, 7], ?_, ?_, ?_⟩, ⟨calling data id [16], ?_⟩,
    ⟨calling data (fun j => { j with queues := [(15, ⟨7, 0, [], false⟩)] }) [15], ?_, ?_⟩,
    ⟨((calling data id [15, 0x80001000, 2, 0]).callerJob (.control 0)).getD placedJob, _,
      calling (listed (List.replicate 17 0 ++ [1] ++ List.replicate 14 0)) id [15, 0x80001000, 2, 0], ?_, ?_, ?_, ?_, ?_, ?_,
      ?_, rfl, ?_⟩,
    ⟨((calling data id [255, 0x80001000]).callerJob (.control 0)).getD placedJob,
      calling (listed (leBytes 40 (7 + 2 ^ 303))) id [255, 0x80001000], ?_, ?_, ?_, ?_, ?_, ?_, ?_⟩,
    ⟨((calling data id [0x80001000, 128, 255]).callerJob (.control 0)).getD placedJob,
      calling data id [0x80001000, 128, 255], ?_, ?_, ?_, ?_, ?_⟩⟩ <;> decide +kernel

/-- The control program of slot 0 at an instruction, its line at 0x80001000 executable. -/
def program (i : Nat) (f : ControlProgram → ControlProgram) : State :=
  let s := base.mapAt 4 0x1000 0x80000000 (leafOf 0x100000000 attrX) walkLevels
  { s with
    mem := Memory.writeN s.mem 0x100001000 4 i
    jobs := s.jobs.map fun j => { j with cp := some (f (ControlProgram.fresh 0x80001000)) } }
/-- A state as the control program of slot 0 asks for it. -/
def asked0 (s : State) : State := { s with cur := engineParty (controlUnit 0) }
/-- What the fetch of an instruction gives. -/
def fetched (i : Nat) : Option (Option Nat × Nat) :=
  ((program i id).controlReady 0).bind fun (j, p) => val? ((asked0 (program i id)).rvFetch j p.pc)
/-- Its untracked load of device 7's first line has no answer yet. -/
def farLoad : State :=
  { program 0x0000B083 id with requests :=
      [⟨4, ⟨controlUnit 0, .ctl⟩, 0x02, 7 * 2 ^ 48, rowLine (7 * 2 ^ 48), 7, none, false, []⟩] }

theorem witness_ControlProgramsRun :
    data.controlReady 0 = none ∧
    (∃ j p, (program 0x73 id).controlReady 0 = some (j, p) ∧ (serviceOf (p.rx 17).toNat (.control 0)).isSome = true) ∧
    (∃ s j p, State.controlReady s 0 = some (j, p) ∧ serviceOf (p.rx 17).toNat (.control 0) = none) ∧
    (fetched 0x73 = some (some 0x73, 4) ∧ fetched 0x100073 = some (some 0x100073, 4) ∧
      fetched 0x00500093 = some (some 0x00500093, 4) ∧ fetched 0 = some (none, 2)) ∧
    (∃ j p, (program 0x00500093 id).controlReady 0 = some (j, p) ∧
      (val? (rvRun 0x00500093 4 j p (asked0 (program 0x00500093 id)))).isSome = true) ∧
    (∃ s j p, State.controlReady s 0 = some (j, p) ∧ (cause? (rvRun 0x0000B083 4 j p (asked0 s))).isSome = true) ∧
    (∃ s j p, State.controlReady s 0 = some (j, p) ∧ (stall? ((asked0 s).rvRead j (7 * 2 ^ 48) 8)).isSome = true) ∧
    ∃ s j p, State.controlReady s 0 = some (j, p) ∧ (cause? ((asked0 s).rvFetch j p.pc)).isSome = true := by
  refine ⟨by decide +kernel, ⟨_, _, rfl, by decide +kernel⟩, ⟨program 0 fun p => p.setX 17 0x99, _, _, rfl, ?_⟩, ?_,
    ⟨_, _, rfl, by decide +kernel⟩, ⟨program 0x0000B083 fun p => p.setX 1 0x200000000000, _, _, rfl, ?_⟩,
    ⟨farLoad, _, _, rfl, ?_⟩, ⟨program 0 fun p => { p with pc := 0x200000000000 }, _, _, rfl, ?_⟩⟩ <;> decide +kernel

/-- A region of 256 bytes at 0x80001000 exposed on port 1. -/
def exposing : State := { data with jobs := [{ placedJob with exposed := [⟨9, 0x80001000, 256, 2⟩], queues := [(3, ⟨1, 0, [], false⟩)] }] }

theorem witness_UltraEthernetReachesExposedRegions :
    exposing.exposedAt 0 9 0 1 = none ∧ exposing.exposedAt 1 9 1 256 = none ∧
    (∃ j, exposing.exposedAt 1 9 0 256 = some (j, 0x80001000) ∧ 
      ∀ a ∈ linesOf 0x80001000 256, exposing.badLine j a = false) ∧
    (∃ j, ∃ a ∈ linesOf 0x80001010 120, { exposing with badCheck := [0x100001080] }.badLine j a = true) ∧
    exposing.jobAt 1 = none ∧ (∃ j, exposing.jobAt 0 = some j ∧ afind? j.queues 3 = some ⟨1, 0, [], false⟩ ∧
      afind? j.queues 4 = none) := by
  refine ⟨by decide +kernel, by decide +kernel, ⟨(exposing.jobAt 0).getD placedJob, by decide +kernel⟩,
    ⟨placedJob, by decide +kernel⟩, by decide +kernel, ⟨(exposing.jobAt 0).getD placedJob, by decide +kernel⟩⟩

/-- R381: `addi x1, x0, 5` of the control program. -/
theorem test_control_addi : ((nextOr base (exec (.controlProgramInstruction 0) (program 0x00500093 id))).controlReady 0).map
    (fun q => (q.2.rx 1, q.2.pc)) = some (5, 0x80001004) := by decide +kernel

/-- A message to this device from device 7 for its line at 0x100001000. -/
def msg : Msg := { noMsg with src := 7, dst := 0, tag := 4, addr := 0x100001000 }
/-- A flit of one message. -/
def flit (ok : Bool) : Flit := ⟨0, 0, 0, ok, [(0x02, msg)]⟩

theorem witness_LinksCarryFlits :
    ((linked id).link 3).phase ≠ .training ∧
    (((linked fun l => { l with phase := .training }).link 3).phase = .training ∧
      (⟨1, 1, 0, 7, 5, 0, [8, 8, 8, 8]⟩ : TrainRec).fits = true ∧ (7#8).toNat ≠ (linked id).dev ∧
      (linked fun l => { l with phase := .training }).recorded 3 = some ((7#8).toNat, (5#8).toNat)) ∧
    (⟨2, 3, 0, 7, 5, 0, []⟩ : TrainRec).fits = false ∧
    (((linked fun l => { l with phase := .training, retrained := true }).link 3).retrained = true) ∧
    ((up id).link 3).phase = .up ∧
    ((up id).link 3).replay = [] ∧ ((up fun l => { l with replay := [(0, 0, [])] }).link 3).replay ≠ [] ∧
    (if ((up id).link 3).naks > 0 && ((up id).link 3).nakSeq == 0 then ((up id).link 3).naks + 1 else 1) < 16 ∧
    16 ≤ (if ((up fun l => { l with naks := 15 }).link 3).naks > 0 && ((up fun l => { l with naks := 15 }).link 3).nakSeq == 0
      then ((up fun l => { l with naks := 15 }).link 3).naks + 1 else 1) ∧
    ((flit true).lcrcOk = true ∧ (flit true).seq = ((up id).link 3).expect ∧
      (flit true).msgs.takeWhile (fun x => (messageEvent x.1 x.2).isSome) = (flit true).msgs) ∧
    ((flit false).lcrcOk = false ∧ ((up id).link 3).nakSent = false ∧ ((up fun l => { l with nakSent := true }).link 3).nakSent = true) ∧
    ([((0xEE : BitVec 8), msg)].takeWhile (fun x => (messageEvent x.1 x.2).isSome)).length < 1 ∧
    ({ flit true with seq := 1 } : Flit).seq ≠ ((up id).link 3).expect := by
  refine ⟨?_, ?_, ?_, ?_, ?_, ?_, ?_, ?_, ?_, ?_, ?_, ?_, ?_⟩ <;> decide +kernel

/-- The message with the line's bytes and their check value. -/
def lined (m : Msg) : Msg := { m with mask := BitVec.allOnes 128, line := 9, check := crc32c (lineOfBits 9) }
/-- An atomic message: `aadd` of 9 to the word at byte 4 of the line. -/
def atomMsg : Msg := { msg with mask := BitVec.ofNat 128 (4 * 2 ^ 80), line := 9 * 2 ^ 32, check := crc32c (lineOfBits (9 * 2 ^ 32)) }

theorem lined_checked (m : Msg) : (lined m).checked = true := by simp [Msg.checked, lined]
theorem flipped_not_checked (m : Msg) : ({ lined m with check := ~~~(lined m).check } : Msg).checked = false := by
  have h : ∀ x : BitVec 32, (x == ~~~x) = false := fun x => by
    refine beq_eq_false_iff_ne.2 fun e => ?_
    have h0 := congrArg (·.getLsbD 0) e
    simp at h0
  exact h _
theorem atomMsg_checked : atomMsg.checked = true := by simp [Msg.checked, atomMsg]

/-- Device 9 has sent the message's device the line. -/
def sentOn : State := { data with requests := [⟨5, peerParty msg, 0x11, 2 ^ 64 + 0x100001000, rowLine 0x100001000, 9,
  some (0x21, noMsg), false, []⟩] }
/-- The state without an event that was held back. -/
def without (s : State) (me : Event) : State := { s with heldBack := s.heldBack.filter (· != me) }

theorem home_ready {s : State} {m : Msg} {me : Event} {node : Nat} {req : HomeReq} {ws : List Nat}
    (h1 : s.owns (m.addr.toNat % 2 ^ 56) = true := by decide +kernel)
    (h2 : unpopulated (m.addr.toNat % 2 ^ 56) = false := by decide +kernel)
    (h3 : (without s me).inProgress (peerParty m) ws = none := by decide +kernel)
    (h4 : ∀ r ∈ (without s me).requests, r.party = peerParty m → r.answer ≠ none := by decide +kernel)
    (h5 : (without s me).otherAsks node req ws = [] := by decide +kernel)
    (h6 : ((without s me).roomFor node req (s.keyOf m)).1 = false := by decide +kernel) :
    ∃ v, HomeReady m me node req ws s v :=
  ⟨_, _, ((without s me).roomFor node req (s.keyOf m)).2, rfl, h1, h2, h3, h4, by
    show ∀ a ∈ (without s me).otherAsks node req ws, _
    rw [h5]; exact nofun, by rw [← h6]; exact Prod.mk.eta.symm, rfl⟩

theorem witness_HomesAnswerPeers_ready :
    (∃ v, HomeReady msg (.ldt msg) (nodeOfPeer msg.src) (.trackedLoad (msg.pol == 0)) (footprint (data.keyOf msg)) data v) ∧
    (∃ v, HomeReady msg (.ldt msg) (nodeOfPeer msg.src) (.trackedLoad (msg.pol == 0)) (footprint (sentOn.keyOf msg)) sentOn v ∧
      forwarded msg sentOn) ∧
    (∃ v, HomeReady msg (.ldu msg) (nodeOfPeer msg.src) .untrackedLoad (footprint (data.keyOf msg)) data v) ∧
    (∃ v, HomeReady msg (.ownr msg) (nodeOfPeer msg.src) .ownStore (footprint (data.keyOf msg)) data v) ∧
    (∃ v, HomeReady msg (.crdMessage msg) (2 ^ 40) .untrackedLoad (footprint (data.keyOf msg)) data v) ∧
    (∃ v, HomeReady (lined msg) (.wr (lined msg)) (nodeOfPeer msg.src) .throughStore (footprint (data.keyOf msg)) data v) ∧
    (∃ v, HomeReady (lined msg) (.cwrMessage (lined msg)) (2 ^ 40) .throughStore (footprint (data.keyOf msg)) data v) ∧
    (∃ v, HomeReady (lined msg) (.reg (lined msg)) (nodeOfPeer msg.src) .sisStore (footprint (data.keyOf msg)) data v) ∧
    (∃ v, HomeReady (lined msg) (.red (lined msg)) (nodeOfPeer msg.src) .atomic (footprint (data.keyOf msg)) data v) ∧
    (∃ v, HomeReady atomMsg (.atom atomMsg) (nodeOfPeer msg.src) .atomic (wordsOf 0x100001004 4) data v) ∧
    ¬ forwarded msg data ∧ (lined msg).words (data.keyOf msg) = footprint (data.keyOf msg) := by
  refine ⟨home_ready, ?_, home_ready, home_ready, home_ready, home_ready, home_ready, home_ready, home_ready, home_ready,
    fun h => ?_, by decide +kernel⟩
  · obtain ⟨v, h⟩ : ∃ v, HomeReady msg (.ldt msg) (nodeOfPeer msg.src) (.trackedLoad (msg.pol == 0))
      (footprint (sentOn.keyOf msg)) sentOn v := home_ready
    exact ⟨v, h, _, .head _, rfl, .inl rfl⟩
  · obtain ⟨r, hr, -⟩ := h
    have e : data.requests = [] := by decide +kernel
    rw [e] at hr; cases hr

theorem witness_HomesAnswerPeers :
    (msg.dst = data.dev ∧ data.keyOf msg = rowLine 0x100001000 ∧
      ({ data with requests := [serving] } : State).inProgress (peerParty msg) (footprint (rowLine 0x100001000)) ≠ none) ∧
    (data.owns (2 ^ 48) = false ∨ unpopulated (2 ^ 48) = true) ∧
    ((lined msg).checked = true ∧ ({ lined msg with check := ~~~(lined msg).check } : Msg).checked = false) ∧
    ((atomMsg.mask.extractLsb' 80 16).toNat = 4 ∧ atomMsg.checked = true ∧
      data.badCheck.contains (0x100001004 / 128 * 128) = false ∧ data.poisoned 0x100001004 = false) ∧
    (∃ s : State, s.badCheck.contains (0x100001004 / 128 * 128) = false ∧ s.poisoned 0x100001004 = true) ∧
    6 % 4 ≠ 0 ∧ ({ msg with dst := 9 } : Msg).dst ≠ data.dev :=
  ⟨by decide +kernel, by decide +kernel, ⟨lined_checked _, flipped_not_checked _⟩,
    ⟨by decide +kernel, atomMsg_checked, by decide +kernel, by decide +kernel⟩,
    ⟨data.poisonLine 0x100001000, by decide +kernel⟩, by decide, by decide +kernel⟩

/-- A request of context 0 to device 7 for its line, without an answer. -/
def waits7 (t : BitVec 8) (addr : Nat) (party : Party) : RemoteReq :=
  ⟨4, party, t, addr, rowLine addr, 7, none, false, []⟩
/-- The first line of device 7. -/
def far : Nat := 7 * 2 ^ 48
/-- The state with one such request. -/
def asking (r : RemoteReq) : State := { data with requests := [r] }
/-- Key 9 of this device, in use. -/
def key9 (f : Key → Key) : State := data.modKey 9 fun k => f { k with valid := true }

theorem witness_HoldersAnswerAndAnswersEnter :
    msg.dst = data.dev ∧ (data.keyOf msg).base = 0x100001000 ∧ data.owns 0x100001000 = true ∧
    data.owns (data.keyOf { msg with addr := BitVec.ofNat 64 far }).base = false ∧ deviceOf far = 7 ∧
    data.asked msg [0x10, 0x13, 0x14] false = none ∧
    (asking (waits7 0x10 0x100001000 homeParty)).asked msg [0x10, 0x13, 0x14] false = some (waits7 0x10 0x100001000 homeParty) ∧
    (asking (waits7 0x01 far ⟨0, .ctl⟩)).asked { lined msg with addr := BitVec.ofNat 64 far } [0x01, 0x02, 0x03, 0x05] true =
      some (waits7 0x01 far ⟨0, .ctl⟩) ∧
    (asking (waits7 0x04 far ⟨0, .ctl⟩)).asked { msg with addr := BitVec.ofNat 64 far } [0x03, 0x04, 0x07, 0x08, 0x10, 0x11, 0x12, 0x13,
      0x14] false = some (waits7 0x04 far ⟨0, .ctl⟩) ∧
    (asking (waits7 0x06 far ⟨0, .ctl⟩)).asked { msg with addr := BitVec.ofNat 64 far } [0x06] false = some (waits7 0x06 far ⟨0, .ctl⟩) ∧
    (asking (waits7 0x30 far ⟨0, .ctl⟩)).asked { msg with addr := BitVec.ofNat 64 far } [0x30] false = some (waits7 0x30 far ⟨0, .ctl⟩) ∧
    (asking (waits7 0x32 far ⟨0, .ctl⟩)).asked { msg with addr := BitVec.ofNat 64 far } [0x32] false = some (waits7 0x32 far ⟨0, .ctl⟩) ∧
    ((asking (waits7 0x08 far ⟨0, .ctl⟩)).asked msg [0x08] false = some (waits7 0x08 far ⟨0, .ctl⟩) ∧
      (waits7 0x08 far ⟨0, .ctl⟩).party ≠ homeParty) ∧
    (data.key 9).valid = false ∧
    (((key9 id).key 9).valid = true ∧ ((key9 id).key 9).held = false ∧ ((key9 id).key 9).granted = none ∧
      ((key9 id).key 9).queue = []) ∧
    ((key9 fun k => { k with held := true, remoteHolder := some 7 }).key 9).held = true ∧
    ((key9 fun k => { k with held := true, remoteHolder := some 7 }).key 9).remoteHolder = some msg.src ∧
    (data.keyScopeOk ((key9 fun k => { k with scope := 2 }).key 9) = true ∧
      data.keyScopeOk ((key9 fun k => { k with scope := 6 }).key 9) = false) ∧
    ((asking (waits7 0x12 (2 ^ 64 + 0x100001000) ⟨0, .ctl⟩)).asked msg [0x11, 0x12] false =
        some (waits7 0x12 (2 ^ 64 + 0x100001000) ⟨0, .ctl⟩) ∧
      (asking (waits7 0x11 (2 ^ 64 + 0x100001000) ⟨0, .ctl⟩)).asked msg [0x11, 0x12] false =
        some (waits7 0x11 (2 ^ 64 + 0x100001000) ⟨0, .ctl⟩)) ∧
    (asking { waits7 0x01 far ⟨0, .ctl⟩ with spoiled := true }).asked { lined msg with addr := BitVec.ofNat 64 far }
      [0x01, 0x02, 0x03, 0x05] true = some { waits7 0x01 far ⟨0, .ctl⟩ with spoiled := true } ∧
    data.asked msg [0x11, 0x12] false = none := by
  and_intros <;> decide +kernel

/-- A reset completes. A package without firmware fails stage 0; whether a package passes depends on the signature and hash
functions, which have no value here: given those, the checks of stage 0 can be met. -/
theorem witness_ResetBootsTheDevice :
    (∃ t, exec .reset data = .next t) ∧ packageOk data.chip.fuses data.chip.flash = false ∧
    ∀ (fuses : Fuses) (f : Flash), f.firmware = leBytes 242 (0x5746344D + 2 ^ 32) → fuses.revoked = 0 → fuses.svn = 0 →
      fuses.roots[0]? = some (Config.shake256 ((f.firmware.drop 20).take 57) 64) →
      Config.ed448Verify ((f.firmware.drop 20).take 57) ctxFirmware f.signed ((f.firmware.drop 128).take 114) = true →
      packageOk fuses f = true := by
  refine ⟨⟨_, rfl⟩, by decide +kernel, fun fuses f hf hr hs h1 h2 => ?_⟩
  have e : ∀ o n, natAt f.firmware o n = natAt (leBytes 242 (0x5746344D + 2 ^ 32)) o n := fun o n => by rw [hf]
  have l : f.firmware.length = 242 := by rw [hf]; decide +kernel
  have n0 : natAt f.firmware 12 8 = 0 := by rw [e]; decide +kernel
  have k0 : natAt f.firmware 6 1 = 0 := by rw [e]; decide +kernel
  have a0 : natAt f.firmware 0 4 = 0x5746344D := by rw [e]; decide +kernel
  have a1 : natAt f.firmware 4 1 = 1 := by rw [e]; decide +kernel
  have a2 : natAt f.firmware 7 1 = 0 := by rw [e]; decide +kernel
  have a3 : natAt f.firmware 77 51 = 0 := by rw [e]; decide +kernel
  have a4 : natAt f.firmware 8 4 = 0 := by rw [e]; decide +kernel
  simp [packageOk, l, n0, k0, a0, a1, a2, a3, a4, hr, hs, h1, h2, bit]

theorem witness_TestPortFreezeAndHeat :
    data.chip.frozen = false ∧ (data.freeze true).chip.frozen = true ∧ (data.freeze true).chip.chain.toNat / 2 ^ 12 % 4 = 0 ∧
    (∃ s : State, s.chip.throttling = true) ∧ data.chip.throttling = false := by
  refine ⟨by decide +kernel, by decide +kernel, by decide +kernel,
    ⟨{ data with chip := { data.chip with throttling := true } }, rfl⟩, by decide +kernel⟩

/-- A frozen device, and a step of it. -/
theorem witness_FrozenIsKeptByEveryStep :
    ((data.freeze true).chip.frozen = true ∧ (data.freeze true).chip.ports = 0 ∧
      (∀ k, ((data.freeze true).link k).phase ≠ .up) ∧ (data.freeze true).agenda = []) ∧
    ∃ t, step (data.freeze true) = .next t := by
  refine ⟨⟨by decide +kernel, by decide +kernel, fun k => ?_, by decide +kernel⟩, ⟨_, rfl⟩⟩
  have h : (data.freeze true).links = [] := by decide +kernel
  unfold State.link; rw [h]; exact nofun

/-- Two steps of it. -/
theorem witness_FrozenDeviceChangesNothing : (runFor 2 (data.freeze true)).isSome = true := by decide +kernel

theorem nextThread_order (s : State) (r : List Action) (k : Nat) : State.nextThread { s with order := r } k = s.nextThread k := rfl

theorem moves_thread {s : State} {k i : Nat} (h1 : s.inRegion = none := by decide +kernel)
    (h2 : s.agenda = [] := by decide +kernel) (h3 : s.turns.head? = some (.thread k) := by decide +kernel)
    (h4 : s.nextThread k = some i := by decide +kernel) :
    MovesNext s ⟨4 * k + i, .ctl⟩ (State.modCore { s with order := s.turns.tail } k fun c => { c with turn := i }) := by
  obtain ⟨r, hr⟩ := List.head?_eq_some_iff.1 h3
  have e : s.turns.tail = r := by rw [hr]; rfl
  rw [e]
  exact .inr ⟨h1, h2, _, r, _, hr, rfl, .inr ⟨k, i, rfl, (nextThread_order s r k).trans h4, rfl, rfl⟩⟩

def ticked : State := { base with now := base.now + 1 }
def moved : State := State.modCore { ticked with order := ticked.turns.tail } 0 fun c => { c with turn := 0 }
theorem moved_next : MovesNext ticked ⟨0, .ctl⟩ moved := moves_thread (k := 0) (i := 0)
/-- A party whose core holds no line of it goes on with the bytes it fetches. -/
theorem lineAt_fetched {s : State} {p : Party} (pc : Word) (bs : List Byte)
    (h : ((s.core (coreOf p.ctx)).held.find? fun e => e.1 == p) = none) : s.lineAt p pc bs = (bs, s) := by
  unfold State.lineAt; rw [h]
def atFetch : State := { moved with cur := latchOf ⟨0, .ctl⟩ 0 0 }

/-- The control thread of context 0 moves next and its line can be read. -/
theorem witness_StepRunsTheDecodedInstruction :
    (∃ (w r t : State) (bs bytes : List Byte), MovesNext { base with now := base.now + 1 } ⟨0, .ctl⟩ w ∧
      base.chip.frozen = false ∧ base.chip.booted = true ∧ base.chip.boot = 0 ∧ w.pcOf ⟨0, .ctl⟩ = 0 ∧
      (w.ctx 0).breaksAt 0 = false ∧ w.runAt 0 0 = none ∧
      State.fetchBytes { w with cur := latchOf ⟨0, .ctl⟩ 0 0 } 0 0 = .ok bs r ∧ r.lineAt ⟨0, .ctl⟩ 0 bs = (bytes, t) ∧
      bytes = 1 :: List.replicate 63 0 ∧ fetchHead (halvesOf bytes) (lineOf 0) (headOf 0) = .head 1 [] 0x40) ∧
    decode 1 [] = .ok (.nop ng) ∧ decode 0x0080 [0] = .illegal := by
  exact ⟨⟨moved, _, _, 1 :: List.replicate 63 0, 1 :: List.replicate 63 0, moved_next, by decide +kernel, by decide +kernel, by decide +kernel,
    by decide +kernel, by decide +kernel, by decide +kernel, ok_of_val (r := atFetch.fetchBytes 0 0) (by decide +kernel), lineAt_fetched _ _ (by decide +kernel), rfl, by decide⟩, by decide, by decide⟩

/-- A strip in a serial region moves next; a party holds a line with other bytes than memory has now. -/
theorem witness_StepRunsTheDecodedInstruction_parties :
    MovesNext (strip fun t => { t with region := some ⟨0, 1, 5, false, t.v, t.m, t.snap, 0, 0, [0]⟩ }) ⟨0, .strip 0⟩
      (strip fun t => { t with region := some ⟨0, 1, 5, false, t.v, t.m, t.snap, 0, 0, [0]⟩ }) ∧
    ∃ b : Bool, ((base.modCore 0 fun c => { c with held := [(⟨0, .ctl⟩, 0, [7])] }).lineAt ⟨0, .ctl⟩ 0 [1]).1 = if b then [7] else [1] :=
  ⟨.inl ⟨by decide +kernel, rfl⟩, _, rfl⟩

/-- Heads whose tails pass the end overrun their line (R76); a zero line has no head. -/
theorem witness_StepRunsTheDecodedInstruction_edges :
    fetchHead (List.replicate 32 0) 0 0 = .endOfHeads ∧ fetchHead (0x0001 :: 0x0780 :: 0x0780 :: 0x0780 :: 0x0780 :: List.replicate 27 0) 0 4 = .overrun := by decide

/-- The last element of a register, of the last register and of a mask, and every form of second source. -/
theorem witness_ElementsFormatsAndSources :
    (∀ w ∈ [1, 2, 4, 8], (1024 / w - 1 + 1) * w ≤ 1024 ∧ 31 + (1024 / w - 1) * w / 1024 < 32) ∧ 8191 < 8192 ∧
    (∃ o : FormV, o.bs = 0) ∧ (∃ o : FormV, o.bs = 1 ∧ o.im = 1) ∧ (∃ o : FormV, o.bs = 1 ∧ o.im = 0 ∧ o.sb ≠ 0) ∧
    ∃ o : FormV, o.bs = 1 ∧ o.im = 0 ∧ o.sb = 0 :=
  ⟨by decide, by decide, ⟨⟨0, 0, 0, 0, 0, 0, 0, 0, 0, 0, 0, 0, 0, 0⟩, rfl⟩, ⟨⟨1, 0, 0, 0, 0, 0, 0, 0, 0, 0, 1, 0, 0, 0⟩, rfl, rfl⟩,
    ⟨⟨0, 0, 0, 0, 0, 0, 0, 0, 0, 1, 1, 0, 0, 0⟩, rfl, rfl, by decide⟩, ⟨⟨0, 0, 0, 0, 0, 0, 0, 0, 0, 0, 1, 0, 0, 0⟩, rfl, rfl, rfl⟩⟩

end Sys2Proof.Tests
end

section
/-! The statements about scalar instructions: arithmetic (R199), the call through a table entry (R205), the reply queue
(R29, R217, R255), and the instructions that raise a cause of their own (R223 to R226). -/

namespace Sys2Proof.Machine

/-! The results of R199, as the model's operations on words compute them. -/

/-- A left shift multiplies by the power of the shift amount (R199). -/
theorem sllW_eq_ofNat (a b : Word) : sllW a b = BitVec.ofNat 64 (a.toNat * 2 ^ (b.toNat % 64)) := by
  unfold sllW shamt
  apply BitVec.eq_of_toNat_eq
  rw [BitVec.toNat_shiftLeft, Nat.shiftLeft_eq, BitVec.toNat_ofNat]

/-- A logical right shift divides the unsigned value (R199). -/
theorem srlW_eq_ofNat (a b : Word) : srlW a b = BitVec.ofNat 64 (a.toNat / 2 ^ (b.toNat % 64)) := by
  unfold srlW shamt
  apply BitVec.eq_of_toNat_eq
  rw [BitVec.toNat_ushiftRight, Nat.shiftRight_eq_div_pow, BitVec.toNat_ofNat]
  exact (Nat.mod_eq_of_lt (Nat.lt_of_le_of_lt (Nat.div_le_self _ _) a.isLt)).symm

/-- An arithmetic right shift divides the signed value, rounding down (R199). -/
theorem sraW_eq_ofInt (a b : Word) : sraW a b = BitVec.ofInt 64 (a.toInt / 2 ^ (b.toNat % 64)) := by
  show BitVec.ofInt 64 (a.toInt >>> (b.toNat % 64)) = _
  rw [Int.shiftRight_eq_div_pow]
  norm_cast

/-- The modular difference of two words is that of their values (R199). -/
theorem sub_eq_ofInt (a b : Word) : a - b = BitVec.ofInt 64 ((a.toNat : Int) - b.toNat) := by
  apply BitVec.eq_of_toNat_eq
  rw [BitVec.toNat_sub, BitVec.toNat_ofInt]
  omega

/-- The low half of a product is that of the unsigned values (R199). -/
theorem mul_eq_ofNat (a b : Word) : a * b = BitVec.ofNat 64 (a.toNat * b.toNat) :=
  BitVec.eq_of_toNat_eq (by rw [BitVec.toNat_mul, BitVec.toNat_ofNat])

/-- Truncating division of words is that of their signed values, modulo 2^64. -/
theorem sdiv_eq_ofInt (a b : Word) : a.sdiv b = BitVec.ofInt 64 (a.toInt.tdiv b.toInt) := by
  apply BitVec.eq_of_toInt_eq
  rw [BitVec.toInt_sdiv, BitVec.toInt_ofInt]

/-- The remainder of truncating division, as R199 writes it. -/
theorem srem_eq_ofInt (a b : Word) : a.srem b = BitVec.ofInt 64 (a.toInt - b.toInt * a.toInt.tdiv b.toInt) := by
  rw [← Int.tmod_def, ← BitVec.toInt_srem, BitVec.ofInt_toInt]

/-- Signed division with its zero divisor and its overflow, whose quotient 2^63 has the pattern of the dividend (R199). -/
theorem divW_cases (a b : Word) : divW a b = if b = 0 then BitVec.ofNat 64 (2 ^ 64 - 1)
    else if a.toInt = -2 ^ 63 ∧ b.toInt = -1 then a else BitVec.ofInt 64 (a.toInt.tdiv b.toInt) := by
  unfold divW
  rw [sdiv_eq_ofInt]
  split
  · rfl
  split
  · next h =>
    obtain ⟨ha, hb⟩ := h
    have hq : a = BitVec.ofInt 64 (-2 ^ 63) := by rw [← ha, BitVec.ofInt_toInt]
    rw [ha, hb, hq]; decide
  · rfl

/-- Unsigned division with its zero divisor (R199). -/
theorem divuW_cases (a b : Word) :
    divuW a b = if b = 0 then BitVec.ofNat 64 (2 ^ 64 - 1) else BitVec.ofNat 64 (a.toNat / b.toNat) := by
  unfold divuW
  split
  · rfl
  · rw [← BitVec.toNat_udiv, BitVec.ofNat_toNat, BitVec.setWidth_eq]; rfl

/-- Signed remainder with its zero divisor and its overflow, which leaves nothing (R199). -/
theorem remW_cases (a b : Word) : remW a b = if b = 0 then a else if a.toInt = -2 ^ 63 ∧ b.toInt = -1 then 0
    else BitVec.ofInt 64 (a.toInt - b.toInt * a.toInt.tdiv b.toInt) := by
  unfold remW
  rw [srem_eq_ofInt]
  split
  · rfl
  split
  · next h => rw [h.1, h.2]; decide
  · rfl

/-- Unsigned remainder with its zero divisor (R199). -/
theorem remuW_cases (a b : Word) : remuW a b = if b = 0 then a else BitVec.ofNat 64 (a.toNat % b.toNat) := by
  unfold remuW
  split
  · rfl
  · rw [← BitVec.toNat_umod, BitVec.ofNat_toNat, BitVec.setWidth_eq]; rfl

/-- The result of a signed comparison (R199). -/
theorem boolWord_slt (a b : Word) : boolWord (a.slt b) = if a.toInt < b.toInt then 1 else 0 := by
  simp [boolWord, BitVec.slt]

/-- The result of an unsigned comparison (R199). -/
theorem boolWord_ult (a b : Word) : boolWord (a.ult b) = if a.toNat < b.toNat then 1 else 0 := by
  simp [boolWord, BitVec.ult]

/-- The register-register instruction of a row of R199 writes r of its sources and is finished. -/
def WritesBinary (mk : Gates → FormB → Instr) (r : Word → Word → Word) : Prop :=
  ∀ (g : Gates) (o : FormB) (s s1 s2 s3 s4 : State) (a b : Word), Ready (mk g o) s s1 →
    s1.rdS o.sy = .ok a s2 → s2.rdS o.sz = .ok b s3 → s3.dstReady o.sx = .ok ⟨⟩ s4 →
    exec (mk g o) s = .next (finished (mk g o) s1 (s4.setS o.sx (r a b)))

/-- An instruction whose meaning is `binS` with f writes whatever result f is equal to. -/
theorem writesBinary_of_binS {mk : Gates → FormB → Instr} {f r : Word → Word → Word}
    (hx : ∀ g o s, exec (mk g o) s = issue (mk g o) s fun s => s.binS o.sx o.sy o.sz f) (hf : ∀ a b, f a b = r a b) :
    WritesBinary mk r := by
  intro g o s s1 s2 s3 s4 a b hr ha hb hd
  rw [hx, issue_ok hr (State.binS_ok f ha hb hd), hf]

/-! Reserved operand words of MAJ 0x01 (R181, R199). -/

/-- Every MIN of MAJ 0x01 below 15 names an instruction of form B, which accepts every value of its fields. -/
theorem build01_formB (n : Nat) (hn : n < 15) (g : Gates) (t : List Half) :
    ∃ i, build01 n g t = some (i, rawB (opHalves2 t)) ∧ accepts i = true := by
  interval_cases n <;> exact ⟨_, rfl, rfl⟩

/-- An accepted instruction whose words hold a reserved bit is reserved (R187). -/
theorem classify_raw {i : Instr} (h : accepts i = true) : classify i true = .reserved i := by
  simp [classify, h]

/-- A head without gates and a tail of the length it names decode to what the opcode map gives (R174, R184). -/
theorem decode_ungated {maj : BitVec 6} {tl : BitVec 3} {min : BitVec 5} {t : List Half} {i : Instr} {raw : Bool}
    (hmaj : maj.toNat ≠ 0x3E) (hb : build maj.toNat min.toNat Gates.none t = some (tl.toNat, i, raw))
    (hlen : t.length = tl.toNat) : decode (headOfParts maj tl 0 min) t = classify i raw := by
  have hg : splitGates 0 t = (Gates.none, t, false) := rfl
  unfold decode
  rw [headMaj_parts, headMin_parts, headGate_parts, headTl_parts, hg]
  simp [hmaj, hb, gateCount, hlen]

/-- A register-register word with a bit above form B is reserved (R181, R199). -/
theorem decode_formB_reserved (m : BitVec 5) (w : BitVec 32) (hm : m.toNat < 15) (hw : w.extractLsb' 18 14 ≠ 0) :
    ∃ i, decode (headOfParts 0x01 2 0 m) (halves2 w) = .reserved i := by
  obtain ⟨i, hb, ha⟩ := build01_formB m.toNat hm Gates.none (halves2 w)
  have hraw : rawB (opHalves2 (halves2 w)) = true := by rw [opHalves2_halves2]; simpa [rawB] using hw
  have hbuild : build 0x01 m.toNat Gates.none (halves2 w) = some (2, i, true) := by
    rw [hraw] at hb; simp only [build, hb, Option.map_some]
  exact ⟨i, (decode_ungated (maj := 0x01) (tl := 2) (by decide) hbuild rfl).trans (classify_raw ha)⟩

/-- Settles O5. The arithmetic of each row is a lemma about the model's operation; the reserved bits are those of form B. -/
theorem scalarBinaryWritesItsResult : Obligations.ScalarBinaryWritesItsResult := by
  unfold Obligations.ScalarBinaryWritesItsResult
  refine ⟨?_, decode_formB_reserved⟩
  simp only [List.forall_mem_cons, List.not_mem_nil, false_implies, implies_true, and_true]
  exact ⟨writesBinary_of_binS (fun _ _ _ => rfl) BitVec.add_def,
    writesBinary_of_binS (fun _ _ _ => rfl) sub_eq_ofInt,
    writesBinary_of_binS (fun _ _ _ => rfl) fun _ _ => rfl,
    writesBinary_of_binS (fun _ _ _ => rfl) fun _ _ => rfl,
    writesBinary_of_binS (fun _ _ _ => rfl) fun _ _ => rfl,
    writesBinary_of_binS (fun _ _ _ => rfl) sllW_eq_ofNat,
    writesBinary_of_binS (fun _ _ _ => rfl) srlW_eq_ofNat,
    writesBinary_of_binS (fun _ _ _ => rfl) sraW_eq_ofInt,
    writesBinary_of_binS (fun _ _ _ => rfl) boolWord_slt,
    writesBinary_of_binS (fun _ _ _ => rfl) boolWord_ult,
    writesBinary_of_binS (fun _ _ _ => rfl) mul_eq_ofNat,
    writesBinary_of_binS (fun _ _ _ => rfl) divW_cases,
    writesBinary_of_binS (fun _ _ _ => rfl) divuW_cases,
    writesBinary_of_binS (fun _ _ _ => rfl) remW_cases,
    writesBinary_of_binS (fun _ _ _ => rfl) remuW_cases⟩

/-! The reply queue (R29, R217, R255). -/

/-- A push may be made: the queue has room and no lower strip is left (R29). -/
theorem State.pushReady_iff (s : State) (c b : Nat) :
    s.pushReady c b = true ↔ (s.ctx c).rq.length < 16 ∧ ∀ t ∈ (s.ctx c).strips, b ≤ t.stripb := by
  rw [State.pushReady, Bool.and_eq_true]
  exact and_congr decide_eq_true_iff (by simp)

/-- A reply is pushed where a push may be made, and the strip's VSTART is 0 then (R29, R255). -/
theorem State.reply_pushed {s : State} (post : Option PostGate) (v : Word) (hroom : s.myCtx.rq.length < 16)
    (hlow : ∀ t ∈ s.myCtx.strips, s.myStrip.stripb ≤ t.stripb) :
    s.reply post v = .ok ⟨⟩
      ((s.modCtx s.me fun x => { x with rq := x.rq ++ [v] }).modMyStrip fun t => { t with vstart := 0 }) :=
  if_pos ((s.pushReady_iff _ _).2 ⟨hroom, hlow⟩)

/-- A reply is held back where the queue is full or a lower strip is left (R29). -/
theorem State.reply_stalls {s : State} (post : Option PostGate) (v : Word)
    (h : 16 ≤ s.myCtx.rq.length ∨ ∃ t ∈ s.myCtx.strips, t.stripb < s.myStrip.stripb) :
    s.reply post v = .stall (.replyRoom s.myStrip.stripb v s.cur.next post) s := by
  refine if_neg fun hr => ?_
  obtain ⟨hroom, hlow⟩ := (s.pushReady_iff _ _).1 hr
  rcases h with hfull | ⟨t, ht, hlt⟩
  · exact Nat.not_le_of_lt hroom hfull
  · exact Nat.not_le_of_lt hlt (hlow t ht)

/-- The instruction of a row of R255 pushes r of STRIPB, of the number of ones below VL and of the first of them, or stalls. -/
def PushesReply (mk : Gates → FormK → Instr) (r : Nat → Nat → Option Nat → Word) : Prop :=
  ∀ (g : Gates) (o : FormK) (s s1 : State) (v : Word), Ready (mk g o) s s1 →
    v = r s1.myStrip.stripb (s1.myStrip.ones o.mx)
      ((List.range s1.myStrip.vl).find? fun p => s1.myStrip.mbit o.mx p) →
    (s1.myCtx.rq.length < 16 → (∀ t ∈ s1.myCtx.strips, s1.myStrip.stripb ≤ t.stripb) →
      exec (mk g o) s = .next (finished (mk g o) s1
        ((s1.modCtx s1.me fun x => { x with rq := x.rq ++ [v] }).modMyStrip fun t => { t with vstart := 0 }))) ∧
    ((16 ≤ s1.myCtx.rq.length ∨ ∃ t ∈ s1.myCtx.strips, t.stripb < s1.myStrip.stripb) →
      exec (mk g o) s = .next (s1.park (.replyRoom s1.myStrip.stripb v s1.cur.next g.post)))

/-- An instruction whose meaning is a reply of f pushes whatever f is equal to. -/
theorem pushesReply_of_reply {mk : Gates → FormK → Instr} {f : FormK → Strip → Word} {r : Nat → Nat → Option Nat → Word}
    (hx : ∀ g o s, exec (mk g o) s = issue (mk g o) s fun s => s.reply g.post (f o s.myStrip))
    (hf : ∀ o t, f o t = r t.stripb (t.ones o.mx) ((List.range t.vl).find? fun p => t.mbit o.mx p)) :
    PushesReply mk r := by
  intro g o s s1 v hr hv
  rw [← hf] at hv
  subst hv
  rw [hx]
  exact ⟨fun hroom hlow => issue_ok hr (State.reply_pushed _ _ hroom hlow),
    fun h => issue_stall hr (State.reply_stalls _ _ h)⟩

/-- The reply of `mfirst`: STRIPB plus the first position at which the mask is 1, or all ones (R255). -/
theorem Strip.firstReply_eq (t : Strip) (m : MNum) :
    (if t.firstSet m < t.vl then w64 (t.stripb + t.firstSet m) else BitVec.allOnes 64) =
      (((List.range t.vl).find? fun p => t.mbit m p).map fun p => BitVec.ofNat 64 (t.stripb + p)).getD
        (BitVec.ofNat 64 (2 ^ 64 - 1)) := by
  unfold Strip.firstSet
  cases h : (List.range t.vl).find? fun p => t.mbit m p with
  | none => exact if_neg (Nat.lt_irrefl _)
  | some p => exact if_pos (List.mem_range.1 (List.mem_of_find?_eq_some h))

/-- `mcnt` pushes the number of ones (R255). -/
theorem mcnt_pushesCount : PushesReply .mcnt fun _ n _ => BitVec.ofNat 64 n :=
  pushesReply_of_reply (f := fun o t => w64 (t.ones o.mx)) (fun _ _ _ => rfl) fun _ _ => rfl

/-- `many` pushes whether there is a one (R255). -/
theorem many_pushesWhether : PushesReply .many fun _ n _ => if n = 0 then 0 else 1 :=
  pushesReply_of_reply (f := fun o t => if t.ones o.mx = 0 then 0 else 1) (fun _ _ _ => rfl) fun _ _ => rfl

/-- `mfirst` pushes the position of the first one in the vector, or all ones (R255). -/
theorem mfirst_pushesPosition : PushesReply .mfirst
    fun b _ f => (f.map fun p => BitVec.ofNat 64 (b + p)).getD (BitVec.ofNat 64 (2 ^ 64 - 1)) :=
  pushesReply_of_reply
    (f := fun o t => if t.firstSet o.mx < t.vl then w64 (t.stripb + t.firstSet o.mx) else BitVec.allOnes 64)
    (fun _ _ _ => rfl) fun o t => t.firstReply_eq o.mx

/-- `rqget` takes the oldest entry into its field (R217). -/
theorem rqget_takes {g : Gates} {o : FormC} {s s1 s2 : State} {v : Word} {rest : List Word} (hr : Ready (.rqget g o) s s1)
    (hq : s1.myCtx.rq = v :: rest) (hd : s1.dstReady o.sx = .ok ⟨⟩ s2) :
    exec (.rqget g o) s = .next (finished (.rqget g o) s1
      ((s2.modCtx s2.me fun x => { x with rq := rest }).setS o.sx v)) := by
  refine issue_ok hr ?_
  simp only [hq, hd, R.andThen_ok, R.done]

/-- `rqget` on an empty queue stalls while a block is queued or runs (R217). -/
theorem rqget_stalls {g : Gates} {o : FormC} {s s1 : State} (hr : Ready (.rqget g o) s s1) (hq : s1.myCtx.rq = [])
    (hb : s1.myCtx.queue ≠ [] ∨ s1.myCtx.run ≠ none) : exec (.rqget g o) s = .next (s1.park .replyEntry) := by
  have hblocks : (!s1.myCtx.queue.isEmpty || s1.myCtx.run.isSome) = true := by
    simpa [Option.isSome_iff_ne_none] using hb
  refine issue_stall hr ?_
  simp only [hq, hblocks, if_true]

/-- `rqget` on an empty queue raises 0x84 when no block is queued or runs (R217). -/
theorem rqget_raises {g : Gates} {o : FormC} {s s1 : State} (hr : Ready (.rqget g o) s s1) (hq : s1.myCtx.rq = [])
    (hb : s1.myCtx.queue = []) (hn : s1.myCtx.run = none) :
    exec (.rqget g o) s = .next (s1.dropAnswers.takeCause 0x84 0) := by
  refine issue_trap hr ?_
  simp [hq, hb, hn]

/-- A well-formed instruction holds no reserved field (R187). -/
theorem reservedOk_of_wellFormed {i : Instr} (h : WellFormed i = true) : reservedOk i = true := by
  simp only [WellFormed, Bool.and_eq_true] at h
  exact h.1.2

/-- Settles O13: each row of R255 is a push of its own value, and `rqget` has one lemma per case of the queue. -/
theorem repliesAreCountsPositionsAndAreTaken : Obligations.RepliesAreCountsPositionsAndAreTaken := by
  unfold Obligations.RepliesAreCountsPositionsAndAreTaken
  refine ⟨?_, fun g o s s1 hr => ⟨fun hw => ?_, fun v rest s2 => rqget_takes hr, rqget_stalls hr, rqget_raises hr⟩⟩
  · simp only [List.forall_mem_cons, List.not_mem_nil, false_implies, implies_true, and_true]
    exact ⟨mcnt_pushesCount, many_pushesWhether, mfirst_pushesPosition⟩
  · exact beq_iff_eq.1 (reservedOk_of_wellFormed hw)

/-! The call through a table entry (R205). -/

/-- A call whose target fails a check raises its cause and writes no register (R176, R204). -/
theorem State.callTo_trap {s u : State} {a v : Word} {c : Code} (h : s.checkTarget s.me a = .trap c v u) :
    s.callTo a = .trap c v u := by
  unfold State.callTo State.jump; rw [h]; rfl

/-- What `callt` does once both registers are read (R205). -/
def State.callEntry (s : State) (e sig : Word) : R PUnit :=
  if e.toNat % 16 != 0 then .trap 0x22 e s
  else
    (s.readElem s.me (rowElem e 8 .load 3)).bind fun tgt s =>
      (s.readElem s.me (rowElem (e + 8) 8 .load 3)).bind fun found s =>
        if w64 found != sig then .trap 0x07 e s else s.callTo (w64 tgt)

/-- `callt` reads the entry's address and the signature, and calls through the entry (R205). -/
theorem exec_callt (g : Gates) (o : FormA) (s : State) : exec (.callt g o) s =
    issue (.callt g o) s fun s => (s.rdS o.sx).bind fun e s => (s.rdS o.sy).bind fun sig s => s.callEntry e sig := rfl

section
variable {s s4 s5 : State} {e sig : Word} {tgt found : Nat}

/-- An entry not aligned to 16 (R205). -/
theorem State.callEntry_unaligned (h : e.toNat % 16 ≠ 0) : s.callEntry e sig = .trap 0x22 e s := by
  rw [State.callEntry, if_pos (by simp [h])]

/-- A load of TARGET that fails (R205). -/
theorem State.callEntry_target_trap {c : Code} {v : Word} {u : State} (h : e.toNat % 16 = 0)
    (ht : s.readElem s.me (rowElem e 8 .load 3) = .trap c v u) : s.callEntry e sig = .trap c v u := by
  rw [State.callEntry, if_neg (by simp [h]), ht, R.bind_trap]

/-- A load of SIG that fails (R205). -/
theorem State.callEntry_sig_trap {c : Code} {v : Word} {u : State} (h : e.toNat % 16 = 0)
    (ht : s.readElem s.me (rowElem e 8 .load 3) = .ok tgt s4)
    (hs : s4.readElem s4.me (rowElem (e + 8) 8 .load 3) = .trap c v u) : s.callEntry e sig = .trap c v u := by
  rw [State.callEntry, if_neg (by simp [h]), ht, R.bind_ok, hs, R.bind_trap]

/-- Both fields are read (R205): the signature decides between the cause and the call. -/
theorem State.callEntry_read (h : e.toNat % 16 = 0) (ht : s.readElem s.me (rowElem e 8 .load 3) = .ok tgt s4)
    (hs : s4.readElem s4.me (rowElem (e + 8) 8 .load 3) = .ok found s5) :
    s.callEntry e sig = if w64 found = sig then s5.callTo (w64 tgt) else .trap 0x07 e s5 := by
  rw [State.callEntry, if_neg (by simp [h]), ht, R.bind_ok, hs, R.bind_ok]
  by_cases hm : w64 found = sig <;> simp [hm]
end

/-- Settles O9: each clause is a case of `callEntry`, through the outcome of the issue. -/
theorem calltChecksItsEntry : Obligations.CalltChecksItsEntry := by
  unfold Obligations.CalltChecksItsEntry
  intro g o s s1 s2 s3 e sig hr he hsig
  have body : ((s1.rdS o.sx).bind fun e s => (s.rdS o.sy).bind fun sig s => s.callEntry e sig) = s3.callEntry e sig := by
    rw [he, R.bind_ok, hsig, R.bind_ok]
  rw [exec_callt]
  refine ⟨fun ha => issue_trap hr (body.trans (State.callEntry_unaligned ha)),
    fun c v u ha ht => issue_trap hr (body.trans (State.callEntry_target_trap ha ht)),
    fun s4 s5 s6 s7 tgt found ha ht => ⟨fun c v u hs => issue_trap hr (body.trans (State.callEntry_sig_trap ha ht hs)),
      fun hs => ?_⟩⟩
  have read := body.trans (State.callEntry_read ha ht hs)
  refine ⟨fun hne => issue_trap hr (read.trans (if_neg hne)), fun c v u heq hc => ?_, fun heq hc hd => ?_⟩
  · exact issue_trap hr ((read.trans (if_pos heq)).trans (State.callTo_trap hc))
  · exact issue_ok hr ((read.trans (if_pos heq)).trans (State.callTo_ok hc hd))

/-! Instructions that raise a cause of their own (R223, R224, R226). -/

/-- `trap` raises its code with what it reads (R223). -/
theorem trap_raises {g : Gates} {o : FormC} {s s1 s2 : State} {v : Word} (hr : Ready (.trap g o) s s1)
    (hv : s1.rdS o.sx = .ok v s2) : exec (.trap g o) s = .next (s2.dropAnswers.takeCause o.code v) :=
  issue_trap hr (by rw [hv]; rfl)

/-- The codes that a well-formed `trap` may name are the software causes (R223). -/
theorem trap_wellFormed {g : Gates} {o : FormC} (h : WellFormed (.trap g o) = true) : 0xF0 ≤ o.code.toNat :=
  of_decide_eq_true (reservedOk_of_wellFormed h)

/-- After a software cause the context goes on at the next address (R223, R431). -/
theorem resumesNext_software {c : Code} (h : 0xF0 ≤ c.toNat) : resumesNext c = true := by
  simp [resumesNext, h]

/-- A `trap` of another cause is a reserved value on the control thread (R187, R223). -/
theorem formCause_trap_reserved (g : Gates) {o : FormC} (h : o.code.toNat < 0xF0) :
    formCause (.trap g o) false .ctl = some 0x02 := by
  have hres : reservedOk (.trap g o) = false := decide_eq_false (Nat.not_le_of_lt h)
  have hacc : accepts (.trap g o) = true := rfl
  have hplace : placeCause (.trap g o) .ctl = none := rfl
  have hname : codeNamed (.trap g o) = true := rfl
  simp [formCause, hacc, hplace, hname, hres]

/-- A `bkpt` with a gate is no accepted encoding (R226). -/
theorem decode_bkpt_gated (tl : BitVec 3) (t : List Half) {g : BitVec 2} (h : g ≠ 0) :
    decode (headOfParts 0x3E tl g 0) t = .illegal := by
  unfold decode
  rw [headMaj_parts, headMin_parts, headGate_parts]
  simpa using h

/-- `scall` raises 0xE0, and what it asks for follows: the service, or the error value of a number that is none (R224). -/
theorem scall_raises {g : Gates} {o : FormI} {s s1 : State} (hr : Ready (.scall g o) s s1) (hi : s1.myCtx.imprecise = []) :
    exec (.scall g o) s = match serviceOf o.imm.toNat (.native s.me) with
      | some e => .next ((s1.dropAnswers.takeCause 0xE0 0).later e)
      | none => .next ((s1.dropAnswers.takeCause 0xE0 0).answerNative s.me (BitVec.allOnes 64) none) := by
  show execScall g o s = _
  unfold execScall
  rw [issueR_ready _ _ hr, State.syncPoint_none _ hi]
  rfl

/-- Settles O14: each of the three instructions issues and its body raises its cause. -/
theorem trapsAndSystemCallsTakeTheirCause : Obligations.TrapsAndSystemCallsTakeTheirCause := by
  unfold Obligations.TrapsAndSystemCallsTakeTheirCause
  refine ⟨fun g o s s1 s2 v => trap_raises, fun g o => ⟨fun hw => ?_, formCause_trap_reserved g⟩,
    fun tl t g => decode_bkpt_gated tl t, by decide, fun tl s s1 hr => issue_trap hr rfl, fun g o s s1 hr hi => ?_⟩
  · exact ⟨trap_wellFormed hw, resumesNext_software (trap_wellFormed hw)⟩
  · rw [scall_raises hr hi]
    exact ⟨fun e he => by rw [he], fun hn => by rw [hn]⟩

end Sys2Proof.Machine
end

section
/-! The statement about the control instructions of strips (R244 to R248). -/

namespace Sys2Proof.Machine

/-- A transfer to a target that fails a check raises its cause (R176). -/
theorem State.jump_trap {s u : State} {a v : Word} {c : Code} (h : s.checkTarget s.me a = .trap c v u) :
    s.jump a = .trap c v u := by
  unfold State.jump; rw [h, R.andThen_trap]

/-! The end of a strip and the return of its lanes (R244, R245). -/

/-- A block has run out when no strip is left and it has none to dispatch (R21). -/
theorem Ctx.ranOut_iff (x : Ctx) : x.ranOut = true ↔ x.strips = [] ∧ ∃ r, x.run = some r ∧ r.entry.n ≤ r.next := by
  unfold Ctx.ranOut
  rw [Bool.and_eq_true, List.isEmpty_iff]
  cases x.run <;> simp

/-- A strip with detached lanes may not end (R244). -/
theorem vend_detached {g : Gates} {s s1 : State} (hr : Ready (.vend g) s s1) (hd : s1.myStrip.detached ≠ 0) :
    exec (.vend g) s = .next (s1.dropAnswers.takeCause 0x0A 0) :=
  issue_trap hr (if_pos (bne_iff_ne.2 hd))

/-- A strip with no lane detached ends, and with the block's last strip the context's unread streams (R244, R285). -/
theorem vend_ends {g : Gates} {s s1 u : State} (hr : Ready (.vend g) s s1) (hd : s1.myStrip.detached = 0)
    (hi : s1.myCtx.imprecise = []) (hu : u = s1.refetch.modCtx s1.me (Ctx.endStrip s1.now s1.myStrip)) :
    exec (.vend g) s = .next (finished (.vend g) s1
      (if u.myCtx.strips = [] ∧ ∃ r, u.myCtx.run = some r ∧ r.entry.n ≤ r.next then u.endStreams u.me Stream.idle else u)) := by
  refine issue_ok hr ?_
  have hnone : ¬ (s1.myStrip.detached != 0) = true := fun h => bne_iff_ne.1 h hd
  rw [if_neg hnone, State.syncPoint_none _ hi, R.andThen_ok]
  simp only [← hu, Ctx.ranOut_iff, R.done]

/-- `vrejoin` waits while a lane runs (R31, R245). -/
theorem vrejoin_waits {g : Gates} {s s1 : State} (hr : Ready (.vrejoin g) s s1) (hl : s1.myStrip.lanePcs ≠ []) :
    exec (.vrejoin g) s = .next (s1.park (.lanesDone s1.myStrip.stripb)) :=
  issue_stall hr (if_pos (by simpa using hl))

/-- `vrejoin` attaches the lanes once none runs (R245). -/
theorem vrejoin_attaches {g : Gates} {s s1 : State} (hr : Ready (.vrejoin g) s s1) (hl : s1.myStrip.lanePcs = []) :
    exec (.vrejoin g) s = .next (finished (.vrejoin g) s1
      (s1.modMyStrip fun t => { t with detached := 0, laneWait := [] })) :=
  issue_ok hr (if_neg (by simp [hl]))

/-! Loop counters (R246, R247). -/

/-- `vlset` sets the counter to bits 31:0 of what it reads (R246). -/
theorem vlset_sets {g : Gates} {o : FormA} {s s1 s2 : State} {v : Word} (hr : Ready (.vlset g o) s s1)
    (hv : s1.rdS o.sy = .ok v s2) :
    exec (.vlset g o) s = .next (finished (.vlset g o) s1
      (s2.modMyStrip (Strip.setLpc o.sx.toNat (v.setWidth 32)))) :=
  issue_ok hr (by rw [hv, R.bind_ok, R.done])

/-- What `vloop` does with a counter of n (R247). -/
def State.loopStep (s : State) (o : FormL) (n : BitVec 32) : R PUnit :=
  if 2 ≤ n.toNat then
    (s.jump (s.cur.pc + 2 * o.off.signExtend 64)).andThen fun s => R.done (s.modMyStrip (Strip.setLpc o.sx.toNat (n - 1)))
  else R.done (s.modMyStrip (Strip.setLpc o.sx.toNat 0))

/-- `vloop` does the step of the counter it names (R247). -/
theorem exec_vloop (g : Gates) (o : FormL) (s : State) : exec (.vloop g o) s =
    issue (.vloop g o) s fun s => s.loopStep o (s.myStrip.lpc[o.sx.toNat]?.getD 0) := rfl

section
variable {s t u : State} {o : FormL} {n : BitVec 32}

/-- The last round of a loop leaves the counter 0 and checks no target (R247). -/
theorem State.loopStep_last (h : n.toNat ≤ 1) :
    s.loopStep o n = .ok ⟨⟩ (s.modMyStrip (Strip.setLpc o.sx.toNat 0)) :=
  if_neg (Nat.not_le_of_lt (Nat.lt_succ_of_le h))

/-- A round that goes to a target which fails a check leaves the counter as it was (R240, R247). -/
theorem State.loopStep_trap {c : Code} {v : Word} (h : 2 ≤ n.toNat)
    (hc : s.checkTarget s.me (s.cur.pc + 2 * o.off.signExtend 64) = .trap c v u) : s.loopStep o n = .trap c v u := by
  rw [State.loopStep, if_pos h, State.jump_trap hc, R.andThen_trap]

/-- A round that is not the last counts down and goes to the target (R247). -/
theorem State.loopStep_round (h : 2 ≤ n.toNat)
    (hc : s.checkTarget s.me (s.cur.pc + 2 * o.off.signExtend 64) = .ok ⟨⟩ t) :
    s.loopStep o n = .ok ⟨⟩ ((t.withNext (s.cur.pc + 2 * o.off.signExtend 64)).refetch.modMyStrip
      (Strip.setLpc o.sx.toNat (n - 1))) := by
  rw [State.loopStep, if_pos h, State.jump_ok hc, R.andThen_ok, R.done]
end

/-! Branches on a mask (R248). -/

/-- A mask number of a scalar field names the mask of its low four bits. -/
theorem Strip.mbit_setWidth (t : Strip) (k : SReg) (p : Nat) :
    t.mbit (k.setWidth 4) p = (t.m[k.toNat % 16]).bits.getLsbD p := by
  have hk : k.toNat % 16 < 16 := Nat.mod_lt _ (by decide)
  unfold Strip.mbit
  rw [BitVec.toNat_setWidth, show 2 ^ 4 = 16 from rfl, Vector.getElem?_eq_getElem hk, Option.getD_some]

/-- A mask has a one where some bit below VL is 1 (R248). -/
theorem State.maskAny_iff (s : State) (k : SReg) :
    s.maskAny k = true ↔ ∃ p < s.myStrip.vl, (s.myStrip.m[k.toNat % 16]).bits.getLsbD p = true := by
  unfold State.maskAny
  simp only [List.any_eq_true, List.mem_range, Strip.mbit_setWidth]

/-- The instruction goes to its target when the mask having a one below VL is what the row of R248 says, and else goes on. -/
def BranchesOnMask (mk : Gates → FormL → Instr) (sense : Bool) : Prop :=
  ∀ (g : Gates) (o : FormL) (s s1 : State) (any : Prop), Ready (mk g o) s s1 →
    (any ↔ ∃ p < s1.myStrip.vl, (s1.myStrip.m[o.sx.toNat % 16]).bits.getLsbD p = true) →
    ((any ↔ sense = false) → exec (mk g o) s = .next (finished (mk g o) s1 s1)) ∧
    ∀ s2, (any ↔ sense = true) → s1.checkTarget s1.me (s1.cur.pc + 2 * o.off.signExtend 64) = .ok ⟨⟩ s2 →
      exec (mk g o) s = .next (finished (mk g o) s1 (s2.withNext (s1.cur.pc + 2 * o.off.signExtend 64)).refetch)

/-- An instruction whose meaning is a jump where `maskAny` is the sense, and nothing otherwise, branches so. -/
theorem branchesOnMask_of_jump {mk : Gates → FormL → Instr} {sense : Bool}
    (hx : ∀ g o s, exec (mk g o) s = issue (mk g o) s fun s =>
      if s.maskAny o.sx = sense then s.jump (s.cur.pc + 2 * o.off.signExtend 64) else R.done s) :
    BranchesOnMask mk sense := by
  intro g o s s1 any hr hany
  have hmask : s1.maskAny o.sx = true ↔ any := (s1.maskAny_iff o.sx).trans hany.symm
  rw [hx]
  refine ⟨fun hno => issue_ok hr (if_neg ?_), fun s2 hyes hc => issue_ok hr ((if_pos ?_).trans (State.jump_ok hc))⟩
  · rw [Bool.eq_iff_iff, hmask, hno]; cases sense <;> decide
  · rw [Bool.eq_iff_iff, hmask, hyes]

/-- `vbany` goes to its target where the mask has a one (R248). -/
theorem vbany_branches : BranchesOnMask .vbany true := branchesOnMask_of_jump fun _ _ _ => rfl

/-- `vbnone` goes to its target where the mask has none (R248). -/
theorem vbnone_branches : BranchesOnMask .vbnone false := by
  refine branchesOnMask_of_jump fun g o s => ?_
  show execVbnone g o s = _
  unfold execVbnone
  congr 1
  funext s
  cases s.maskAny o.sx <;> rfl

/-- Settles O18: each clause is a lemma about its instruction, those of `vloop` through the cases of `loopStep`. -/
theorem stripControlDoesAsItsRuleSays : Obligations.StripControlDoesAsItsRuleSays := by
  unfold Obligations.StripControlDoesAsItsRuleSays
  refine ⟨fun g s s1 hr => ⟨vend_detached hr, fun u => vend_ends hr⟩,
    fun g s s1 hr => ⟨vrejoin_waits hr, vrejoin_attaches hr⟩, fun g o s s1 s2 v => vlset_sets,
    fun g o s s1 n hr hn => ?_, ?_⟩
  · have body : s1.loopStep o (s1.myStrip.lpc[o.sx.toNat]?.getD 0) = s1.loopStep o n := by rw [hn, Option.getD_some]
    rw [exec_vloop]
    exact ⟨fun hlast => issue_ok hr (body.trans (State.loopStep_last hlast)),
      fun c v u hmore hc => issue_trap hr (body.trans (State.loopStep_trap hmore hc)),
      fun s2 hmore hc => issue_ok hr (body.trans (State.loopStep_round hmore hc))⟩
  · exact List.forall_mem_cons.2 ⟨vbany_branches, List.forall_mem_singleton.2 vbnone_branches⟩

end Sys2Proof.Machine
end

section
/-! What the device's own memory traffic leaves: it changes neither a context, nor a slot, nor what is kept of a saved
context. -/

namespace Sys2Proof.Machine

/-- The contexts, the slots, and what saved contexts keep beside their save areas. -/
def State.contexts (s : State) : List (Nat × Ctx) × List (Nat × BitVec 512) × List (Nat × Ctx) := (s.ctxs, s.bind, s.residue)

/-- States with the same contexts agree on every slot. -/
theorem State.slot_congr {s t : State} (h : s.contexts = t.contexts) (c : Nat) : s.slot c = t.slot c := by
  unfold State.slot
  rw [show s.bind = t.bind from congrArg (·.2.1) h]

/-- States with the same contexts agree on every context. -/
theorem State.ctx_congr {s t : State} (h : s.contexts = t.contexts) (c : Nat) : s.ctx c = t.ctx c := by
  unfold State.ctx
  rw [show s.ctxs = t.ctxs from congrArg (·.1) h]

/-- States with the same contexts agree on what saved contexts keep. -/
theorem State.residue_congr {s t : State} (h : s.contexts = t.contexts) : s.residue = t.residue := congrArg (·.2.2) h

/-- A fold keeps the contexts when each of its steps does. -/
@[simp] theorem State.contexts_foldl {α : Type} {f : State → α → State} (h : ∀ s a, (f s a).contexts = s.contexts)
    (l : List α) (s : State) : (l.foldl f s).contexts = s.contexts := by
  induction l generalizing s with
  | nil => rfl
  | cons a l ih => rw [List.foldl_cons, ih, h]

/-! Single updates of the state, and of words, lines and poison at their homes. -/
section
variable (s : State)
@[simp] theorem State.contexts_modCore (k : Nat) (f : Core → Core) : (s.modCore k f).contexts = s.contexts := rfl
@[simp] theorem State.contexts_modDie (k : Nat) (f : Die → Die) : (s.modDie k f).contexts = s.contexts := rfl
@[simp] theorem State.contexts_modKey (k : Nat) (f : Key → Key) : (s.modKey k f).contexts = s.contexts := rfl
@[simp] theorem State.contexts_modLink (k : Nat) (f : Link → Link) : (s.modLink k f).contexts = s.contexts := rfl
@[simp] theorem State.contexts_emit (o : Output) : (s.emit o).contexts = s.contexts := rfl
@[simp] theorem State.contexts_setWstate (w : Nat) (x : WordState) : (s.setWstate w x).contexts = s.contexts := rfl
@[simp] theorem State.contexts_homeCurrent (w : Nat) : (s.homeCurrent w).contexts = s.contexts := rfl
@[simp] theorem State.contexts_unrecord : s.unrecord.contexts = s.contexts := rfl
@[simp] theorem State.contexts_dropTracked (keep : Option Nat) (p : Nat → LineKey → Bool) :
    (s.dropTracked keep p).contexts = s.contexts := rfl
@[simp] theorem State.contexts_invalidate (w : Nat) (keep : Option Nat) : (s.invalidate w keep).contexts = s.contexts := rfl
@[simp] theorem State.contexts_freeRemotes : s.freeRemotes.contexts = s.contexts := rfl
@[simp] theorem State.contexts_poisonLine (a : Nat) : (s.poisonLine a).contexts = s.contexts := rfl
@[simp] theorem State.contexts_setPoison (a : Nat) (p : Bool) : (s.setPoison a p).contexts = s.contexts := rfl
@[simp] theorem State.contexts_retag (a b : Nat) : (s.retag a b).contexts = s.contexts := rfl
end

/-! Messages to peers (R399, R402). -/

@[simp] theorem State.contexts_pump (s : State) (k n : Nat) : (s.pump k n).contexts = s.contexts := by
  induction n generalizing s with
  | zero => rfl
  | succ n ih =>
    unfold State.pump
    dsimp only
    split
    · rfl
    · split
      · rfl
      · simp [ih]

/-- A message that finds a route changes links and output alone (R402). -/
theorem State.contexts_send {s t : State} {y : BitVec 8} {m : Msg} (h : s.send y m = some t) : t.contexts = s.contexts := by
  unfold State.send at h
  split at h
  · cases h
  · cases h; simp

@[simp] theorem State.contexts_sendOrDrop (s : State) (y : BitVec 8) (m : Msg) : (s.sendOrDrop y m).contexts = s.contexts := by
  unfold State.sendOrDrop
  cases h : s.send y m with
  | none => rfl
  | some t => exact State.contexts_send h

@[simp] theorem State.contexts_returnWords (s : State) (l : L1Line) : (s.returnWords l).contexts = s.contexts := by
  simp [State.returnWords]

@[simp] theorem State.contexts_tellPeer (s : State) (y : BitVec 8) (key : LineKey) (d : Nat) :
    (s.tellPeer y key d).contexts = s.contexts := by
  unfold State.tellPeer
  dsimp only
  split
  · next t h => exact (State.contexts_send h : t.contexts = _)
  · rfl

/-! Lines that leave caches and homes (R134, R136, R141). -/

@[simp] theorem State.contexts_passRegistration (s : State) (w : Nat) : (s.passRegistration w).contexts = s.contexts := by
  unfold State.passRegistration
  split
  · dsimp only
    split <;> rfl
  · rfl

@[simp] theorem State.contexts_endRegistration (s : State) (w : Nat) : (s.endRegistration w).contexts = s.contexts := by
  unfold State.endRegistration
  split <;> simp

@[simp] theorem State.contexts_dropLine (s : State) (core : Nat) (key : LineKey) :
    (s.dropLine core key).contexts = s.contexts := by
  unfold State.dropLine
  split
  · rfl
  · dsimp only
    split <;> simp

@[simp] theorem State.contexts_dropInDie (s : State) (die : Nat) (key : LineKey) :
    (s.dropInDie die key).contexts = s.contexts := by
  simp only [State.dropInDie, contexts_dropTracked]
  refine contexts_foldl (fun s a => ?_) _ _
  split <;> simp

@[simp] theorem State.contexts_nodeDrops (s : State) (node : Nat) (key : LineKey) :
    (s.nodeDrops node key).contexts = s.contexts := by
  unfold State.nodeDrops
  split
  · simp
  · refine (contexts_foldl (fun s w => ?_) _ _).trans (by simp)
    dsimp only
    split
    · rfl
    · split
      case h_4 => simp
      all_goals split <;> simp

@[simp] theorem State.contexts_evictRemote (s : State) (v : RemoteEntry) : (s.evictRemote v).contexts = s.contexts := by
  simp only [State.evictRemote, contexts_freeRemotes]
  refine (contexts_foldl (fun s n => contexts_nodeDrops s n _) _ _).trans (contexts_foldl (fun s w => ?_) _ _)
  split
  · split <;> simp
  · rfl

@[simp] theorem State.contexts_touchRemote (s : State) (slice : Nat) (key : LineKey) (node : Option Nat) :
    (s.touchRemote slice key node).contexts = s.contexts := by
  unfold State.touchRemote
  dsimp only
  split
  · rfl
  · rfl
  · rfl
  · split
    · rfl
    · exact contexts_evictRemote s _

/-! Stores at the home (R127, R462). -/

@[simp] theorem State.contexts_recallNow (s : State) (w : Nat) : (s.recallNow w).contexts = s.contexts := by
  unfold State.recallNow
  split <;> simp

@[simp] theorem State.contexts_requestWord_throughStore (s : State) (core : Option Nat) (d slice w : Nat) :
    (s.requestWord core d slice .throughStore w).contexts = s.contexts := by
  simp [State.requestWord]

@[simp] theorem State.contexts_putBytes_none (s : State) (a n x : Nat) (atHome : Bool) :
    (s.putBytes none a n x atHome).contexts = s.contexts := by
  unfold State.putBytes
  dsimp only
  split
  · rfl
  · split <;> rfl

@[simp] theorem State.contexts_mergeCheck (s : State) (a : Nat) : (s.mergeCheck a).contexts = s.contexts := by
  unfold State.mergeCheck
  split <;> simp

@[simp] theorem State.contexts_homeStore (s : State) (a n x : Nat) : (s.homeStore a n x).contexts = s.contexts := by
  refine contexts_foldl (fun s p => ?_) _ _
  dsimp only
  split
  · simp
  · simp only [contexts_freeRemotes, contexts_putBytes_none]
    split <;> simp

@[simp] theorem State.contexts_homeStoreLine (s : State) (base : Nat) (bs : List Byte) (poison : Bool) :
    (s.homeStoreLine base bs poison).contexts = s.contexts := by
  simp only [State.homeStoreLine, contexts_setPoison]
  exact contexts_foldl (fun s i => contexts_homeStore s _ _ _) _ _

@[simp] theorem State.contexts_homeStoreBytes (s : State) (a : Nat) (bs : List Byte) :
    (s.homeStoreBytes a bs).contexts = s.contexts := by
  induction bs generalizing s a with
  | nil => rfl
  | cons b r ih => simp [State.homeStoreBytes, ih]

@[simp] theorem State.contexts_homeStoreRun (s : State) (a : Nat) (bs : List Byte) :
    (s.homeStoreRun a bs).contexts = s.contexts := by
  simp only [State.homeStoreRun, contexts_homeStoreBytes]
  refine (contexts_foldl (fun s i => ?_) _ _).trans (contexts_homeStoreBytes s _ _)
  split <;> simp

@[simp] theorem State.contexts_vaWrite (s : State) (root fuel va : Nat) (bs : List Byte) :
    (s.vaWrite root fuel va bs).contexts = s.contexts := by
  induction fuel generalizing s va bs with
  | zero => rfl
  | succ n ih =>
    unfold State.vaWrite
    split
    · rfl
    · rw [ih]
      split <;> simp

/-- A write into a job's memory leaves every context and slot as it is. -/
@[simp] theorem State.contexts_jobWrite (s : State) (id : BitVec 32) (va : Nat) (bs : List Byte) :
    (s.jobWrite id va bs).contexts = s.contexts := by
  unfold State.jobWrite
  split <;> simp

/-! What a save does beside its slot and its residue (R106, R298, R440). -/

@[simp] theorem State.contexts_writeSave (s : State) (c : Nat) (ps : List (Nat × List Byte)) :
    (s.writeSave c ps).contexts = s.contexts :=
  contexts_foldl (fun s _ => contexts_jobWrite s _ _ _) _ _

@[simp] theorem State.contexts_jobPoison (s : State) (id : BitVec 32) (p : Bool) (va : Nat) :
    (s.jobPoison id p va).contexts = s.contexts := by
  unfold State.jobPoison
  split
  · rfl
  · split <;> simp

@[simp] theorem State.contexts_releaseKey (s : State) (n : Nat) : (s.releaseKey n).contexts = s.contexts := by
  unfold State.releaseKey
  split
  · rfl
  · split
    · rfl
    · simp [State.grantPeer]

@[simp] theorem State.contexts_leaveKey (s : State) (c n : Nat) : (s.leaveKey c n).contexts = s.contexts := by
  unfold State.leaveKey
  dsimp only
  split <;> simp

@[simp] theorem State.contexts_leaveKeys (s : State) (c : Nat) : (s.leaveKeys c).contexts = s.contexts := by
  refine contexts_foldl (fun s (n, k) => ?_) s.keys s
  dsimp only
  split <;> simp

@[simp] theorem State.contexts_releaseLines (s : State) (p : Party → Bool) (core : Nat) :
    (s.releaseLines p core).contexts = s.contexts := by
  unfold State.releaseLines
  split <;> simp

@[simp] theorem State.contexts_unpin (s : State) (core : Nat) (f : Frame) : (s.unpin core f).contexts = s.contexts := by
  simp [State.unpin]

@[simp] theorem State.contexts_unpinRegion (s : State) (core region : Nat) :
    (s.unpinRegion core region).contexts = s.contexts := by
  simp [State.unpinRegion]

end Sys2Proof.Machine
end

section
/-! The statement about causes: the layout of a trap record (R437), what the record of a cause holds (R221), and the steps of
taking a cause (R430). -/

namespace Sys2Proof.Machine

/-! The layout of a trap record (R437). -/

/-- A number of n bytes is written with n bytes (R7). -/
@[simp] theorem length_leBytes (n x : Nat) : (leBytes n x).length = n := by
  induction n generalizing x with
  | zero => rfl
  | succ n ih => simp [leBytes, ih]

/-- A number that n bytes hold reads back as it was written (R7). -/
theorem leNat_leBytes {n x : Nat} (h : x < 256 ^ n) : leNat (leBytes n x) = x := by
  induction n generalizing x with
  | zero => simp only [pow_zero, Nat.lt_one_iff] at h; exact h.symm
  | succ n ih =>
    have hq : x / 256 < 256 ^ n := Nat.div_lt_of_lt_mul (by rwa [pow_succ'] at h)
    simp only [leBytes, leNat, ih hq, BitVec.toNat_ofNat]
    omega

/-- Fields one after another: the width of each in bytes, and its number. -/
def packed (fs : List (Nat × Nat)) : List Byte := fs.flatMap fun f => leBytes f.1 f.2

/-- The first of packed fields stands at offset 0. -/
theorem natAt_packed_head {n x : Nat} (fs : List (Nat × Nat)) (h : x < 256 ^ n) : natAt (packed ((n, x) :: fs)) 0 n = x := by
  have htake : (packed ((n, x) :: fs)).take n = leBytes n x := by
    simp [packed]
  rw [natAt, List.drop_zero, htake, leNat_leBytes h]

/-- Past the first of packed fields, offsets count from its end. -/
theorem natAt_packed_tail {m o : Nat} (x n : Nat) (fs : List (Nat × Nat)) (h : m ≤ o) :
    natAt (packed ((m, x) :: fs)) o n = natAt (packed fs) (o - m) n := by
  simp [natAt, packed, List.drop_append, List.drop_eq_nil_of_le, h]

/-- The fields of a trap record in the order of R437, the bytes 57 to 63 as one field that is zero. -/
def TrapRecord.fields (r : TrapRecord) : List (Nat × Nat) :=
  [(1, r.cause.toNat), (1, r.flags), (1, r.striprec), (1, 1), (4, r.ctx), (8, r.epc.toNat), (8, r.tval.toNat), (8, r.stripb),
   (4, r.vstart), (4, r.lane), (8, r.lpc.toNat), (8, r.engno), (1, r.engtl), (7, 0)]

/-- The device writes the fields of a record one after another. -/
theorem TrapRecord.bytes_eq_packed (r : TrapRecord) : r.bytes = packed r.fields := by
  simp [TrapRecord.bytes, TrapRecord.fields, packed, bytes8, leBytes, zeros]

/-- A trap record is 64 bytes (R437). -/
theorem TrapRecord.length_bytes (r : TrapRecord) : r.bytes.length = 64 := by
  simp [TrapRecord.bytes_eq_packed, TrapRecord.fields, packed]

/-! The record of a cause (R221, R430, R437). -/

/-- A cause of the control thread, or of a context that has not halted, is none of a block after the `halt` (R221). -/
theorem State.afterHalt_eq_false {s : State} (code : Code) (h : s.cur.party.place = .ctl ∨ s.myCtx.halted = false) :
    s.afterHalt code = false := by
  unfold State.afterHalt
  rcases h with h | h <;> simp [h]

/-- A fault of a strip or a lane after the `halt`: a breakpoint and a step are none (R221, R225). -/
theorem State.afterHalt_eq_true {s : State} {code : Code} (hp : s.cur.party.place ≠ .ctl) (hh : s.myCtx.halted = true)
    (h0 : code ≠ 0xC0) (h1 : code ≠ 0xC1) : s.afterHalt code = true := by
  have hcode : (code != 0xC0 && code != 0xC1) = true := by rw [bne_iff_ne.2 h0, bne_iff_ne.2 h1]; rfl
  rw [State.afterHalt, bne_iff_ne.2 hp, hh, Bool.and_assoc, hcode]
  rfl

/-- Bits 2:1 of FLAGS of a trap record, by the place of the party: bit 1 in a strip, bit 2 in a lane too (R437). -/
def placeBits : Place → Nat
  | .ctl => 0
  | .strip _ => 1
  | .lane _ _ => 3

/-- The bits of a place are two. -/
theorem placeBits_le (p : Place) : placeBits p ≤ 3 := by
  cases p <;> simp [placeBits]

/-- FLAGS of a record: bit 0 when the cause is imprecise, the bits of the place, bit 4 for an engine's fault (R437). -/
theorem State.recordOf_flags (s : State) (code : Code) (tval : Word) : (s.recordOf code tval).flags =
    (if s.cur.late || s.afterHalt code then 1 else 0) + 2 * placeBits s.cur.party.place
      + (if s.cur.engine.isSome then 16 else 0) := by
  cases hp : s.cur.party.place <;> simp [State.recordOf, placeBits, hp]

/-- The bits of the place stand in bits 2:1 of FLAGS (R437). -/
theorem State.recordOf_placeBits (s : State) (code : Code) (tval : Word) :
    (s.recordOf code tval).flags % 8 / 2 = placeBits s.cur.party.place := by
  have hbits := placeBits_le s.cur.party.place
  rw [State.recordOf_flags]
  split <;> split <;> omega

/-- A fault of a block after the `halt` is imprecise (R221). -/
theorem State.recordOf_imprecise {s : State} {code : Code} (tval : Word) (h : s.afterHalt code = true) :
    (s.recordOf code tval).flags % 2 = 1 := by
  rw [State.recordOf_flags, h, Bool.or_true, if_pos rfl]
  split <;> omega

/-- EPC of a record: the address of the instruction, or of the `halt` after which the block faults (R221, R430). -/
theorem State.recordOf_epc (s : State) (code : Code) (tval : Word) :
    (s.recordOf code tval).epc = if s.afterHalt code then s.myCtx.haltPc else s.cur.pc := rfl

/-- On the control thread a record has no strip's fields (R437). -/
theorem State.recordOf_ctl {s : State} (code : Code) (tval : Word) (hp : s.cur.party.place = .ctl) :
    (s.recordOf code tval).stripb = 0 ∧ (s.recordOf code tval).vstart = 0 ∧ (s.recordOf code tval).lane = 0 ∧
      (s.recordOf code tval).lpc = 0 := by
  simp [State.recordOf, hp]

/-- In a strip a record has its STRIPB, and no lane (R437). -/
theorem State.recordOf_strip {s : State} (code : Code) (tval : Word) {b : Nat} (hp : s.cur.party.place = .strip b) :
    (s.recordOf code tval).stripb = b ∧ (s.recordOf code tval).lane = 0 := by
  simp [State.recordOf, hp, placeStripb]

/-- In a lane a record has the strip's STRIPB, the lane and the lane's program counter (R437). -/
theorem State.recordOf_lane {s : State} (code : Code) (tval : Word) {b p : Nat} (hp : s.cur.party.place = .lane b p) :
    (s.recordOf code tval).stripb = b ∧ (s.recordOf code tval).lane = p ∧ (s.recordOf code tval).lpc = s.cur.pc := by
  simp [State.recordOf, hp, placeStripb]

/-! Taking a cause (R430). -/

/-- STATE of a slot reads as it was set, with STOP cleared beside it (R426). -/
theorem slotState_set (r : BitVec 512) (st : BitVec 2) :
    slotState (((r &&& ~~~ (6#512)) ||| ((st.setWidth 512) <<< 1)) &&& ~~~ (8#512)) = st := by
  have hmask : ∀ i < 2, (~~~ (6#512)).getLsbD (1 + i) = false ∧ (~~~ (8#512)).getLsbD (1 + i) = true := by decide +kernel
  refine BitVec.eq_of_getLsbD_eq fun i hi => ?_
  obtain ⟨h6, h8⟩ := hmask i hi
  have hlow : 1 + i < 512 ∧ i < 512 ∧ ¬ 1 + i < 1 := by omega
  simp only [slotState, BitVec.getLsbD_extractLsb', BitVec.getLsbD_and, BitVec.getLsbD_or, BitVec.getLsbD_shiftLeft,
    BitVec.getLsbD_setWidth, h6, h8, hi, hlow, Nat.add_sub_cancel_left, decide_true, decide_false, Bool.and_false,
    Bool.false_or, Bool.and_true, Bool.true_and, Bool.not_false]

/-- A saved context holds nothing in its place any longer (R430). -/
@[simp] theorem State.saveCtx_ctx (s : State) (c : Nat) (trapped : Bool) (pc : Word) :
    (s.saveCtx c trapped pc).ctx c = Ctx.zero :=
  State.ctx_setCtx_same _ _ _

/-- STATE of the slot of a saved context is 0b10 (R426, R430). -/
@[simp] theorem State.saveCtx_slotState (s : State) (c : Nat) (trapped : Bool) (pc : Word) :
    slotState ((s.saveCtx c trapped pc).slot c) = 2 := by
  simp only [State.saveCtx, State.setSlotState, State.slot, State.setCtx_bind, State.modDie_bind, aget_aset_same]
  exact slotState_set _ 2

/-! What a save does beside its slot and its residue leaves the residue as it is. -/

theorem State.residue_retag (s : State) (a b : Nat) : (s.retag a b).residue = s.residue := rfl
theorem State.residue_setSlotState (s : State) (c : Nat) (st : BitVec 2) : (s.setSlotState c st).residue = s.residue := rfl
theorem State.residue_unpinRegion (s : State) (core region : Nat) : (s.unpinRegion core region).residue = s.residue :=
  State.residue_congr (State.contexts_unpinRegion s core region)
theorem State.residue_releaseLines (s : State) (p : Party → Bool) (core : Nat) : (s.releaseLines p core).residue = s.residue :=
  State.residue_congr (State.contexts_releaseLines s p core)
theorem State.residue_leaveKeys (s : State) (c : Nat) : (s.leaveKeys c).residue = s.residue :=
  State.residue_congr (State.contexts_leaveKeys s c)

/-- The residue keeps the saved context at its save area, as it stood but for what it waits for and where it goes on. -/
theorem State.saveCtx_residue (s : State) (c : Nat) (trapped : Bool) (pc : Word) :
    (s.saveCtx c trapped pc).residue =
      aset s.residue (slotSave (s.slot c)) { s.ctx c with wait := none, waiters := [], pc := pc } := by
  simp only [State.saveCtx, State.setCtx_residue, State.residue_setSlotState, State.residue_retag, State.residue_unpinRegion,
    State.residue_releaseLines, State.residue_leaveKeys]
  refine congrArg (aset · _ _) (State.residue_congr ?_)
  exact (State.contexts_foldl (fun s _ => State.contexts_jobPoison s _ _ _) _ _).trans (State.contexts_writeSave _ _ _)

/-- After a cause 0xE0, or where a context names no unit, nothing is delivered (R430). -/
theorem State.deliver_none {s : State} {c : Nat} {code : Code} (h : code = 0xE0 ∨ s.unitOf c = none) :
    s.deliver c code = s := by
  unfold State.deliver
  split
  · rfl
  · next hne =>
    rw [h.resolve_left fun he => hne (beq_iff_eq.2 he)]

/-- A context as a cause saves it: CAUSE, EPC and TVAL have the record's values, and its strips stop (R36, R430). -/
def State.causeCtx (w : State) (c : Nat) (code : Code) (tval : Word) : Ctx :=
  { w.ctx c with
    cause := code, epc := (w.recordOf code tval).epc, tval := tval, strips := (w.ctx c).strips.map Strip.stopped }

/-- The steps of a cause (R430): what the context has begun ends, the context is saved, its record is written, and it is
delivered. -/
theorem State.takeCause_steps {s w : State} (code : Code) (tval : Word) (hw : w = s.stopOps s.me) :
    ∃ (v : State) (pc : Word), v.contexts = w.contexts ∧
      s.takeCause code tval = (((v.setCtx s.me (w.causeCtx s.me code tval)).saveCtx s.me true pc).jobWrite
        (slotJob (w.slot s.me)) (slotSave (w.slot s.me)) (w.recordOf code tval).bytes).deliver s.me code := by
  simp only [State.takeCause, ← hw]
  exact ⟨w.modTele _, _, rfl, rfl⟩

/-- What is kept of a context that a cause has saved, once its record is written. -/
theorem State.residue_cause {v w : State} (c : Nat) (x : Ctx) (pc : Word) (bs : List Byte) (hv : v.contexts = w.contexts) :
    aget Ctx.zero (((v.setCtx c x).saveCtx c true pc).jobWrite (slotJob (w.slot c)) (slotSave (w.slot c)) bs).residue
      (slotSave (w.slot c)) = { x with wait := none, waiters := [], pc := pc } := by
  have hslot : (v.setCtx c x).slot c = w.slot c := State.slot_congr hv c
  rw [State.residue_congr (State.contexts_jobWrite _ _ _ _), State.saveCtx_residue, hslot, aget_aset_same,
    State.ctx_setCtx_same]

/-- Settles O15: the steps of a cause give what it saves, packed fields the bytes of its record, and the place of the issuing
party the record's fields. -/
theorem causesSaveTheContextAndItsRecord : Obligations.CausesSaveTheContextAndItsRecord := by
  unfold Obligations.CausesSaveTheContextAndItsRecord
  refine ⟨fun s w code tval hw => ?_, fun r hflags hrec hctx hb hvs hlane hno htl => ⟨r.length_bytes, ?_⟩,
    fun s code tval => ⟨rfl, rfl, rfl, fun h => ?_, fun hp hh h0 h1 => ?_, fun hp => ?_, fun b hp => ?_, fun b p hp => ?_⟩⟩
  · obtain ⟨v, pc, hv, htake⟩ := State.takeCause_steps code tval hw
    have hres := State.residue_cause s.me (w.causeCtx s.me code tval) pc (w.recordOf code tval).bytes hv
    refine ⟨_, _, htake, rfl, ?_, ?_, ?_, ?_, ?_, fun h => htake.trans (State.deliver_none h)⟩
    · rw [State.slot_congr (State.contexts_jobWrite _ _ _ _), State.saveCtx_slotState]
    · rw [State.ctx_congr (State.contexts_jobWrite _ _ _ _), State.saveCtx_ctx]
    all_goals rw [hres]; rfl
  · rw [TrapRecord.bytes_eq_packed, TrapRecord.fields]
    simp (disch := omega) [natAt_packed_head, natAt_packed_tail]
  · rw [State.recordOf_epc, State.afterHalt_eq_false code h]
    rfl
  · have hlate := State.afterHalt_eq_true hp hh h0 h1
    exact ⟨by rw [State.recordOf_epc, hlate]; rfl, State.recordOf_imprecise tval hlate⟩
  · exact ⟨by rw [State.recordOf_placeBits, hp]; rfl, State.recordOf_ctl code tval hp⟩
  · exact ⟨by rw [State.recordOf_placeBits, hp]; rfl, State.recordOf_strip code tval hp⟩
  · exact ⟨by rw [State.recordOf_placeBits, hp]; rfl, State.recordOf_lane code tval hp⟩

end Sys2Proof.Machine
end

section
/-! The statement about the encoding (R177 to R185, R352 to R355). -/

namespace Sys2Proof.Machine

open Sys2Proof.Laws in
/-- Every row of the opcode table has its round trip: the case split over the instructions, each by the lemma of its name. -/
theorem roundTrip_of_instr : ∀ i : Instr, RoundTrip.Statement i
  | .nop g => RoundTrip.nop g | .halt g => RoundTrip.halt g | .vsync g => RoundTrip.vsync g
  | .fenceNear g => RoundTrip.fenceNear g | .tlwait g => RoundTrip.tlwait g | .wexit g => RoundTrip.wexit g
  | .add g o => RoundTrip.add g o | .sub g o => RoundTrip.sub g o | .and g o => RoundTrip.and g o
  | .or g o => RoundTrip.or g o | .xor g o => RoundTrip.xor g o | .sll g o => RoundTrip.sll g o
  | .srl g o => RoundTrip.srl g o | .sra g o => RoundTrip.sra g o | .slt g o => RoundTrip.slt g o
  | .sltu g o => RoundTrip.sltu g o | .mul g o => RoundTrip.mul g o | .div g o => RoundTrip.div g o
  | .divu g o => RoundTrip.divu g o | .rem g o => RoundTrip.rem g o | .remu g o => RoundTrip.remu g o
  | .addi g o => RoundTrip.addi g o | .andi g o => RoundTrip.andi g o | .ori g o => RoundTrip.ori g o
  | .xori g o => RoundTrip.xori g o | .slli g o => RoundTrip.slli g o | .srli g o => RoundTrip.srli g o
  | .srai g o => RoundTrip.srai g o | .mov g o => RoundTrip.mov g o | .not g o => RoundTrip.not g o
  | .clz g o => RoundTrip.clz g o | .cpop g o => RoundTrip.cpop g o | .beq g o => RoundTrip.beq g o
  | .bne g o => RoundTrip.bne g o | .blt g o => RoundTrip.blt g o | .bge g o => RoundTrip.bge g o
  | .bltu g o => RoundTrip.bltu g o | .bgeu g o => RoundTrip.bgeu g o | .jmp g o => RoundTrip.jmp g o
  | .call g o => RoundTrip.call g o | .jr g o => RoundTrip.jr g o | .callr g o => RoundTrip.callr g o
  | .callt g o => RoundTrip.callt g o | .vblk g o => RoundTrip.vblk g o | .li g o => RoundTrip.li g o
  | .lea g o => RoundTrip.lea g o | .fadd g o => RoundTrip.fadd g o | .fsub g o => RoundTrip.fsub g o
  | .fmul g o => RoundTrip.fmul g o | .fdiv g o => RoundTrip.fdiv g o | .feq g o => RoundTrip.feq g o
  | .flt g o => RoundTrip.flt g o | .fle g o => RoundTrip.fle g o | .fcvt g o => RoundTrip.fcvt g o
  | .crd g o => RoundTrip.crd g o | .cwr g o => RoundTrip.cwr g o | .rqget g o => RoundTrip.rqget g o
  | .setvl g o => RoundTrip.setvl g o | .setvlW g o => RoundTrip.setvlW g o | .vend g => RoundTrip.vend g
  | .vrejoin g => RoundTrip.vrejoin g | .vlset g o => RoundTrip.vlset g o | .vloop g o => RoundTrip.vloop g o
  | .vbany g o => RoundTrip.vbany g o | .vbnone g o => RoundTrip.vbnone g o | .vadd g o => RoundTrip.vadd g o
  | .vsub g o => RoundTrip.vsub g o | .vmul g o => RoundTrip.vmul g o | .vmulh g o => RoundTrip.vmulh g o
  | .vmin g o => RoundTrip.vmin g o | .vmax g o => RoundTrip.vmax g o | .vand g o => RoundTrip.vand g o
  | .vor g o => RoundTrip.vor g o | .vxor g o => RoundTrip.vxor g o | .vsll g o => RoundTrip.vsll g o
  | .vsrl g o => RoundTrip.vsrl g o | .vsra g o => RoundTrip.vsra g o | .vsadd g o => RoundTrip.vsadd g o
  | .vssub g o => RoundTrip.vssub g o | .vdiv g o => RoundTrip.vdiv g o | .vrem g o => RoundTrip.vrem g o
  | .vfadd g o => RoundTrip.vfadd g o | .vfsub g o => RoundTrip.vfsub g o | .vfmul g o => RoundTrip.vfmul g o
  | .vfdiv g o => RoundTrip.vfdiv g o | .vfma g o => RoundTrip.vfma g o | .vfms g o => RoundTrip.vfms g o
  | .vfmin g o => RoundTrip.vfmin g o | .vfmax g o => RoundTrip.vfmax g o | .vfsqrt g o => RoundTrip.vfsqrt g o
  | .vfabs g o => RoundTrip.vfabs g o | .vfneg g o => RoundTrip.vfneg g o | .vmseq g o => RoundTrip.vmseq g o
  | .vmsne g o => RoundTrip.vmsne g o | .vmslt g o => RoundTrip.vmslt g o | .vmsle g o => RoundTrip.vmsle g o
  | .vmsltu g o => RoundTrip.vmsltu g o | .vmsleu g o => RoundTrip.vmsleu g o | .vmfeq g o => RoundTrip.vmfeq g o
  | .vmflt g o => RoundTrip.vmflt g o | .vmfle g o => RoundTrip.vmfle g o | .mand g o => RoundTrip.mand g o
  | .mor g o => RoundTrip.mor g o | .mxor g o => RoundTrip.mxor g o | .mnot g o => RoundTrip.mnot g o
  | .mmv g o => RoundTrip.mmv g o | .msbf g o => RoundTrip.msbf g o | .msif g o => RoundTrip.msif g o
  | .msof g o => RoundTrip.msof g o | .mcnt g o => RoundTrip.mcnt g o | .many g o => RoundTrip.many g o
  | .mfirst g o => RoundTrip.mfirst g o | .vmv g o => RoundTrip.vmv g o | .vid g o => RoundTrip.vid g o
  | .vcompress g o => RoundTrip.vcompress g o | .vexpand g o => RoundTrip.vexpand g o
  | .vslideup g o => RoundTrip.vslideup g o | .vslidedn g o => RoundTrip.vslidedn g o
  | .vgather g o => RoundTrip.vgather g o | .vmerge g o => RoundTrip.vmerge g o | .vredsum g o => RoundTrip.vredsum g o
  | .vfredo g o => RoundTrip.vfredo g o | .vfredt g o => RoundTrip.vfredt g o | .vredmin g o => RoundTrip.vredmin g o
  | .vredmax g o => RoundTrip.vredmax g o | .vcvt g o => RoundTrip.vcvt g o | .vunpk g o => RoundTrip.vunpk g o
  | .vpilgrim g o => RoundTrip.vpilgrim g o | .vqpush g o => RoundTrip.vqpush g o | .vqpop g o => RoundTrip.vqpop g o
  | .vdetach g o => RoundTrip.vdetach g o | .vld g o => RoundTrip.vld g o | .vst g o => RoundTrip.vst g o
  | .vlds g o => RoundTrip.vlds g o | .vsts g o => RoundTrip.vsts g o | .vldx g o => RoundTrip.vldx g o
  | .vstx g o => RoundTrip.vstx g o | .vldff g o => RoundTrip.vldff g o | .vtld g o => RoundTrip.vtld g o
  | .vtst g o => RoundTrip.vtst g o | .lb g o => RoundTrip.lb g o | .lbu g o => RoundTrip.lbu g o
  | .lw g o => RoundTrip.lw g o | .lwu g o => RoundTrip.lwu g o | .ld g o => RoundTrip.ld g o | .sb g o => RoundTrip.sb g o
  | .sw g o => RoundTrip.sw g o | .sd g o => RoundTrip.sd g o | .vbind g o => RoundTrip.vbind g o
  | .vbindz g o => RoundTrip.vbindz g o | .vbindn g o => RoundTrip.vbindn g o | .vunbind g o => RoundTrip.vunbind g o
  | .pcopy g o => RoundTrip.pcopy g o | .pcopyz g o => RoundTrip.pcopyz g o | .coll g o => RoundTrip.coll g o
  | .racq g o => RoundTrip.racq g o | .rrel g o => RoundTrip.rrel g o | .fenceFar g o => RoundTrip.fenceFar g o
  | .aadd g o => RoundTrip.aadd g o | .aand g o => RoundTrip.aand g o | .aor g o => RoundTrip.aor g o
  | .axor g o => RoundTrip.axor g o | .amin g o => RoundTrip.amin g o | .amax g o => RoundTrip.amax g o
  | .aminu g o => RoundTrip.aminu g o | .amaxu g o => RoundTrip.amaxu g o | .aswap g o => RoundTrip.aswap g o
  | .acas g o => RoundTrip.acas g o | .afadd g o => RoundTrip.afadd g o | .afmin g o => RoundTrip.afmin g o
  | .afmax g o => RoundTrip.afmax g o | .vaadd g o => RoundTrip.vaadd g o | .vafadd g o => RoundTrip.vafadd g o
  | .vamin g o => RoundTrip.vamin g o | .vamax g o => RoundTrip.vamax g o | .vafmin g o => RoundTrip.vafmin g o
  | .vafmax g o => RoundTrip.vafmax g o | .vrsadd g o => RoundTrip.vrsadd g o | .vrsfadd g o => RoundTrip.vrsfadd g o
  | .bararv g o => RoundTrip.bararv g o | .bardrop g o => RoundTrip.bardrop g o | .barwait g o => RoundTrip.barwait g o
  | .wcarr g o => RoundTrip.wcarr g o | .wcwait g o => RoundTrip.wcwait g o | .wccancel g o => RoundTrip.wccancel g o
  | .tld g o => RoundTrip.tld g o | .tst g o => RoundTrip.tst g o | .tmma g o => RoundTrip.tmma g o
  | .tmmaS g o => RoundTrip.tmmaS g o | .tdrain g o => RoundTrip.tdrain g o | .tcvt g o => RoundTrip.tcvt g o
  | .tzero g o => RoundTrip.tzero g o | .mattach g o => RoundTrip.mattach g o | .mdetach g => RoundTrip.mdetach g
  | .rrun g o => RoundTrip.rrun g o | .rtw g o => RoundTrip.rtw g o | .rcommit g o => RoundTrip.rcommit g o
  | .rclass g o => RoundTrip.rclass g o | .rmiss g o => RoundTrip.rmiss g o | .rstat g o => RoundTrip.rstat g o
  | .scall g o => RoundTrip.scall g o | .trap g o => RoundTrip.trap g o | .bkpt tl => RoundTrip.bkpt tl
  | .kadd o => RoundTrip.kadd o | .ksub o => RoundTrip.ksub o | .kmul o => RoundTrip.kmul o | .kand o => RoundTrip.kand o
  | .kor o => RoundTrip.kor o | .kxor o => RoundTrip.kxor o | .ksll o => RoundTrip.ksll o | .ksrl o => RoundTrip.ksrl o
  | .ksra o => RoundTrip.ksra o | .kslt o => RoundTrip.kslt o | .kaddi o => RoundTrip.kaddi o | .kli o => RoundTrip.kli o
  | .kbeq o => RoundTrip.kbeq o | .kbne o => RoundTrip.kbne o | .kblt o => RoundTrip.kblt o | .kbge o => RoundTrip.kbge o
  | .kjmp o => RoundTrip.kjmp o | .kend o => RoundTrip.kend o | .lshape o => RoundTrip.lshape o
  | .lwait o => RoundTrip.lwait o | .lfence o => RoundTrip.lfence o | .xld o => RoundTrip.xld o | .xst o => RoundTrip.xst o
  | .xbcast o => RoundTrip.xbcast o | .xadd o => RoundTrip.xadd o | .xsub o => RoundTrip.xsub o
  | .xmul o => RoundTrip.xmul o | .xfma o => RoundTrip.xfma o | .xmin o => RoundTrip.xmin o | .xmax o => RoundTrip.xmax o
  | .xcvt o => RoundTrip.xcvt o | .xmma o => RoundTrip.xmma o
  | .lortarAsyncComplete ctx id => RoundTrip.lortarAsyncComplete ctx id | .ecall job => RoundTrip.ecall job
  | .ebreak job => RoundTrip.ebreak job
  | .controlProgramException job e tval => RoundTrip.controlProgramException job e tval
  | .stripDispatch ctx => RoundTrip.stripDispatch ctx | .watermarkRecheck ctx => RoundTrip.watermarkRecheck ctx
  | .blockCommit ctx => RoundTrip.blockCommit ctx | .waitResume p => RoundTrip.waitResume p
  | .replyPush ctx stripb => RoundTrip.replyPush ctx stripb | .preemptionRequest ctx => RoundTrip.preemptionRequest ctx
  | .trapDelivery p code tval imprecise => RoundTrip.trapDelivery p code tval imprecise
  | .handlerComplete ctx => RoundTrip.handlerComplete ctx | .copyComplete core id => RoundTrip.copyComplete core id
  | .copyFault core id written code addr => RoundTrip.copyFault core id written code addr
  | .satchelCheck ctx => RoundTrip.satchelCheck ctx
  | .scratchpadFrameFill ctx page => RoundTrip.scratchpadFrameFill ctx page
  | .collectiveRun core id others => RoundTrip.collectiveRun core id others
  | .drainComplete ctx id => RoundTrip.drainComplete ctx id
  | .drainContributionFault ctx id accepted code => RoundTrip.drainContributionFault ctx id accepted code
  | .barrierEventsApply job addr events => RoundTrip.barrierEventsApply job addr events
  | .relayAdmission cluster => RoundTrip.relayAdmission cluster
  | .relayRecordLeave cluster => RoundTrip.relayRecordLeave cluster
  | .rcommitCopyback cluster => RoundTrip.rcommitCopyback cluster
  | .homeRequest core req line => RoundTrip.homeRequest core req line
  | .coreDropLine core line => RoundTrip.coreDropLine core line | .l2DropLine die line => RoundTrip.l2DropLine die line
  | .uLineLeaseExpiry core line => RoundTrip.uLineLeaseExpiry core line
  | .edgeFlush job lidx edge => RoundTrip.edgeFlush job lidx edge | .stewardBind die => RoundTrip.stewardBind die
  | .quantumExpiry ctx => RoundTrip.quantumExpiry ctx | .accumulatorRevoke ctx => RoundTrip.accumulatorRevoke ctx
  | .l2ModeChange die partitioned => RoundTrip.l2ModeChange die partitioned | .go ctx => RoundTrip.go ctx
  | .stop ctx => RoundTrip.stop ctx | .registerWrite r => RoundTrip.registerWrite r
  | .shootdown job va leaf => RoundTrip.shootdown job va leaf
  | .pageMigration job va paddr => RoundTrip.pageMigration job va paddr | .migWalkRetry p => RoundTrip.migWalkRetry p
  | .hello r => RoundTrip.hello r | .jobCreate r => RoundTrip.jobCreate r | .jobEnd r => RoundTrip.jobEnd r
  | .loadImage r => RoundTrip.loadImage r | .start r => RoundTrip.start r | .launch r => RoundTrip.launch r
  | .wait r => RoundTrip.wait r | .cancel r => RoundTrip.cancel r | .memRead r => RoundTrip.memRead r
  | .memWrite r => RoundTrip.memWrite r | .breakCopy r => RoundTrip.breakCopy r | .breakEnd r => RoundTrip.breakEnd r
  | .checkpointSave r => RoundTrip.checkpointSave r | .checkpointRestore r stream => RoundTrip.checkpointRestore r stream
  | .telemetry r => RoundTrip.telemetry r | .attest r => RoundTrip.attest r | .idcert r => RoundTrip.idcert r
  | .config r => RoundTrip.config r | .syscallVersion c => RoundTrip.syscallVersion c
  | .syscallLaunch c => RoundTrip.syscallLaunch c | .syscallWait c => RoundTrip.syscallWait c
  | .syscallCancel c => RoundTrip.syscallCancel c | .syscallTranslate c => RoundTrip.syscallTranslate c
  | .openQueue c => RoundTrip.openQueue c | .closeQueue c => RoundTrip.closeQueue c | .openGroup c => RoundTrip.openGroup c
  | .openWindow c => RoundTrip.openWindow c | .exposeRegion c => RoundTrip.exposeRegion c
  | .syscallExit c => RoundTrip.syscallExit c
  | .uetInboundWrite port key off bytes => RoundTrip.uetInboundWrite port key off bytes
  | .uetInboundRead port key off len => RoundTrip.uetInboundRead port key off len
  | .uudPacket port => RoundTrip.uudPacket port | .train link rec => RoundTrip.train link rec
  | .trainResend link => RoundTrip.trainResend link | .nak link seq => RoundTrip.nak link seq
  | .down link reason => RoundTrip.down link reason | .messageFlit link f => RoundTrip.messageFlit link f
  | .idleFlit link f => RoundTrip.idleFlit link f | .ackTimeout link => RoundTrip.ackTimeout link
  | .retrainTimeout link => RoundTrip.retrainTimeout link | .ldt m => RoundTrip.ldt m | .ldu m => RoundTrip.ldu m
  | .ownr m => RoundTrip.ownr m | .wr m => RoundTrip.wr m | .reg m => RoundTrip.reg m | .atom m => RoundTrip.atom m
  | .red m => RoundTrip.red m | .key m => RoundTrip.key m | .dropn m => RoundTrip.dropn m | .inv m => RoundTrip.inv m
  | .fwd m => RoundTrip.fwd m | .fwdinv m => RoundTrip.fwdinv m | .recallMsg m => RoundTrip.recallMsg m
  | .binv m => RoundTrip.binv m | .data m => RoundTrip.data m | .ack m => RoundTrip.ack m | .err m => RoundTrip.err m
  | .wb m => RoundTrip.wb m | .ares m => RoundTrip.ares m | .grant m => RoundTrip.grant m | .cdata m => RoundTrip.cdata m
  | .cack m => RoundTrip.cack m | .reset => RoundTrip.reset | .freezePin => RoundTrip.freezePin
  | .extest => RoundTrip.extest | .idcode => RoundTrip.idcode | .samplePreload => RoundTrip.samplePreload
  | .tapFreeze => RoundTrip.tapFreeze | .tapStatus => RoundTrip.tapStatus | .chainsel chain => RoundTrip.chainsel chain
  | .chainout => RoundTrip.chainout | .memaddr addr => RoundTrip.memaddr addr | .memread => RoundTrip.memread
  | .resetreq => RoundTrip.resetreq | .bypass => RoundTrip.bypass | .thermalThrottle temp => RoundTrip.thermalThrottle temp
  | .clockStep temp => RoundTrip.clockStep temp | .thermalFreeze temp => RoundTrip.thermalFreeze temp
  | .crdMessage m => RoundTrip.crdMessage m | .cwrMessage m => RoundTrip.cwrMessage m
  | .receiveQueueTraffic job queue t => RoundTrip.receiveQueueTraffic job queue t
  | .channelLost chan => RoundTrip.channelLost chan | .softError site correctable => RoundTrip.softError site correctable
  | .uetDeliveryFailure core id => RoundTrip.uetDeliveryFailure core id
  | .matrixOperationComplete cluster => RoundTrip.matrixOperationComplete cluster
  | .controlProgramInstruction job => RoundTrip.controlProgramInstruction job
  | .checkpointTierAck job => RoundTrip.checkpointTierAck job | .powerLoss blown => RoundTrip.powerLoss blown

/-- Settles O3: each instruction is read back by the lemma of its row. -/
theorem encodeDecodeRoundTrip : Obligations.EncodeDecodeRoundTrip := by
  unfold Obligations.EncodeDecodeRoundTrip
  exact roundTrip_of_instr

end Sys2Proof.Machine
end

section
/-! The statements about the device as a whole: FREEZE and the test access port (R448, R449), the clock (R469), and reset
and boot (R394, R451 to R455). -/

namespace Sys2Proof.Machine

/-! FREEZE (R448). -/

/-- Sending something for each element of a list changes the output alone. -/
theorem State.foldl_emit {α : Type} (f : α → Output) (l : List α) (s : State) :
    l.foldl (fun s a => s.emit (f a)) s = { s with out := s.out ++ l.map f } := by
  induction l generalizing s with
  | nil => simp
  | cons a l ih => rw [List.foldl_cons, ih]; simp [State.emit]

/-- A value of a map whose values all satisfy a property, as the default does. -/
theorem aget_of_forall {α : Type} {P : α → Prop} {d : α} (hd : P d) {l : List (Nat × α)} (h : ∀ x ∈ l, P x.2) (k : Nat) :
    P (aget d l k) := by
  induction l with
  | nil => exact hd
  | cons x l ih =>
    unfold aget
    split
    · exact h x (List.mem_cons_self ..)
    · exact ih fun y hy => h y (List.mem_cons_of_mem _ hy)

/-- FREEZE changes links, output and the package's own registers and nothing else (R448). -/
theorem State.freeze_eq (s : State) (pin : Bool) : ∃ o, s.freeze pin = { s with
    out := o
    links := s.links.map fun (k, l) => (k, { l with phase := .down })
    chip := { s.chip with frozen := true, frozenByPin := s.chip.frozenByPin || pin, ports := 0 } } := by
  unfold State.freeze
  dsimp only
  split
  · exact ⟨_, rfl⟩
  · rw [State.foldl_emit]; exact ⟨_, rfl⟩

/-- No link is up after FREEZE (R448). -/
theorem State.freeze_link_phase (s : State) (pin : Bool) (k : Nat) : ((s.freeze pin).link k).phase ≠ .up := by
  obtain ⟨o, h⟩ := s.freeze_eq pin
  rw [h]
  refine aget_of_forall (P := fun l : Link => l.phase ≠ .up) (by decide) (fun x hx => ?_) k
  obtain ⟨y, _, rfl⟩ := List.mem_map.1 hx
  simp

/-- Resets and losses of power, after which a frozen device is not the same (R394, R448, R449). -/
def Event.resets (e : Event) : Prop := e = .reset ∨ e = .resetreq ∨ ∃ b, e = .powerLoss b

/-- The device is frozen with ports and links down, and no reset is to come (R448). -/
def State.Frozen (s : State) : Prop :=
  s.chip.frozen = true ∧ s.chip.ports = 0 ∧ (∀ k, (s.link k).phase ≠ .up) ∧ ∀ e ∈ s.agenda, ¬ e.resets

/-- What a happening of a frozen device may change: links, output, time, free values and the package's own registers, but not its
counters of TELEMETRY nor its fuses (R448, R449). -/
def State.SameButPort (s t : State) : Prop :=
  ∃ (c : Chip) (ls : List (Nat × Link)) (o : List Output) (ag : List Event) (n f : Nat),
    t = { s with chip := c, links := ls, out := o, agenda := ag, now := n, fresh := f } ∧
      c.tele = s.chip.tele ∧ c.fuses = s.chip.fuses

theorem State.SameButPort.refl (s : State) : s.SameButPort s := ⟨_, _, _, _, _, _, rfl, rfl, rfl⟩

theorem State.SameButPort.trans {s t u : State} (h : s.SameButPort t) (k : t.SameButPort u) : s.SameButPort u := by
  obtain ⟨c, ls, o, ag, n, f, rfl, ht, hf⟩ := h
  obtain ⟨c', ls', o', ag', n', f', rfl, ht', hf'⟩ := k
  exact ⟨c', ls', o', ag', n', f', rfl, ht'.trans ht, hf'.trans hf⟩

/-- A happening of the test access port leaves the device frozen and the state as it was but for its own registers. -/
def KeepsFrozen (s t : State) : Prop :=
  s.SameButPort t ∧ (t.chip.frozen = true ∧ t.chip.ports = 0 ∧ ∀ k, (t.link k).phase ≠ .up) ∧ t.agenda = s.agenda

/-- Shifting an instruction of the port in keeps a frozen device frozen (R449); c is the package with other registers of its
port, and f the next free value. -/
theorem keepsFrozen_tap {s : State} {c : Chip} {f : Nat} (ir : Byte) (bits : List Byte) (h : s.Frozen)
    (hc : c.frozen = s.chip.frozen ∧ c.ports = s.chip.ports ∧ c.tele = s.chip.tele ∧ c.fuses = s.chip.fuses) :
    KeepsFrozen s (State.tap { s with chip := c, fresh := f } ir bits) := by
  obtain ⟨hf, hp, hl, _⟩ := h
  obtain ⟨cf, cp, ct, cu⟩ := hc
  exact ⟨⟨_, _, _, _, _, _, rfl, ct, cu⟩, ⟨cf.trans hf, cp.trans hp, hl⟩, rfl⟩

/-- FREEZE keeps a frozen device frozen (R448). -/
theorem keepsFrozen_freeze (s : State) (pin : Bool) : KeepsFrozen s (s.freeze pin) := by
  have hl := s.freeze_link_phase pin
  obtain ⟨o, he⟩ := s.freeze_eq pin
  rw [he] at hl ⊢
  exact ⟨⟨_, _, _, _, _, _, rfl, rfl, rfl⟩, ⟨rfl, rfl, hl⟩, rfl⟩

/-- A frozen device answers a happening of its port or its pins by changing the registers of the port alone (R448, R449). -/
theorem runEvent_keepsFrozen {e : Event} {s : State} (hs : e.stopped = true) (hr : ¬ e.resets) (h : s.Frozen) :
    ∃ t, runEvent e s = .next t ∧ KeepsFrozen s t := by
  have same : s.chip.frozen = s.chip.frozen ∧ s.chip.ports = s.chip.ports ∧ s.chip.tele = s.chip.tele ∧
      s.chip.fuses = s.chip.fuses := ⟨rfl, rfl, rfl, rfl⟩
  cases e
  case reset => exact absurd (.inl rfl) hr
  case resetreq => exact absurd (.inr (.inl rfl)) hr
  case powerLoss b => exact absurd (.inr (.inr ⟨b, rfl⟩)) hr
  case freezePin => exact ⟨_, rfl, keepsFrozen_freeze s true⟩
  case tapFreeze =>
    obtain ⟨ht, _, ha⟩ := keepsFrozen_tap (f := s.fresh) 0x10 [] h same
    obtain ⟨hf, hk, hb⟩ := keepsFrozen_freeze (s.tap 0x10 []) false
    exact ⟨_, rfl, ht.trans hf, hk, hb.trans ha⟩
  case extest => exact ⟨_, rfl, keepsFrozen_tap _ _ h same⟩
  case samplePreload => exact ⟨_, rfl, keepsFrozen_tap _ _ h same⟩
  case idcode => exact ⟨_, rfl, keepsFrozen_tap (f := s.fresh) _ _ h same⟩
  case tapStatus => exact ⟨_, rfl, keepsFrozen_tap (f := s.fresh) _ _ h same⟩
  case chainsel n => exact ⟨_, rfl, keepsFrozen_tap (f := s.fresh) _ _ h same⟩
  case memaddr a => exact ⟨_, rfl, keepsFrozen_tap (f := s.fresh) _ _ h same⟩
  case memread => exact ⟨_, rfl, keepsFrozen_tap (f := s.fresh) _ _ h same⟩
  case bypass => exact ⟨_, rfl, keepsFrozen_tap (f := s.fresh) _ _ h same⟩
  case chainout =>
    refine ⟨_, rfl, ?_⟩
    rw [if_pos h.1]
    exact keepsFrozen_tap (f := s.fresh) _ _ h same
  all_goals cases hs

/-- A step of a frozen device keeps it frozen and changes the registers of its port alone (R448). -/
theorem step_frozen {s t : State} (h : s.Frozen) (hstep : step s = .next t) : t.Frozen ∧ s.SameButPort t := by
  obtain ⟨hf, hp, hl, ha⟩ := h
  unfold step oneStep at hstep
  simp only [hf, Bool.true_or, if_true] at hstep
  cases hag : s.agenda with
  | nil =>
    simp only [hag] at hstep
    cases hstep
    exact ⟨⟨hf, hp, hl, fun _ he => absurd he List.not_mem_nil⟩, ⟨_, _, _, _, _, _, rfl, rfl, rfl⟩⟩
  | cons e r =>
    simp only [hag] at hstep
    have hrest : ∀ x ∈ r, ¬ x.resets := fun x hx => ha x (hag ▸ List.mem_cons_of_mem _ hx)
    have hu : State.Frozen { s with now := s.now + 1, agenda := r } := ⟨hf, hp, hl, hrest⟩
    have hsu : s.SameButPort { s with now := s.now + 1, agenda := r } := ⟨_, _, _, _, _, _, rfl, rfl, rfl⟩
    split at hstep
    · next hs =>
      obtain ⟨u, hrun, hsame, ⟨uf, up, ul⟩, hagenda⟩ :=
        runEvent_keepsFrozen hs (ha e (hag ▸ List.mem_cons_self ..)) hu
      obtain rfl : u = t := Host.Outcome.next.inj (hrun.symm.trans hstep)
      exact ⟨⟨uf, up, ul, by rw [hagenda]; exact hrest⟩, hsu.trans hsame⟩
    · cases hstep
      exact ⟨hu, hsu⟩

/-- A run of a frozen device keeps it frozen and changes the registers of its port alone (R448). -/
theorem runFor_frozen {n : Nat} {s t : State} (h : s.Frozen) (hrun : runFor n s = some t) : t.Frozen ∧ s.SameButPort t := by
  induction n generalizing s with
  | zero => cases hrun; exact ⟨h, .refl _⟩
  | succ n ih =>
    unfold runFor at hrun
    split at hrun
    · next u hu =>
      obtain ⟨huf, hsu⟩ := step_frozen h hu
      obtain ⟨ht, hut⟩ := ih huf hrun
      exact ⟨ht, hsu.trans hut⟩
    · cases hrun

/-- The statements name the happenings that reset the device one by one. -/
theorem Event.not_resets_iff (e : Event) : ¬ e.resets ↔ e ≠ .reset ∧ e ≠ .resetreq ∧ ∀ b, e ≠ .powerLoss b := by
  simp [Event.resets]

/-- Settles O59, by induction over the run: every step of a frozen device leaves all but its port's registers. -/
theorem frozenDeviceChangesNothing : Obligations.FrozenDeviceChangesNothing := by
  unfold Obligations.FrozenDeviceChangesNothing
  simp only [← Event.not_resets_iff]
  intro n s t hf hp hl ha hrun
  obtain ⟨⟨tf, tp, tl, ta⟩, c, ls, o, ag, m, f, rfl, htele, hfuses⟩ := runFor_frozen ⟨hf, hp, hl, ha⟩ hrun
  exact ⟨tf, tp, tl, ta, rfl, rfl, rfl, rfl, rfl, rfl, rfl, rfl, rfl, rfl, rfl, rfl, rfl, rfl, rfl, rfl, rfl, rfl, rfl, htele,
    hfuses⟩

/-- Settles O60: the step lemma of a frozen device. -/
theorem frozenIsKeptByEveryStep : Obligations.FrozenIsKeptByEveryStep := by
  unfold Obligations.FrozenIsKeptByEveryStep
  simp only [← Event.not_resets_iff]
  exact fun s t h hstep => (step_frozen h hstep).1

/-! The test access port (R449) and the clock (R469). -/

/-- IDCODE, lowest byte first (R449). -/
theorem idcode_bytes : leBytes 4 0x14D3456F = [0x6F, 0x45, 0xD3, 0x14] := by decide

/-- STATUS is the boot status and, above it, both freeze bits (R449). -/
theorem natAt_statusBytes (b : Byte) (f p : Bool) :
    natAt (leBytes 4 (b.toNat + (if f then 0x100 else 0) + (if p then 0x200 else 0))) 0 1 = b.toNat ∧
      natAt (leBytes 4 (b.toNat + (if f then 0x100 else 0) + (if p then 0x200 else 0))) 1 3 =
        (if f then 1 else 0) + (if p then 2 else 0) := by
  have hb : b.toNat < 256 := b.isLt
  cases f <;> cases p <;> simp [natAt, leBytes, leNat] <;> omega

/-- The clock while the device is hot (R469). -/
theorem execClockStep_hot {temp : Int} {s : State} (h : s.chip.throttling = true) (ht : 100 ≤ temp) :
    exec (.clockStep temp) s = .next { s with chip := { s.chip with clock := s.chip.clock - 100 } } := by
  show execClockStep temp s = _
  simp only [execClockStep, h, ge_iff_le, ht, decide_true, Bool.and_true, if_true]

/-- The clock once the device is no longer hot (R469). -/
theorem execClockStep_cool {temp : Int} {s : State} (h : s.chip.throttling = false ∨ temp < 100) :
    exec (.clockStep temp) s =
      .next { s with chip := { s.chip with throttling := false, clock := min 2100 (s.chip.clock + 100) } } := by
  have hot : (s.chip.throttling && decide (100 ≤ temp)) = false := by
    rcases h with h | h
    · rw [h, Bool.false_and]
    · rw [decide_eq_false (by omega), Bool.and_false]
  show execClockStep temp s = _
  simp only [execClockStep, ge_iff_le, hot, Bool.false_eq_true, if_false]

/-- Settles O58: each instruction of the port is one shift of what its table gives; FREEZE and the clock have their lemmas. -/
theorem testPortFreezeAndHeat : Obligations.TestPortFreezeAndHeat := by
  unfold Obligations.TestPortFreezeAndHeat
  refine ⟨⟨fun s bits ir => ⟨rfl, rfl, rfl, rfl, rfl⟩, fun s pin => ?_, fun s => ?_⟩, fun temp s => ?_⟩
  · have hl := s.freeze_link_phase pin
    obtain ⟨o, he⟩ := s.freeze_eq pin
    rw [he] at hl ⊢
    exact ⟨rfl, rfl, hl, rfl, rfl, rfl, rfl, rfl⟩
  · refine ⟨rfl, rfl, by rw [← idcode_bytes]; rfl, rfl, rfl, ⟨_, rfl⟩, ⟨_, rfl⟩, ⟨_, rfl, length_leBytes _ _, ?_⟩,
      fun n => ⟨_, rfl, rfl, rfl⟩, fun a => ⟨_, rfl, rfl⟩, fun hf => ⟨?_, ?_⟩, fun hf hk => ?_, fun base hf hb => ?_⟩
    · exact natAt_statusBytes _ _ _
    · show execChainout s = _
      simp [execChainout, hf]
    · show execMemread s = _
      simp [execMemread, hf]
    · show execChainout s = _
      simp only [execChainout, hf, hk, if_true]
    · subst hb
      show execMemread s = _
      simp only [execMemread, hf, if_true]
  · refine ⟨fun h => ?_, fun h => ?_, execClockStep_hot, execClockStep_cool, fun h => ?_, fun h => ?_⟩
    · exact congrArg Host.Outcome.next (if_pos h)
    · exact congrArg Host.Outcome.next (if_neg (by omega))
    · exact congrArg Host.Outcome.next (if_pos h)
    · exact congrArg Host.Outcome.next (if_neg (by omega))

/-! Reset and boot (R394, R451 to R455). -/

/-- What reset leaves before stage 0: nothing but fuses, flash, output, what comes from outside, time and free values (R394). -/
theorem State.cleared_eq (s : State) : ∃ o ag, s.cleared =
    { State.reset with chip := s.chip.atReset, out := o, agenda := ag, now := s.now, fresh := s.fresh } := by
  unfold State.cleared
  rw [State.foldl_emit]
  exact ⟨_, _, rfl⟩

/-- A link of the services' stage that is trained reads as in training (R396). -/
theorem aget_training {k : Nat} (h : k < 16) :
    aget Link.zero ((List.range 16).map fun k => (k, Link.training)) k = Link.training := by
  interval_cases k <;> rfl

/-- Stages 3 and 4: routes, output, the status and the SVN fuses, with the links in training (R394, R396, R455). -/
theorem State.bootServices_eq (s : State) : ∃ (r : List (Nat × BitVec 16)) (o : List Output), s.bootServices = { s with
    routes := r
    out := o
    links := (List.range 16).map fun k => (k, Link.training)
    fresh := s.fresh + 1
    chip := { s.chip with
      ports := Config.portsUp s.fresh
      fuses := { s.chip.fuses with svn := max s.chip.fuses.svn s.chip.svn }
      boot := 0
      booted := true } } := by
  unfold State.bootServices State.fillRoutes
  dsimp only
  unfold State.sendTrain
  rw [State.foldl_emit]
  exact ⟨_, _, rfl⟩

/-- The stage that fails by a free value, if one does (R394). -/
def stageOf (s : State) : Nat := (Config.stageFails (s.fresh + 1)).toNat

/-- Boot, case by case: a refused package, a stage that fails, or the services (R394). -/
theorem State.boot_cases (s : State) : ∃ o ag, ∀ u : State,
    u = { State.reset with chip := s.chip.atReset, out := o, agenda := ag, now := s.now, fresh := s.fresh } →
    (packageOk s.chip.fuses s.chip.flash = false ∧ ∃ k, s.boot = { u with
      chip := { u.chip with boot := 1, booted := true, dikPub := k } }) ∨
    (packageOk s.chip.fuses s.chip.flash = true ∧ (2 ≤ stageOf s ∧ stageOf s ≤ 4) ∧ s.boot =
      State.haltBoot { u with chip := u.chip.derive, fresh := s.fresh + 1 } (BitVec.ofNat 8 (stageOf s))) ∨
    (packageOk s.chip.fuses s.chip.flash = true ∧
      s.boot = State.bootServices { u with chip := u.chip.derive, fresh := s.fresh + 1 }) := by
  obtain ⟨o, ag, h⟩ := s.cleared_eq
  refine ⟨o, ag, fun u hu => ?_⟩
  have hb : s.boot = if !packageOk u.chip.fuses u.chip.flash then
      { u with chip := { u.chip with boot := 1, booted := true, dikPub := fit 57 (Config.ed448Public (dikSecret u.chip.fuses.uds)) } }
    else if 2 ≤ stageOf s && stageOf s ≤ 4 then
      State.haltBoot { u with chip := u.chip.derive, fresh := s.fresh + 1 } (BitVec.ofNat 8 (stageOf s))
    else State.bootServices { u with chip := u.chip.derive, fresh := s.fresh + 1 } := by
    unfold State.boot
    rw [h, hu]
    rfl
  have hp : packageOk u.chip.fuses u.chip.flash = packageOk s.chip.fuses s.chip.flash := by rw [hu]; rfl
  rw [hb, hp]
  cases packageOk s.chip.fuses s.chip.flash with
  | false => exact .inl ⟨rfl, _, rfl⟩
  | true =>
    simp only [Bool.not_true, Bool.false_eq_true, if_false, Bool.and_eq_true, decide_eq_true_eq]
    split
    · next hst => exact .inr (.inl ⟨trivial, hst, rfl⟩)
    · exact .inr (.inr ⟨trivial, rfl⟩)

/-- A stage number that fails is a status of its own (R394). -/
theorem status_of_stage {n : Nat} (h : 2 ≤ n ∧ n ≤ 4) : BitVec.ofNat 8 n ≠ 0 ∧ BitVec.ofNat 8 n ≠ 1 ∧
    (BitVec.ofNat 8 n = 2 ∨ BitVec.ofNat 8 n = 3 ∨ BitVec.ofNat 8 n = 4) := by
  obtain ⟨h2, h4⟩ := h
  interval_cases n <;> decide

/-- The SVN fuses that a boot cut short has blown stay within those of the package (R455). -/
theorem svn_blown_bounds (p : Bool) (old new blown : Nat) :
    old ≤ (if p then old + min blown (new - old) else old) ∧
      (if p then old + min blown (new - old) else old) ≤ max old new := by
  split <;> omega

/-- Settles O57, by the three ways in which boot ends. -/
theorem resetBootsTheDevice : Obligations.ResetBootsTheDevice := by
  unfold Obligations.ResetBootsTheDevice
  refine ⟨fun s t ht => ?_, fun s => ⟨_, rfl⟩, fun n s => ⟨_, rfl, ?_⟩⟩
  · obtain rfl : s.boot = t := Host.Outcome.next.inj ht
    obtain ⟨o, ag, h⟩ := s.boot_cases
    rcases h _ rfl with ⟨hp, k, hb⟩ | ⟨hp, hst, hb⟩ | ⟨hp, hb⟩
    · rw [hb]
      refine ⟨rfl, rfl, rfl, rfl, rfl, rfl, rfl, rfl, rfl, rfl, rfl, rfl, rfl, rfl, rfl, fun _ => ⟨rfl, rfl, rfl⟩, fun h => ?_⟩
      exact absurd (hp.symm.trans h) (by decide)
    · obtain ⟨h0, h1, h234⟩ := status_of_stage hst
      rw [hb]
      exact ⟨rfl, rfl, rfl, rfl, rfl, rfl, rfl, rfl, rfl, rfl, rfl, rfl, rfl, rfl, rfl,
        fun h => absurd (hp.symm.trans h) (by decide), fun _ => ⟨h1, fun h => absurd h h0, fun _ => ⟨rfl, rfl, h234⟩⟩⟩
    · obtain ⟨r, o', hs⟩ := State.bootServices_eq { State.reset with
        chip := s.chip.atReset.derive, out := o, agenda := ag, now := s.now, fresh := s.fresh + 1 }
      rw [hb, hs]
      refine ⟨rfl, rfl, rfl, rfl, rfl, rfl, rfl, rfl, rfl, rfl, rfl, rfl, rfl, rfl, rfl,
        fun h => absurd (hp.symm.trans h) (by decide), fun _ => ⟨(by decide : (0 : Byte) ≠ 1), fun _ => ⟨rfl, fun k hk => ?_⟩,
          fun h => absurd rfl h⟩⟩
      exact congrArg Link.phase (aget_training hk)
  · obtain ⟨o, ag, h⟩ := s.cleared_eq
    simp only [h]
    exact ⟨rfl, rfl, rfl, rfl, svn_blown_bounds _ _ _ _⟩

end Sys2Proof.Machine
end

section
/-! The statements about the control thread's instructions: immediates and unary operations (R200 to R202), what register
instructions leave unchanged (R194), transfers and their targets (R176, R203, R204), floating point (R208 to R211), markers and
`vblk` (R215 to R222), and control registers (R44, R45, R212, R213). -/

namespace Sys2Proof.Machine

/-! Immediate, unary and wide-immediate instructions (R200 to R202). -/

/-- The leading zeros counted from bit n down, of a word below 2^n (R201). -/
theorem clzFrom_eq {a : Word} {n : Nat} (hn : n ≤ 64) (h : a.toNat < 2 ^ n) :
    clzFrom a n = if a = 0 then 64 else 63 - a.toNat.log2 := by
  induction n with
  | zero =>
    have h0 : a = 0 := BitVec.eq_of_toNat_eq (by simpa using h)
    simp [clzFrom, h0]
  | succ n ih =>
    unfold clzFrom
    by_cases hb : a.getLsbD n = true
    · have hlow : 2 ^ n ≤ a.toNat := Nat.ge_two_pow_of_testBit hb
      have hpos : a.toNat ≠ 0 := Nat.ne_of_gt (Nat.lt_of_lt_of_le (Nat.two_pow_pos n) hlow)
      have hlog : a.toNat.log2 = n := (Nat.log2_eq_iff hpos).2 ⟨hlow, h⟩
      have hne : a ≠ 0 := fun h0 => hpos (by simp [h0])
      rw [if_pos hb, if_neg hne, hlog]
    · have hlt : a.toNat < 2 ^ n := by
        by_contra hge
        exact hb (Nat.testBit_of_two_pow_le_and_two_pow_add_one_gt (by omega) h)
      rw [if_neg hb, ih (by omega) hlt]

/-- The leading zeros of a word (R201). -/
theorem w64_clz (a : Word) : w64 (clzFrom a 64) = if a = 0 then 64 else BitVec.ofNat 64 (63 - a.toNat.log2) := by
  rw [clzFrom_eq (Nat.le_refl 64) a.isLt]
  split <;> rfl

/-- The ones among the low bits of a word, as a count over positions (R201). -/
theorem popFrom_eq_countP (a : Word) (n : Nat) : popFrom a n = (List.range n).countP fun i => a.getLsbD i := by
  induction n with
  | zero => rfl
  | succ n ih =>
    rw [popFrom, ih, List.range_succ, List.countP_append, List.countP_singleton, Nat.add_comm]

/-- The complement of a word, by its unsigned value (R201). -/
theorem not_eq_ofNat (a : Word) : ~~~a = BitVec.ofNat 64 (2 ^ 64 - 1 - a.toNat) := by
  apply BitVec.eq_of_toNat_eq
  rw [BitVec.toNat_not, BitVec.toNat_ofNat]
  omega

/-- The immediate instruction of a row of R200 writes r of its source and its immediate and is finished. -/
def WritesImmediate (mk : Gates → FormI → Instr) (r : Word → Word → Word) : Prop :=
  ∀ (g : Gates) (o : FormI) (s s1 s2 s3 : State) (a : Word), Ready (mk g o) s s1 → s1.rdS o.sy = .ok a s2 →
    s2.dstReady o.sx = .ok ⟨⟩ s3 →
    exec (mk g o) s = .next (finished (mk g o) s1 (s3.setS o.sx (r a (o.imm.signExtend 64))))

/-- An instruction whose meaning is `immS` with f writes whatever result f is equal to. -/
theorem writesImmediate_of_immS {mk : Gates → FormI → Instr} {f r : Word → Word → Word}
    (hx : ∀ g o s, exec (mk g o) s = issue (mk g o) s fun s => s.immS o.sx o.sy o.imm f) (hf : ∀ a b, f a b = r a b) :
    WritesImmediate mk r := by
  intro g o s s1 s2 s3 a hr ha hd
  rw [hx, issue_ok hr (State.immS_ok o.imm f ha hd), hf]

/-- The unary instruction of a row of R201 writes r of its source and is finished. -/
def WritesUnary (mk : Gates → FormA → Instr) (r : Word → Word) : Prop :=
  ∀ (g : Gates) (o : FormA) (s s1 s2 s3 : State) (a : Word), Ready (mk g o) s s1 → s1.rdS o.sy = .ok a s2 →
    s2.dstReady o.sx = .ok ⟨⟩ s3 → exec (mk g o) s = .next (finished (mk g o) s1 (s3.setS o.sx (r a)))

/-- An instruction whose meaning is `unS` with f writes whatever result f is equal to. -/
theorem writesUnary_of_unS {mk : Gates → FormA → Instr} {f r : Word → Word}
    (hx : ∀ g o s, exec (mk g o) s = issue (mk g o) s fun s => s.unS o.sx o.sy f) (hf : ∀ a, f a = r a) :
    WritesUnary mk r := by
  intro g o s s1 s2 s3 a hr ha hd
  rw [hx, issue_ok hr (State.unS_ok f ha hd), hf]

/-! The issue leaves the latch of the instruction as it was (R175). -/

/-- An acquire leaves the latch. -/
@[simp] theorem State.acquire_cur (s : State) (core scope : Nat) : (s.acquire core scope).cur = s.cur := by
  obtain ⟨cs, rs, h⟩ := s.acquire_cores core scope
  rw [h]

/-- A synchronising operation that goes on has found no store's fault (R161). -/
theorem State.syncPoint_ok {s t : State} (h : s.syncPoint = .ok ⟨⟩ t) : s.myCtx.imprecise = [] ∧ t = s := by
  unfold State.syncPoint at h
  split at h
  · next hi => cases h; exact ⟨hi, rfl⟩
  · cases h

/-- A wait at a timeline that is over leaves the latch (R158, R178). -/
theorem State.waitTimeline_cur {s t : State} {tl : TL} {thr : Nat} {scp : Scope}
    (h : s.waitTimeline tl thr scp = .ok ⟨⟩ t) : t.cur = s.cur := by
  unfold State.waitTimeline at h
  split at h
  · cases h
  cases hs : s.syncPoint with
  | trap c v u => rw [hs] at h; cases h
  | stall w u => rw [hs] at h; cases h
  | ok _ u =>
    obtain ⟨_, rfl⟩ := State.syncPoint_ok hs
    rw [hs, R.andThen_ok] at h
    split at h
    · cases h
    · cases h; exact State.acquire_cur _ _ _

/-- A read of a scalar field that gives a value leaves the latch (R194). -/
theorem State.rdS_cur {s t : State} {k : SReg} {a : Word} (h : s.rdS k = .ok a t) : t.cur = s.cur := by
  cases hp : s.cur.party.place with
  | ctl =>
    rcases State.tokenRead_ok (State.rdS_ctl_ok hp h).1 with rfl | ⟨_, l, cs, rs, rfl⟩ <;> rfl
  | strip b =>
    simp only [State.rdS, hp] at h
    split at h <;> cases h
    rfl
  | lane b p =>
    simp only [State.rdS, hp] at h
    split at h
    · split at h
      · cases h
      split at h <;> cases h
      rfl
    · split at h <;> cases h
      rfl

/-- A wait gate that is over leaves the latch (R168, R178). -/
theorem State.waitGate_cur {s t : State} {g : Gates} (h : s.waitGate g = .ok ⟨⟩ t) : t.cur = s.cur := by
  unfold State.waitGate at h
  split at h
  · cases h; rfl
  · next w _ =>
    cases hr : s.rdS w.thr with
    | trap c v u => rw [hr] at h; cases h
    | stall w u => rw [hr] at h; cases h
    | ok a u =>
      rw [hr, R.bind_ok] at h
      exact (State.waitTimeline_cur h).trans (State.rdS_cur hr)

/-- An instruction that is ready issues at its own address (R175, R187). -/
theorem Ready.cur {i : Instr} {s s1 : State} (h : Ready i s s1) : s1.cur = s.cur := by
  obtain ⟨_, _, hg, _⟩ := h
  split at hg
  · next r _ =>
    obtain ⟨_, hg⟩ := hg
    unfold State.regionGates at hg
    split at hg
    · cases hg; rfl
    · cases hw : s.waitGate (gatesOf i) with
      | trap c v u => rw [hw] at hg; cases hg
      | stall w u => rw [hw] at hg; cases hg
      | ok a u =>
        rw [hw, R.andThen_ok] at hg
        cases hg
        exact (State.waitGate_cur hw : u.cur = s.cur)
  · exact State.waitGate_cur hg

/-- Settles O6: each row is the model's operation on words, and `lea` reads the address at which it issues. -/
theorem scalarImmediateAndUnaryWriteTheirResult : Obligations.ScalarImmediateAndUnaryWriteTheirResult := by
  unfold Obligations.ScalarImmediateAndUnaryWriteTheirResult
  refine ⟨?_, ?_, fun g o s s1 s2 hr hd => ?_, fun g o s s1 s2 hr hd => ?_⟩
  · show ∀ row ∈ (_ : List ((Gates → FormI → Instr) × (Word → Word → Word))), WritesImmediate row.1 row.2
    simp only [List.forall_mem_cons, List.not_mem_nil, false_implies, implies_true, and_true]
    exact ⟨writesImmediate_of_immS (fun _ _ _ => rfl) BitVec.add_def,
      writesImmediate_of_immS (fun _ _ _ => rfl) fun _ _ => rfl,
      writesImmediate_of_immS (fun _ _ _ => rfl) fun _ _ => rfl,
      writesImmediate_of_immS (fun _ _ _ => rfl) fun _ _ => rfl,
      writesImmediate_of_immS (fun _ _ _ => rfl) sllW_eq_ofNat,
      writesImmediate_of_immS (fun _ _ _ => rfl) srlW_eq_ofNat,
      writesImmediate_of_immS (fun _ _ _ => rfl) sraW_eq_ofInt⟩
  · show ∀ row ∈ (_ : List ((Gates → FormA → Instr) × (Word → Word))), WritesUnary row.1 row.2
    simp only [List.forall_mem_cons, List.not_mem_nil, false_implies, implies_true, and_true]
    exact ⟨writesUnary_of_unS (fun _ _ _ => rfl) fun _ => rfl,
      writesUnary_of_unS (fun _ _ _ => rfl) not_eq_ofNat,
      writesUnary_of_unS (fun _ _ _ => rfl) w64_clz,
      writesUnary_of_unS (fun _ _ _ => rfl) fun a => congrArg w64 (popFrom_eq_countP a 64)⟩
  · exact issue_ok hr (State.wrS_ok _ hd)
  · rw [← hr.cur]
    exact issue_ok hr (State.wrS_ok _ hd)

/-! What register instructions leave unchanged on the control thread (R66, R158, R194). -/

/-- Reads of fields on the control thread: a token register's first read acquires, which changes the caches of the core and the
tokens of the context that issues (R66, R158). -/
def State.ReadsTo (s t : State) : Prop :=
  (∃ xs cs rs, t = { s with ctxs := xs, cores := cs, requests := rs }) ∧ (∀ c, c ≠ s.me → t.ctx c = s.ctx c) ∧
    ∃ l, t.ctx s.me = { s.ctx s.me with tokenScopes := l }

theorem State.ReadsTo.refl (s : State) : s.ReadsTo s := ⟨⟨_, _, _, rfl⟩, fun _ _ => rfl, _, rfl⟩

theorem State.ReadsTo.trans {s t u : State} (h : s.ReadsTo t) (k : t.ReadsTo u) : s.ReadsTo u := by
  obtain ⟨⟨xs, cs, rs, ht⟩, ho, l, hl⟩ := h
  obtain ⟨⟨xs', cs', rs', hu⟩, ho', l', hl'⟩ := k
  have hme : t.me = s.me := by rw [ht]; rfl
  rw [hme] at ho' hl'
  exact ⟨⟨xs', cs', rs', by rw [hu, ht]⟩, fun c hc => (ho' c hc).trans (ho c hc), l', by rw [hl', hl]⟩

/-- A read on the control thread (R194). -/
theorem State.readsTo_of_rdS {s t : State} {k : SReg} {a : Word} (hp : s.cur.party.place = .ctl) (h : s.rdS k = .ok a t) :
    s.ReadsTo t := by
  rcases State.tokenRead_ok (State.rdS_ctl_ok hp h).1 with rfl | ⟨_, l, cs, rs, rfl⟩
  · exact .refl _
  · exact ⟨⟨_, _, _, rfl⟩, fun c hc => aget_aset_ne _ _ _ _ _ hc, l, aget_aset_same _ _ _ _⟩

/-- An instruction without gates on the control thread makes no post (R168, R268). -/
theorem ticketOf_none {i : Instr} {s : State} (hp : s.cur.party.place = .ctl) (hg : gatesOf i = Gates.none) :
    ticketOf i s = none := by
  simp [ticketOf, State.duePost, State.myRegion, hp, hg, Gates.none]

/-- A write of a field on the control thread sets its register, and others keep their values (R43, R194). -/
theorem Ctx.sreg_written_ne (x : Ctx) (v : Word) {k q : SReg} (h : q ≠ k) :
    ((x.setSreg k v).forgetToken k).sreg q = x.sreg q := by
  unfold Ctx.forgetToken Ctx.setSreg Ctx.sreg
  split
  · rfl
  · split
    · rfl
    · simp only
      rw [Vector.getElem?_setIfInBounds, if_neg fun he => h (BitVec.eq_of_toNat_eq he.symm)]

/-- An instruction of form B that writes a result of two fields. -/
def BinaryRow (m : Gates → FormB → Instr) : Prop :=
  ∃ f, ∀ g o, gatesOf (m g o) = g ∧ ∀ s, exec (m g o) s = issue (m g o) s fun s => s.binS o.sx o.sy o.sz f
/-- An instruction of form I that writes a result of a field and the immediate. -/
def ImmediateRow (m : Gates → FormI → Instr) : Prop :=
  ∃ f, ∀ g o, gatesOf (m g o) = g ∧ ∀ s, exec (m g o) s = issue (m g o) s fun s => s.immS o.sx o.sy o.imm f
/-- An instruction of form A that writes a result of one field. -/
def UnaryRow (m : Gates → FormA → Instr) : Prop :=
  ∃ f, ∀ g o, gatesOf (m g o) = g ∧ ∀ s, exec (m g o) s = issue (m g o) s fun s => s.unS o.sx o.sy f
/-- An instruction of form W that writes a value of its own. -/
def WideRow (m : Gates → FormW → Instr) : Prop :=
  ∃ f : State → FormW → Word, ∀ g o, gatesOf (m g o) = g ∧ ∀ s, exec (m g o) s = issue (m g o) s fun s => s.wrS o.sx (f s o)

theorem binaryRows : ∀ m ∈ ([.add, .sub, .and, .or, .xor, .sll, .srl, .sra, .slt, .sltu, .mul, .div, .divu, .rem, .remu] :
    List (Gates → FormB → Instr)), BinaryRow m := by
  simp only [List.forall_mem_cons, List.not_mem_nil, false_implies, implies_true, and_true]
  refine ⟨?_, ?_, ?_, ?_, ?_, ?_, ?_, ?_, ?_, ?_, ?_, ?_, ?_, ?_, ?_⟩ <;> exact ⟨_, fun _ _ => ⟨rfl, fun _ => rfl⟩⟩
theorem immediateRows : ∀ m ∈ ([.addi, .andi, .ori, .xori, .slli, .srli, .srai] : List (Gates → FormI → Instr)),
    ImmediateRow m := by
  simp only [List.forall_mem_cons, List.not_mem_nil, false_implies, implies_true, and_true]
  refine ⟨?_, ?_, ?_, ?_, ?_, ?_, ?_⟩ <;> exact ⟨_, fun _ _ => ⟨rfl, fun _ => rfl⟩⟩
theorem unaryRows : ∀ m ∈ ([.mov, .not, .clz, .cpop] : List (Gates → FormA → Instr)), UnaryRow m := by
  simp only [List.forall_mem_cons, List.not_mem_nil, false_implies, implies_true, and_true]
  refine ⟨?_, ?_, ?_, ?_⟩ <;> exact ⟨_, fun _ _ => ⟨rfl, fun _ => rfl⟩⟩
theorem wideRows : ∀ m ∈ ([.li, .lea] : List (Gates → FormW → Instr)), WideRow m := by
  simp only [List.forall_mem_cons, List.not_mem_nil, false_implies, implies_true, and_true]
  exact ⟨⟨fun _ o => o.imm.signExtend 64, fun _ _ => ⟨rfl, fun _ => rfl⟩⟩,
    ⟨fun s o => s.cur.pc + o.imm.signExtend 64, fun _ _ => ⟨rfl, fun _ => rfl⟩⟩⟩

/-- Reads, then one write, then the next address: what an instruction on registers of the control thread comes to. -/
def WritesField (i : Instr) (sx : SReg) (s : State) : Prop :=
  gatesOf i = Gates.none ∧ ∃ v u, s.ReadsTo u ∧ exec i s = .next (finished i s (u.setS sx v))

theorem writesField_binary {m : Gates → FormB → Instr} {o : FormB} {s s2 s3 s4 : State} {a b : Word} (hm : BinaryRow m)
    (hr : Ready (m Gates.none o) s s) (hp : s.cur.party.place = .ctl) (ha : s.rdS o.sy = .ok a s2)
    (hb : s2.rdS o.sz = .ok b s3) (hd : s3.dstReady o.sx = .ok ⟨⟩ s4) : WritesField (m Gates.none o) o.sx s := by
  obtain ⟨f, hf⟩ := hm
  have hp2 : s2.cur.party.place = .ctl := by rw [State.rdS_cur ha, hp]
  obtain rfl := State.dstReady_ok hd
  exact ⟨(hf _ _).1, f a b, s4, (State.readsTo_of_rdS hp ha).trans (State.readsTo_of_rdS hp2 hb),
    ((hf _ _).2 s).trans (issue_ok hr (State.binS_ok f ha hb hd))⟩

theorem writesField_immediate {m : Gates → FormI → Instr} {o : FormI} {s s2 s3 : State} {a : Word} (hm : ImmediateRow m)
    (hr : Ready (m Gates.none o) s s) (hp : s.cur.party.place = .ctl) (ha : s.rdS o.sy = .ok a s2)
    (hd : s2.dstReady o.sx = .ok ⟨⟩ s3) : WritesField (m Gates.none o) o.sx s := by
  obtain ⟨f, hf⟩ := hm
  obtain rfl := State.dstReady_ok hd
  exact ⟨(hf _ _).1, _, s3, State.readsTo_of_rdS hp ha, ((hf _ _).2 s).trans (issue_ok hr (State.immS_ok o.imm f ha hd))⟩

theorem writesField_unary {m : Gates → FormA → Instr} {o : FormA} {s s2 s3 : State} {a : Word} (hm : UnaryRow m)
    (hr : Ready (m Gates.none o) s s) (hp : s.cur.party.place = .ctl) (ha : s.rdS o.sy = .ok a s2)
    (hd : s2.dstReady o.sx = .ok ⟨⟩ s3) : WritesField (m Gates.none o) o.sx s := by
  obtain ⟨f, hf⟩ := hm
  obtain rfl := State.dstReady_ok hd
  exact ⟨(hf _ _).1, _, s3, State.readsTo_of_rdS hp ha, ((hf _ _).2 s).trans (issue_ok hr (State.unS_ok f ha hd))⟩

theorem writesField_wide {m : Gates → FormW → Instr} {o : FormW} {s s2 : State} (hm : WideRow m)
    (hr : Ready (m Gates.none o) s s) (hd : s.dstReady o.sx = .ok ⟨⟩ s2) : WritesField (m Gates.none o) o.sx s := by
  obtain ⟨f, hf⟩ := hm
  obtain rfl := State.dstReady_ok hd
  exact ⟨(hf _ _).1, _, s2, .refl _, ((hf _ _).2 s2).trans (issue_ok hr (State.wrS_ok _ hd))⟩

/-- The context after a write of a field, gone on at the next address: registers, tokens and held faults apart, it is as before
(R43, R66, R175). -/
theorem Ctx.written_frame (x : Ctx) (k : SReg) (v : Word) : ∃ ss sp ts hs, (x.setSreg k v).forgetToken k =
    { x with s := ss, spoison := sp, tokenScopes := ts, held := hs } := by
  unfold Ctx.forgetToken Ctx.setSreg
  split <;> exact ⟨_, _, _, _, rfl⟩

/-- The control thread's context after it goes on at the next address (R175). -/
def Ctx.wentOn (next : Word) (x : Ctx) : Ctx := { Ctx.goesOn .ctl x with pc := next, wait := none, bpPass := none }

/-- Answered requests going leave every context (R399). -/
@[simp] theorem State.dropAnswers_ctx (s : State) (c : Nat) : s.dropAnswers.ctx c = s.ctx c := rfl

/-- The control thread goes on at the next address (R175). -/
theorem State.advance_ctl {s : State} (h : s.cur.party.place = .ctl) : s.advance = (s.modCtx s.me (Ctx.goesOn .ctl)).modCtx s.me
    fun x => { x with pc := s.cur.next, wait := none, bpPass := none } := by
  simp only [State.advance, State.modCtx_cur, h]; rfl

/-- What a write of a field and the next address come to on the control thread: the context is replaced, and of the rest only
requests that are answered go (R43, R175). -/
theorem State.written_advance {u t : State} (hp : u.cur.party.place = .ctl) (k : SReg) (v : Word)
    (ht : t = (u.setS k v).dropAnswers.advance) :
    (∃ xs rs, t = { u with ctxs := xs, requests := rs }) ∧ (∀ c, c ≠ u.me → t.ctx c = u.ctx c) ∧
      t.ctx u.me = Ctx.wentOn u.cur.next (((u.ctx u.me).setSreg k v).forgetToken k) := by
  have hset : u.setS k v = u.modCtx u.me fun x => (x.setSreg k v).forgetToken k := by simp only [State.setS, hp]
  rw [hset, State.advance_ctl (by exact hp)] at ht
  have hme : (u.modCtx u.me fun x => (x.setSreg k v).forgetToken k).dropAnswers.me = u.me := rfl
  rw [hme] at ht
  refine ⟨⟨_, _, ht⟩, fun c hc => ?_, ?_⟩
  · simp [ht, hc]
  · rw [ht]
    simp only [State.ctx_modCtx_same, State.dropAnswers_ctx]
    rfl

/-- Settles O7: reads of fields, one write of a field and the next address leave everything else as it was. -/
theorem scalarRegisterInstructionsFrame : Obligations.ScalarRegisterInstructionsFrame := by
  unfold Obligations.ScalarRegisterInstructionsFrame
  intro i sx s t hi hr hp hx
  have hw : WritesField i sx s := by
    rcases hi with ⟨m, hm, o, rfl, rfl, a, b, s2, s3, s4, ha, hb, hd⟩ | ⟨m, hm, o, rfl, rfl, a, s2, s3, ha, hd⟩ |
      ⟨m, hm, o, rfl, rfl, a, s2, s3, ha, hd⟩ | ⟨m, hm, o, rfl, rfl, s2, hd⟩
    · exact writesField_binary (binaryRows m hm) hr hp ha hb hd
    · exact writesField_immediate (immediateRows m hm) hr hp ha hd
    · exact writesField_unary (unaryRows m hm) hr hp ha hd
    · exact writesField_wide (wideRows m hm) hr hd
  obtain ⟨hg, v, u, ⟨⟨xs, cs, rs, hu⟩, hother, l, hl⟩, he⟩ := hw
  have hcur : u.cur = s.cur := by rw [hu]
  have hme : u.me = s.me := congrArg (·.party.ctx) hcur
  have hdone : t = (u.setS sx v).dropAnswers.advance := by
    rw [← Host.Outcome.next.inj (he.symm.trans hx)]
    simp only [finished, ticketOf_none hp hg, finishedBy]
  obtain ⟨⟨ys, qs, ht⟩, hne, hself⟩ := State.written_advance (by rw [hcur, hp]) sx v hdone
  obtain ⟨ss, sp, ts, hs, hfr⟩ := Ctx.written_frame (u.ctx u.me) sx v
  have hctx : t.ctx s.me = Ctx.wentOn u.cur.next (((u.ctx u.me).setSreg sx v).forgetToken sx) := by
    rw [← hself, hme]
  have hnext : u.cur.next = s.cur.next := congrArg (·.next) hcur
  refine ⟨fun k hk => ?_, ?_⟩
  · rw [hctx]
    refine (Ctx.sreg_written_ne (u.ctx u.me) v hk).trans ?_
    rw [hme, hl]; rfl
  · rw [hctx, hfr, hme, hl, hnext]
    refine ⟨rfl, rfl, rfl, rfl, rfl, rfl, rfl, rfl, rfl, rfl, rfl, rfl, rfl, rfl, rfl, rfl, rfl, rfl, rfl, rfl, fun c hc => ?_, ?_⟩
    · rw [← hother c hc, ← hne c (by rw [hme]; exact hc)]
    · rw [ht, hu]
      exact ⟨rfl, rfl, rfl, rfl, rfl, rfl, rfl, rfl⟩

end Sys2Proof.Machine
end

section
/-! The statements about the control thread's transfers (R176, R203, R204), floating point (R208 to R211), markers and `vblk`
(R215 to R222), and control registers (R44, R45, R212, R213). -/

namespace Sys2Proof.Machine

/-! Transfers (R203, R204). -/

/-- The conditional branch of a row of R203 goes to its target where P holds of its sources, and on at its next address
otherwise. -/
def Branches (mk : Gates → FormJ → Instr) (P : Word → Word → Prop) : Prop :=
  ∀ (g : Gates) (o : FormJ) (s s1 s2 s3 s4 : State) (a b : Word), Ready (mk g o) s s1 →
    s1.rdS o.sx = .ok a s2 → s2.rdS o.sy = .ok b s3 →
    (¬ P a b → exec (mk g o) s = .next (finished (mk g o) s1 s3)) ∧
    (P a b → s3.checkTarget s3.me (s3.cur.pc + 2 * o.off.signExtend 64) = .ok ⟨⟩ s4 →
      exec (mk g o) s = .next (finished (mk g o) s1 (s4.withNext (s3.cur.pc + 2 * o.off.signExtend 64)).refetch))

/-- An instruction whose meaning is `branch` on a condition branches where the condition holds. -/
theorem branches_of_cond {mk : Gates → FormJ → Instr} {cond : Word → Word → Bool} {P : Word → Word → Prop}
    (hx : ∀ g o s, exec (mk g o) s = issue (mk g o) s fun s => s.branch o cond) (hc : ∀ a b, cond a b = true ↔ P a b) :
    Branches mk P := by
  intro g o s s1 s2 s3 s4 a b hr ha hb
  rw [hx]
  refine ⟨fun hn => ?_, fun hp ht => ?_⟩
  · have hf : cond a b = false := Bool.eq_false_iff.2 fun h => hn ((hc a b).1 h)
    exact issue_ok hr (State.branch_untaken ha hb hf)
  · exact issue_ok hr (State.branch_taken ha hb ((hc a b).2 hp) ht)

/-- Settles O8: each branch tests its condition, and each transfer is `jump` or `callTo` at its target. -/
theorem transfersGoToTheirTarget : Obligations.TransfersGoToTheirTarget := by
  unfold Obligations.TransfersGoToTheirTarget
  refine ⟨?_, fun g o s s1 s2 hr ht => ?_, fun g o s s1 s2 s3 hr ht hd => ?_, fun g o s s1 s2 s3 a hr ha ht => ?_,
    fun g o s s1 s2 s3 s4 a hr ha ht hd => ?_⟩
  · show ∀ row ∈ (_ : List ((Gates → FormJ → Instr) × (Word → Word → Prop))), Branches row.1 row.2
    simp only [List.forall_mem_cons, List.not_mem_nil, false_implies, implies_true, and_true]
    exact ⟨branches_of_cond (fun _ _ _ => rfl) fun _ _ => beq_iff_eq,
      branches_of_cond (fun _ _ _ => rfl) fun _ _ => bne_iff_ne,
      branches_of_cond (fun _ _ _ => rfl) fun _ _ => by simp [BitVec.slt],
      branches_of_cond (fun _ _ _ => rfl) fun _ _ => by simp [BitVec.slt],
      branches_of_cond (fun _ _ _ => rfl) fun _ _ => by simp [BitVec.ult],
      branches_of_cond (fun _ _ _ => rfl) fun _ _ => by simp [BitVec.ult]⟩
  · exact issue_ok hr (State.jump_ok ht)
  · exact issue_ok hr (State.callTo_ok ht hd)
  · exact issue_ok hr (by rw [ha, R.bind_ok, State.jump_ok ht])
  · exact issue_ok hr (by rw [ha, R.bind_ok, State.callTo_ok ht hd])

/-! Floating point (R208 to R211). -/

/-- Arithmetic of two fields writes the code and joins the flags (R208, R211). -/
theorem State.fop_ok {s s2 s3 s4 : State} {op : FOp} {o : FormF} {a b : Word} (ha : s.rdS o.sy = .ok a s2)
    (hb : s2.rdS o.sz = .ok b s3) (hd : s3.dstReady o.sx = .ok ⟨⟩ s4) :
    let r := farith op o.fmt.toNat (arithMode o.rnd s3.fctlOf) (ftzOf s3.fctlOf) a.toNat b.toNat 0
    s.fop op o = .ok ⟨⟩ ((s4.setS o.sx (w64 r.1)).addFlags r.2) := by
  unfold State.fop
  simp only [ha, hb, R.bind_ok, State.wrS_ok _ hd, R.andThen_ok]

/-- A comparison of two fields writes 0 or 1 and joins the flags (R209, R211). -/
theorem State.fcmp_ok {s s2 s3 s4 : State} {op : FCmp} {o : FormF} {a b : Word} (ha : s.rdS o.sy = .ok a s2)
    (hb : s2.rdS o.sz = .ok b s3) (hd : s3.dstReady o.sx = .ok ⟨⟩ s4) :
    let r := fcompare op o.fmt.toNat (ftzOf s3.fctlOf) a.toNat b.toNat
    s.fcmp op o = .ok ⟨⟩ ((s4.setS o.sx (boolWord r.1)).addFlags r.2) := by
  unfold State.fcmp
  simp only [ha, hb, R.bind_ok, State.wrS_ok _ hd, R.andThen_ok]

/-- The checks of a transfer's target, in their order (R176). -/
theorem State.checkTarget_cases (s : State) (c : Nat) (a : Word) :
    (a.toNat % 2 = 1 → s.checkTarget c a = .trap 0x22 a s) ∧
    (a.toNat % 2 = 0 → 2 ^ 57 ≤ a.toNat → s.checkTarget c a = .trap 0x20 a s) ∧
    ∀ (hs : List Half) (t : State), a.toNat % 2 = 0 → a.toNat < 2 ^ 57 → s.runAt c a.toNat = none →
      s.fetchLine c a = .ok hs t →
      (targetOk hs (headOf a) = true → s.checkTarget c a = .ok ⟨⟩ t) ∧
      (targetOk hs (headOf a) = false → s.checkTarget c a = .trap 0x03 a t) := by
  have hodd : a.getLsbD 0 = decide (a.toNat % 2 = 1) := by
    rw [BitVec.getLsbD, Nat.testBit_zero]
  have heven : a.toNat % 2 = 0 → a.getLsbD 0 = false := fun h => by rw [hodd, h]; rfl
  unfold State.checkTarget
  refine ⟨fun h => ?_, fun h hge => ?_, fun hs t h hlt hrun hfetch => ?_⟩
  · rw [if_pos (by rw [hodd, h]; rfl)]
  · simp only [heven h, Bool.false_eq_true, if_false, ge_iff_le, hge, if_true]
  · simp only [heven h, Bool.false_eq_true, if_false, ge_iff_le, Nat.not_le.2 hlt, hrun, Option.isSome_none, hfetch]
    exact ⟨fun hk => by rw [if_pos hk], fun hk => by rw [hk]; rfl⟩

/-- Settles O10: the arithmetic and comparison rows are `fop` and `fcmp`, and the target's checks have their own lemma. -/
theorem floatingPointAndTargetChecks : Obligations.FloatingPointAndTargetChecks := by
  unfold Obligations.FloatingPointAndTargetChecks
  refine ⟨⟨?_, ?_, fun g o s s1 hr => ⟨fun hc => ?_, fun s2 s3 a hc ha hd => ?_⟩⟩, State.checkTarget_cases⟩
  · simp only [List.forall_mem_cons, List.not_mem_nil, false_implies, implies_true, and_true]
    refine ⟨?_, ?_, ?_, ?_⟩ <;> exact fun g o s s1 s2 s3 s4 a b hr ha hb hd => issue_ok hr (State.fop_ok ha hb hd)
  · simp only [List.forall_mem_cons, List.not_mem_nil, false_implies, implies_true, and_true]
    refine ⟨?_, ?_, ?_⟩ <;> exact fun g o s s1 s2 s3 s4 a b hr ha hb hd => issue_ok hr (State.fcmp_ok ha hb hd)
  · exact issue_trap hr (by simp only [hc, Bool.not_false, if_true])
  · refine issue_ok hr ?_
    simp only [hc, Bool.not_true, Bool.false_eq_true, if_false, ha, R.bind_ok, State.wrS_ok _ hd, R.andThen_ok]

/-! Markers, ends and the dispatch of blocks (R215 to R222). -/

/-- Whether a context has blocks queued or running (R216). -/
theorem Ctx.hasBlocks_iff (x : Ctx) : x.hasBlocks = true ↔ x.queue ≠ [] ∨ x.run ≠ none := by
  simp [Ctx.hasBlocks, Option.isSome_iff_ne_none]

/-- An acquire at scope 0 has the thread fetch anew and drops nothing (R147, R229). -/
@[simp] theorem State.acquire_zero (s : State) (core : Nat) : s.acquire core 0 = s.refetch := rfl

/-- A store's fault held for the context is taken at a synchronising operation, the oldest first (R161). -/
theorem State.syncPoint_cons {s : State} {c : Code} {v : Word} {r : List (Code × Word)} (h : s.myCtx.imprecise = (c, v) :: r) :
    s.syncPoint = .trap c v { s.modCtx s.me (fun x => { x with imprecise := r }) with cur := { s.cur with late := true } } := by
  unfold State.syncPoint
  rw [h]
  rfl

/-- `vblk` puts its entry at the end of the queue, and the VLC of a context without blocks wants a lane group (R17, R24). -/
theorem Ctx.enqueue_eq (now : Nat) (e : BlockEntry) : Ctx.enqueue now e = fun x =>
    { x with queue := x.queue ++ [e], wants := if x.run = none ∧ x.queue = [] then now else x.wants } := by
  funext x
  simp [Ctx.enqueue]

/-- Settles O11: each marker's body goes through unchanged; `vsync`, `halt`, `wexit` and `vblk` case by case. -/
theorem markersCompleteAndVblkQueues : Obligations.MarkersCompleteAndVblkQueues := by
  unfold Obligations.MarkersCompleteAndVblkQueues
  refine ⟨⟨?_, fun g s s1 hr => ⟨fun hb => ?_, fun hq hn hi => ?_⟩, fun g s s1 hr hi => ?_, fun g s s1 b p hr hp => ?_⟩,
    fun g o s s1 s2 s3 a n hr ha hn => ⟨fun hal => ?_, fun c v r hal hi => ?_, fun hal hi hq => ?_, fun hal hi hq => ?_⟩⟩
  · simp only [List.forall_mem_cons, List.not_mem_nil, false_implies, implies_true, and_true]
    refine ⟨?_, ?_, ?_⟩ <;> exact fun g s s1 hr => issue_ok hr rfl
  · exact issue_stall hr (if_pos ((Ctx.hasBlocks_iff _).2 hb))
  · have hb : ¬ s1.myCtx.hasBlocks = true := by rw [Ctx.hasBlocks_iff, hq, hn]; simp
    refine issue_ok hr ?_
    simp only [if_neg hb, State.syncPoint_none s1 hi, R.andThen_ok, State.acquire_zero]
  · show Host.Outcome.next (State.settleHalt (State.settle _) s.me) = _
    have h := issue_ok (body := fun s => s.syncPoint.andThen fun s => R.done (s.modCtx s.me (Ctx.halt s.cur.pc))) hr
      (by simp only [State.syncPoint_none s1 hi, R.andThen_ok]; rfl)
    exact congrArg (fun t => Host.Outcome.next (State.settleHalt t s.me)) (Host.Outcome.next.inj h)
  · refine issue_ok hr ?_
    simp only [hp]
    exact congrArg (R.ok PUnit.unit) (by unfold State.modMyStrip; rw [hp]; rfl)
  · refine issueOwn_trap hr ?_
    simp only [ha, hn, R.bind_ok, bne_iff_ne, ne_eq, hal, not_false_eq_true, if_true]
  · refine issueOwn_trap hr ?_
    simp only [ha, hn, R.bind_ok, hal, bne_self_eq_false, Bool.false_eq_true, if_false, State.syncPoint_cons hi, R.andThen_trap]
  · refine issueOwn_stall hr ?_
    simp only [ha, hn, R.bind_ok, hal, bne_self_eq_false, Bool.false_eq_true, if_false, State.syncPoint_none s3 hi,
      R.andThen_ok]
    exact if_pos hq
  · refine issueOwn_ok hr ?_
    simp only [ha, hn, R.bind_ok, hal, bne_self_eq_false, Bool.false_eq_true, if_false, State.syncPoint_none s3 hi,
      R.andThen_ok, Ctx.enqueue_eq]
    exact if_neg (Nat.not_le_of_lt hq)

/-! Control registers (R44, R45, R212, R213). -/

/-- A code that names no control register is refused with 0x01 after the place (R182, R212, R213). -/
theorem formCause_unnamed {i : Instr} {n : BitVec 8} {p : Place} (ha : accepts i = true) (hn : codeNamed i = cregNamed n.toNat)
    (hc : creg? n.toNat = none) (hp : placeCause i p = none) : formCause i false p = some 0x01 := by
  have hcode : codeNamed i = false := by rw [hn, ← creg?_isSome, hc]; rfl
  simp [formCause, ha, hp, hcode]

/-- A TSHn value that R54 accepts sets none of its reserved bits (R54, R213). -/
theorem tshOk_reserved {x : Nat} (h : tshOk x = true) : x / 2 ^ 14 % 4 = 0 ∧ x / 8 % 32 = 0 := by
  simp only [tshOk, Bool.and_eq_true, beq_iff_eq] at h
  exact ⟨h.1.1.2, h.1.1.1.2⟩

/-- A value that passes the checks of R213 is written. -/
theorem cwr_checks {n x : Nat} {s : State} {w : Nat} {k : R PUnit} (hw : x < 2 ^ w) (hrnd : n = 0x06 → x % 8 ≤ 5)
    (htsh : 0x10 ≤ n → n ≤ 0x17 → tshOk x = true) :
    (if x ≥ 2 ^ w then .trap 0x02 0 s
      else if (0x10 ≤ n && n ≤ 0x17) && (x / 2 ^ 14 % 4 != 0 || x / 8 % 32 != 0) then .trap 0x02 0 s
      else if n = 0x06 && x % 8 > 5 then .trap 0x02 0 s
      else if (0x10 ≤ n && n ≤ 0x17) && !tshOk x then .trap 0x0B 0 s else k) = k := by
  have hok : (decide (0x10 ≤ n) && decide (n ≤ 0x17)) = true → tshOk x = true := fun h => by
    rw [Bool.and_eq_true, decide_eq_true_eq, decide_eq_true_eq] at h
    exact htsh h.1 h.2
  rw [if_neg (Nat.not_le.2 hw), if_neg, if_neg, if_neg]
  · rw [Bool.and_eq_true, Bool.not_eq_true', not_and, Bool.not_eq_false]
    exact hok
  · rw [Bool.and_eq_true, decide_eq_true_eq, decide_eq_true_eq, not_and]
    exact fun h => Nat.not_lt.2 (hrnd h)
  · rw [Bool.and_eq_true, not_and]
    intro h
    rw [(tshOk_reserved (hok h)).1, (tshOk_reserved (hok h)).2]
    decide

/-- What the control thread's registers read as, and what a write of one sets (R44, R46, R213). -/
theorem creg_ctl (s : State) (v : Word) :
    s.creg 0x00 = BitVec.ofNat 64 (s.dev * 2 ^ 10 + s.me) ∧ s.creg 0x05 = s.myCtx.seed.setWidth 64 ∧
    s.creg 0x06 = s.myCtx.fctl.setWidth 64 ∧ s.creg 0x07 = s.myCtx.fmtst.setWidth 64 ∧
    s.creg 0x40 = s.myCtx.cause.setWidth 64 ∧ s.creg 0x41 = s.myCtx.epc ∧ s.creg 0x42 = s.myCtx.tval ∧
    (s.setCreg 0x05 v).myCtx.seed = v.setWidth 32 ∧ (s.setCreg 0x06 v).myCtx.fctl = v.setWidth 5 ∧
    (s.setCreg 0x07 v).myCtx.fmtst = v.setWidth 7 ∧
    ∀ n : Fin 8, (s.setCreg (0x10 + n.val) v).myCtx.tsh[n.val] = v.setWidth 24 ∧
      ((s.setCreg (0x10 + n.val) v).myCtx.t[n.val]).tag = 0 := by
  have hset : ∀ n, n ≠ 0x03 → (s.setCreg n v).myCtx = (if n = 0x05 then { s.myCtx with seed := v.setWidth 32 }
    else if n = 0x06 then { s.myCtx with fctl := v.setWidth 5 }
    else if n = 0x07 then { s.myCtx with fmtst := v.setWidth 7 }
    else
      { s.myCtx with
        tsh := s.myCtx.tsh.setIfInBounds (n - 0x10) (v.setWidth 24)
        t := s.myCtx.t.setIfInBounds (n - 0x10) { (s.myCtx.t[n - 0x10]?.getD TReg.zero) with tag := 0 } }) := by
    intro n hn
    unfold State.setCreg
    rw [if_neg hn]
    exact State.ctx_modCtx_same _ _ _
  refine ⟨rfl, rfl, rfl, rfl, rfl, rfl, rfl, by rw [hset _ (by decide)]; rfl, by rw [hset _ (by decide)]; rfl,
    by rw [hset _ (by decide)]; rfl, fun n => ?_⟩
  have hlt := n.isLt
  simp only [hset (0x10 + n.val) (by omega), if_neg (show ¬ 0x10 + n.val = 0x05 by omega),
    if_neg (show ¬ 0x10 + n.val = 0x06 by omega), if_neg (show ¬ 0x10 + n.val = 0x07 by omega), Nat.add_sub_cancel_left,
    Vector.getElem_setIfInBounds_self, and_self]

/-- Settles O12: `crd` and `cwr` check the code, the place and the value in their order. -/
theorem controlRegistersReadAndWrite : Obligations.ControlRegistersReadAndWrite := by
  unfold Obligations.ControlRegistersReadAndWrite
  refine ⟨fun g o s hc hp => issue_form (formCause_unnamed rfl rfl hc hp), fun g o s s1 r hr hc => ⟨fun c hp => ?_,
    fun s2 hp hd => ?_⟩, fun g o s hc hp => issue_form (formCause_unnamed rfl rfl hc hp), fun g o s s1 r hr hc =>
    ⟨fun c hp => ?_, fun hp hrw => ?_, fun s2 v hp hrw hv => ⟨fun hw => ?_, fun hw hrnd htsh => ?_⟩⟩, fun s v _ => creg_ctl s v⟩
  · exact issue_trap hr (by simp only [hc, hp])
  · exact issue_ok hr (by simp only [hc, hp, State.wrS_ok _ hd])
  · exact issue_trap hr (by simp only [hc, hp])
  · exact issue_trap hr (by simp only [hc, hp, hrw, Bool.not_false, if_true])
  · refine issue_trap hr ?_
    simp only [hc, hp, hrw, Bool.not_true, Bool.false_eq_true, if_false, hv, R.bind_ok]
    exact if_pos hw
  · refine issue_ok hr ?_
    simp only [hc, hp, hrw, Bool.not_true, Bool.false_eq_true, if_false, hv, R.bind_ok]
    exact cwr_checks hw (fun h => hrnd (BitVec.eq_of_toNat_eq h)) htsh

end Sys2Proof.Machine
end

section
/-! The statements about causes that come from outside an issue (R120, R161, R430, R432), and about the heads, dispatch and ends
of strips and blocks (R16 to R29, R169, R243). -/

namespace Sys2Proof.Machine

/-! A cause that reaches a party (R120, R161, R221, R432). -/

/-- A party that can issue and for which a fault of an engine operation is held takes that fault (R120). -/
theorem execTrapDelivery_held {p : Party} {code : Code} {tval : Word} {imprecise : Bool} {s t : State} {h : HeldFault}
    (ht : t = { s with cur := s.latchFor p }) (hc : code ≠ 0x24) (hl : s.partyLives p = true)
    (hh : (t.ctx p.ctx).held.find? (fun h => h.code == code && h.tval == tval) = some h) :
    exec (.trapDelivery p code tval imprecise) s =
      .next (State.takeCause { t.deliverHeld h with cur := { (t.deliverHeld h).cur with late := imprecise } } code tval) := by
  subst ht
  show execTrapDelivery p code tval imprecise s = _
  unfold execTrapDelivery
  simp only [beq_iff_eq, hc, if_false, hl, Bool.not_true, Bool.false_eq_true, hh]

/-- A party that can issue takes another cause at its next address, no longer held for the context (R161, R221). -/
theorem execTrapDelivery_free {p : Party} {code : Code} {tval : Word} {imprecise : Bool} {s t : State}
    (ht : t = { s with cur := s.latchFor p }) (hc : code ≠ 0x24) (hl : s.partyLives p = true)
    (hh : (t.ctx p.ctx).held.find? (fun h => h.code == code && h.tval == tval) = none) :
    exec (.trapDelivery p code tval imprecise) s = .next (
      let u := (State.modCtx { t with cur := { t.cur with late := imprecise } } p.ctx (Ctx.dropImprecise code tval)).takeCause
        code tval
      if code = 0xE0 then u.answerNative p.ctx (BitVec.allOnes 64) none else u) := by
  subst ht
  show execTrapDelivery p code tval imprecise s = _
  unfold execTrapDelivery
  simp only [beq_iff_eq, hc, if_false, hl, Bool.not_true, Bool.false_eq_true, hh]

/-- A party that no longer lives (R161). -/
theorem execTrapDelivery_gone {p : Party} {code : Code} {tval : Word} {imprecise : Bool} {s : State}
    (hc : code ≠ 0x24) (hl : s.partyLives p = false) : exec (.trapDelivery p code tval imprecise) s =
      .next (if imprecise && slotState (s.slot p.ctx) == 2 then
        s.modOwner (savedTag (slotSave (s.slot p.ctx))) fun x => { x with imprecise := x.imprecise ++ [(code, tval)] }
      else s) := by
  show execTrapDelivery p code tval imprecise s = _
  unfold execTrapDelivery
  simp only [beq_iff_eq, hc, if_false, hl, Bool.not_false, if_true]

/-- TRAP_DELIVERY completes in every state. -/
theorem execTrapDelivery_next (p : Party) (code : Code) (tval : Word) (imprecise : Bool) (s : State) :
    ∃ u, exec (.trapDelivery p code tval imprecise) s = .next u := by
  show ∃ u, execTrapDelivery p code tval imprecise s = .next u
  unfold execTrapDelivery
  split
  · exact ⟨_, rfl⟩
  split
  · exact ⟨_, rfl⟩
  dsimp only
  split <;> exact ⟨_, rfl⟩

/-- Settles O16, by whether the party lives and whether the fault is held for an engine operation. -/
theorem causesReachTheirParty : Obligations.CausesReachTheirParty := by
  unfold Obligations.CausesReachTheirParty
  intro p code tval imprecise s t ht
  refine ⟨fun hc => ?_, fun hc hl => ⟨fun hi hs => ?_, fun h => ?_⟩, fun hc hl => ⟨fun h u hh hu => ?_, fun hh he => ?_,
    fun hh he => ?_⟩, execTrapDelivery_next p code tval imprecise s⟩
  · subst hc; rfl
  · rw [execTrapDelivery_gone hc hl, hi, hs]; rfl
  · rw [execTrapDelivery_gone hc hl, if_neg]
    rw [Bool.and_eq_true, beq_iff_eq, not_and]
    exact fun hi => h.resolve_left fun hf => Bool.noConfusion (hf.symm.trans hi)
  · subst hu; exact execTrapDelivery_held ht hc hl hh
  · rw [execTrapDelivery_free ht hc hl hh, if_neg he]
  · rw [execTrapDelivery_free ht hc hl hh, if_pos he]

/-! The heads of strips (R22, R169, R243). -/

/-- VLMAX of a VTYPE, by its number (R22, R49). -/
theorem vlmax_eq (ty : BitVec 10) : vlmax ty = 1024 * 2 ^ (ty.toNat / 4 % 4) / 2 ^ (ty.toNat % 4) := by
  unfold vlmax
  rw [BitVec.extractLsb'_toNat, BitVec.extractLsb'_toNat, Nat.shiftRight_zero, Nat.shiftRight_eq_div_pow]

/-- A strip stands at its head: a block runs, at whose start address the strip is, with its head due (R22). -/
theorem State.atHead_of {s : State} {r : BlockRun} (hr : s.myCtx.run = some r) (hp : r.entry.start = s.cur.pc)
    (hd : s.myStrip.headDue = true) : s.atHead = true := by
  simp [State.atHead, hr, hp, hd]

/-- Settles O17: `setvl` and `setvl.w` at a head set the strip, and elsewhere raise 0x09. -/
theorem stripHeadsSetTheStrip : Obligations.StripHeadsSetTheStrip := by
  unfold Obligations.StripHeadsSetTheStrip
  refine ⟨⟨fun g o s s1 hh => ⟨fun hr => ?_, fun hr => ?_⟩, fun g o s s1 r b vl hr hrun hpc hd hb hvl => ?_⟩,
    fun g o s s1 s2 s3 s4 w m p hr hh hw hp hs4 => ⟨rfl, fun hle => ?_, fun hlt => ?_⟩⟩
  · exact issue_trap hr (by rw [hh]; rfl)
  · exact issue_trap hr (by rw [hh]; rfl)
  · refine issue_ok hr ?_
    rw [if_pos (State.atHead_of hrun hpc hd)]
    have hrem : s1.remaining o.type = vl := by
      rw [State.remaining, hrun, vlmax_eq, hvl, hb]; rfl
    rw [hrem, hb]
    rfl
  · refine issue_ok hr ?_
    simp only [hh, Bool.not_true, Bool.false_eq_true, if_false, hw, R.bind_ok, hp, if_pos hle, hs4]
  · refine issue_ok hr ?_
    simp only [hh, Bool.not_true, Bool.false_eq_true, if_false, hw, R.bind_ok, hp, if_neg (Nat.not_le.2 hlt), hs4,
      State.remaining, vlmax_eq]

/-! The award of lane groups (R23, R24). -/

/-- The order of awards, field by field (R24). -/
theorem State.before_iff (s : State) (a b : Nat) : s.before a b = true ↔
    ((s.ctx a).groupsHeld = 0 ∧ (s.ctx b).groupsHeld ≠ 0) ∨
      (((s.ctx a).groupsHeld = 0 ↔ (s.ctx b).groupsHeld = 0) ∧
        ((s.ctx a).wants < (s.ctx b).wants ∨ (s.ctx a).wants = (s.ctx b).wants ∧ a < b)) := by
  have hne : ∀ n : Nat, (n != 0) = !decide (n = 0) := fun n => rfl
  unfold State.before
  by_cases ha : (s.ctx a).groupsHeld = 0 <;> by_cases hb : (s.ctx b).groupsHeld = 0 <;>
    by_cases hw : (s.ctx a).wants = (s.ctx b).wants <;> simp [hne, ha, hb, hw]

/-- Of two VLCs at most one is before the other (R24). -/
theorem State.before_asymm {s : State} {a b : Nat} (h : s.before a b = true) : s.before b a ≠ true := by
  rw [State.before_iff] at h
  rw [ne_eq, State.before_iff]
  omega

/-- What an award says (R23, R24). -/
theorem State.awarded_iff (s : State) (c : Nat) : s.awarded c = true ↔
    s.wantsGroup c = true ∧ s.groupsTaken (coreOf c) < 4 ∧
      ∀ i < 4, s.wantsGroup (4 * coreOf c + i) = true → 4 * coreOf c + i ≠ c → s.before c (4 * coreOf c + i) = true := by
  unfold State.awarded
  simp only [Bool.and_eq_true, decide_eq_true_eq, List.all_eq_true, List.mem_range, Bool.or_eq_true, Bool.not_eq_true',
    beq_iff_eq, and_assoc]
  refine and_congr_right fun _ => and_congr_right fun _ => forall_congr' fun i => imp_congr_right fun _ => ?_
  cases s.wantsGroup (4 * coreOf c + i) <;> simp [or_iff_not_imp_left]

/-- A core awards one VLC at a time (R24). -/
theorem State.awarded_unique {s : State} {c d : Nat} (hc : s.awarded c = true) (hd : s.awarded d = true)
    (hcore : coreOf c = coreOf d) : c = d := by
  obtain ⟨wc, _, fc⟩ := (s.awarded_iff c).1 hc
  obtain ⟨wd, _, fd⟩ := (s.awarded_iff d).1 hd
  have hcn : 4 * coreOf d + c % 4 = c := by rw [← hcore]; exact Nat.div_add_mod c 4
  have hdn : 4 * coreOf c + d % 4 = d := by rw [hcore]; exact Nat.div_add_mod d 4
  by_contra hne
  have h1 := fc (d % 4) (Nat.mod_lt _ (by decide)) (by rw [hdn]; exact wd) (by rw [hdn]; exact Ne.symm hne)
  have h2 := fd (c % 4) (Nat.mod_lt _ (by decide)) (by rw [hcn]; exact wc) (by rw [hcn]; exact hne)
  rw [hdn] at h1
  rw [hcn] at h2
  exact State.before_asymm h1 h2

/-! The dispatch of strips and the commit of blocks (R17, R19, R22 to R27, R35). -/

/-- Putting an element into an ordered list adds it. -/
theorem mem_insertBy {α : Type} {key : α → Nat} {a x : α} {l : List α} : x ∈ insertBy key a l ↔ x = a ∨ x ∈ l := by
  induction l with
  | nil => simp [insertBy]
  | cons b r ih =>
    unfold insertBy
    split
    · exact List.mem_cons
    · rw [List.mem_cons, ih, List.mem_cons, or_left_comm]

/-- An ordered list has the elements of the list. -/
theorem mem_sortBy {α : Type} {key : α → Nat} {x : α} {l : List α} : x ∈ sortBy key l ↔ x ∈ l := by
  induction l with
  | nil => rfl
  | cons a r ih => rw [sortBy, List.foldr_cons, mem_insertBy, List.mem_cons]; exact or_congr_right ih

/-- A dispatch leaves the block that runs and the queue (R22). -/
theorem Ctx.dispatch_block (now : Nat) (x : Ctx) : (x.dispatch now).run = x.run ∧ (x.dispatch now).queue = x.queue := by
  unfold Ctx.dispatch
  split
  · exact ⟨rfl, rfl⟩
  · split
    · exact ⟨rfl, rfl⟩
    · split <;> exact ⟨rfl, rfl⟩

/-- STRIP_DISPATCH of a running context: a block begins if none runs, and the awarded VLC dispatches a strip (R17, R22). -/
theorem execStripDispatch_running {c : Nat} {s u : State} (h : slotState (s.slot c) = 1) (hu : u = s.modCtx c Ctx.startBlock) :
    exec (.stripDispatch c) s = .next (if u.awarded c then u.modCtx c (Ctx.dispatch s.now) else u) := by
  subst hu
  show execStripDispatch c s = _
  simp only [execStripDispatch, h, bne_self_eq_false, Bool.false_eq_true, if_false]
  rfl

/-- An awarded VLC whose block runs may dispatch a strip (R22, R23). -/
theorem State.mayDispatch_of_awarded {s : State} {c : Nat} {r : BlockRun} (ha : s.awarded c = true)
    (hr : (s.ctx c).run = some r) : (s.ctx c).mayDispatch r = true := by
  have hw := ((s.awarded_iff c).1 ha).1
  simp only [State.wantsGroup, hr, Bool.and_eq_true] at hw
  exact hw.2

/-- A context changed by functions that agree on it is the same state. -/
theorem State.modCtx_congr {s : State} {c : Nat} {f g : Ctx → Ctx} (h : f (s.ctx c) = g (s.ctx c)) :
    s.modCtx c f = s.modCtx c g := by
  unfold State.modCtx
  rw [h]

/-- A context that wants no change. -/
theorem execBlockCommit_waits {c : Nat} {s : State} (h : (s.ctx c).run = none ∨ (s.ctx c).strips ≠ [] ∨
    ∃ r, (s.ctx c).run = some r ∧ r.next < r.entry.n) : exec (.blockCommit c) s = .next s := by
  show execBlockCommit c s = _
  unfold execBlockCommit
  cases hr : (s.ctx c).run with
  | none => rfl
  | some r =>
    refine if_pos ?_
    rcases h with h | h | ⟨q, hq, hlt⟩
    · exact absurd (hr.symm.trans h) (by simp)
    · simp [h]
    · obtain rfl := Option.some.inj (hr.symm.trans hq)
      simp [hlt]

/-- What the commit of a block does to the context (R25, R61). -/
theorem Ctx.commit_spec (now : Nat) (r : BlockRun) (x : Ctx) :
    (Ctx.commit now r x).run = none ∧ (Ctx.commit now r x).fmtst = x.fmtst ||| r.flags ∧
      (r.lastB = none → (Ctx.commit now r x).v = x.v ∧ (Ctx.commit now r x).m = x.m) ∧
      ∀ b, r.lastB = some b → (Ctx.commit now r x).v = r.lastV ∧ (Ctx.commit now r x).m = r.lastM ∧
        (Ctx.commit now r x).vl = BitVec.ofNat 14 r.lastVl ∧ (Ctx.commit now r x).vtype = r.lastVtype ∧
        (Ctx.commit now r x).stripb = BitVec.ofNat 64 b := by
  cases hB : r.lastB with
  | none => simp [Ctx.commit, hB]
  | some b => simp [Ctx.commit, hB]

/-- Settles O19: the award is a strict order among the VLCs of a core; a dispatch and a commit have their lemmas. -/
theorem stripsStartAndBlocksCommit : Obligations.StripsStartAndBlocksCommit := by
  unfold Obligations.StripsStartAndBlocksCommit
  refine ⟨⟨fun c s h => ?_, fun c s e q h hr hq => ?_, fun c d s => State.awarded_unique, fun c s ha => ?_,
    fun c s u r h hu ha hr => ⟨fun t ht => ?_, fun hn => ?_⟩⟩, fun c s => execBlockCommit_waits, fun c s r hr hn hs =>
    ⟨?_, fun now x => Ctx.commit_spec now r x⟩⟩
  · exact if_pos (bne_iff_ne.2 h)
  · refine ⟨_, execStripDispatch_running h rfl, ?_⟩
    have hstart : (s.ctx c).startBlock = { s.ctx c with run := some (BlockRun.start e), queue := q } := by
      simp only [Ctx.startBlock, hr, hq]
    split
    · simp only [State.ctx_modCtx_same, (Ctx.dispatch_block _ _).1, (Ctx.dispatch_block _ _).2, hstart, and_self]
    · simp only [State.ctx_modCtx_same, hstart, and_self]
  · obtain ⟨hw, hg, hb⟩ := (s.awarded_iff c).1 ha
    exact ⟨hg, hw, fun i hi hwi hne => (s.before_iff _ _).1 (hb i hi hwi hne)⟩
  · have hmay := State.mayDispatch_of_awarded ha hr
    rw [execStripDispatch_running h hu, if_pos ha]
    refine congrArg Host.Outcome.next (State.modCtx_congr ?_)
    simp only [Ctx.dispatch, hr, hmay, Bool.not_true, Bool.false_eq_true, if_false, ht]
    rfl
  · have hmay := State.mayDispatch_of_awarded ha hr
    have hnone : (u.ctx c).ordered.find? (·.resting) = none :=
      List.find?_eq_none.2 fun t ht => by rw [hn t (mem_sortBy.1 ht)]; decide
    rw [execStripDispatch_running h hu, if_pos ha]
    refine congrArg Host.Outcome.next (State.modCtx_congr ?_)
    simp only [Ctx.dispatch, hr, hmay, Bool.not_true, Bool.false_eq_true, if_false, hnone]
    rfl
  · show execBlockCommit c s = _
    simp only [execBlockCommit, hr, hs, List.isEmpty_nil, Bool.not_true, Bool.or_false, Nat.not_lt.2 hn, decide_false,
      Bool.false_eq_true, if_false]

/-! Waits that end, and replies that enter (R16, R29, R169). -/

/-- A change of a strip leaves the reply queue. -/
theorem State.rq_modMyStrip (s : State) (f : Strip → Strip) (c : Nat) : ((s.modMyStrip f).ctx c).rq = (s.ctx c).rq := by
  by_cases h : c = s.me
  · subst h
    unfold State.modMyStrip State.modStrip
    rw [State.ctx_modCtx_same]
    rfl
  · unfold State.modMyStrip State.modStrip
    rw [State.ctx_modCtx_ne _ _ _ _ h]

/-- A reply that may be pushed enters the queue, and the instruction that pushed it is complete (R29, R255). -/
theorem execReplyPush_pushed {c b : Nat} {s : State} {v next : Word}
    (hw : (s.strip c b).wait = some (.replyRoom b v next none)) (hy : s.pushReady c b = true) :
    exec (.replyPush c b) s = .next (State.advance (State.dropAnswers
      ((State.modCtx { s with cur := ⟨⟨c, .strip b⟩, (s.strip c b).pc, next, none, false⟩ } c fun x =>
        { x with rq := x.rq ++ [v] }).modMyStrip fun t => { t with vstart := 0 }))) := by
  show execReplyPush c b s = _
  simp only [execReplyPush, hw, hy, Bool.not_true, Bool.false_eq_true, if_false]
  rfl

/-- Settles O20: each wait's end is one change of its party, and a reply without a post gate enters and completes. -/
theorem waitsEndAndRepliesEnter : Obligations.WaitsEndAndRepliesEnter := by
  unfold Obligations.WaitsEndAndRepliesEnter
  refine ⟨fun c s => rfl, fun c s => rfl, fun c b s => rfl, fun c b p s => rfl, fun c b s v next hw => ⟨fun hn => ?_, fun hy => ?_⟩⟩
  · show execReplyPush c b s = _
    simp only [execReplyPush, hw, hn, Bool.not_false, if_true]
  · refine ⟨_, execReplyPush_pushed hw hy, ?_⟩
    rw [State.dropAnswers_ctx, State.rq_modMyStrip, State.ctx_modCtx_same]
    rfl

end Sys2Proof.Machine
end

section
/-! The statements about elementwise vector instructions: integers and bitwise logic (R249), floating point (R250, R251),
comparisons (R253) and masks (R254). -/

namespace Sys2Proof.Machine

/-! Integer operations (R249). -/

/-- The operation format of an instruction, where its descriptor is accepted (R232). -/
@[simp] theorem fromE_ok {α β : Type} (a : α) (s : State) (k : α → R β) : fromE (.ok a) s k = k a := rfl

/-- Results without flags write their codes and add no flag (R70, R249). -/
theorem State.mapLanes_codes {s : State} {ps srcs : List Nat} {vd w g : Nat} {tag : Tag} (f : Strip → Nat → Nat)
    (h : s.myStrip.poisonedAt srcs w ps = false) : s.mapLanes ps srcs vd w g tag (fun t p => (f t p, 0)) =
      .ok ⟨⟩ (s.putLanes vd w g tag (ps.map fun p => (p, f s.myStrip p)) 0) := by
  rw [State.mapLanes_ok h, foldl_no_flags]

/-- A poisoned source element raises 0xA0 and nothing is written (R462). -/
theorem State.mapLanes_poisoned {s : State} {ps srcs : List Nat} {vd w g : Nat} {tag : Tag} {f : Strip → Nat → Nat × Flags}
    (h : s.myStrip.poisonedAt srcs w ps = true) : s.mapLanes ps srcs vd w g tag f = .trap 0xA0 0 s := by
  unfold State.mapLanes
  exact if_pos h

/-- The registers of a first source and a second one (R233). -/
theorem State.sources_eq (s : State) (o : FormV) (w : Nat) :
    o.va.toNat :: (s.second o w).regs = o.va.toNat :: (if o.bs == 0 then [o.vb.toNat] else []) := by
  rw [State.second_regs]

/-- The integer instruction of a row of R249 writes r of its sources at every active position, or raises what its sources
raise. -/
def WritesIntegers (mk : Gates → FormV → Instr) (r : Bool → Nat → Nat → Nat → Nat) : Prop :=
  ∀ (g : Gates) (o : FormV) (s s1 s2 : State) (tag : Tag) (w gr : Nat) (srcs : List Nat), Ready (mk g o) s s1 →
    s1.vformat o okInt = .ok tag → w = s1.myStrip.ewB → gr = s1.myStrip.grp →
    srcs = o.va.toNat :: (if o.bs == 0 then [o.vb.toNat] else []) →
    GroupsReady (srcs.map fun v => (v, gr)) (some (o.vd.toNat, gr)) s1 s2 →
    (s2.tagsAre srcs tag = false → exec (mk g o) s = .next ((s2.backTo s1).dropAnswers.takeCause 0x05 0)) ∧
    (s2.tagsAre srcs tag = true → s2.myStrip.poisonedAt srcs w (s2.positions o) = true →
      exec (mk g o) s = .next ((s2.backTo s1).dropAnswers.takeCause 0xA0 0)) ∧
    (s2.tagsAre srcs tag = true → s2.myStrip.poisonedAt srcs w (s2.positions o) = false →
      exec (mk g o) s = .next (finished (mk g o) s1 (s2.putLanes o.vd.toNat w gr tag
        ((s2.positions o).map fun p => (p, r (isSignedFmt (tagFmt tag)) (8 * w) (s2.myStrip.el o.va.toNat w p)
          ((s1.second o w).at s2.myStrip w p))) 0)))

/-- An instruction whose meaning is `vint` with f writes whatever result f is equal to. -/
theorem writesIntegers_of_vint {mk : Gates → FormV → Instr} {f r : Bool → Nat → Nat → Nat → Nat}
    (hx : ∀ g o s, exec (mk g o) s = issue (mk g o) s fun s => s.vint o f)
    (hf : ∀ sg n a b, f sg n a b = r sg n a b) : WritesIntegers mk r := by
  intro g o s s1 s2 tag w gr srcs hr hfmt hw hgr hs hg
  subst hw hgr
  rw [← State.sources_eq s1 o s1.myStrip.ewB] at hs
  subst hs
  rw [hx]
  refine ⟨fun ht => ?_, fun ht hp => ?_, fun ht hp => ?_⟩
  · refine issue_trap hr ?_
    simp only [State.vint, hfmt, fromE_ok]
    exact State.vgroups_trap hg (by simp only [ht, Bool.not_false, if_true])
  · refine issue_trap hr ?_
    simp only [State.vint, hfmt, fromE_ok]
    exact State.vgroups_trap hg (by
      simp only [ht, Bool.not_true, Bool.false_eq_true, if_false, State.mapLanes_poisoned hp])
  · refine issue_ok hr ?_
    simp only [State.vint, hfmt, fromE_ok]
    exact State.vgroups_ok hg (by
      simp only [ht, Bool.not_true, Bool.false_eq_true, if_false, State.mapLanes_codes _ hp, hf])

/-- The tags of the sources of a bitwise operation (R57, R249). -/
theorem logic_tags {s s1 : State} {o : FormV} {w gr : Nat} {ta tb : Tag} (ha : s.myStrip.groupTag o.va.toNat gr = some ta)
    (hb : o.bs = 0 → s.myStrip.groupTag o.vb.toNat gr = some tb) :
    (o.va.toNat :: (s1.second o w).regs).map (fun v => s.myStrip.groupTag v gr) =
      some ta :: (if o.bs = 0 then [some tb] else []) := by
  rw [State.second_regs]
  by_cases h : o.bs = 0
  · simp only [beq_iff_eq.2 h, if_pos h, if_true, List.map_cons, List.map_nil, ha, hb h]
  · simp only [beq_eq_false_iff_ne.2 h, if_neg h, Bool.false_eq_true, if_false, List.map_cons, List.map_nil, ha]

/-- The bitwise instruction of a row of R249 writes f of its sources at every active position with their common tag. -/
theorem vlogic_spec {mk : Gates → FormV → Instr} {f : Bool → Nat → Nat → Nat → Nat} {r : Nat → Nat → Nat}
    (hx : ∀ g o s, exec (mk g o) s = issue (mk g o) s fun s => s.vlogic o f) (hf : ∀ n a b, f false n a b = r a b)
    (g : Gates) (o : FormV) (s s1 s2 : State) (w gr : Nat) (srcs : List Nat) (ta tb : Tag) (hr : Ready (mk g o) s s1)
    (hfv : o.fv = 1 → widthOk o.fmt.toNat w = true) (hw : w = s1.myStrip.ewB) (hgr : gr = s1.myStrip.grp)
    (hs : srcs = o.va.toNat :: (if o.bs == 0 then [o.vb.toNat] else []))
    (hg : GroupsReady (srcs.map fun v => (v, gr)) (some (o.vd.toNat, gr)) s1 s2)
    (ha : s2.myStrip.groupTag o.va.toNat gr = some ta) (hb : o.bs = 0 → s2.myStrip.groupTag o.vb.toNat gr = some tb) :
    ((tagFmt ta = 15 ∨ o.bs = 0 ∧ tagFmt tb = 15) →
      exec (mk g o) s = .next ((s2.backTo s1).dropAnswers.takeCause 0x05 0)) ∧
    (tagFmt ta ≠ 15 → (o.bs = 0 → tagFmt tb ≠ 15) → s2.myStrip.poisonedAt srcs w (s2.positions o) = false →
      exec (mk g o) s = .next (finished (mk g o) s1 (s2.putLanes o.vd.toNat w gr (if o.bs = 0 ∧ tb ≠ ta then 0 else ta)
        ((s2.positions o).map fun p => (p, r (s2.myStrip.el o.va.toNat w p) ((s1.second o w).at s2.myStrip w p))) 0))) := by
  subst hw hgr
  rw [← State.sources_eq s1 o s1.myStrip.ewB] at hs
  subst hs
  have hwidth : (o.fv == 1 && !widthOk o.fmt.toNat s1.myStrip.ewB) = false := by
    by_cases h : o.fv = 1
    · rw [hfv h]; simp
    · rw [beq_eq_false_iff_ne.2 h, Bool.false_and]
  rw [hx]
  refine ⟨fun h => ?_, fun hna hnb hp => ?_⟩
  · refine issue_trap hr ?_
    simp only [State.vlogic, hwidth, Bool.false_eq_true, if_false]
    refine State.vgroups_trap hg ?_
    rw [logic_tags ha hb]
    refine if_pos ?_
    rcases h with h | ⟨hbs, h⟩ <;> simp_all
  · refine issue_ok hr ?_
    simp only [State.vlogic, hwidth, Bool.false_eq_true, if_false]
    refine State.vgroups_ok hg ?_
    have hany : (some ta :: (if o.bs = 0 then [some tb] else [])).any (·.all (tagFmt · == 15)) = false := by
      by_cases h : o.bs = 0 <;> simp_all
    have htag : (if (some ta :: (if o.bs = 0 then [some tb] else [])).all (· == some ta) then ta else 0) =
        if o.bs = 0 ∧ tb ≠ ta then 0 else ta := by
      by_cases h : o.bs = 0 <;> by_cases e : tb = ta <;> simp [h, e]
    rw [logic_tags ha hb]
    simp only [hany, Bool.false_eq_true, if_false, List.headD_cons, Option.getD_some]
    rw [State.mapLanes_codes (fun t p => f false (8 * s1.myStrip.ewB) (t.el o.va.toNat s1.myStrip.ewB p)
      ((s1.second o s1.myStrip.ewB).at t s1.myStrip.ewB p)) hp]
    simp only [hf]
    exact congrArg (fun t => R.ok PUnit.unit (s2.putLanes _ _ _ t _ 0)) htag

/-- Settles O21: each row is `vint` or `vlogic` with the model's operation on codes. -/
theorem vectorIntegerWritesItsResults : Obligations.VectorIntegerWritesItsResults := by
  unfold Obligations.VectorIntegerWritesItsResults
  refine ⟨?_, ?_⟩
  · show ∀ row ∈ (_ : List ((Gates → FormV → Instr) × (Bool → Nat → Nat → Nat → Nat))), WritesIntegers row.1 row.2
    simp only [List.forall_mem_cons, List.not_mem_nil, false_implies, implies_true, and_true]
    refine ⟨?_, ?_, ?_, ?_, ?_, ?_, ?_, ?_, ?_, ?_, ?_, ?_, ?_⟩ <;>
      exact writesIntegers_of_vint (fun _ _ _ => rfl) fun _ _ _ _ => rfl
  · simp only [List.forall_mem_cons, List.not_mem_nil, false_implies, implies_true, and_true]
    exact ⟨vlogic_spec (r := fun a b => a &&& b) (fun _ _ _ => rfl) fun _ _ _ => rfl,
      vlogic_spec (r := fun a b => a ||| b) (fun _ _ _ => rfl) fun _ _ _ => rfl,
      vlogic_spec (r := fun a b => a ^^^ b) (fun _ _ _ => rfl) fun _ _ _ => rfl⟩

/-! Floating-point operations (R250, R251). -/

/-- The second source of a floating-point instruction, which a unary one does not take (R250). -/
theorem float_second (s : State) (o : FormV) (w : Nat) (two : Bool) :
    (if two then s.second o w else .code 0).regs = (if two && o.bs == 0 then [o.vb.toNat] else []) ∧
      ∀ t p, (if two then s.second o w else .code 0).at t w p = if two then (s.second o w).at t w p else 0 := by
  cases two with
  | true => exact ⟨State.second_regs s o w, fun _ _ => rfl⟩
  | false => exact ⟨rfl, fun _ _ => rfl⟩

/-- Elementwise results, as the statements write them: each position with its code and flags. -/
theorem State.mapLanes_results {s : State} {ps srcs : List Nat} {vd w g : Nat} {tag : Tag} {f : Strip → Nat → Nat × Flags}
    {rs : List (Nat × Nat × Flags)} (h : s.myStrip.poisonedAt srcs w ps = false)
    (hrs : rs = ps.map fun p => (p, f s.myStrip p)) : s.mapLanes ps srcs vd w g tag f =
      .ok ⟨⟩ (s.putLanes vd w g tag (rs.map fun r => (r.1, r.2.1)) (rs.foldl (fun a r => a ||| r.2.2) 0)) := by
  subst hrs
  unfold State.mapLanes
  simp only [h, Bool.false_eq_true, if_false]

/-- The floating-point instruction of a row of R250 or R251 writes r of its sources at every active position. -/
theorem vflt_spec {mk : Gates → FormV → Instr} {two three : Bool} {f r : Nat → RMode → Bool → Nat → Nat → Nat → Nat × Flags}
    (hx : ∀ g o s, exec (mk g o) s = issue (mk g o) s fun s => s.vflt o two three f)
    (hf : ∀ t m z a b c, f t m z a (if two then b else 0) (if three then c else 0) =
      r t m z a (if two then b else 0) (if three then c else 0))
    (g : Gates) (o : FormV) (s s1 s2 : State) (tag : Tag) (w gr : Nat) (srcs : List Nat) (hr : Ready (mk g o) s s1)
    (hfmt : s1.vformat o okWide = .ok tag) (hw : w = s1.myStrip.ewB) (hgr : gr = s1.myStrip.grp)
    (hs : srcs = o.va.toNat :: (if two && o.bs == 0 then [o.vb.toNat] else []) ++ (if three then [o.vc.toNat] else []))
    (hg : GroupsReady (srcs.map fun v => (v, gr)) (some (o.vd.toNat, gr)) s1 s2) :
    (s2.tagsAre srcs tag = false → exec (mk g o) s = .next ((s2.backTo s1).dropAnswers.takeCause 0x05 0)) ∧
    ∀ rs : List (Nat × Nat × Flags), s2.tagsAre srcs tag = true →
      s2.myStrip.poisonedAt srcs w (s2.positions o) = false →
      rs = ((s2.positions o).map fun p => (p, r (tagFmt tag) (arithMode o.rnd s1.fctlOf) (ftzOf s1.fctlOf)
        (s2.myStrip.el o.va.toNat w p) (if two then (s1.second o w).at s2.myStrip w p else 0)
        (if three then s2.myStrip.el o.vc.toNat w p else 0))) →
      exec (mk g o) s = .next (finished (mk g o) s1 (s2.putLanes o.vd.toNat w gr tag
        (rs.map fun r => (r.1, r.2.1)) (rs.foldl (fun a r => a ||| r.2.2) 0))) := by
  obtain ⟨hregs, hat⟩ := float_second s1 o w two
  rw [← hregs] at hs
  subst hw hgr hs
  rw [hx]
  refine ⟨fun ht => ?_, fun rs ht hp hrs => ?_⟩
  · refine issue_trap hr ?_
    simp only [State.vflt, hfmt, fromE_ok]
    exact State.vgroups_trap hg (by simp only [ht, Bool.not_false, if_true])
  · refine issue_ok hr ?_
    simp only [State.vflt, hfmt, fromE_ok]
    refine State.vgroups_ok hg ?_
    simp only [ht, Bool.not_true, Bool.false_eq_true, if_false]
    exact State.mapLanes_results hp (by simp only [hrs, hat, hf]; rfl)

/-- The place of the sign bit of a format (R70). -/
theorem signBit_true (f : Nat) : signBit f true = 2 ^ ((ffmt f).e + (ffmt f).m) := rfl

/-- Settles O22: each row is `vflt` with the arithmetic of its row. -/
theorem vectorFloatWritesItsResults : Obligations.VectorFloatWritesItsResults := by
  unfold Obligations.VectorFloatWritesItsResults
  simp only [List.forall_mem_cons, List.not_mem_nil, false_implies, implies_true, and_true]
  exact ⟨vflt_spec (two := true) (three := false) (r := fun f m z a b _ => farith .add f m z a b 0) (fun _ _ _ => rfl)
      fun _ _ _ _ _ _ => rfl,
    vflt_spec (two := true) (three := false) (r := fun f m z a b _ => farith .sub f m z a b 0) (fun _ _ _ => rfl)
      fun _ _ _ _ _ _ => rfl,
    vflt_spec (two := true) (three := false) (r := fun f m z a b _ => farith .mul f m z a b 0) (fun _ _ _ => rfl)
      fun _ _ _ _ _ _ => rfl,
    vflt_spec (two := true) (three := false) (r := fun f m z a b _ => farith .div f m z a b 0) (fun _ _ _ => rfl)
      fun _ _ _ _ _ _ => rfl,
    vflt_spec (two := true) (three := true) (r := fun f m z a b c => farith .fma f m z a b c) (fun _ _ _ => rfl)
      fun _ _ _ _ _ _ => rfl,
    vflt_spec (two := true) (three := true) (r := fun f m z a b c => farith .fms f m z a b c) (fun _ _ _ => rfl)
      fun _ _ _ _ _ _ => rfl,
    vflt_spec (two := true) (three := false) (r := fun f _ z a b _ => fminmax false f z a b) (fun _ _ _ => rfl)
      fun _ _ _ _ _ _ => rfl,
    vflt_spec (two := true) (three := false) (r := fun f _ z a b _ => fminmax true f z a b) (fun _ _ _ => rfl)
      fun _ _ _ _ _ _ => rfl,
    vflt_spec (two := false) (three := false) (r := fun f m z a _ _ => farith .sqrt f m z a 0 0) (fun _ _ _ => rfl)
      fun _ _ _ _ _ _ => rfl,
    vflt_spec (two := false) (three := false) (r := fun f _ _ a _ _ => (a % 2 ^ ((ffmt f).e + (ffmt f).m), 0))
      (fun _ _ _ => rfl) fun _ _ _ _ _ _ => rfl,
    vflt_spec (two := false) (three := false) (r := fun f _ _ a _ _ => (a ^^^ 2 ^ ((ffmt f).e + (ffmt f).m), 0))
      (fun _ _ _ => rfl) fun _ _ _ _ _ _ => rfl⟩

/-! Comparisons and mask instructions (R253, R254). -/

/-- The comparison of a row of R253 writes the bits r gives at every active position. -/
def ComparesElements (mk : Gates → FormV → Instr) (ok : Nat → Bool → Bool)
    (r : Nat → Nat → Bool → Nat → Nat → Bool × Flags) : Prop :=
  ∀ (g : Gates) (o : FormV) (s s1 s2 : State) (tag : Tag) (w gr : Nat) (srcs : List Nat)
      (rs : List (Nat × Bool × Flags)), Ready (mk g o) s s1 →
    s1.vformat o ok = .ok tag → w = s1.myStrip.ewB → gr = s1.myStrip.grp →
    srcs = o.va.toNat :: (if o.bs == 0 then [o.vb.toNat] else []) →
    GroupsReady (srcs.map fun v => (v, gr)) none s1 s2 → s2.tagsAre srcs tag = true →
    s2.myStrip.poisonedAt srcs w (s2.positions o) = false →
    rs = ((s2.positions o).map fun p => (p, r (tagFmt tag) (8 * w) (ftzOf s1.fctlOf)
      (s2.myStrip.el o.va.toNat w p) ((s1.second o w).at s2.myStrip w p))) →
    exec (mk g o) s = .next (finished (mk g o) s1 (s2.putBits (o.vd.setWidth 4)
      (rs.map fun r => (r.1, r.2.1)) (rs.foldl (fun a r => a ||| r.2.2) 0)))

/-- An instruction whose meaning is `vcompare` with f writes the bits of whatever f is equal to. -/
theorem comparesElements_of_vcompare {mk : Gates → FormV → Instr} {ok : Nat → Bool → Bool}
    {f : Nat → Bool → Nat → Nat → Nat → Bool × Flags} {r : Nat → Nat → Bool → Nat → Nat → Bool × Flags}
    (hx : ∀ g o s, exec (mk g o) s = issue (mk g o) s fun s => s.vcompare o ok f)
    (hf : ∀ t z n a b, f t z n a b = r t n z a b) : ComparesElements mk ok r := by
  intro g o s s1 s2 tag w gr srcs rs hr hfmt hw hgr hs hg ht hp hrs
  subst hw hgr
  rw [← State.sources_eq s1 o s1.myStrip.ewB] at hs
  subst hs
  rw [hx]
  refine issue_ok hr ?_
  simp only [State.vcompare, hfmt, fromE_ok]
  refine State.vgroups_ok hg ?_
  simp only [ht, Bool.not_true, Bool.false_eq_true, if_false, hp, hf, hrs]
  rfl

/-- The first position below VL at which a mask is 1, or VL (R254). -/
theorem Strip.firstSet_eq {t : Strip} {m : MNum} {f : Nat} (hf : f = t.vl ∨ t.mbit m f = true) (hle : f ≤ t.vl)
    (hlow : ∀ p < f, t.mbit m p = false) : t.firstSet m = f := by
  unfold Strip.firstSet
  rcases Nat.lt_or_eq_of_le hle with hlt | heq
  · have hm : t.mbit m f = true := hf.resolve_left (Nat.ne_of_lt hlt)
    have hfind : (List.range t.vl).find? (fun p => t.mbit m p) = some f :=
      List.find?_range_eq_some.2 ⟨hm, List.mem_range.2 hlt, fun j hj => by rw [hlow j hj]; rfl⟩
    rw [hfind]; rfl
  · have hfind : (List.range t.vl).find? (fun p => t.mbit m p) = none :=
      List.find?_eq_none.2 fun p hp => by rw [hlow p (heq ▸ List.mem_range.1 hp)]; decide
    rw [hfind]; exact heq.symm

/-- The mask instruction of a row of R254 writes the bit r gives at every position below VL. -/
def WritesMask (mk : Gates → FormK → Instr) (r : Nat → Nat → Bool → Bool → Bool) : Prop :=
  ∀ (g : Gates) (o : FormK) (s s1 : State) (f : Nat), Ready (mk g o) s s1 → s1.myStrip.vstart < s1.myStrip.vl →
    (f = s1.myStrip.vl ∨ s1.myStrip.mbit o.my f = true) → f ≤ s1.myStrip.vl →
    (∀ p < f, s1.myStrip.mbit o.my p = false) →
    exec (mk g o) s = .next (finished (mk g o) s1 (s1.putBits o.mx ((List.range s1.myStrip.vl).map fun p =>
      (p, r f p (s1.myStrip.mbit o.my p) (s1.myStrip.mbit o.mz p))) 0))

/-- An instruction whose meaning is `maskOp` writes the bits of its function of the two masks and the first one set. -/
theorem writesMask_of_maskOp {mk : Gates → FormK → Instr} {f : FormK → Strip → Nat → Bool}
    {r : Nat → Nat → Bool → Bool → Bool} (hx : ∀ g o s, exec (mk g o) s = issue (mk g o) s fun s => s.maskOp o (f o))
    (hf : ∀ o t p, f o t p = r (t.firstSet o.my) p (t.mbit o.my p) (t.mbit o.mz p)) : WritesMask mk r := by
  intro g o s s1 k hr hv hk hle hlow
  have hwide : s1.myStrip.wide = List.range s1.myStrip.vl := if_neg (Nat.not_le_of_lt hv)
  rw [hx]
  refine issue_ok hr ?_
  simp only [State.maskOp, hwide, hf, Strip.firstSet_eq hk hle hlow]

/-- Settles O23: each row is `vcompare` or `maskOp` with the test of its row. -/
theorem comparesAndMaskInstructionsWriteMaskBits : Obligations.ComparesAndMaskInstructionsWriteMaskBits := by
  unfold Obligations.ComparesAndMaskInstructionsWriteMaskBits
  refine ⟨?_, ?_⟩
  · show ∀ row ∈ (_ : List ((Gates → FormV → Instr) × (Nat → Bool → Bool) × (Nat → Nat → Bool → Nat → Nat → Bool × Flags))),
      ComparesElements row.1 row.2.1 row.2.2
    simp only [List.forall_mem_cons, List.not_mem_nil, false_implies, implies_true, and_true]
    refine ⟨?_, ?_, ?_, ?_, ?_, ?_, ?_, ?_, ?_⟩
    case refine_2 =>
      exact comparesElements_of_vcompare (f := ucmp (· != ·)) (fun _ _ _ => rfl) fun _ _ _ a b => by
        simp only [ucmp, bne, beq_eq_decide, ne_eq, decide_not]
    all_goals exact comparesElements_of_vcompare (fun _ _ _ => rfl) fun _ _ _ _ _ => rfl
  · show ∀ row ∈ (_ : List ((Gates → FormK → Instr) × (Nat → Nat → Bool → Bool → Bool))), WritesMask row.1 row.2
    simp only [List.forall_mem_cons, List.not_mem_nil, false_implies, implies_true, and_true]
    exact ⟨writesMask_of_maskOp (f := fun o t p => t.mbit o.my p && t.mbit o.mz p) (fun _ _ _ => rfl) fun _ _ _ => rfl,
      writesMask_of_maskOp (f := fun o t p => t.mbit o.my p || t.mbit o.mz p) (fun _ _ _ => rfl) fun _ _ _ => rfl,
      writesMask_of_maskOp (f := fun o t p => t.mbit o.my p != t.mbit o.mz p) (fun _ _ _ => rfl) fun _ _ _ => rfl,
      writesMask_of_maskOp (f := fun o t p => !t.mbit o.my p) (fun _ _ _ => rfl) fun _ _ _ => rfl,
      writesMask_of_maskOp (f := fun o t p => t.mbit o.my p) (fun _ _ _ => rfl) fun _ _ _ => rfl,
      writesMask_of_maskOp (f := fun o t p => p < t.firstSet o.my) (fun _ _ _ => rfl) fun _ _ _ => rfl,
      writesMask_of_maskOp (f := fun o t p => p ≤ t.firstSet o.my) (fun _ _ _ => rfl) fun _ _ _ => rfl,
      writesMask_of_maskOp (f := fun o t p => p == t.firstSet o.my) (fun _ _ _ => rfl) fun _ _ _ => rfl⟩

end Sys2Proof.Machine
end

section
/-! The statements about moves, merges and permutations (R256 to R262) and about reductions, conversions and Pilgrim bits
(R263 to R266, R90). -/

namespace Sys2Proof.Machine

/-- Without streams no register is bound (R116). -/
theorem Ctx.bound_none {x : Ctx} (h : x.streams = []) (b v : Nat) : x.bound b v = none := by
  rw [Ctx.bound, h, List.find?_nil]

/-- Without streams no group is bound (R117). -/
theorem Ctx.groupBound_none {x : Ctx} (h : x.streams = []) (b v g : Nat) : x.groupBound b v g = false := by
  simp only [Ctx.groupBound, Ctx.bound_none h, Option.isSome_none, List.any_eq_false, Bool.false_eq_true,
    not_false_eq_true, implies_true]

/-- Without streams no group is taken (R116). -/
theorem State.takeGroups_none {s : State} (h : s.myCtx.streams = []) (srcs : List Nat) : s.takeGroups srcs = .ok ⟨⟩ s := by
  unfold State.takeGroups
  induction srcs.eraseDups with
  | nil => rfl
  | cons v vs ih =>
    have hv : s.takeGroup v = .ok ⟨⟩ s := by simp only [State.takeGroup, Ctx.bound_none h]
    rw [R.each, hv]
    exact ih

/-! Moves and permutations (R256 to R262). -/

/-- Context 0 with two strips of one STRIPB, both with element 3 of register 1 at 7 and mask 0 at ones: lane 2 of the first
is detached, no lane of the second. -/
def twinStrips : State :=
  let t := (({ Strip.zero with vl := 4, vtype := 98 }.tagGroup 1 1 6).putEl 1 4 3 7).putMask 0 ((List.range 4).map fun p => (p, true))
  { State.reset.modCtx 0 fun x => { x with strips := [{ t with detached := 4 }, t] } with
    cur := ⟨⟨0, .strip 0⟩, 0, 2, none, false⟩ }

/-- `vcompress` of register 1 into register 4 under mask 0. -/
def compressing : FormV := ⟨0, 0, 0, 0, 0, 0, 0, 1, 0, 0, 0, 0, 1, 4⟩

/-- What element 2 of register 4 of every strip of context 0 holds. -/
def thirdElements (s : State) : List Nat := (s.ctx 0).strips.map fun t => t.el 4 4 2

/-- `vcompress` of the twin strips: lane 2 is detached in the strip that is looked up, and no strip's is written. -/
theorem vcompress_twinStrips : (match exec (.vcompress Gates.none compressing) twinStrips with
    | .next t => thirdElements t
    | _ => []) = [0, 0] := by
  decide +kernel

/-- Refutes O24: the statement has every pair of a `vcompress` written that the written strip has attached, the model only
those that the strip it looks up has. The two differ in a state with two strips of one STRIPB, which the statement admits:
in `twinStrips` it has element 3 of register 1, a 7, in lane 2 of the second strip. -/
theorem not_movesAndPermutationsPlaceElements : ¬ Obligations.MovesAndPermutationsPlaceElements := by
  unfold Obligations.MovesAndPermutationsPlaceElements
  rintro ⟨-, -, -, h⟩
  have hready : Ready (.vcompress Gates.none compressing) twinStrips twinStrips :=
    ready_ungated (by decide +kernel) (by decide +kernel) rfl (by decide +kernel)
  have hgroups : GroupsReady [(1, 1)] (some (4, 1)) twinStrips twinStrips :=
    ⟨by decide, by decide +kernel, State.takeGroups_none (by decide +kernel) _⟩
  have hx := h _ (.head _) Gates.none compressing twinStrips twinStrips twinStrips 6 6 4 1 [0, 1, 3]
    [(0, some 0), (1, some 1), (2, some 3)] hready (by decide +kernel) (by decide +kernel) (by decide +kernel) hgroups
    (by decide +kernel) (fun h => nomatch h) (by decide +kernel) (by decide +kernel) (by decide +kernel)
    (fun h => nomatch h)
  have hnone := vcompress_twinStrips
  rw [hx] at hnone
  exact absurd hnone (by decide +kernel)

/-! Reductions (R263). -/

/-- The integer sum, from an initial value of n bits, is the sum of all modulo 2^n (R263). -/
theorem redSum_eq {n init : Nat} (h : init < 2 ^ n) (f : Nat) (m : RMode) (z : Bool) (xs : List (Nat × Nat)) :
    redSum f n m z init xs = ((init + (xs.map (·.2)).sum) % 2 ^ n, 0) := by
  unfold redSum
  congr 1
  induction xs generalizing init with
  | nil => simpa using (Nat.mod_eq_of_lt h).symm
  | cons x xs ih =>
    rw [List.foldl_cons, ih (Nat.mod_lt _ (Nat.two_pow_pos n)), List.map_cons, List.sum_cons, Nat.mod_add_mod,
      Nat.add_assoc]

/-- The reduction of a row of R263 writes position 0 with r of the initial value and the active elements. -/
def Reduces (mk : Gates → FormV → Instr) (ok : Nat → Bool → Bool)
    (r : Nat → Nat → RMode → Bool → Nat → List (Nat × Nat) → Nat × Flags) : Prop :=
  ∀ (g : Gates) (o : FormV) (s s1 s2 : State) (tag : Tag) (w gr : Nat) (ps : List Nat) (x : Nat × Flags),
    Ready (mk g o) s s1 → s1.vformat o ok = .ok tag → w = s1.myStrip.ewB → gr = s1.myStrip.grp →
    GroupsReady [(o.va.toNat, gr)] (some (o.vd.toNat, gr)) s1 s2 → s2.tagsAre [o.va.toNat] tag = true →
    ps = s2.myStrip.wideActive o.msk o.mreg → s2.myStrip.poisonedAt [o.va.toNat] w ps = false →
    x = r (tagFmt tag) (8 * w) (arithMode o.rnd s1.fctlOf) (ftzOf s1.fctlOf)
      ((s1.snapS o.sb).toNat % 2 ^ (8 * w)) (ps.map fun p => (p, s2.myStrip.el o.va.toNat w p)) →
    exec (mk g o) s = .next (finished (mk g o) s1 (if s2.myStrip.begins
      then s2.putLanes o.vd.toNat w gr tag [(0, x.1)] x.2 else s2.putLanes o.vd.toNat w gr tag [] 0))

/-- An instruction whose meaning is `reduction` with f writes whatever result f is equal to from an initial value of n bits. -/
theorem reduces_of_reduction {mk : Gates → FormV → Instr} {ok : Nat → Bool → Bool}
    {f r : Nat → Nat → RMode → Bool → Nat → List (Nat × Nat) → Nat × Flags}
    (hx : ∀ g o s, exec (mk g o) s = issue (mk g o) s fun s => s.reduction o ok f)
    (hf : ∀ t n m z init xs, init < 2 ^ n → f t n m z init xs = r t n m z init xs) : Reduces mk ok r := by
  intro g o s s1 s2 tag w gr ps x hr hfmt hw hgr hg ht hps hp hres
  subst hw hgr hps
  rw [← hf _ _ _ _ _ _ (Nat.mod_lt _ (Nat.two_pow_pos _))] at hres
  rw [hx]
  refine issue_ok hr ?_
  simp only [State.reduction, hfmt, fromE_ok]
  refine State.vgroups_ok hg ?_
  simp only [ht, hp, Bool.not_true, Bool.false_eq_true, if_false, hres]
  rfl

/-! Conversions and Pilgrim bits (R264 to R266). -/

/-- What a conversion raises for a pair that R85 does not convert, and for e2m1 (R264). -/
theorem vcvt_refused {g : Gates} {o : FormV} {s s1 s2 : State} {src d : Tag} (hr : Ready (.vcvt g o) s s1)
    (htake : s1.takeGroups [o.va.toNat] = .ok ⟨⟩ s2) (hsrc : src = (s2.myStrip.reg o.va.toNat).tag)
    (hd : d = o.sc ++ o.fmt) (h : convertible (tagFmt src) (tagFmt d) = false ∨ tagFmt src = 15 ∨ tagFmt d = 15) :
    exec (.vcvt g o) s = .next ((s2.backTo s1).dropAnswers.takeCause 0x05 0) := by
  subst hsrc hd
  have hbad : (!convertible (tagFmt (s2.myStrip.reg o.va.toNat).tag) (tagFmt (o.sc ++ o.fmt)) ||
      tagFmt (s2.myStrip.reg o.va.toNat).tag == 15 || tagFmt (o.sc ++ o.fmt) == 15) = true := by
    rcases h with h | h | h <;> simp [h]
  show execVcvt g o s = _
  refine issue_trap hr ?_
  simp only [State.vconvert, htake, R.andThen_ok, hbad, if_true, R.orBack_trap]

/-- A conversion writes the converted code at every active position (R235, R264). -/
theorem vcvt_spec {g : Gates} {o : FormV} {s s1 s2 : State} {src d : Tag} {ws wd gs gd : Nat} {ps : List Nat}
    (hr : Ready (.vcvt g o) s s1) (htake : s1.takeGroups [o.va.toNat] = .ok ⟨⟩ s2)
    (hsrc : src = (s2.myStrip.reg o.va.toNat).tag) (hd : d = o.sc ++ o.fmt)
    (hconv : convertible (tagFmt src) (tagFmt d) = true) (hs15 : tagFmt src ≠ 15) (hd15 : tagFmt d ≠ 15)
    (hws : ws = fmtBits (tagFmt src) / 8) (hwd : wd = fmtBits (tagFmt d) / 8) (hreg : s2.myStrip.region = none ∨ ws = wd)
    (hew : max ws wd = s2.myStrip.ewB) (hgs : gs = max 1 (s2.myStrip.grp * ws / s2.myStrip.ewB))
    (hgd : gd = max 1 (s2.myStrip.grp * wd / s2.myStrip.ewB)) (hvd : o.vd.toNat % gd = 0) (hva : o.va.toNat % gs = 0)
    (hbound : s2.myCtx.groupBound s2.myStrip.stripb o.vd.toNat gd = false)
    (htag : s2.myStrip.groupTag o.va.toNat gs = some src)
    (hps : ps = (if ws = wd then s2.positions o else s2.myStrip.wideActive o.msk o.mreg))
    (hp : s2.myStrip.poisonedAt [o.va.toNat] ws ps = false) (rs : List (Nat × Nat × Flags))
    (hrs : rs = (ps.map fun p => (p, convert (tagFmt src)
      (if tagScaled src then some (s2.myStrip.scaleAt o.va.toNat ws p) else none) (tagFmt d)
      (if tagScaled d then some (s2.myStrip.scaleAt o.vd.toNat wd p) else none) (effMode o.rnd s2.fctlOf)
      (pilgrim s2.seedOf (if o.im = 1 then o.sb.signExtend 32 else (s2.snapS o.sb).setWidth 32)
        (BitVec.ofNat 32 (s2.myStrip.stripb + p))).toNat
      (effSat o.satm s2.fctlOf) (ftzOf s2.fctlOf) (s2.myStrip.el o.va.toNat ws p)))) :
    exec (.vcvt g o) s = .next (finished (.vcvt g o) s1 (s2.putLanes o.vd.toNat wd gd d
      (rs.map fun r => (r.1, r.2.1)) (rs.foldl (fun a r => a ||| r.2.2) 0))) := by
  subst hd
  have hgood : (!convertible (tagFmt src) (tagFmt (o.sc ++ o.fmt)) || tagFmt src == 15 ||
      tagFmt (o.sc ++ o.fmt) == 15) = false := by
    simp [hconv, hs15, hd15]
  have hwidths : (s2.myStrip.region.isSome && ws != wd) = false := by
    rcases hreg with h | h <;> simp [h]
  have halign : (o.vd.toNat % gd != 0 || o.va.toNat % gs != 0) = false := by simp [hvd, hva]
  have hactive : (if ws == wd then s2.positions o else s2.myStrip.wideActive o.msk o.mreg) = ps := by
    rw [hps]; simp only [beq_iff_eq]
  have hstream : s2.streamOperand o = if o.im = 1 then o.sb.signExtend 32 else (s2.snapS o.sb).setWidth 32 := by
    simp only [State.streamOperand, beq_iff_eq]
  show execVcvt g o s = _
  refine issue_ok hr ?_
  simp only [State.vconvert, htake, R.andThen_ok, ← hsrc, ← hws, ← hwd, hgood, hwidths, bne_self_eq_false, hew, ← hgs,
    ← hgd, halign, hbound, htag, hactive, hp, Bool.false_eq_true, if_false, State.draw, hstream, State.ftz, hrs]
  rfl

/-- A group's tag is its first register's (R57). -/
theorem Strip.tag_of_groupTag {t : Strip} {v g : Nat} {tag : Tag} (h : t.groupTag v g = some tag) :
    (t.reg v).tag = tag := by
  simp only [Strip.groupTag, Option.ite_none_right_eq_some, Option.some.injEq] at h
  exact h.2

/-- `vunpk` writes the converted nibble at every active position (R265). -/
theorem vunpk_spec (g : Gates) (o : FormV) (s s1 s2 : State) (d src tag : Tag) (wd gd gs : Nat) (ps : List Nat)
    (rs : List (Nat × Nat × Flags)) (hr : Ready (.vunpk g o) s s1) (hfmt : s1.vformat o okUnpack = .ok d)
    (hwd : wd = s1.myStrip.ewB) (hgd : gd = s1.myStrip.grp) (hgs : gs = max 1 (gd / wd))
    (hg : GroupsReady [(o.va.toNat, gs)] (some (o.vd.toNat, gd)) s1 s2) (h15 : tagFmt src = 15)
    (hsrc : s2.myStrip.groupTag o.va.toNat gs = some src) (hps : ps = s2.myStrip.wideActive o.msk o.mreg)
    (hp : s2.myStrip.poisonedAt [o.va.toNat] 1 ps = false)
    (htag : tag = (if tagFmt d = 11 ∧ tagScaled src = true then d ||| 32 else d))
    (hrs : rs = (ps.map fun p => (p, convert 15
      (if tagScaled src && tagFmt d != 11 then some (s2.myStrip.scaleAt o.va.toNat 1 p) else none) (tagFmt d) none
      (effMode o.rnd s2.fctlOf) 0 (effSat o.satm s2.fctlOf) (ftzOf s2.fctlOf && tagFmt d != 11)
      (s2.myStrip.el o.va.toNat 1 p / (if o.sb = 0 then 1 else 16) % 16)))) :
    exec (.vunpk g o) s = .next (finished (.vunpk g o) s1 ((s2.putLanes o.vd.toNat wd gd tag
      (rs.map fun r => (r.1, r.2.1)) (rs.foldl (fun a r => a ||| r.2.2) 0)).giveScales s2.myStrip.begins tag o.vd.toNat
        o.va.toNat gs)) := by
  subst hwd hgd hgs hps htag
  have hown := Strip.tag_of_groupTag hsrc
  show execVunpk g o s = _
  refine issue_ok hr ?_
  simp only [State.vunpack, hfmt, fromE_ok]
  refine State.vgroups_ok hg ?_
  simp only [hown, h15, hsrc, bne_self_eq_false, hp, Bool.or_false, Bool.false_eq_true, if_false, State.ftz, hrs,
    Bool.and_eq_true, decide_eq_true_eq]

/-- `vpilgrim` writes the Pilgrim bits of every active position (R266). -/
theorem vpilgrim_spec (g : Gates) (o : FormV) (s s1 s2 : State) (tag : Tag) (gr : Nat) (hr : Ready (.vpilgrim g o) s s1)
    (hfmt : s1.vformat o okN32 = .ok tag) (hgr : gr = s1.myStrip.grp)
    (hg : GroupsReady [] (some (o.vd.toNat, gr)) s1 s2) :
    exec (.vpilgrim g o) s = .next (finished (.vpilgrim g o) s1 (s2.putLanes o.vd.toNat 4 gr tag
      ((s2.positions o).map fun p => (p, (pilgrim s2.seedOf
        (if o.im = 1 then o.sb.signExtend 32 else (s2.snapS o.sb).setWidth 32)
        (BitVec.ofNat 32 (s2.myStrip.stripb + p))).toNat)) 0)) := by
  subst hgr
  have hstream : s2.streamOperand o = if o.im = 1 then o.sb.signExtend 32 else (s2.snapS o.sb).setWidth 32 := by
    simp only [State.streamOperand, beq_iff_eq]
  show execVpilgrim g o s = _
  refine issue_ok hr ?_
  simp only [hfmt, fromE_ok]
  refine State.vgroups_ok hg ?_
  rw [State.mapLanes_codes _ rfl]
  simp only [State.draw, hstream]

/-- Settles O25: each reduction is `reduction` with its row's function, and the conversions write what they convert. -/
theorem reductionsAndConversionsWriteTheirResults : Obligations.ReductionsAndConversionsWriteTheirResults := by
  unfold Obligations.ReductionsAndConversionsWriteTheirResults
  refine ⟨?_, ?_, vunpk_spec, vpilgrim_spec⟩
  · show ∀ row ∈ (_ : List ((Gates → FormV → Instr) × (Nat → Bool → Bool) ×
        (Nat → Nat → RMode → Bool → Nat → List (Nat × Nat) → Nat × Flags))), Reduces row.1 row.2.1 row.2.2
    simp only [List.forall_mem_cons, List.not_mem_nil, false_implies, implies_true, and_true]
    exact ⟨reduces_of_reduction (fun _ _ _ => rfl) fun t _ m z _ xs h => redSum_eq h t m z xs,
      reduces_of_reduction (fun _ _ _ => rfl) fun _ _ _ _ _ _ _ => rfl,
      reduces_of_reduction (fun _ _ _ => rfl) fun _ _ _ _ _ _ _ => rfl,
      reduces_of_reduction (fun _ _ _ => rfl) fun _ _ _ _ _ _ _ => rfl,
      reduces_of_reduction (fun _ _ _ => rfl) fun _ _ _ _ _ _ _ => rfl⟩
  · exact fun g o s s1 s2 src d ws wd gs gd ps hr htake hsrc hd =>
      ⟨vcvt_refused hr htake hsrc hd, vcvt_spec hr htake hsrc hd⟩

end Sys2Proof.Machine
end

section
/-! The statement about the cross-lane queue and detached lanes (R28, R30, R267 to R271). -/

namespace Sys2Proof.Machine

/-- Context 0 with two strips of one STRIPB that differ in element 3 of register 1: 0 in the first, 7 in the second. -/
def unlikeStrips : State :=
  let t := { Strip.zero with vl := 4, vtype := 98 }.tagGroup 1 1 6
  { State.reset.modCtx 0 fun x => { x with strips := [t, t.putEl 1 4 3 7] } with
    cur := ⟨⟨0, .strip 0⟩, 0, 2, none, false⟩ }

/-- `vdetach` by the elements of register 1 from s0 on. -/
def detaching : FormV := ⟨0, 0, 0, 0, 0, 0, 0, 0, 0, 0, 1, 0, 1, 0⟩

/-- The start address of lane 3 in every strip of context 0. -/
def laneThreePcs (s : State) : List (Option Word) := (s.ctx 0).strips.map fun t => t.lanePcs.lookup 3

/-- `vdetach` of the unlike strips starts lane 3 of each strip at its own element. -/
theorem vdetach_unlikeStrips : (match exec (.vdetach Gates.none detaching) unlikeStrips with
    | .next t => laneThreePcs t
    | _ => []) = [some 0, some 7] := by
  decide +kernel

/-- Refutes O26: of a `vdetach` the statement has lane 3 of every strip changed start at the element of the strip that is
looked up, the model at the changed strip's own. The two differ in a state with two strips of one STRIPB, which the statement
admits: in `unlikeStrips` it has lane 3 of the second strip start at 0, where the model has 7. -/
theorem not_crossLaneQueueAndDetach : ¬ Obligations.CrossLaneQueueAndDetach := by
  unfold Obligations.CrossLaneQueueAndDetach
  rintro ⟨-, -, -, -, h⟩
  have hready : Ready (.vdetach Gates.none detaching) unlikeStrips unlikeStrips :=
    ready_ungated (by decide +kernel) (by decide +kernel) rfl (by decide +kernel)
  have hgroups : GroupsReady [(1, unlikeStrips.myStrip.grp)] none unlikeStrips unlikeStrips :=
    ⟨by decide +kernel, by decide, State.takeGroups_none (by decide +kernel) _⟩
  have hx := (h Gates.none detaching unlikeStrips unlikeStrips unlikeStrips 6 hready hgroups (by decide +kernel)
    (by decide)).2 (by decide +kernel) (by decide +kernel)
  have hown := vdetach_unlikeStrips
  rw [hx] at hown
  exact absurd hown (by decide +kernel)

end Sys2Proof.Machine
end

section
/-! The statement about elements, masks, formats and second sources of vector instructions (R51, R53, R58, R232 to R234). -/

namespace Sys2Proof.Machine

/-! Fields of numbers. -/

/-- The bits of a number whose b bits at s are replaced. -/
theorem testBit_replaceBits (n s : Nat) {b y : Nat} (hy : y < 2 ^ b) (m : Nat) :
    (n - n / 2 ^ s % 2 ^ b * 2 ^ s + y * 2 ^ s).testBit m =
      if s ≤ m ∧ m < s + b then y.testBit (m - s) else n.testBit m := by
  have hhigh : n / 2 ^ s = 2 ^ b * (n / 2 ^ s / 2 ^ b) + n / 2 ^ s % 2 ^ b := (Nat.div_add_mod _ _).symm
  have hn : n = 2 ^ s * (2 ^ b * (n / 2 ^ s / 2 ^ b)) + n / 2 ^ s % 2 ^ b * 2 ^ s + n % 2 ^ s := by
    calc n = 2 ^ s * (n / 2 ^ s) + n % 2 ^ s := (Nat.div_add_mod _ _).symm
      _ = 2 ^ s * (2 ^ b * (n / 2 ^ s / 2 ^ b) + n / 2 ^ s % 2 ^ b) + n % 2 ^ s := by rw [← hhigh]
      _ = _ := by rw [Nat.mul_add, Nat.mul_comm (2 ^ s) (n / 2 ^ s % 2 ^ b)]
  have hv : n - n / 2 ^ s % 2 ^ b * 2 ^ s + y * 2 ^ s =
      2 ^ s * (2 ^ b * (n / 2 ^ s / 2 ^ b) + y) + n % 2 ^ s := by
    rw [Nat.mul_add, Nat.mul_comm (2 ^ s) y]
    omega
  rw [hv, Nat.testBit_two_pow_mul_add _ (Nat.mod_lt _ (Nat.two_pow_pos s)), Nat.testBit_two_pow_mul_add _ hy]
  by_cases hlow : m < s
  · rw [if_pos hlow, if_neg (by omega), Nat.testBit_mod_two_pow, decide_eq_true hlow, Bool.true_and]
  · rw [if_neg hlow]
    by_cases hin : m - s < b
    · rw [if_pos hin, if_pos (by omega)]
    · rw [if_neg hin, if_neg (by omega), Nat.testBit_div_two_pow, Nat.testBit_div_two_pow]
      congr 1
      omega

/-- Field j of b bits of a number whose field i is replaced. -/
theorem replaceField_field (n : Nat) {b y : Nat} (hy : y < 2 ^ b) (i j : Nat) :
    (n - n / 2 ^ (b * i) % 2 ^ b * 2 ^ (b * i) + y * 2 ^ (b * i)) / 2 ^ (b * j) % 2 ^ b =
      if j = i then y else n / 2 ^ (b * j) % 2 ^ b := by
  apply Nat.eq_of_testBit_eq
  intro m
  rw [Nat.testBit_mod_two_pow, Nat.testBit_div_two_pow, testBit_replaceBits _ _ hy]
  by_cases hm : m < b
  · rw [decide_eq_true hm, Bool.true_and]
    by_cases hji : j = i
    · subst hji
      rw [if_pos (by omega), if_pos rfl, Nat.add_sub_cancel]
    · have hout : ¬ (b * i ≤ m + b * j ∧ m + b * j < b * i + b) := by
        rcases Nat.lt_or_gt_of_ne hji with h | h
        · have := Nat.mul_le_mul_left b (Nat.succ_le_of_lt h)
          rw [Nat.mul_succ] at this
          omega
        · have := Nat.mul_le_mul_left b (Nat.succ_le_of_lt h)
          rw [Nat.mul_succ] at this
          omega
      rw [if_neg hout, if_neg hji, Nat.testBit_mod_two_pow, decide_eq_true hm, Bool.true_and, Nat.testBit_div_two_pow]
  · rw [decide_eq_false hm, Bool.false_and]
    split
    · exact (Nat.testBit_lt_two_pow (Nat.lt_of_lt_of_le hy (Nat.pow_le_pow_right (by decide) (Nat.not_lt.1 hm)))).symm
    · rw [Nat.testBit_mod_two_pow, decide_eq_false hm, Bool.false_and]

/-- A field of b bits at bit b * j that lies below bit n is not cut off at n bits. -/
theorem mod_two_pow_field (x : Nat) {b j n : Nat} (h : b * j + b ≤ n) :
    x % 2 ^ n / 2 ^ (b * j) % 2 ^ b = x / 2 ^ (b * j) % 2 ^ b := by
  apply Nat.eq_of_testBit_eq
  intro m
  simp only [Nat.testBit_mod_two_pow, Nat.testBit_div_two_pow]
  by_cases hm : m < b
  · rw [decide_eq_true (show m + b * j < n by omega), Bool.true_and]
  · simp only [decide_eq_false hm, Bool.false_and]

/-! Elements of vector registers (R51). -/

/-- The elements of a register after a write of one (R51). -/
theorem VReg.get_put (r : VReg) {w i j : Nat} (x : Nat) (hj : (j + 1) * w ≤ 1024) :
    (r.put w i x).get w j = if j = i then x % 2 ^ (8 * w) else r.get w j := by
  have hin : 8 * w * j + 8 * w ≤ 8192 := by
    rw [Nat.add_mul, Nat.one_mul, Nat.mul_comm] at hj
    rw [Nat.mul_assoc]
    omega
  unfold VReg.get VReg.put
  simp only [BitVec.toNat_ofNat]
  rw [mod_two_pow_field _ hin]
  exact replaceField_field _ (Nat.mod_lt _ (Nat.two_pow_pos _)) i j

/-- The registers of a strip after a change of one. -/
theorem Strip.reg_setReg (t : Strip) (f : VReg → VReg) (k l : Nat) :
    (t.setReg k f).reg l = if l = k ∧ k < 32 then f (t.reg k) else t.reg l := by
  unfold Strip.setReg Strip.reg
  simp only [Vector.getElem?_setIfInBounds]
  by_cases h : k = l
  · subst h
    by_cases hk : k < 32
    · simp only [hk, if_true, and_self, Option.getD_some]
    · simp only [hk, if_true, if_false, and_false, Vector.getElem?_eq_none (Nat.not_lt.1 hk)]
  · simp only [if_neg h, if_neg (show ¬ (l = k ∧ k < 32) from fun e => h e.1.symm)]

/-- Elements of w bytes lie in the register and at the index that their number divided by the register's elements gives. -/
theorem element_place {w : Nat} (hw : w ∈ [1, 2, 4, 8]) (p : Nat) :
    p * w / 1024 = p / (1024 / w) ∧ (p % (1024 / w) + 1) * w ≤ 1024 := by
  simp only [List.mem_cons, List.not_mem_nil, or_false] at hw
  rcases hw with rfl | rfl | rfl | rfl <;> omega

/-- The elements of a group after a write of one (R51). -/
theorem Strip.el_putEl (t : Strip) {first w p q : Nat} (x : Nat) (hw : w ∈ [1, 2, 4, 8]) (hin : first + p * w / 1024 < 32) :
    (t.putEl first w p x).el first w q = if q = p then x % 2 ^ (8 * w) else t.el first w q := by
  obtain ⟨hp, -⟩ := element_place hw p
  obtain ⟨hq, hfits⟩ := element_place hw q
  unfold Strip.putEl Strip.el
  rw [Strip.reg_setReg]
  by_cases hreg : q * w / 1024 = p * w / 1024
  · rw [if_pos ⟨by rw [hreg], hin⟩, VReg.get_put _ _ hfits, hreg]
    have hsame : q % (1024 / w) = p % (1024 / w) ↔ q = p := by
      refine ⟨fun h => ?_, fun h => by rw [h]⟩
      rw [hp, hq] at hreg
      rw [← Nat.div_add_mod q (1024 / w), ← Nat.div_add_mod p (1024 / w), hreg, h]
    simp only [hsame]
  · rw [if_neg fun h => hreg (Nat.add_left_cancel h.1), if_neg fun h => hreg (by rw [h])]

/-- A register after its group has been given a tag (R58). -/
theorem Strip.reg_tagGroup (t : Strip) (first g : Nat) (tag : Tag) {k : Nat} (hk : k < 32) :
    (t.tagGroup first g tag).reg k = if first ≤ k ∧ k < first + g then { t.reg k with tag := tag } else t.reg k := by
  unfold Strip.tagGroup
  induction g with
  | zero => rw [if_neg (by omega)]; rfl
  | succ g ih =>
    rw [List.range_succ, List.foldl_append, List.foldl_cons, List.foldl_nil, Strip.reg_setReg]
    by_cases h : k = first + g
    · subst h
      rw [if_pos ⟨rfl, hk⟩, ih, if_neg (by omega), if_pos (by omega)]
    · rw [if_neg fun e => h e.1, ih]
      by_cases hin : first ≤ k ∧ k < first + g
      · rw [if_pos hin, if_pos (by omega)]
      · rw [if_neg hin, if_neg (by omega)]

/-- What a write of one mask bit makes of the register's bits (R53). -/
def maskBitsAfter (n p : Nat) (b : Bool) : Nat :=
  if n / 2 ^ p % 2 == (if b then 1 else 0) then n else if b then n + 2 ^ p else n - 2 ^ p

/-- Such a write replaces a field of one bit. -/
theorem maskBitsAfter_eq (n p : Nat) (b : Bool) :
    maskBitsAfter n p b = n - n / 2 ^ p % 2 ^ 1 * 2 ^ p + (if b then 1 else 0) * 2 ^ p := by
  unfold maskBitsAfter
  have hle : n / 2 ^ p % 2 * 2 ^ p ≤ n :=
    Nat.le_trans (Nat.mul_le_mul_right _ (Nat.mod_le _ _)) (Nat.div_mul_le_self n _)
  rcases Nat.mod_two_eq_zero_or_one (n / 2 ^ p) with h | h <;> cases b <;> simp_all

/-- The bits of a mask after a write of one (R53). -/
theorem Strip.mbit_putMask (t : Strip) (k : MNum) {p : Nat} (q : Nat) (b : Bool) (hp : p < 8192) :
    (t.putMask k [(p, b)]).mbit k q = if q = p then b else t.mbit k q := by
  have hk : k.toNat < 16 := k.isLt
  have hbits : (t.putMask k [(p, b)]).mbit k q =
      (BitVec.ofNat 8192 (maskBitsAfter (t.m[k.toNat]?.getD MReg.zero).bits.toNat p b)).getLsbD q := by
    unfold Strip.putMask Strip.mbit
    simp only [Vector.getElem?_setIfInBounds, hk, if_true, Option.getD_some]
    rfl
  rw [hbits, maskBitsAfter_eq]
  simp only [BitVec.getLsbD_ofNat]
  rw [testBit_replaceBits _ _ (by cases b <;> decide)]
  by_cases hqp : q = p
  · subst hqp
    rw [if_pos (by omega), if_pos rfl, Nat.sub_self, decide_eq_true hp]
    cases b <;> rfl
  · rw [if_neg (by omega), if_neg hqp]
    unfold Strip.mbit
    by_cases hq : q < 8192
    · rw [decide_eq_true hq, Bool.true_and]; rfl
    · rw [decide_eq_false hq, Bool.false_and]
      exact (BitVec.getLsbD_of_ge _ _ (Nat.not_lt.1 hq)).symm

/-! Formats and second sources (R232, R233). -/

/-- The format code of VTYPE (R49, R56). -/
theorem Strip.tagFmt_fmt (t : Strip) : tagFmt t.fmt = t.vtype.toNat / 16 % 32 := by
  unfold tagFmt Strip.fmt
  simp only [BitVec.extractLsb'_toNat, Nat.shiftRight_eq_div_pow]
  omega

/-- Whether the format of VTYPE is scaled (R49, R56). -/
theorem Strip.tagScaled_fmt (t : Strip) : tagScaled t.fmt = (t.vtype.toNat / 512 % 2 == 1) := by
  unfold tagScaled Strip.fmt
  rw [BitVec.getLsbD_extractLsb', decide_eq_true (by decide), Bool.true_and]
  exact Nat.testBit_eq_decide_div_mod_eq.trans (by simp only [Nat.reduceAdd, Nat.reducePow, beq_eq_decide])

/-- The tag of VTYPE as a number (R49, R56). -/
theorem Strip.fmt_eq_ofNat (t : Strip) : t.fmt = BitVec.ofNat 6 (t.vtype.toNat / 16) := by
  apply BitVec.eq_of_toNat_eq
  simp only [Strip.fmt, BitVec.extractLsb'_toNat, Nat.shiftRight_eq_div_pow, BitVec.toNat_ofNat]

/-- The element width of a strip (R49). -/
theorem Strip.ewB_eq (t : Strip) : t.ewB = 2 ^ (t.vtype.toNat % 4) := by
  unfold Strip.ewB
  simp only [BitVec.extractLsb'_toNat, Nat.shiftRight_zero]

/-- The format code of a named format (R56). -/
theorem tagFmt_named (sc : BitVec 1) (fmt : BitVec 5) : tagFmt (sc ++ fmt) = fmt.toNat := by
  unfold tagFmt
  simp only [BitVec.extractLsb'_toNat, Nat.shiftRight_zero, BitVec.toNat_append]
  have := fmt.isLt
  have hor : sc.toNat <<< 5 ||| fmt.toNat = sc.toNat * 32 + fmt.toNat := by
    rw [← Nat.shiftLeft_add_eq_or_of_lt fmt.isLt, Nat.shiftLeft_eq]
  omega

/-- The tag of a named format as a number (R56). -/
theorem named_eq_ofNat (sc : BitVec 1) (fmt : BitVec 5) : sc ++ fmt = BitVec.ofNat 6 (sc.toNat * 32 + fmt.toNat) := by
  apply BitVec.eq_of_toNat_eq
  have := sc.isLt
  have := fmt.isLt
  rw [BitVec.toNat_append, ← Nat.shiftLeft_add_eq_or_of_lt fmt.isLt, Nat.shiftLeft_eq, BitVec.toNat_ofNat]
  omega

/-- The width check of a format (R232). -/
theorem widthOk_iff (f w : Nat) : widthOk f w = true ↔ f ∈ [0, 24, 25, 26] ∨ fmtBits f = 8 * w := by
  simp only [widthOk, Bool.or_eq_true, Bool.and_eq_true, beq_iff_eq, decide_eq_true_eq, List.mem_cons, List.not_mem_nil,
    or_false]
  omega

/-- The format of an operation (R232). -/
theorem State.vformat_eq (s : State) (o : FormV) (ok : Nat → Bool → Bool) : s.vformat o ok =
    (if o.fv = 0 ∧ ok (s.myStrip.vtype.toNat / 16 % 32) (s.myStrip.vtype.toNat / 512 % 2 == 1) = false then .error 0x05
     else if (if o.fv = 1 then o.fmt.toNat else s.myStrip.vtype.toNat / 16 % 32) ∈ [0, 24, 25, 26] ∨
       fmtBits (if o.fv = 1 then o.fmt.toNat else s.myStrip.vtype.toNat / 16 % 32) =
         8 * 2 ^ (s.myStrip.vtype.toNat % 4)
     then .ok (BitVec.ofNat 6 (if o.fv = 1 then o.sc.toNat * 32 + o.fmt.toNat else s.myStrip.vtype.toNat / 16))
     else .error 0x0F) := by
  simp only [← widthOk_iff, ← Strip.ewB_eq, ← Strip.tagFmt_fmt, ← Strip.tagScaled_fmt]
  have hfv : o.fv = 0 ∨ o.fv = 1 := BitVec.eq_zero_or_eq_one o.fv
  unfold State.vformat Strip.opFormat
  rcases hfv with h | h
  · have h1 : ¬ o.fv = 1 := by rw [h]; decide
    simp only [h, show ((0 : BitVec 1) == 1) = false from rfl, beq_self_eq_true, Bool.true_and, true_and,
      Bool.not_eq_true', Bool.false_eq_true, if_false, show ¬ ((0 : BitVec 1) = 1) by decide, ← Strip.fmt_eq_ofNat]
    cases ok (tagFmt s.myStrip.fmt) (tagScaled s.myStrip.fmt) <;>
      cases widthOk (tagFmt s.myStrip.fmt) s.myStrip.ewB <;> rfl
  · simp only [h, beq_self_eq_true, if_true, show ((1 : BitVec 1) == 0) = false from rfl, Bool.false_and, Bool.true_and,
      Bool.false_eq_true, if_false, show ¬ ((1 : BitVec 1) = 0) by decide, false_and, ← named_eq_ofNat, tagFmt_named]
    cases widthOk o.fmt.toNat s.myStrip.ewB <;> rfl

/-- The second source of an operation (R233). -/
theorem State.second_at (s : State) (o : FormV) (t : Strip) (w p : Nat) :
    (o.bs = 0 → (s.second o w).at t w p = t.el o.vb.toNat w p) ∧
    (o.bs = 1 → o.im = 1 → (s.second o w).at t w p = (o.sb.toInt % 2 ^ (8 * w)).toNat) ∧
    (o.bs = 1 → o.im = 0 → o.sb ≠ 0 → (s.second o w).at t w p =
      (s.myStrip.snap[o.sb.toNat]?.getD 0).toNat % 2 ^ (8 * w)) ∧
    (o.bs = 1 → o.im = 0 → o.sb = 0 → (s.second o w).at t w p = 0) := by
  unfold State.second
  refine ⟨fun h => ?_, fun hb hi => ?_, fun hb hi hs => ?_, fun hb hi hs => ?_⟩
  · rw [if_pos (beq_iff_eq.2 h)]; rfl
  · rw [hb, hi]; rfl
  · rw [hb, hi, if_neg hs]; rfl
  · rw [hb, hi, if_pos hs]; exact Nat.zero_mod _

/-- Settles O27, from what a write of one element, tag or mask bit leaves and the two descriptors. -/
theorem elementsFormatsAndSources : Obligations.ElementsFormatsAndSources := by
  unfold Obligations.ElementsFormatsAndSources
  refine ⟨⟨fun r w i j x _ _ hj => ⟨VReg.get_put r x hj, rfl, rfl⟩, fun t first w p q x hw hin => t.el_putEl x hw hin,
    fun t first g tag k hk => ?_, fun t k p q b hp => t.mbit_putMask k q b hp⟩,
    State.vformat_eq, fun s o t w p _ => s.second_at o t w p⟩
  rw [t.reg_tagGroup first g tag hk]
  split <;> exact ⟨rfl, rfl⟩

end Sys2Proof.Machine
end

section
/-! The frame of the vector instructions on registers (R231 to R266). What an instruction leaves is said of the strip, of
its context and of the state, each of them reflexive and transitive; the operations that results are written with keep it. -/

namespace Sys2Proof.Machine

/-! What stays of a strip, its context and the state. -/

/-- Of a strip: every vector register but len from first on, every mask register but one, and what no vector instruction on
registers writes. -/
structure Strip.Keeps (first len mask : Nat) (t u : Strip) : Prop where
  reg : ∀ k, ¬ (first ≤ k ∧ k < first + len) → u.reg k = t.reg k
  m : ∀ k, k < 16 → k ≠ mask → u.m[k]? = t.m[k]?
  vl : u.vl = t.vl
  vtype : u.vtype = t.vtype
  stripb : u.stripb = t.stripb
  snap : u.snap = t.snap
  lpc : u.lpc = t.lpc

/-- Of a context: all but strips, streams and waiters, every strip but the one at STRIPB b, and of that one what is kept. -/
structure Ctx.Keeps (b first len mask : Nat) (x y : Ctx) : Prop where
  rest : y = { x with strips := y.strips, streams := y.streams, waiters := y.waiters }
  bound : (∃ u ∈ x.strips, u.stripb = b) → ∃ u ∈ y.strips, u.stripb = b
  others : ∀ d, d ≠ b → y.strip? d = x.strip? d
  mine : Strip.Keeps first len mask ((x.strip? b).getD Strip.zero) ((y.strip? b).getD Strip.zero)

/-- Of a state: all but contexts and requests, every other context, and of the issuing context what is kept. -/
structure State.Keeps (b first len mask : Nat) (s t : State) : Prop where
  rest : t = { s with ctxs := t.ctxs, requests := t.requests }
  others : ∀ c, c ≠ s.me → t.ctx c = s.ctx c
  mine : Ctx.Keeps b first len mask (s.ctx s.me) (t.ctx s.me)

variable {b first len mask : Nat}

theorem Strip.Keeps.refl (t : Strip) : Strip.Keeps first len mask t t :=
  ⟨fun _ _ => rfl, fun _ _ _ => rfl, rfl, rfl, rfl, rfl, rfl⟩

theorem Strip.Keeps.trans {t u v : Strip} (h : Strip.Keeps first len mask t u) (k : Strip.Keeps first len mask u v) :
    Strip.Keeps first len mask t v where
  reg i hi := (k.reg i hi).trans (h.reg i hi)
  m i hi hm := (k.m i hi hm).trans (h.m i hi hm)
  vl := k.vl.trans h.vl
  vtype := k.vtype.trans h.vtype
  stripb := k.stripb.trans h.stripb
  snap := k.snap.trans h.snap
  lpc := k.lpc.trans h.lpc

theorem Ctx.Keeps.refl (x : Ctx) : Ctx.Keeps b first len mask x x := ⟨rfl, id, fun _ _ => rfl, .refl _⟩

theorem Ctx.Keeps.trans {x y z : Ctx} (h : Ctx.Keeps b first len mask x y) (k : Ctx.Keeps b first len mask y z) :
    Ctx.Keeps b first len mask x z where
  rest := k.rest.trans
    (congrArg (fun y : Ctx => { y with strips := z.strips, streams := z.streams, waiters := z.waiters }) h.rest)
  bound e := k.bound (h.bound e)
  others d hd := (k.others d hd).trans (h.others d hd)
  mine := h.mine.trans k.mine

theorem State.Keeps.cur {s t : State} (h : State.Keeps b first len mask s t) : t.cur = s.cur :=
  (congrArg State.cur h.rest :)

theorem State.Keeps.me {s t : State} (h : State.Keeps b first len mask s t) : t.me = s.me := by
  unfold State.me
  rw [h.cur]

theorem State.Keeps.refl (s : State) : State.Keeps b first len mask s s := ⟨rfl, fun _ _ => rfl, .refl _⟩

theorem State.Keeps.trans {s t u : State} (h : State.Keeps b first len mask s t) (k : State.Keeps b first len mask t u) :
    State.Keeps b first len mask s u where
  rest := k.rest.trans (congrArg (fun t : State => { t with ctxs := u.ctxs, requests := u.requests }) h.rest)
  others c hc := (k.others c (h.me ▸ hc)).trans (h.others c hc)
  mine := h.mine.trans (h.me ▸ k.mine)

/-! What the operations keep. -/

/-- A change of the issuing context that keeps what is kept of it. -/
theorem State.keeps_modCtx {s : State} {f : Ctx → Ctx} (h : Ctx.Keeps b first len mask (s.ctx s.me) (f (s.ctx s.me))) :
    State.Keeps b first len mask s (s.modCtx s.me f) where
  rest := rfl
  others c hc := s.ctx_modCtx_ne s.me c f hc
  mine := by rw [State.ctx_modCtx_same]; exact h

/-- A strip after a change of the strips at a STRIPB that leaves STRIPB as it is. -/
theorem Ctx.strip?_modStrip (x : Ctx) (b d : Nat) {f : Strip → Strip} (hf : ∀ t, (f t).stripb = t.stripb) :
    (x.modStrip b f).strip? d = if d = b then (x.strip? d).map f else x.strip? d := by
  unfold Ctx.modStrip Ctx.strip?
  induction x.strips with
  | nil => simp
  | cons u us ih =>
    have hu : (if u.stripb == b then f u else u).stripb = u.stripb := by
      split
      · exact hf u
      · rfl
    simp only [List.map_cons, List.find?_cons, hu]
    cases hd : u.stripb == d with
    | true =>
      rw [beq_iff_eq] at hd
      subst hd
      by_cases h : u.stripb = b
      · simp [h]
      · simp [h]
    | false => exact ih

/-- A change of the strip at STRIPB b that keeps what is kept of it. -/
theorem Ctx.keeps_modStrip (x : Ctx) {f : Strip → Strip} (h : ∀ t, Strip.Keeps first len mask t (f t)) :
    Ctx.Keeps b first len mask x (x.modStrip b f) where
  rest := rfl
  bound := by
    rintro ⟨u, hu, hb⟩
    refine ⟨f u, List.mem_map.2 ⟨u, hu, if_pos (beq_iff_eq.2 hb)⟩, (h u).stripb.trans hb⟩
  others d hd := by rw [x.strip?_modStrip b d fun t => (h t).stripb, if_neg hd]
  mine := by
    rw [x.strip?_modStrip b b fun t => (h t).stripb, if_pos rfl]
    cases x.strip? b with
    | none => exact .refl _
    | some t => exact h t

/-- A change of a register of the destination group. -/
theorem Strip.keeps_setReg (t : Strip) (f : VReg → VReg) {k : Nat} (hk : first ≤ k ∧ k < first + len) :
    Strip.Keeps first len mask t (t.setReg k f) where
  reg i hi := by
    rw [Strip.reg_setReg, if_neg]
    rintro ⟨rfl, -⟩
    exact hi hk
  m _ _ _ := rfl
  vl := rfl
  vtype := rfl
  stripb := rfl
  snap := rfl
  lpc := rfl

/-- A tag for the destination group. -/
theorem Strip.keeps_tagGroup (t : Strip) (tag : Tag) : Strip.Keeps first len mask t (t.tagGroup first len tag) := by
  unfold Strip.tagGroup
  refine List.foldlRecOn (List.range len) _ (Strip.Keeps.refl t) fun u hu i hi => hu.trans (u.keeps_setReg _ ?_)
  have := List.mem_range.1 hi
  omega

/-- Scales for the destination group. -/
theorem Strip.keeps_copyScales (t : Strip) (src : Nat) {g : Nat} (hg : g ≤ len) :
    Strip.Keeps first len mask t (t.copyScales first src g) := by
  unfold Strip.copyScales
  refine List.foldlRecOn (List.range g) _ (Strip.Keeps.refl t) fun u hu i hi => hu.trans (u.keeps_setReg _ ?_)
  have := List.mem_range.1 hi
  omega

/-- Elements of the destination group. -/
theorem Strip.keeps_putEls (t : Strip) (w : Nat) (xs : List (Nat × Nat)) (h : ∀ x ∈ xs, x.1 * w / 1024 < len) :
    Strip.Keeps first len mask t (t.putEls first w xs) := by
  induction xs generalizing t with
  | nil => exact .refl t
  | cons x xs ih =>
    have hx : x.1 * w / 1024 < len := h x List.mem_cons_self
    exact (t.keeps_setReg _ ⟨Nat.le_add_right _ _, Nat.add_lt_add_left hx _⟩).trans
      (ih _ fun y hy => h y (List.mem_cons_of_mem x hy))

/-- Bits of the destination mask. -/
theorem Strip.keeps_putMask (t : Strip) (k : MNum) (bs : List (Nat × Bool)) :
    Strip.Keeps first len k.toNat t (t.putMask k bs) where
  reg _ _ := rfl
  m i _ hi := by
    unfold Strip.putMask
    simp only [Vector.getElem?_setIfInBounds, if_neg (Ne.symm hi)]
  vl := rfl
  vtype := rfl
  stripb := rfl
  snap := rfl
  lpc := rfl

/-- Fields that hold no register. -/
theorem Strip.keeps_fields {t u : Strip} (hv : u.v = t.v) (hm : u.m = t.m) (hvl : u.vl = t.vl) (hty : u.vtype = t.vtype)
    (hb : u.stripb = t.stripb) (hs : u.snap = t.snap) (hl : u.lpc = t.lpc) : Strip.Keeps first len mask t u where
  reg k _ := by unfold Strip.reg; rw [hv]
  m k _ _ := by rw [hm]
  vl := hvl
  vtype := hty
  stripb := hb
  snap := hs
  lpc := hl

/-- A strip at STRIPB b of a context without streams issues, VL and a serial region's lane within their bounds. -/
structure StripIssues (b : Nat) (s : State) : Prop where
  place : s.cur.party.place = .strip b
  streams : s.myCtx.streams = []
  vl : s.myStrip.vl ≤ vlmax s.myStrip.vtype
  lane : ∀ r, s.myStrip.region = some r → r.lane < s.myStrip.vl

/-- A change of the issuing strip that keeps what is kept of it. -/
theorem State.keeps_modMyStrip {s : State} {f : Strip → Strip} (hp : s.cur.party.place = .strip b)
    (h : ∀ t, Strip.Keeps first len mask t (f t)) : State.Keeps b first len mask s (s.modMyStrip f) := by
  have hb : placeStripb s.cur.party.place = b := by rw [hp]; rfl
  unfold State.modMyStrip State.modStrip
  rw [hb]
  exact State.keeps_modCtx (Ctx.keeps_modStrip _ h)

/-- Flags of a strip (R61). -/
theorem State.keeps_addFlags {s : State} (hp : s.cur.party.place = .strip b) (fl : Flags) :
    State.Keeps b first len mask s (s.addFlags fl) := by
  unfold State.addFlags
  rw [hp]
  exact State.keeps_modCtx (Ctx.keeps_modStrip _ fun t => Strip.keeps_fields rfl rfl rfl rfl rfl rfl rfl)

/-- Results written into the destination group (R31, R58). -/
theorem State.keeps_putLanes {s : State} (hs : StripIssues b s) (w : Nat) (tag : Tag) {xs : List (Nat × Nat)} (fl : Flags)
    (h : ∀ x ∈ xs, x.1 * w / 1024 < len) : State.Keeps b first len mask s (s.putLanes first w len tag xs fl) := by
  unfold State.putLanes
  have hpark : State.Keeps b first len mask s (s.modCtx s.me fun x => x.unpark first len) :=
    State.keeps_modCtx ⟨rfl, id, fun _ _ => rfl, .refl _⟩
  refine hpark.trans ((State.keeps_modMyStrip (by exact hs.place) fun t => ?_).trans
    (State.keeps_addFlags (by exact hs.place) fl))
  split
  · refine ((t.keeps_putEls w _ ?_).trans (Strip.keeps_tagGroup _ tag)).trans
      (Strip.keeps_fields rfl rfl rfl rfl rfl rfl rfl)
    intro x hx
    obtain ⟨y, hy, rfl⟩ := List.mem_map.1 hx
    exact h y (List.mem_of_mem_filter hy)
  · exact Strip.keeps_fields rfl rfl rfl rfl rfl rfl rfl

/-- Bits written into the destination mask (R53). -/
theorem State.keeps_putBits {s : State} (hp : s.cur.party.place = .strip b) (k : MNum) (bs : List (Nat × Bool)) (fl : Flags) :
    State.Keeps b first len k.toNat s (s.putBits k bs fl) := by
  unfold State.putBits
  refine (State.keeps_modMyStrip hp fun t => ?_).trans (State.keeps_addFlags (by exact hp) fl)
  split
  · exact Strip.keeps_fields rfl rfl rfl rfl rfl rfl rfl
  · exact (t.keeps_putMask k bs).trans (Strip.keeps_fields rfl rfl rfl rfl rfl rfl rfl)

/-- Scales that follow a move (R262). -/
theorem State.keeps_giveScales {s : State} (hp : s.cur.party.place = .strip b) (go : Bool) (tag : Tag) (src : Nat) {g : Nat}
    (hg : g ≤ len) : State.Keeps b first len mask s (s.giveScales go tag first src g) := by
  unfold State.giveScales
  split
  · exact State.keeps_modMyStrip hp fun t => t.keeps_copyScales src hg
  · exact .refl s

/-- Results with the scales that follow them (R262). -/
theorem State.keeps_putLanes_giveScales {s : State} (hs : StripIssues b s) (w : Nat) (tag : Tag) {xs : List (Nat × Nat)}
    (fl : Flags) (go : Bool) (src : Nat) {g : Nat} (hg : g ≤ len) (h : ∀ x ∈ xs, x.1 * w / 1024 < len) :
    State.Keeps b first len mask s ((s.putLanes first w len tag xs fl).giveScales go tag first src g) :=
  have hput := State.keeps_putLanes hs w tag fl h
  hput.trans (State.keeps_giveScales (hput.cur ▸ hs.place) go tag src hg)

/-- The active positions of an instruction lie below VL (R234, R239, R268). -/
theorem StripIssues.active_lt {s : State} (hs : StripIssues b s) {msk : BitVec 1} {mk : MNum} {p : Nat}
    (h : p ∈ s.myStrip.active msk mk) : p < s.myStrip.vl := by
  unfold Strip.active at h
  cases hr : s.myStrip.region with
  | none =>
    rw [hr] at h
    exact List.mem_range.1 (List.mem_of_mem_drop (List.mem_of_mem_filter h))
  | some r =>
    rw [hr] at h
    dsimp only at h
    split at h
    · cases h
    · rw [List.mem_singleton.1 h]
      exact hs.lane r hr

/-- The active positions of a strip-wide instruction lie below VL (R239). -/
theorem Strip.wideActive_lt {t : Strip} {msk : BitVec 1} {mk : MNum} {p : Nat} (h : p ∈ t.wideActive msk mk) : p < t.vl := by
  have h := List.mem_of_mem_filter h
  unfold Strip.wide at h
  split at h
  · cases h
  · exact List.mem_range.1 h

/-- Positions below VL lie in the registers of a group (R22, R51). -/
theorem StripIssues.inGroup {s : State} (hs : StripIssues b s) {p : Nat} (h : p < s.myStrip.vl) :
    p * s.myStrip.ewB / 1024 < s.myStrip.grp := by
  have hpos : 0 < s.myStrip.ewB := Nat.two_pow_pos _
  have hmax : (p + 1) * s.myStrip.ewB ≤ 1024 * s.myStrip.grp := by
    have hle : p + 1 ≤ 1024 * s.myStrip.grp / s.myStrip.ewB := Nat.le_trans h hs.vl
    exact (Nat.le_div_iff_mul_le hpos).1 hle
  rw [Nat.add_mul, Nat.one_mul] at hmax
  exact Nat.div_lt_of_lt_mul (by omega)

/-! What a body leaves. -/

/-- A body raises a cause in its own state, or leaves a state that keeps what is kept. -/
def Keeping (b first len mask : Nat) (s : State) (r : R PUnit) : Prop :=
  (∃ c, r = .trap c 0 s) ∨ ∃ u, r = .ok ⟨⟩ u ∧ State.Keeps b first len mask s u

/-- The same where the groups taken are given back with a cause. -/
def KeepingBack (b first len mask : Nat) (s : State) (r : R PUnit) : Prop :=
  (∃ c, r = .trap c 0 s ∨ r = .trap c 0 (s.backTo s)) ∨ ∃ u, r = .ok ⟨⟩ u ∧ State.Keeps b first len mask s u

theorem keeping_trap (s : State) (c : Code) : Keeping b first len mask s (.trap c 0 s) := .inl ⟨c, rfl⟩

theorem keeping_done {s u : State} (h : State.Keeps b first len mask s u) : Keeping b first len mask s (R.done u) :=
  .inr ⟨u, rfl, h⟩

/-- A cause on a condition. -/
theorem keeping_unless {s : State} {q : Prop} [Decidable q] {c : Code} {r : R PUnit} (h : Keeping b first len mask s r) :
    Keeping b first len mask s (if q then .trap c 0 s else r) := by
  split
  · exact keeping_trap s c
  · exact h

/-- A body that goes on after one that keeps. -/
theorem keeping_andThen {s : State} {r : R PUnit} {f : State → R PUnit} (h : Keeping b first len mask s r)
    (hf : ∀ u, State.Keeps b first len mask s u → ∃ v, f u = .ok ⟨⟩ v ∧ State.Keeps b first len mask u v) :
    Keeping b first len mask s (r.andThen f) := by
  rcases h with ⟨c, rfl⟩ | ⟨u, rfl, hu⟩
  · exact keeping_trap s c
  · obtain ⟨v, hv, hk⟩ := hf u hu
    exact .inr ⟨v, hv, hu.trans hk⟩

/-- An operation's format is accepted or raises its cause (R232). -/
theorem keepingBack_format {s : State} {e : Except Code Tag} {k : Tag → R PUnit}
    (h : ∀ a, e = .ok a → KeepingBack b first len mask s (k a)) : KeepingBack b first len mask s (fromE e s k) := by
  cases e with
  | error c => exact .inl ⟨c, .inl rfl⟩
  | ok a => exact h a rfl

/-- The groups of an instruction without streams, and what it does with them (R51, R117). -/
theorem keepingBack_vgroups {s : State} (hs : StripIssues b s) {srcs : List (Nat × Nat)} {dst : Option (Nat × Nat)}
    {body : State → R PUnit} (h : Keeping b first len mask s (body s)) :
    KeepingBack b first len mask s (s.vgroups srcs dst body) := by
  unfold State.vgroups
  split
  · exact .inl ⟨0x0C, .inl rfl⟩
  · split
    · exact .inl ⟨0x0D, .inl rfl⟩
    · rw [State.takeGroups_none hs.streams, R.andThen_ok]
      rcases h with ⟨c, h⟩ | ⟨u, h, hu⟩
      · exact .inl ⟨c, .inr (by rw [h]; rfl)⟩
      · exact .inr ⟨u, by rw [h]; rfl, hu⟩

/-- Elementwise results (R462). -/
theorem keeping_mapLanes {s : State} (hs : StripIssues b s) {w : Nat} (hw : w = s.myStrip.ewB) {ps srcs : List Nat}
    {tag : Tag} {f : Strip → Nat → Nat × Flags} (h : ∀ p ∈ ps, p < s.myStrip.vl) :
    Keeping b first s.myStrip.grp mask s (s.mapLanes ps srcs first w s.myStrip.grp tag f) := by
  subst hw
  unfold State.mapLanes
  refine keeping_unless (keeping_done (State.keeps_putLanes hs _ _ _ fun x hx => ?_))
  simp only [List.map_map, List.mem_map, Function.comp] at hx
  obtain ⟨p, hp, rfl⟩ := hx
  exact hs.inGroup (h p hp)

/-! The bodies. -/

/-- The body of an instruction keeps all but its destination group. -/
def VectorBody (b first : Nat) (body : State → R PUnit) : Prop :=
  ∀ s, StripIssues b s → KeepingBack b first s.myStrip.grp 16 s (body s)

/-- The body of an instruction keeps all but its destination mask. -/
def MaskBody (b mask : Nat) (body : State → R PUnit) : Prop :=
  ∀ s first, StripIssues b s → KeepingBack b first 0 mask s (body s)

theorem vint_keeps (o : FormV) (f : Bool → Nat → Nat → Nat → Nat) : VectorBody b o.vd.toNat fun s => s.vint o f :=
  fun _ hs => keepingBack_format fun _ _ => keepingBack_vgroups hs
    (keeping_unless (keeping_mapLanes hs rfl fun _ => hs.active_lt))

theorem vlogic_keeps (o : FormV) (f : Bool → Nat → Nat → Nat → Nat) : VectorBody b o.vd.toNat fun s => s.vlogic o f := by
  intro s hs
  unfold State.vlogic
  dsimp only
  split
  · exact .inl ⟨0x0F, .inl rfl⟩
  · exact keepingBack_vgroups hs (keeping_unless (keeping_mapLanes hs rfl fun _ => hs.active_lt))

theorem vflt_keeps (o : FormV) (two three : Bool) (f : Nat → RMode → Bool → Nat → Nat → Nat → Nat × Flags) :
    VectorBody b o.vd.toNat fun s => s.vflt o two three f :=
  fun _ hs => keepingBack_format fun _ _ => keepingBack_vgroups hs
    (keeping_unless (keeping_mapLanes hs rfl fun _ => hs.active_lt))

theorem vmove_keeps (o : FormV) : VectorBody b o.vd.toNat fun s => s.vmove o := by
  refine fun s hs => keepingBack_format fun fmt _ => keepingBack_vgroups hs ?_
  dsimp only
  split
  · exact keeping_trap s _
  · refine keeping_andThen (keeping_mapLanes hs rfl fun _ => hs.active_lt) fun u hu => ?_
    have hp : u.cur.party.place = .strip b := hu.cur ▸ hs.place
    split
    · exact ⟨_, rfl, State.keeps_giveScales hp _ _ _ (Nat.le_refl _)⟩
    · exact ⟨u, rfl, .refl u⟩

theorem vid_keeps (o : FormV) : VectorBody b o.vd.toNat fun s => fromE (s.vformat o okInt) s fun tag =>
    s.vgroups [] (some (o.vd.toNat, s.myStrip.grp)) fun t =>
      t.mapLanes (t.positions o) [] o.vd.toNat s.myStrip.ewB s.myStrip.grp tag fun u p =>
        ((u.stripb + p) % 2 ^ (8 * s.myStrip.ewB), 0) :=
  fun _ hs => keepingBack_format fun _ _ => keepingBack_vgroups hs (keeping_mapLanes hs rfl fun _ => hs.active_lt)

theorem permute_keeps (o : FormV) (vb : Option Nat) (moves : State → List (Nat × Option Nat))
    (h : ∀ s, ∀ m ∈ moves s, m.1 < s.myStrip.vl) : VectorBody b o.vd.toNat fun s => s.permute o vb moves := by
  refine fun s hs => keepingBack_format fun _ _ => keepingBack_vgroups hs ?_
  dsimp only
  split
  · exact keeping_trap s _
  · refine keeping_unless (keeping_unless (keeping_done
      (State.keeps_putLanes_giveScales hs _ _ _ _ _ (Nat.le_refl _) fun x hx => ?_)))
    obtain ⟨m, hm, rfl⟩ := List.mem_map.1 hx
    exact hs.inGroup (h s m (List.mem_of_mem_filter hm))

theorem reduction_keeps (o : FormV) (ok : Nat → Bool → Bool)
    (f : Nat → Nat → RMode → Bool → Nat → List (Nat × Nat) → Nat × Flags) :
    VectorBody b o.vd.toNat fun s => s.reduction o ok f := by
  refine fun s hs => keepingBack_format fun _ _ => keepingBack_vgroups hs (keeping_unless (keeping_unless (keeping_done ?_)))
  have hpos : 0 < s.myStrip.grp := Nat.two_pow_pos _
  split
  · refine State.keeps_putLanes hs _ _ _ fun x hx => ?_
    rw [List.mem_singleton.1 hx, Nat.zero_mul, Nat.zero_div]
    exact hpos
  · exact State.keeps_putLanes hs _ _ _ fun x hx => nomatch hx

theorem vmerge_keeps (o : FormV) : VectorBody b o.vd.toNat fun s => fromE (s.vformat o okAny) s fun _ =>
    let w := s.myStrip.ewB
    let gr := s.myStrip.grp
    let va := o.va.toNat
    let b := s.second o w
    s.vgroups ((va :: b.regs).map fun v => (v, gr)) (some (o.vd.toNat, gr)) fun s =>
      let t := s.myStrip
      match t.groupTag va gr with
      | none => .trap 0x05 0 s
      | some tag =>
          if !s.tagsAre b.regs tag then .trap 0x05 0 s
          else
            let ps := t.active 0 0
            let takes := ps.filter fun p => t.mbit o.mreg p
            let keeps := ps.filter fun p => !t.mbit o.mreg p
            if t.poisonedAt b.regs w takes || t.poisonedAt [va] w keeps then .trap 0xA0 0 s
            else
              (s.mapLanes ps [] o.vd.toNat w gr tag fun t p =>
                (if t.mbit o.mreg p then b.at t w p else t.el va w p, 0)).andThen fun s =>
                  R.done (s.giveScales t.begins tag o.vd.toNat va gr) := by
  refine fun s hs => keepingBack_format fun _ _ => keepingBack_vgroups hs ?_
  dsimp only
  split
  · exact keeping_trap s _
  · exact keeping_unless (keeping_unless (keeping_andThen (keeping_mapLanes hs rfl fun _ => hs.active_lt) fun u hu =>
      ⟨_, rfl, State.keeps_giveScales (hu.cur ▸ hs.place) _ _ _ (Nat.le_refl _)⟩))

theorem vunpack_keeps (o : FormV) : VectorBody b o.vd.toNat fun s => s.vunpack o := by
  intro s hs
  have hle : max 1 (s.myStrip.grp / s.myStrip.ewB) ≤ s.myStrip.grp :=
    Nat.max_le.2 ⟨Nat.two_pow_pos _, Nat.div_le_self _ _⟩
  refine keepingBack_format fun d _ => keepingBack_vgroups hs (keeping_unless (keeping_unless (keeping_done
    (State.keeps_putLanes_giveScales hs _ _ _ _ _ hle fun x hx => ?_))))
  simp only [List.map_map, List.mem_map, Function.comp] at hx
  obtain ⟨p, hp, rfl⟩ := hx
  exact hs.inGroup (Strip.wideActive_lt hp)

/-- An accepted format of `vpilgrim` is n32, which 32-bit elements hold (R232, R266). -/
theorem ewB_of_n32 {s : State} {o : FormV} {tag : Tag} (ha : o.fv = 1 → o.fmt = 6) (h : s.vformat o okN32 = .ok tag) :
    4 = s.myStrip.ewB := by
  rw [State.vformat_eq] at h
  split at h
  · cases h
  · rename_i hok
    have hf : (if o.fv = 1 then o.fmt.toNat else s.myStrip.vtype.toNat / 16 % 32) = 6 := by
      rcases BitVec.eq_zero_or_eq_one o.fv with h0 | h1
      · have hn : ¬ o.fv = 1 := by rw [h0]; decide
        rw [if_neg hn]
        by_contra hne
        exact hok ⟨h0, by simp [okN32, hne]⟩
      · rw [if_pos (by exact h1), ha h1]; rfl
    rw [hf] at h
    split at h
    · rename_i hw
      have hbits : fmtBits 6 = 32 := rfl
      rw [Strip.ewB_eq]
      simp only [List.mem_cons, List.not_mem_nil, or_false, hbits] at hw
      omega
    · cases h

theorem vpilgrim_keeps {o : FormV} (ha : o.fv = 1 → o.fmt = 6) : VectorBody b o.vd.toNat fun s =>
    fromE (s.vformat o okN32) s fun tag => s.vgroups [] (some (o.vd.toNat, s.myStrip.grp)) fun t =>
      t.mapLanes (t.positions o) [] o.vd.toNat 4 s.myStrip.grp tag fun _ p => (t.draw o p, 0) :=
  fun _ hs => keepingBack_format fun _ h => keepingBack_vgroups hs
    (keeping_mapLanes hs (ewB_of_n32 ha h) fun _ => hs.active_lt)

theorem vcompare_keeps (o : FormV) (ok : Nat → Bool → Bool) (f : Nat → Bool → Nat → Nat → Nat → Bool × Flags) :
    MaskBody b (o.vd.setWidth 4).toNat fun s => s.vcompare o ok f :=
  fun _ _ hs => keepingBack_format fun _ _ => keepingBack_vgroups hs
    (keeping_unless (keeping_unless (keeping_done (State.keeps_putBits hs.place _ _ _))))

theorem maskOp_keeps (o : FormK) (f : Strip → Nat → Bool) : MaskBody b o.mx.toNat fun s => s.maskOp o f :=
  fun _ _ hs => .inr ⟨_, rfl, State.keeps_putBits hs.place _ _ _⟩

/-! The instructions. -/

/-- What the frame says an instruction leaves: a cause, or all that the strip's instruction does not write. -/
def VectorFrame (b first len mask : Nat) (s t : State) : Prop :=
  (∃ c, t = s.dropAnswers.takeCause c 0 ∨ t = (s.backTo s).dropAnswers.takeCause c 0) ∨
  (t.mem = s.mem ∧ t.bind = s.bind ∧ t.jobs = s.jobs ∧ t.counters = s.counters ∧ t.keys = s.keys ∧ t.cores = s.cores ∧
    t.clusters = s.clusters ∧ t.dies = s.dies ∧ t.chip = s.chip ∧ (∀ c, c ≠ s.me → t.ctx c = s.ctx c) ∧
    (t.ctx s.me).s = s.myCtx.s ∧ (t.ctx s.me).fmtst = s.myCtx.fmtst ∧ (t.ctx s.me).fctl = s.myCtx.fctl ∧
    (t.ctx s.me).seed = s.myCtx.seed ∧ (t.ctx s.me).tsh = s.myCtx.tsh ∧ (t.ctx s.me).tl = s.myCtx.tl ∧
    (t.ctx s.me).pc = s.myCtx.pc ∧ (t.ctx s.me).v = s.myCtx.v ∧ (t.ctx s.me).m = s.myCtx.m ∧
    (t.ctx s.me).t = s.myCtx.t ∧ (t.ctx s.me).rq = s.myCtx.rq ∧ (t.ctx s.me).cause = s.myCtx.cause ∧
    (t.ctx s.me).epc = s.myCtx.epc ∧ (t.ctx s.me).tval = s.myCtx.tval ∧ (t.ctx s.me).queue = s.myCtx.queue ∧
    (t.ctx s.me).run = s.myCtx.run ∧ (∀ d, d ≠ b → t.strip s.me d = s.strip s.me d) ∧
    (∀ k, ¬ (first ≤ k ∧ k < first + len) → (t.strip s.me b).reg k = s.myStrip.reg k) ∧
    (∀ k, k < 16 → k ≠ mask → (t.strip s.me b).m[k]? = s.myStrip.m[k]?) ∧
    (t.strip s.me b).vl = s.myStrip.vl ∧ (t.strip s.me b).vtype = s.myStrip.vtype ∧
    (t.strip s.me b).stripb = s.myStrip.stripb ∧ (t.strip s.me b).snap = s.myStrip.snap ∧
    (t.strip s.me b).lpc = s.myStrip.lpc ∧ (t.strip s.me b).pc = s.cur.next)

/-- A strip goes on at its next address (R175). -/
theorem State.advance_strip {u : State} (hp : u.cur.party.place = .strip b) :
    u.advance = (u.modCtx u.me (Ctx.goesOn u.cur.party.place)).modMyStrip fun t =>
      Strip.unpassed none u.cur.pc { t with pc := u.cur.next, wait := none, late := [] } := by
  simp only [State.advance, State.modCtx_cur, hp]

/-- A strip that goes on keeps what is kept (R175). -/
theorem State.keeps_advance {u : State} (hp : u.cur.party.place = .strip b) : State.Keeps b first len mask u u.advance := by
  rw [State.advance_strip hp]
  have hgoes : State.Keeps b first len mask u (u.modCtx u.me (Ctx.goesOn u.cur.party.place)) :=
    State.keeps_modCtx ⟨rfl, id, fun _ _ => rfl, .refl _⟩
  exact hgoes.trans (State.keeps_modMyStrip hp fun t => Strip.keeps_fields rfl rfl rfl rfl rfl rfl rfl)

/-- The program counter of a strip that goes on (R175). -/
theorem State.strip_pc_advance {u : State} (hp : u.cur.party.place = .strip b) (hb : ∃ v ∈ u.myCtx.strips, v.stripb = b) :
    (u.advance.strip u.me b).pc = u.cur.next := by
  have hctx : u.advance.ctx u.me = (Ctx.goesOn u.cur.party.place (u.ctx u.me)).modStrip b fun t =>
      Strip.unpassed none u.cur.pc { t with pc := u.cur.next, wait := none, late := [] } := by
    rw [State.advance_strip hp]
    unfold State.modMyStrip State.modStrip
    rw [State.modCtx_cur, hp]
    exact (State.ctx_modCtx_same _ _ _).trans (congrArg (Ctx.modStrip · b _) (State.ctx_modCtx_same u u.me _))
  unfold State.strip
  rw [hctx, Ctx.strip?_modStrip _ b b (f := fun t => Strip.unpassed none u.cur.pc
    { t with pc := u.cur.next, wait := none, late := [] }) fun _ => rfl, if_pos rfl]
  obtain ⟨v, hv, rfl⟩ := hb
  cases hfind : (Ctx.goesOn u.cur.party.place (u.ctx u.me)).strip? v.stripb with
  | none => exact absurd (List.find?_eq_none.1 hfind v hv) (by simp)
  | some w => rfl

/-- The frame of an instruction without gates whose body keeps all but its destination. -/
theorem vectorFrame_of_keepingBack {i : Instr} {s t : State} {body : State → R PUnit} (hx : exec i s = issue i s body)
    (hg : gatesOf i = Gates.none) (hr : Ready i s s) (hs : StripIssues b s) (hb : ∃ u ∈ s.myCtx.strips, u.stripb = b)
    (hbody : KeepingBack b first len mask s (body s)) (ht : exec i s = .next t) : VectorFrame b first len mask s t := by
  rw [hx] at ht
  rcases hbody with ⟨c, h | h⟩ | ⟨u, h, hu⟩
  · rw [issue_trap hr h] at ht
    exact .inl ⟨c, .inl (Host.Outcome.next.inj ht).symm⟩
  · rw [issue_trap hr h] at ht
    exact .inl ⟨c, .inr (Host.Outcome.next.inj ht).symm⟩
  · rw [issue_ok hr h] at ht
    have hticket : ticketOf i s = none := by
      unfold ticketOf State.duePost State.lanePost
      rw [hg]
      cases s.myRegion <;> simp [Gates.none]
    have hdone : t = u.dropAnswers.advance := by
      rw [← Host.Outcome.next.inj ht, finished, hticket]
      rfl
    subst hdone
    have hdrop : State.Keeps b first len mask s u.dropAnswers := hu.trans ⟨rfl, fun _ _ => rfl, .refl _⟩
    have hplace : u.dropAnswers.cur.party.place = .strip b := hdrop.cur ▸ hs.place
    obtain ⟨hrest, hothers, hmine⟩ := hdrop.trans (State.keeps_advance hplace)
    have hpc := State.strip_pc_advance hplace (by rw [State.myCtx, hdrop.me]; exact hdrop.mine.bound hb)
    rw [hdrop.me, hdrop.cur] at hpc
    have hstrip : s.myStrip = s.strip s.me b := by unfold State.myStrip; rw [hs.place]; rfl
    obtain ⟨hctx, -, hd, hown⟩ := hmine
    rw [VectorFrame, hstrip]
    have hstate := fun {α : Type} (f : State → α) => congrArg f hrest
    have hregs := fun {α : Type} (f : Ctx → α) => congrArg f hctx
    exact .inr ⟨hstate State.mem, hstate State.bind, hstate State.jobs, hstate State.counters, hstate State.keys,
      hstate State.cores, hstate State.clusters, hstate State.dies, hstate State.chip, hothers, hregs Ctx.s,
      hregs Ctx.fmtst, hregs Ctx.fctl, hregs Ctx.seed, hregs Ctx.tsh, hregs Ctx.tl, hregs Ctx.pc, hregs Ctx.v, hregs Ctx.m,
      hregs Ctx.t, hregs Ctx.rq, hregs Ctx.cause, hregs Ctx.epc, hregs Ctx.tval, hregs Ctx.queue, hregs Ctx.run,
      fun d h => congrArg (·.getD Strip.zero) (hd d h), hown.reg, hown.m, hown.vl, hown.vtype, hown.stripb, hown.snap,
      hown.lpc, hpc⟩

/-- An instruction of form V keeps all but its destination group. -/
def KeepsGroup (mk : Gates → FormV → Instr) : Prop :=
  ∀ o, gatesOf (mk Gates.none o) = Gates.none ∧ (accepts (mk Gates.none o) = true → ∃ body,
    (∀ s, exec (mk Gates.none o) s = issue (mk Gates.none o) s body) ∧ ∀ b, VectorBody b o.vd.toNat body)

theorem keepsGroup_of_body {mk : Gates → FormV → Instr} {body : FormV → State → R PUnit}
    (hg : ∀ o, gatesOf (mk Gates.none o) = Gates.none)
    (hx : ∀ o s, exec (mk Gates.none o) s = issue (mk Gates.none o) s (body o))
    (hb : ∀ o b, VectorBody b o.vd.toNat (body o)) : KeepsGroup mk :=
  fun o => ⟨hg o, fun _ => ⟨body o, hx o, hb o⟩⟩

theorem keepsGroup_of_vint {mk : Gates → FormV → Instr} {f : Bool → Nat → Nat → Nat → Nat}
    (hg : ∀ o, gatesOf (mk Gates.none o) = Gates.none)
    (hx : ∀ o s, exec (mk Gates.none o) s = issue (mk Gates.none o) s fun s => s.vint o f) : KeepsGroup mk :=
  keepsGroup_of_body hg hx fun o _ => vint_keeps o f

theorem keepsGroup_of_vlogic {mk : Gates → FormV → Instr} {f : Bool → Nat → Nat → Nat → Nat}
    (hg : ∀ o, gatesOf (mk Gates.none o) = Gates.none)
    (hx : ∀ o s, exec (mk Gates.none o) s = issue (mk Gates.none o) s fun s => s.vlogic o f) : KeepsGroup mk :=
  keepsGroup_of_body hg hx fun o _ => vlogic_keeps o f

theorem keepsGroup_of_vflt {mk : Gates → FormV → Instr} {two three : Bool}
    {f : Nat → RMode → Bool → Nat → Nat → Nat → Nat × Flags} (hg : ∀ o, gatesOf (mk Gates.none o) = Gates.none)
    (hx : ∀ o s, exec (mk Gates.none o) s = issue (mk Gates.none o) s fun s => s.vflt o two three f) : KeepsGroup mk :=
  keepsGroup_of_body hg hx fun o _ => vflt_keeps o two three f

theorem keepsGroup_of_reduction {mk : Gates → FormV → Instr} {ok : Nat → Bool → Bool}
    {f : Nat → Nat → RMode → Bool → Nat → List (Nat × Nat) → Nat × Flags}
    (hg : ∀ o, gatesOf (mk Gates.none o) = Gates.none)
    (hx : ∀ o s, exec (mk Gates.none o) s = issue (mk Gates.none o) s fun s => s.reduction o ok f) : KeepsGroup mk :=
  keepsGroup_of_body hg hx fun o _ => reduction_keeps o ok f

/-- A strip has at most VL active positions. -/
theorem Strip.length_wideActive_le (t : Strip) (msk : BitVec 1) (mk : MNum) : (t.wideActive msk mk).length ≤ t.vl := by
  refine Nat.le_trans (List.length_filter_le _ _) ?_
  unfold Strip.wide
  split
  · exact Nat.zero_le _
  · rw [List.length_range]

/-- The counts and positions of the selected elements lie below VL (R258). -/
theorem selected_lt {o : FormV} {s : State} {x : Nat × Nat} (h : x ∈ selected o s) :
    x.1 < s.myStrip.vl ∧ x.2 < s.myStrip.vl := by
  obtain ⟨hj, hp⟩ := List.of_mem_zip (a := x.1) (b := x.2) h
  exact ⟨Nat.lt_of_lt_of_le (List.mem_range.1 hj) (Strip.length_wideActive_le _ _ _), Strip.wideActive_lt hp⟩

theorem vcompress_keeps (o : FormV) : VectorBody b o.vd.toNat fun s =>
    s.permute o none fun s => (selected o s).map fun (j, p) => (j, some p) :=
  permute_keeps o none _ fun s m hm => by
    obtain ⟨x, hx, rfl⟩ := List.mem_map.1 hm
    exact (selected_lt hx).1

theorem vexpand_keeps (o : FormV) : VectorBody b o.vd.toNat fun s =>
    s.permute o none fun s => (selected o s).map fun (j, p) => (p, some j) :=
  permute_keeps o none _ fun s m hm => by
    obtain ⟨x, hx, rfl⟩ := List.mem_map.1 hm
    exact (selected_lt hx).2

theorem vslideup_keeps (o : FormV) : VectorBody b o.vd.toNat fun s => s.permute o none fun s =>
    let n := s.slideBy o
    (s.myStrip.wideActive o.msk o.mreg).filterMap fun p => if n ≤ p then some (p, some (p - n)) else none :=
  permute_keeps o none _ fun s m hm => by
    obtain ⟨p, hp, hm⟩ := List.mem_filterMap.1 hm
    obtain ⟨-, hm⟩ := Option.ite_none_right_eq_some.1 hm
    cases hm
    exact Strip.wideActive_lt hp

theorem vslidedn_keeps (o : FormV) : VectorBody b o.vd.toNat fun s => s.permute o none fun s =>
    let n := s.slideBy o
    (s.myStrip.wideActive o.msk o.mreg).map fun p => (p, if p + n < s.myStrip.vl then some (p + n) else none) :=
  permute_keeps o none _ fun s m hm => by
    obtain ⟨p, hp, rfl⟩ := List.mem_map.1 hm
    exact Strip.wideActive_lt hp

theorem vgather_keeps (o : FormV) : VectorBody b o.vd.toNat fun s => s.permute o (some o.vb.toNat) fun s =>
    let t := s.myStrip
    (t.wideActive o.msk o.mreg).map fun p =>
      let i := t.el o.vb.toNat t.ewB p
      (p, if i < t.vl then some i else none) :=
  permute_keeps o _ _ fun s m hm => by
    obtain ⟨p, hp, rfl⟩ := List.mem_map.1 hm
    exact Strip.wideActive_lt hp

/-- An accepted `vpilgrim` names n32 or no format (R266). -/
theorem vpilgrim_keepsGroup : KeepsGroup .vpilgrim := by
  refine fun o => ⟨rfl, fun h => ⟨_, fun _ => rfl, fun _ => vpilgrim_keeps fun hfv => ?_⟩⟩
  have h : vAccepts kSI false .n32 false .none o = true := h
  simp only [vAccepts, hfv, beq_self_eq_true, if_true, fmtAccepted, Bool.and_eq_true, beq_iff_eq] at h
  obtain ⟨⟨-, hfmt, -⟩, -⟩ := h
  exact BitVec.eq_of_toNat_eq hfmt

/-- A comparison keeps all but its destination mask. -/
def KeepsMask (mk : Gates → FormV → Instr) : Prop :=
  ∀ o, gatesOf (mk Gates.none o) = Gates.none ∧ ∃ body,
    (∀ s, exec (mk Gates.none o) s = issue (mk Gates.none o) s body) ∧ ∀ b, MaskBody b (o.vd.setWidth 4).toNat body

theorem keepsMask_of_vcompare {mk : Gates → FormV → Instr} {ok : Nat → Bool → Bool}
    {f : Nat → Bool → Nat → Nat → Nat → Bool × Flags} (hg : ∀ o, gatesOf (mk Gates.none o) = Gates.none)
    (hx : ∀ o s, exec (mk Gates.none o) s = issue (mk Gates.none o) s fun s => s.vcompare o ok f) : KeepsMask mk :=
  fun o => ⟨hg o, _, hx o, fun _ => vcompare_keeps o ok f⟩

/-- A mask instruction keeps all but its destination mask. -/
def KeepsMaskK (mk : Gates → FormK → Instr) : Prop :=
  ∀ o, gatesOf (mk Gates.none o) = Gates.none ∧ ∃ body,
    (∀ s, exec (mk Gates.none o) s = issue (mk Gates.none o) s body) ∧ ∀ b, MaskBody b o.mx.toNat body

theorem keepsMaskK_of_maskOp {mk : Gates → FormK → Instr} {f : FormK → Strip → Nat → Bool}
    (hg : ∀ o, gatesOf (mk Gates.none o) = Gates.none)
    (hx : ∀ o s, exec (mk Gates.none o) s = issue (mk Gates.none o) s fun s => s.maskOp o (f o)) : KeepsMaskK mk :=
  fun o => ⟨hg o, _, hx o, fun _ => maskOp_keeps o (f o)⟩

/-- A form that raises no cause is accepted (R187). -/
theorem accepts_of_formCause {i : Instr} {raw : Bool} {p : Place} (h : formCause i raw p = none) : accepts i = true := by
  unfold formCause at h
  by_contra hn
  rw [Bool.not_eq_true] at hn
  simp [hn] at h

/-- Settles O28: every body keeps all but its destination, and going on keeps the rest. -/
theorem vectorRegisterInstructionsFrame : Obligations.VectorRegisterInstructionsFrame := by
  unfold Obligations.VectorRegisterInstructionsFrame
  intro i first len mask b s t hi hr hplace hb hstreams hvl hlane ht
  have hs : StripIssues b s := ⟨hplace, hstreams, hvl, hlane⟩
  show VectorFrame b first len mask s t
  rcases hi with ⟨mk, hmk, o, rfl, rfl, rfl, rfl⟩ | ⟨mk, hmk, o, rfl, rfl, rfl⟩ | ⟨mk, hmk, o, rfl, rfl, rfl⟩
  · have hrow : KeepsGroup mk := by
      clear hr ht
      revert mk
      simp only [List.forall_mem_cons, List.not_mem_nil, false_implies, implies_true, and_true]
      exact ⟨keepsGroup_of_vint (fun _ => rfl) fun _ _ => rfl, keepsGroup_of_vint (fun _ => rfl) fun _ _ => rfl,
        keepsGroup_of_vint (fun _ => rfl) fun _ _ => rfl, keepsGroup_of_vint (fun _ => rfl) fun _ _ => rfl,
        keepsGroup_of_vint (fun _ => rfl) fun _ _ => rfl, keepsGroup_of_vint (fun _ => rfl) fun _ _ => rfl,
        keepsGroup_of_vlogic (fun _ => rfl) fun _ _ => rfl, keepsGroup_of_vlogic (fun _ => rfl) fun _ _ => rfl,
        keepsGroup_of_vlogic (fun _ => rfl) fun _ _ => rfl, keepsGroup_of_vint (fun _ => rfl) fun _ _ => rfl,
        keepsGroup_of_vint (fun _ => rfl) fun _ _ => rfl, keepsGroup_of_vint (fun _ => rfl) fun _ _ => rfl,
        keepsGroup_of_vint (fun _ => rfl) fun _ _ => rfl, keepsGroup_of_vint (fun _ => rfl) fun _ _ => rfl,
        keepsGroup_of_vint (fun _ => rfl) fun _ _ => rfl, keepsGroup_of_vint (fun _ => rfl) fun _ _ => rfl,
        keepsGroup_of_vflt (fun _ => rfl) fun _ _ => rfl, keepsGroup_of_vflt (fun _ => rfl) fun _ _ => rfl,
        keepsGroup_of_vflt (fun _ => rfl) fun _ _ => rfl, keepsGroup_of_vflt (fun _ => rfl) fun _ _ => rfl,
        keepsGroup_of_vflt (fun _ => rfl) fun _ _ => rfl, keepsGroup_of_vflt (fun _ => rfl) fun _ _ => rfl,
        keepsGroup_of_vflt (fun _ => rfl) fun _ _ => rfl, keepsGroup_of_vflt (fun _ => rfl) fun _ _ => rfl,
        keepsGroup_of_vflt (fun _ => rfl) fun _ _ => rfl, keepsGroup_of_vflt (fun _ => rfl) fun _ _ => rfl,
        keepsGroup_of_vflt (fun _ => rfl) fun _ _ => rfl,
        keepsGroup_of_body (fun _ => rfl) (fun _ _ => rfl) fun o _ => vmove_keeps o,
        keepsGroup_of_body (fun _ => rfl) (fun _ _ => rfl) fun o _ => vid_keeps o,
        keepsGroup_of_body (fun _ => rfl) (fun _ _ => rfl) fun o _ => vcompress_keeps o,
        keepsGroup_of_body (fun _ => rfl) (fun _ _ => rfl) fun o _ => vexpand_keeps o,
        keepsGroup_of_body (fun _ => rfl) (fun _ _ => rfl) fun o _ => vslideup_keeps o,
        keepsGroup_of_body (fun _ => rfl) (fun _ _ => rfl) fun o _ => vslidedn_keeps o,
        keepsGroup_of_body (fun _ => rfl) (fun _ _ => rfl) fun o _ => vgather_keeps o,
        keepsGroup_of_body (fun _ => rfl) (fun _ _ => rfl) fun o _ => vmerge_keeps o,
        keepsGroup_of_reduction (fun _ => rfl) fun _ _ => rfl, keepsGroup_of_reduction (fun _ => rfl) fun _ _ => rfl,
        keepsGroup_of_reduction (fun _ => rfl) fun _ _ => rfl, keepsGroup_of_reduction (fun _ => rfl) fun _ _ => rfl,
        keepsGroup_of_reduction (fun _ => rfl) fun _ _ => rfl, vpilgrim_keepsGroup,
        keepsGroup_of_body (fun _ => rfl) (fun _ _ => rfl) fun o _ => vunpack_keeps o⟩
    obtain ⟨hg, hbody⟩ := hrow o
    obtain ⟨body, hx, hk⟩ := hbody (accepts_of_formCause hr.1)
    exact vectorFrame_of_keepingBack (hx s) hg hr hs hb (hk b s hs) ht
  · have hrow : KeepsMask mk := by
      clear hr ht
      revert mk
      simp only [List.forall_mem_cons, List.not_mem_nil, false_implies, implies_true, and_true]
      exact ⟨keepsMask_of_vcompare (fun _ => rfl) fun _ _ => rfl, keepsMask_of_vcompare (fun _ => rfl) fun _ _ => rfl,
        keepsMask_of_vcompare (fun _ => rfl) fun _ _ => rfl, keepsMask_of_vcompare (fun _ => rfl) fun _ _ => rfl,
        keepsMask_of_vcompare (fun _ => rfl) fun _ _ => rfl, keepsMask_of_vcompare (fun _ => rfl) fun _ _ => rfl,
        keepsMask_of_vcompare (fun _ => rfl) fun _ _ => rfl, keepsMask_of_vcompare (fun _ => rfl) fun _ _ => rfl,
        keepsMask_of_vcompare (fun _ => rfl) fun _ _ => rfl⟩
    obtain ⟨hg, body, hx, hk⟩ := hrow o
    have hm : (o.vd.setWidth 4).toNat = o.vd.toNat % 16 := BitVec.toNat_setWidth 4 o.vd
    rw [← hm]
    exact vectorFrame_of_keepingBack (hx s) hg hr hs hb (hk b s first hs) ht
  · have hrow : KeepsMaskK mk := by
      clear hr ht
      revert mk
      simp only [List.forall_mem_cons, List.not_mem_nil, false_implies, implies_true, and_true]
      exact ⟨keepsMaskK_of_maskOp (f := fun o t p => t.mbit o.my p && t.mbit o.mz p) (fun _ => rfl) fun _ _ => rfl,
        keepsMaskK_of_maskOp (f := fun o t p => t.mbit o.my p || t.mbit o.mz p) (fun _ => rfl) fun _ _ => rfl,
        keepsMaskK_of_maskOp (f := fun o t p => t.mbit o.my p != t.mbit o.mz p) (fun _ => rfl) fun _ _ => rfl,
        keepsMaskK_of_maskOp (f := fun o t p => !t.mbit o.my p) (fun _ => rfl) fun _ _ => rfl,
        keepsMaskK_of_maskOp (f := fun o t p => t.mbit o.my p) (fun _ => rfl) fun _ _ => rfl,
        keepsMaskK_of_maskOp (f := fun o t p => p < t.firstSet o.my) (fun _ => rfl) fun _ _ => rfl,
        keepsMaskK_of_maskOp (f := fun o t p => p ≤ t.firstSet o.my) (fun _ => rfl) fun _ _ => rfl,
        keepsMaskK_of_maskOp (f := fun o t p => p == t.firstSet o.my) (fun _ => rfl) fun _ _ => rfl⟩
    obtain ⟨hg, body, hx, hk⟩ := hrow o
    exact vectorFrame_of_keepingBack (hx s) hg hr hs hb (hk b s first hs) ht

end Sys2Proof.Machine
end

section
/-! The statement about scalar accesses and the causes of an access (R93 to R95, R103, R105, R277, R283). -/

namespace Sys2Proof.Machine

/-! Scalar loads and stores (R283). -/

/-- The two readings of an element as a load writes it (R283). -/
theorem extended_eq (sg : Bool) (n v : Nat) : extended sg n v = if sg then
    BitVec.ofInt 64 (if v < 2 ^ (8 * n - 1) then v else (v : Int) - 2 ^ (8 * n)) else BitVec.ofNat 64 v := rfl

/-- The scopes an access names (R94, R278). -/
theorem scopesOf_eq (ord : BitVec 2) (scp : Scope) : scopesOf ord scp = if ord = 0 then [] else [scp.toNat] := by
  unfold scopesOf
  simp only [beq_iff_eq]

/-- The load of a row of R283 writes the element it reads, or raises the cause of its access (R277). -/
def LoadsElement (mk : Gates → FormS → Instr) (n : Nat) (sg : Bool) : Prop :=
  ∀ (g : Gates) (o : FormS) (s s1 s2 s3 s4 : State) (b : Word) (e : Elem), Ready (mk g o) s s1 →
    s1.rdS o.sy = .ok b s2 → s2.dstReady o.sx = .ok ⟨⟩ s3 → s3.ordBefore o.ord = .ok ⟨⟩ s4 →
    e = ⟨b + o.off.signExtend 64, n, .load, false, n, o.pol, if o.ord = 0 then [] else [o.scp.toNat], g.scopes⟩ →
    (∀ v s5, s4.readElem s4.me e = .ok v s5 →
      exec (mk g o) s = .next (finished (mk g o) s1 ((s5.setS o.sx (if sg
        then BitVec.ofInt 64 (if v < 2 ^ (8 * n - 1) then v else (v : Int) - 2 ^ (8 * n))
        else BitVec.ofNat 64 v)).ordAfter o.ord o.scp))) ∧
    ∀ c a s5, s4.readElem s4.me e = .trap c a s5 → exec (mk g o) s = .next (s5.dropAnswers.takeCause c a)

/-- An instruction whose meaning is `sload` is such a load. -/
theorem loadsElement_of_sload {mk : Gates → FormS → Instr} {n : Nat} {sg : Bool}
    (hx : ∀ g o s, exec (mk g o) s = issue (mk g o) s fun s => s.sload g o n sg) : LoadsElement mk n sg := by
  intro g o s s1 s2 s3 s4 b e hr hb hd ho he
  rw [← scopesOf_eq] at he
  rw [hx]
  refine ⟨fun v s5 h => issue_ok hr ?_, fun c a s5 h => issue_trap hr ?_⟩
  · simp only [State.sload, hb, R.bind_ok, hd, R.andThen_ok, ho, scalarElem, formAddr, ← he, h, extended_eq]
  · simp only [State.sload, hb, R.bind_ok, hd, R.andThen_ok, ho, scalarElem, formAddr, ← he, h, R.bind_trap]

/-- The store of a row of R283 stores the low bits of SX, or raises the cause of its access (R26, R277). -/
def StoresElement (mk : Gates → FormS → Instr) (n : Nat) : Prop :=
  ∀ (g : Gates) (o : FormS) (s s1 s2 s3 s4 : State) (b v : Word) (e : Elem) (r : R PUnit), Ready (mk g o) s s1 →
    s1.rdS o.sy = .ok b s2 → s2.rdS o.sx = .ok v s3 → s3.ordBefore o.ord = .ok ⟨⟩ s4 →
    e = ⟨b + o.off.signExtend 64, n, .store, false, n, o.pol, if o.ord = 0 then [] else [o.scp.toNat], g.scopes⟩ →
    r = (match s4.cur.party.place with
      | .lane _ p => s4.laneStore p e (v.toNat % 2 ^ (8 * n))
      | _ => s4.writeElem s4.me e (v.toNat % 2 ^ (8 * n))) →
    (∀ s5, r = .ok ⟨⟩ s5 → exec (mk g o) s = .next (finished (mk g o) s1 s5)) ∧
    ∀ c a s5, r = .trap c a s5 → exec (mk g o) s = .next (s5.dropAnswers.takeCause c a)

/-- An instruction whose meaning is `sstore` is such a store. -/
theorem storesElement_of_sstore {mk : Gates → FormS → Instr} {n : Nat}
    (hx : ∀ g o s, exec (mk g o) s = issue (mk g o) s fun s => s.sstore g o n) : StoresElement mk n := by
  intro g o s s1 s2 s3 s4 b v e r hr hb hv ho he hres
  rw [← scopesOf_eq] at he
  have hbody : s1.sstore g o n = r := by
    simp only [State.sstore, hb, R.bind_ok, hv, ho, R.andThen_ok, scalarElem, formAddr, ← he, hres] <;>
      cases s4.cur.party.place <;> rfl
  rw [hx]
  exact ⟨fun s5 h => issue_ok hr (hbody.trans h), fun c a s5 h => issue_trap hr (hbody.trans h)⟩

/-! The causes of an access before it is performed (R277). -/

/-- An access names a scope above a bound (R94). -/
theorem Elem.wider_iff (e : Elem) (k : Nat) : e.wider k = true ↔ ∃ x ∈ e.scopes ++ e.gates, k < x := by
  simp only [Elem.wider, List.any_eq_true, decide_eq_true_eq]

/-- An access names no scope above a bound (R94). -/
theorem Elem.wider_false {e : Elem} {k : Nat} (h : ∀ x ∈ e.scopes ++ e.gates, x ≤ k) : e.wider k = false := by
  rw [← Bool.not_eq_true, Elem.wider_iff]
  rintro ⟨x, hx, hk⟩
  exact Nat.not_lt_of_le (h x hx) hk

/-- The checks of an access to a page that is mapped (R95, R98, R277): what is populated, permission, orientation, scope. -/
def Page.checks (p : Page) (s : State) (e : Elem) (pa : Nat) (refused : Option Code) (scope : Nat) (t : Target) : R Target :=
  if p.space != 2 && unpopulated pa then .trap 0x20 e.va s
  else match refused with
    | some k => .trap k e.va s
    | none =>
      if e.col && (p.ow == 0 || p.ow != e.ew) then .trap 0x23 e.va s
      else if e.wider scope then .trap 0x25 e.va s
      else .ok t s

section
variable {p : Page} {s : State} {e : Elem} {pa scope : Nat} {refused : Option Code} {t : Target}

theorem Page.checks_unpopulated (hs : p.space ≠ 2) (hu : unpopulated pa = true) :
    p.checks s e pa refused scope t = .trap 0x20 e.va s := by
  simp only [Page.checks, bne_iff_ne.2 hs, hu, Bool.and_self, if_true]

/-- A page whose memory is populated goes on to its other checks. -/
theorem Page.checks_populated (h : p.space = 2 ∨ unpopulated pa = false) : p.checks s e pa refused scope t =
    match refused with
    | some k => .trap k e.va s
    | none =>
      if e.col && (p.ow == 0 || p.ow != e.ew) then .trap 0x23 e.va s
      else if e.wider scope then .trap 0x25 e.va s
      else .ok t s := by
  have hc : (p.space != 2 && unpopulated pa) = false := by rcases h with h | h <;> simp [h]
  simp only [Page.checks, hc, Bool.false_eq_true, if_false]

theorem Page.checks_refused {k : Code} (h : p.space = 2 ∨ unpopulated pa = false) :
    p.checks s e pa (some k) scope t = .trap k e.va s := Page.checks_populated h

theorem Page.checks_column (h : p.space = 2 ∨ unpopulated pa = false) (hc : e.col = true) (ho : p.ow = 0 ∨ p.ow ≠ e.ew) :
    p.checks s e pa none scope t = .trap 0x23 e.va s := by
  have ho : (p.ow == 0 || p.ow != e.ew) = true := by
    rcases ho with ho | ho
    · rw [beq_iff_eq.2 ho, Bool.true_or]
    · rw [bne_iff_ne.2 ho, Bool.or_true]
  rw [Page.checks_populated h]
  simp only [hc, ho, Bool.and_self, if_true]

/-- An access whose orientation the page has is held against its scope. -/
theorem Page.checks_scope (h : p.space = 2 ∨ unpopulated pa = false) (ho : e.col = false ∨ p.ow ≠ 0 ∧ p.ow = e.ew) :
    ((∃ x ∈ e.scopes ++ e.gates, scope < x) → p.checks s e pa none scope t = .trap 0x25 e.va s) ∧
    ((∀ x ∈ e.scopes ++ e.gates, x ≤ scope) → p.checks s e pa none scope t = .ok t s) := by
  have ho : (e.col && (p.ow == 0 || p.ow != e.ew)) = false := by
    rcases ho with ho | ⟨h0, hw⟩
    · rw [ho, Bool.false_and]
    · rw [beq_eq_false_iff_ne.2 h0, hw, bne_self_eq_false, Bool.or_self, Bool.and_false]
  rw [Page.checks_populated h]
  simp only [ho, Bool.false_eq_true, if_false]
  exact ⟨fun hw => if_pos ((e.wider_iff scope).2 hw), fun hw => by rw [Elem.wider_false hw]; rfl⟩

end

/-- An aligned access below the window of the scratchpad goes by the page of its address (R277). -/
theorem State.locate_page {s s1 : State} {c : Nat} {e : Elem} {p : Page} {k : Code} (ha : e.va.toNat % e.n = 0)
    (hlt : e.va.toNat < Config.spWindow) (hp : s.pageOf c e.va.toNat (e.kind == .fetch) = .ok (some p, k) s1) :
    s.locate c e = p.checks s1 e (p.paddr s1 e.va.toNat) (p.refuses s1 c e.kind) (spaceScope p.space)
      (.phys (p.paddr s1 e.va.toNat) p.ow) := by
  have h57 : ¬ e.va.toNat ≥ 2 ^ 57 := Nat.not_le_of_lt (Nat.lt_trans hlt (by decide))
  unfold State.locate
  simp only [ha, bne_self_eq_false, Bool.false_eq_true, if_false, if_neg h57, if_neg (Nat.not_le_of_lt hlt), hp, R.bind_ok]
  rfl

/-- A translation fills the caches of its core and die and changes nothing else (R444). -/
theorem State.pageOf_rest {s s1 : State} {c va : Nat} {fetch : Bool} {x : Option Page × Code}
    (h : s.pageOf c va fetch = .ok x s1) : s1 = { s with cores := s1.cores, dies := s1.dies } := by
  unfold State.pageOf at h
  split at h
  · cases h; rfl
  · split at h
    · cases h; rfl
    · dsimp only at h
      split at h
      · cases h; rfl
      · split at h
        · cases h; rfl
        · cases h; rfl
        · cases h

/-- A page of the window beyond the region of a context is not mapped (R105). -/
theorem State.locate_beyond {s : State} {c : Nat} {e : Elem} (ha : e.va.toNat % e.n = 0)
    (hge : Config.spWindow ≤ e.va.toNat) (hlt : e.va.toNat < 2 ^ 57)
    (hlen : slotSpLen (s.slot c) ≤ (e.va.toNat - Config.spWindow) / 4096) : s.locate c e = .trap 0x20 e.va s := by
  unfold State.locate
  simp only [ha, bne_self_eq_false, Bool.false_eq_true, if_false, if_neg (Nat.not_le_of_lt hlt), if_pos hge,
    ge_iff_le, if_pos hlen]

/-- An aligned access in the window of the scratchpad goes by the page that backs it (R105, R277). -/
theorem State.locate_window {s s1 : State} {c n : Nat} {e : Elem} {p : Page} {k : Code} (ha : e.va.toNat % e.n = 0)
    (hge : Config.spWindow ≤ e.va.toNat) (hlt : e.va.toNat < 2 ^ 57) (hn : n = (e.va.toNat - Config.spWindow) / 4096)
    (hlen : n < slotSpLen (s.slot c)) (hp : s.pageOf c (slotSpBase (s.slot c) + n * 4096) false = .ok (some p, k) s1) :
    s.locate c e = p.checks s1 e (p.paddr s1 (slotSpBase (s.slot c) + n * 4096))
      (if p.space != 0 || p.masked s1 c e.kind then some 0x21 else none) 1
      (.pad n (e.va.toNat % 4096) (p.paddr s1 (slotSpBase (s.slot c) + n * 4096)) p.ow) := by
  have hslot : s1.slot c = s.slot c :=
    (congrArg (fun t : State => t.slot c) (State.pageOf_rest hp) :)
  unfold State.locate
  simp only [ha, bne_self_eq_false, Bool.false_eq_true, if_false, if_neg (Nat.not_le_of_lt hlt), if_pos hge, ← hn,
    ge_iff_le, if_neg (Nat.not_le_of_lt hlen), hp, R.bind_ok, hslot, Page.checks]
  cases p.space != 2 && unpopulated (p.paddr s1 (slotSpBase (s.slot c) + n * 4096)) <;>
    cases p.space != 0 || p.masked s1 c e.kind <;> rfl

/-- Settles O29, by the rows of loads and stores and the checks of a page. -/
theorem scalarAccessesAndTheirCauses : Obligations.ScalarAccessesAndTheirCauses := by
  unfold Obligations.ScalarAccessesAndTheirCauses
  refine ⟨⟨?_, ?_⟩, fun s c e => ⟨fun ha => ?_, fun ha h57 => ?_, fun ha hlt k s1 hp => ?_, fun p k s1 ha hlt hp => ?_,
    fun n ha hge hlt hn => ⟨fun hlen => ?_, fun p k s1 pa hlen hp hpa hspace => ?_⟩⟩⟩
  · show ∀ row ∈ (_ : List ((Gates → FormS → Instr) × Nat × Bool)), LoadsElement row.1 row.2.1 row.2.2
    simp only [List.forall_mem_cons, List.not_mem_nil, false_implies, implies_true, and_true]
    exact ⟨loadsElement_of_sload fun _ _ _ => rfl, loadsElement_of_sload fun _ _ _ => rfl,
      loadsElement_of_sload fun _ _ _ => rfl, loadsElement_of_sload fun _ _ _ => rfl,
      loadsElement_of_sload fun _ _ _ => rfl⟩
  · show ∀ row ∈ (_ : List ((Gates → FormS → Instr) × Nat)), StoresElement row.1 row.2
    simp only [List.forall_mem_cons, List.not_mem_nil, false_implies, implies_true, and_true]
    exact ⟨storesElement_of_sstore fun _ _ _ => rfl, storesElement_of_sstore fun _ _ _ => rfl,
      storesElement_of_sstore fun _ _ _ => rfl⟩
  · unfold State.locate
    exact if_pos (bne_iff_ne.2 ha)
  · unfold State.locate
    simp only [ha, bne_self_eq_false, Bool.false_eq_true, if_false, if_pos h57]
  · have hbelow : ¬ e.va.toNat ≥ 2 ^ 57 := Nat.not_le_of_lt (Nat.lt_trans hlt (by decide))
    unfold State.locate
    simp only [ha, bne_self_eq_false, Bool.false_eq_true, if_false, if_neg hbelow, if_neg (Nat.not_le_of_lt hlt), hp,
      R.bind_ok]
  · rw [State.locate_page ha hlt hp]
    refine ⟨Page.checks_unpopulated, fun h => ⟨fun r hr => ?_, fun hr hc ho => ?_, fun hr ho => ?_⟩⟩
    · rw [hr]; exact Page.checks_refused h
    · rw [hr]; exact Page.checks_column h hc ho
    · rw [hr]; exact Page.checks_scope h ho
  · exact State.locate_beyond ha hge hlt (hn ▸ hlen)
  · rw [State.locate_window ha hge hlt hn hlen hp]
    have h2 : p.space ≠ 2 := by rw [hspace]; decide
    have h0 : (p.space != 0) = false := by rw [hspace]; rfl
    subst hpa
    simp only [h0, Bool.false_or]
    refine ⟨Page.checks_unpopulated h2, fun hu hm => ?_, fun hu hm hc ho => ?_, fun hu hm ho => ?_⟩
    · rw [if_pos hm]; exact Page.checks_refused (.inr hu)
    · rw [hm]; exact Page.checks_column (.inr hu) hc ho
    · rw [hm]; exact Page.checks_scope (.inr hu) ho

end Sys2Proof.Machine
end

section
/-! The statements about vector loads and stores and tensor accesses (R26, R109 to R115, R275 to R281). -/

namespace Sys2Proof.Machine

/-! The checks of an access (R51, R275, R276). -/

/-- An access whose checks are met goes on, and gives back the groups it took if it does not complete. -/
theorem State.accessChecks_ready {s t : State} {o : FormM} {m : AddrMode} {store scaled : Bool} {tag : Tag}
    {k : Tag → State → R PUnit} (h : AccessReady o m store scaled tag s t) :
    s.accessChecks o m store scaled k = (k tag t).orBack s := by
  obtain ⟨hfmt, hsb, hvd, hbound, htake, hown, hindex⟩ := h
  have hscale : (o.fv == 0 && scaled && o.sb != 0 && !tagScaled tag) = false := by
    rw [Bool.eq_false_iff]
    intro hc
    simp only [Bool.and_eq_true, beq_iff_eq, bne_iff_ne, Bool.not_eq_true'] at hc
    obtain ⟨⟨⟨hfv, hsc⟩, hne⟩, hn⟩ := hc
    rw [hsb hfv hsc hne] at hn
    cases hn
  have hdst : (!store && s.myCtx.groupBound s.myStrip.stripb o.vd.toNat s.myStrip.grp) = false := by
    cases store with
    | false => rw [hbound rfl]; rfl
    | true => rfl
  have htag : (store && ((t.myStrip.groupTag o.vd.toNat s.myStrip.grp).isNone ||
      (o.fv == 1 && (t.myStrip.groupTag o.vd.toNat s.myStrip.grp).map tagFmt != some (tagFmt tag)))) = false := by
    cases store with
    | false => rfl
    | true =>
      obtain ⟨own, ho, hf⟩ := hown rfl
      rw [ho]
      simpa using hf
  have hidx : (if m == .indexed then t.myStrip.indexCause o.vi.toNat else none) = none := by
    by_cases hm : m = .indexed
    · rw [if_pos (beq_iff_eq.2 hm), hindex hm]
    · rw [if_neg (by simpa using hm)]
  simp only [← beq_iff_eq (a := m)] at htake
  unfold State.accessChecks
  simp only [hfmt, fromE_ok, hscale, hvd, bne_self_eq_false, hdst, Bool.false_eq_true, if_false, htake, R.andThen_ok, htag,
    hidx]

/-! Loads (R277 to R279). -/

/-- The vector load of a row of R279 writes each active position in order and tags its destination. -/
def LoadsPositions (mk : Gates → FormM → Instr) (m : AddrMode) (scaled : Bool) : Prop :=
  ∀ (g : Gates) (o : FormM) (s s1 s2 s3 s4 : State) (tag : Tag) (ps : List Nat) (t : Strip), Ready (mk g o) s s1 →
    AccessReady o m false scaled tag s1 s2 → t = s2.myStrip → ps = t.active o.msk o.mreg →
    (tagScaled tag = true → ps = [] ∨ t.stripb % 32 = 0) → s2.ordBefore o.ord = .ok ⟨⟩ s3 →
    (State.overPositions ps s3 fun p s => State.loadAt g o m tag t ps p s) = .ok ⟨⟩ s4 →
    exec (mk g o) s = .next (finished (mk g o) s1
      ((s4.ordAfter o.ord o.scp).completed (some (o.vd.toNat, t.grp, tag))))

/-- A load that goes through is not behind in any register (R52). -/
@[simp] theorem R.lagging_ok (s : State) (vd w g : Nat) : (R.ok ⟨⟩ s : R PUnit).lagging vd w g = .ok ⟨⟩ s := rfl

/-- An instruction whose meaning is `vload` is such a load. -/
theorem loadsPositions_of_vload {mk : Gates → FormM → Instr} {m : AddrMode} {scaled : Bool}
    (hx : ∀ g o s, exec (mk g o) s = issue (mk g o) s fun s => s.vload g o m scaled) : LoadsPositions mk m scaled := by
  intro g o s s1 s2 s3 s4 tag ps t hr hacc ht hps hsc ho hpos
  subst ht
  rw [hx]
  refine issue_ok hr ?_
  unfold State.vload
  rw [State.accessChecks_ready hacc]
  cases hcase : s2.myStrip.active o.msk o.mreg with
  | nil =>
    rw [hps, hcase, State.overPositions] at hpos
    cases hpos
    simp only [hcase, ho, R.andThen_ok]
    rfl
  | cons p r =>
    have halign : (tagScaled tag && s2.myStrip.stripb % 32 != 0) = false := by
      cases hs : tagScaled tag with
      | false => rfl
      | true =>
        rcases hsc hs with h | h
        · rw [hps, hcase] at h; cases h
        · simp [h]
    rw [hps, hcase] at hpos
    simp only [hcase, halign, Bool.false_eq_true, if_false, ho, R.andThen_ok]
    rw [show State.overPositions (p :: r) s3 (State.loadAt g o m tag s2.myStrip (p :: r)) = .ok ⟨⟩ s4 from hpos]
    rfl

/-- Position p is the first of its slot (R58). -/
theorem firstOfSlot_iff (ps : List Nat) (p : Nat) :
    firstOfSlot ps p = true ↔ ps.find? (fun q => q / 32 == p / 32) = some p := by
  simp only [firstOfSlot, beq_iff_eq]

/-- No scale is read with a position of an unscaled format, or with one that is not the first of its slot (R58, R279). -/
theorem State.slotScale_none {s : State} {tag : Tag} {ps : List Nat} {p : Nat} {read : State → R Nat}
    (h : tagScaled tag = false ∨ ps.find? (fun q => q / 32 == p / 32) ≠ some p) :
    s.slotScale (if tagScaled tag then ps else []) p read = .ok none s := by
  unfold State.slotScale
  rw [if_neg]
  rw [firstOfSlot_iff]
  rcases h with h | h
  · rw [h]; exact fun hc => nomatch hc
  · split
    · exact h
    · exact fun hc => nomatch hc

/-- The scale is read with the first position of its slot (R58, R279). -/
theorem State.slotScale_some {s u : State} {tag : Tag} {ps : List Nat} {p x : Nat} {read : State → R Nat}
    (hs : tagScaled tag = true) (hp : ps.find? (fun q => q / 32 == p / 32) = some p) (hread : read s = .ok x u) :
    s.slotScale (if tagScaled tag then ps else []) p read = .ok (some x) u := by
  unfold State.slotScale
  rw [if_pos hs, if_pos ((firstOfSlot_iff ps p).2 hp), hread]
  rfl

/-- One position of a vector load (R277, R279). -/
theorem loadAt_spec (g : Gates) (o : FormM) (m : AddrMode) (tag : Tag) (t : Strip) (ps : List Nat) (p v : Nat) (s s1 : State)
    (hv : s.readElem s.me (memElem o m (tagFmt tag) g.scopes (t.vaddr o m p) t.ewB .load) = .ok v s1) :
    ((tagScaled tag = false ∨ ps.find? (fun q => q / 32 == p / 32) ≠ some p) →
      State.loadAt g o m tag t ps p s = .ok ⟨⟩ (s1.loaded o.vd.toNat t.ewB t.grp tag p v)) ∧
    ∀ x s2, tagScaled tag = true → ps.find? (fun q => q / 32 == p / 32) = some p →
      s1.readElem s1.me ⟨s1.snapS o.sb + BitVec.ofNat 64 ((s1.myStrip.stripb + 32 * (p / 32)) / 32), 1, .load, false, 1,
        o.pol, [], []⟩ = .ok x s2 →
      State.loadAt g o m tag t ps p s = .ok ⟨⟩ ((s2.loaded o.vd.toNat t.ewB t.grp tag p v).gotScale o.vd.toNat p x) := by
  unfold State.loadAt
  rw [hv, R.bind_ok]
  refine ⟨fun h => ?_, fun x s2 hs hp hx => ?_⟩
  · rw [State.slotScale_none h]
    rfl
  · rw [State.slotScale_some hs hp (read := fun s => s.vldScale o p) hx]
    rfl

/-! Stores (R26, R277). -/

/-- The vector store of a row of R279 stores each active position in order, as its lane's; poison raises 0xA0. -/
def StoresPositions (mk : Gates → FormM → Instr) (m : AddrMode) : Prop :=
  ∀ (g : Gates) (o : FormM) (s s1 s2 s3 s4 : State) (tag : Tag) (ps : List Nat) (t : Strip), Ready (mk g o) s s1 →
    AccessReady o m true false tag s1 s2 → t = s2.myStrip → ps = t.active o.msk o.mreg →
    (t.poisonedAt [o.vd.toNat] t.ewB ps = true →
      exec (mk g o) s = .next ((s2.backTo s1).dropAnswers.takeCause 0xA0 0)) ∧
    (t.poisonedAt [o.vd.toNat] t.ewB ps = false → s2.ordBefore o.ord = .ok ⟨⟩ s3 →
      (State.overPositions ps s3 fun p s => s.laneStore p (memElem o m (tagFmt (t.reg o.vd.toNat).tag) g.scopes
        (t.vaddr o m p) t.ewB .store) (codeOf (t.reg o.vd.toNat).tag (t.el o.vd.toNat t.ewB p))) = .ok ⟨⟩ s4 →
      exec (mk g o) s = .next (finished (mk g o) s1 (s4.modMyStrip fun t => { t with vstart := 0 })))

/-- An instruction whose meaning is `vstore` is such a store. -/
theorem storesPositions_of_vstore {mk : Gates → FormM → Instr} {m : AddrMode}
    (hx : ∀ g o s, exec (mk g o) s = issue (mk g o) s fun s => s.vstore g o m) : StoresPositions mk m := by
  intro g o s s1 s2 s3 s4 tag ps t hr hacc ht hps
  subst ht hps
  rw [hx]
  refine ⟨fun hp => issue_trap hr ?_, fun hp ho hpos => issue_ok hr ?_⟩
  · unfold State.vstore
    rw [State.accessChecks_ready hacc]
    simp only [hp, if_true, R.orBack_trap]
  · unfold State.vstore
    rw [State.accessChecks_ready hacc]
    simp only [hp, Bool.false_eq_true, if_false, ho, R.andThen_ok]
    rw [show State.overPositions (s2.myStrip.active o.msk o.mreg) s3
      (State.storeAt g o m (s2.myStrip.reg o.vd.toNat).tag s2.myStrip) = .ok ⟨⟩ s4 from hpos]
    rfl

/-- A store of a lane writes its element and keeps it as the lane's (R26). -/
theorem State.laneStore_ok {s u v : State} {p x : Nat} {e : Elem} {d : Target} (hw : s.writeElem s.me e x = .ok ⟨⟩ u)
    (hl : u.locate u.me e = .ok d v) : s.laneStore p e x = .ok ⟨⟩ (v.modCtx v.me fun c =>
      { c with run := c.run.map (BlockRun.stored (v.myStrip.stripb + p) d.place e.n x) }) := by
  unfold State.laneStore State.laneStored
  rw [hw, R.andThen_ok, hl]
  rfl

/-! Addresses (R275). -/

/-- A 32-bit number read in two's complement and widened to 64 bits. -/
theorem ofInt_sgn32 {x : Nat} (h : x < 2 ^ 32) : BitVec.ofInt 64 (sgn 32 x) = (BitVec.ofNat 32 x).signExtend 64 := by
  unfold BitVec.signExtend sgn
  rw [BitVec.toInt_eq_toNat_cond, BitVec.toNat_ofNat, Nat.mod_eq_of_lt h]
  congr 1
  by_cases hs : x < 2 ^ 31
  · rw [if_pos hs, if_pos (by omega)]
  · rw [if_neg hs, if_neg (by omega)]
    rfl

/-- The addresses of the three modes (R275). -/
theorem Strip.vaddr_eq (t : Strip) (o : FormM) (p : Nat) (a b : Word)
    (ha : a = (if o.sa = 0 then 0 else t.snap[o.sa.toNat]?.getD 0))
    (hb : b = (if o.sb = 0 then 0 else t.snap[o.sb.toNat]?.getD 0)) :
    t.vaddr o .strided p = a + BitVec.ofNat 64 (t.stripb + p) * b ∧
    (o.or = 0 → t.vaddr o .unit p = a + BitVec.ofNat 64 ((t.stripb + p) * t.ewB)) ∧
    ((t.reg o.vi.toNat).tag = 6 → t.vaddr o .indexed p = a + BitVec.ofNat 64 (t.el o.vi.toNat 4 p)) ∧
    ((t.reg o.vi.toNat).tag = 5 → t.vaddr o .indexed p = a + (BitVec.ofNat 32 (t.el o.vi.toNat 4 p)).signExtend 64) := by
  subst ha hb
  have hel : t.el o.vi.toNat 4 p < 2 ^ 32 := Nat.mod_lt _ (Nat.two_pow_pos _)
  refine ⟨rfl, fun ho => ?_, fun htag => ?_, fun htag => ?_⟩
  · unfold Strip.vaddr unitAddr
    simp only [ho, show ((0 : BitVec 1) == 1) = false from rfl, Bool.false_eq_true, if_false]
  · unfold Strip.vaddr Strip.index
    simp only [htag, show ((6 : Tag) == 5) = false from rfl, Bool.false_eq_true, if_false]
  · unfold Strip.vaddr Strip.index
    simp only [htag, beq_self_eq_true, if_true, ofInt_sgn32 hel]

/-! The load that stops short (R280). -/

/-- `vldff` marks the positions before the one at which it stops (R280). -/
theorem vldff_spec (g : Gates) (o : FormM) (s s1 s2 : State) (tag : Tag) (gr : Nat) (f : Option Nat) (all : List Nat)
    (t : Strip) (hr : Ready (.vldff g o) s s1) (hfmt : s1.mformat o false false = .ok tag) (ht : t = s1.myStrip)
    (hgr : gr = t.grp) (hvd : o.vd.toNat % gr = 0)
    (hall : all = (if t.region.isSome then t.active 0 0 else (List.range t.vl).drop t.vstart))
    (hbound : s1.myCtx.groupBound t.stripb o.vd.toNat gr = false)
    (hf : State.firstFault g o tag t (t.active 0 0) true s1 = .ok f s2) :
    exec (.vldff g o) s = .next (finished (.vldff g o) s1 ((s2.putBits o.mreg
      (all.map fun p => (p, decide (p < f.getD t.vl))) 0).modMyStrip fun u =>
        if t.begins then u.tagGroup o.vd.toNat gr tag else u)) := by
  subst hgr ht
  have hpositions : (match s1.myStrip.region with
      | some _ => s1.myStrip.active 0 0
      | none => (List.range s1.myStrip.vl).drop s1.myStrip.vstart) = all := by
    rw [hall]
    cases s1.myStrip.region <;> rfl
  show execVldff g o s = _
  refine issue_ok hr ?_
  simp only [hfmt, fromE_ok, hvd, bne_self_eq_false, hbound, Bool.false_eq_true, if_false, hf, R.bind_ok]
  rw [← hpositions] <;> rfl

/-- Settles O31: the rows of loads and stores, one position of each, the addresses, and `vldff`. -/
theorem vectorLoadsAndStores : Obligations.VectorLoadsAndStores := by
  unfold Obligations.VectorLoadsAndStores
  refine ⟨?_, loadAt_spec, ?_, fun s u v p x e d hw hl => State.laneStore_ok hw hl, Strip.vaddr_eq, vldff_spec⟩
  · show ∀ row ∈ (_ : List ((Gates → FormM → Instr) × AddrMode × Bool)), LoadsPositions row.1 row.2.1 row.2.2
    simp only [List.forall_mem_cons, List.not_mem_nil, false_implies, implies_true, and_true]
    exact ⟨loadsPositions_of_vload fun _ _ _ => rfl, loadsPositions_of_vload fun _ _ _ => rfl,
      loadsPositions_of_vload fun _ _ _ => rfl⟩
  · show ∀ row ∈ (_ : List ((Gates → FormM → Instr) × AddrMode)), StoresPositions row.1 row.2
    simp only [List.forall_mem_cons, List.not_mem_nil, false_implies, implies_true, and_true]
    exact ⟨storesPositions_of_vstore fun _ _ _ => rfl, storesPositions_of_vstore fun _ _ _ => rfl,
      storesPositions_of_vstore fun _ _ _ => rfl⟩

/-! Tensor accesses (R109 to R115, R281). -/

/-- A well-formed shape record is the shape that it holds (R109). -/
theorem State.shapeIn_ok {α : Type} {s : State} {v : Nat} {h : Shape} (k : Shape → State → R α)
    (htag : (s.myStrip.reg v).tag = 25) (hp : s.myStrip.poisonedAt [v] 8 (List.range 18) = false)
    (hc : Shape.check (s.myStrip.record v) = .ok h) : s.shapeIn v k = k h s := by
  unfold State.shapeIn
  simp only [htag, bne_self_eq_false, hp, hc, Bool.false_eq_true, if_false]

/-- A register that holds no shape record raises 0x05 (R281). -/
theorem State.shapeIn_untagged {α : Type} {s : State} {v : Nat} (k : Shape → State → R α)
    (htag : (s.myStrip.reg v).tag ≠ 25) : s.shapeIn v k = .trap 0x05 0 s := by
  unfold State.shapeIn
  simp only [bne_iff_ne.2 htag, if_true]

/-- A malformed shape record raises 0x27 with the first word at fault (R109, R281). -/
theorem State.shapeIn_malformed {α : Type} {s : State} {v n : Nat} (k : Shape → State → R α)
    (htag : (s.myStrip.reg v).tag = 25) (hp : s.myStrip.poisonedAt [v] 8 (List.range 18) = false)
    (hc : Shape.check (s.myStrip.record v) = .error n) : s.shapeIn v k = .trap 0x27 (BitVec.ofNat 64 n) s := by
  unfold State.shapeIn
  simp only [htag, bne_self_eq_false, hp, hc, Bool.false_eq_true, if_false]

/-- A tensor access whose checks are met goes on, and gives back the groups it took if it does not complete (R281). -/
theorem State.tensorAccess_ready {s t : State} {g : Gates} {o : FormM} {store : Bool} {h : Shape} {ps : List Nat}
    {a : TensorAcc} {k : Shape → TensorAcc → List Nat → State → R PUnit} (hready : TensorReady o store h ps s t)
    (ha : a = ⟨o.or == 1, o.pol, if o.ord = 0 then [] else [o.scp.toNat], g.scopes⟩) :
    s.tensorAccess g o store k = (k h a ps t).orBack s := by
  obtain ⟨htake, htag, hpoison, hcheck, hbits, horient, hvd, hbound, hown, hps, hin, hsrc⟩ := hready
  subst hps
  rw [← scopesOf_eq] at ha
  subst ha
  have hdst : (!store && t.myCtx.groupBound t.myStrip.stripb o.vd.toNat t.myStrip.grp) = false := by
    cases store with
    | false => rw [hbound rfl]; rfl
    | true => rfl
  have hfmt : (store && (t.myStrip.groupTag o.vd.toNat t.myStrip.grp).map tagFmt != some (tagFmt h.ftag)) = false := by
    cases store with
    | false => rfl
    | true => rw [hown rfl]; simp
  have hbad : (store && t.myStrip.poisonedAt [o.vd.toNat] t.myStrip.ewB (t.myStrip.active o.msk o.mreg)) = false := by
    cases store with
    | false => rfl
    | true => rw [hsrc rfl]; rfl
  unfold State.tensorAccess
  simp only [htake, R.andThen_ok, State.shapeIn_ok _ htag hpoison hcheck, hbits, bne_self_eq_false, horient, Bool.not_true,
    hvd, hdst, hfmt, hin, hbad, Bool.false_eq_true, if_false]

/-- `vtld` writes each active position in order and tags its destination (R281). -/
theorem vtld_spec (g : Gates) (o : FormM) (s s1 s2 s3 s4 : State) (h : Shape) (ps : List Nat) (a : TensorAcc) (t : Strip)
    (hr : Ready (.vtld g o) s s1) (hready : TensorReady o false h ps s1 s2) (ht : t = s2.myStrip)
    (ha : a = ⟨o.or == 1, o.pol, if o.ord = 0 then [] else [o.scp.toNat], g.scopes⟩) (ho : s2.ordBefore o.ord = .ok ⟨⟩ s3)
    (hpos : (State.overPositions ps s3 fun p s => State.tensorAt h a o.vd.toNat t ps p s) = .ok ⟨⟩ s4) :
    exec (.vtld g o) s = .next (finished (.vtld g o) s1
      ((s4.ordAfter o.ord o.scp).completed (some (o.vd.toNat, t.grp, h.ftag)))) := by
  subst ht
  show execVtld g o s = _
  refine issue_ok hr ?_
  rw [State.tensorAccess_ready hready ha]
  simp only [ho, R.andThen_ok]
  rw [show State.overPositions ps s3 (State.tensorAt h a o.vd.toNat s2.myStrip ps) = .ok ⟨⟩ s4 from hpos]
  rfl

/-- One position of a tensor load (R111, R281). -/
theorem tensorAt_spec (h : Shape) (a : TensorAcc) (vd : Nat) (t : Strip) (ps : List Nat) (p v : Nat) (s s1 : State)
    (hv : s.loadTensor s.me h a 0 (t.stripb + p) = .ok v s1) :
    ((tagScaled h.ftag = false ∨ ps.find? (fun q => q / 32 == p / 32) ≠ some p) →
      State.tensorAt h a vd t ps p s = .ok ⟨⟩ (s1.loaded vd t.ewB t.grp h.ftag p v)) ∧
    ∀ x s2, tagScaled h.ftag = true → ps.find? (fun q => q / 32 == p / 32) = some p →
      s1.vtldScale h a p = .ok x s2 →
      State.tensorAt h a vd t ps p s = .ok ⟨⟩ ((s2.loaded vd t.ewB t.grp h.ftag p v).gotScale vd p x) := by
  unfold State.tensorAt
  rw [hv, R.bind_ok]
  refine ⟨fun hn => ?_, fun x s2 hs hp hx => ?_⟩
  · rw [State.slotScale_none hn]
    rfl
  · rw [State.slotScale_some hs hp (read := fun s => s.vtldScale h a p) hx]
    rfl

/-- `vtst` stores each active position in order (R281). -/
theorem vtst_spec (g : Gates) (o : FormM) (s s1 s2 s3 s4 : State) (h : Shape) (ps : List Nat) (a : TensorAcc) (t : Strip)
    (hr : Ready (.vtst g o) s s1) (hready : TensorReady o true h ps s1 s2) (ht : t = s2.myStrip)
    (ha : a = ⟨o.or == 1, o.pol, if o.ord = 0 then [] else [o.scp.toNat], g.scopes⟩) (ho : s2.ordBefore o.ord = .ok ⟨⟩ s3)
    (hpos : (State.overPositions ps s3 fun p s => s.storeTensorAt h a p (t.el o.vd.toNat t.ewB p)) = .ok ⟨⟩ s4) :
    exec (.vtst g o) s = .next (finished (.vtst g o) s1 (s4.modMyStrip fun t => { t with vstart := 0 })) := by
  subst ht
  show execVtst g o s = _
  refine issue_ok hr ?_
  rw [State.tensorAccess_ready hready ha]
  simp only [ho, R.andThen_ok, hpos]
  rfl

/-- One position of a tensor store (R26, R281). -/
theorem storeTensorAt_spec (h : Shape) (a : TensorAcc) (p x : Nat) (s u : State)
    (hu : s.storeTensor s.me h a 0 (s.myStrip.stripb + p) x = .ok ⟨⟩ u) :
    (isBpFmt (tagFmt h.ftag) = true ∨ tagFmt h.ftag = 15 → s.storeTensorAt h a p x = .ok ⟨⟩ u) ∧
    ∀ w, isBpFmt (tagFmt h.ftag) = false → tagFmt h.ftag ≠ 15 → h.inside (h.index 0 (s.myStrip.stripb + p)) = true →
      u.laneStored p (a.elem h (h.addr (h.index 0 (s.myStrip.stripb + p))) .store) (codeOf h.ftag x) = .ok ⟨⟩ w →
      s.storeTensorAt h a p x = .ok ⟨⟩ w := by
  unfold State.storeTensorAt
  simp only [hu, R.andThen_ok]
  refine ⟨fun hf => if_pos ?_, fun w hbp h15 hin hw => ?_⟩
  · rcases hf with hf | hf <;> simp [hf]
  · rw [if_neg (by simp [hbp, h15, hin]), hw]

/-- What a tensor access raises for its shape record (R109, R281). -/
def RefusesRecords (mk : Gates → FormM → Instr) (store : Bool) : Prop :=
  ∀ (g : Gates) (o : FormM) (s s1 s2 : State), Ready (mk g o) s s1 →
    s1.takeGroups ((if store then [o.vd.toNat] else []) ++ [o.vi.toNat]) = .ok ⟨⟩ s2 →
    ((s2.myStrip.reg o.vi.toNat).tag ≠ 25 →
      exec (mk g o) s = .next ((s2.backTo s1).dropAnswers.takeCause 0x05 0)) ∧
    ∀ n, (s2.myStrip.reg o.vi.toNat).tag = 25 → s2.myStrip.poisonedAt [o.vi.toNat] 8 (List.range 18) = false →
      Shape.check (s2.myStrip.record o.vi.toNat) = .error n →
      exec (mk g o) s = .next ((s2.backTo s1).dropAnswers.takeCause 0x27 (BitVec.ofNat 64 n))

/-- An instruction whose meaning is `tensorAccess` raises these. -/
theorem refusesRecords_of_tensorAccess {mk : Gates → FormM → Instr} {store : Bool}
    {k : FormM → Shape → TensorAcc → List Nat → State → R PUnit}
    (hx : ∀ g o s, exec (mk g o) s = issue (mk g o) s fun s => s.tensorAccess g o store (k o)) : RefusesRecords mk store := by
  intro g o s s1 s2 hr htake
  rw [hx]
  refine ⟨fun htag => issue_trap hr ?_, fun n htag hp hc => issue_trap hr ?_⟩
  · simp only [State.tensorAccess, htake, R.andThen_ok, State.shapeIn_untagged _ htag, R.orBack_trap]
  · simp only [State.tensorAccess, htake, R.andThen_ok, State.shapeIn_malformed _ htag hp hc, R.orBack_trap]

/-- Settles O32: the two instructions, one position of each, and what their record raises. -/
theorem tensorLoadsAndStores : Obligations.TensorLoadsAndStores := by
  unfold Obligations.TensorLoadsAndStores
  refine ⟨vtld_spec, tensorAt_spec, vtst_spec, storeTensorAt_spec, ?_⟩
  show ∀ row ∈ (_ : List ((Gates → FormM → Instr) × Bool)), RefusesRecords row.1 row.2
  simp only [List.forall_mem_cons, List.not_mem_nil, false_implies, implies_true, and_true]
  exact ⟨refusesRecords_of_tensorAccess fun _ _ _ => rfl, refusesRecords_of_tensorAccess fun _ _ _ => rfl⟩

end Sys2Proof.Machine
end

section
/-! The statements about vector atomics and reduction stores (R303, R304), and the rows of the scalar atomics (R300, R301). -/

namespace Sys2Proof.Machine

/-! Vector atomics and reduction stores (R303, R304). -/

/-- A vector atomic or reduction store whose checks are met does what it does to its tag. -/
theorem State.atomicChecks_ready {s t u : State} {o : FormX} {fp : Bool} {dst : Option Nat} {tag : Tag}
    {k : Tag → State → R PUnit} (h : AtomicReady o fp dst tag s t) (hk : k tag t = .ok ⟨⟩ u) :
    s.atomicChecks o fp dst k = .ok ⟨⟩ u := by
  obtain ⟨hw, hgroups, htag, hfmt, hindex, hpoison⟩ := h
  have hwidth : (!(s.myStrip.ewB == 4 || (s.myStrip.ewB == 8 && !fp))) = false := by
    rcases hw with hw | ⟨hw, rfl⟩ <;> rw [hw] <;> rfl
  have hformat : (if fp then tag != 8 else !(isIntFmt tag.toNat && fmtBits tag.toNat == 8 * s.myStrip.ewB)) = false := by
    cases fp with
    | false =>
      rw [if_neg Bool.false_ne_true] at hfmt ⊢
      rw [hfmt.1, hfmt.2, beq_self_eq_true]
      rfl
    | true =>
      rw [if_pos rfl] at hfmt ⊢
      rw [hfmt]
      rfl
  unfold State.atomicChecks
  simp only [hwidth, Bool.false_eq_true, if_false]
  refine State.vgroups_ok hgroups ?_
  simp only [htag, hformat, hindex, hpoison, Bool.false_eq_true, if_false, hk]

/-- The vector atomic of a row of R303 performs its operation at each active position in order. -/
def AtomicsByPosition (mk : Gates → FormX → Instr) (fp : Bool) (op : Bool → Nat) : Prop :=
  ∀ (g : Gates) (o : FormX) (s s1 s2 s3 s4 : State) (tag : Tag) (w gr : Nat) (t : Strip) (base : Word),
    Ready (mk g o) s s1 → AtomicReady o fp (some o.sx.toNat) tag s1 s2 → t = s2.myStrip → w = t.ewB → gr = t.grp →
    base = (if o.sy = 0 then 0 else t.snap[o.sy.toNat]?.getD 0) → s2.ordBefore o.ord = .ok ⟨⟩ s3 →
    (State.overPositions (t.active o.msk o.mreg) s3 fun p s =>
      (s.atomicElem s.me ⟨base + t.index o.vi.toNat p, w, .atomic, false, w, o.pol, [o.scp.toNat], g.scopes⟩
        (op (isSignedFmt tag.toNat)) (t.el o.sz.toNat w p) 0).bind fun (old, fl) s =>
          R.done ((s.loaded o.sx.toNat w gr tag p old).addFlags fl)) = .ok ⟨⟩ s4 →
    exec (mk g o) s = .next (finished (mk g o) s1
      ((s4.ordAfter o.ord o.scp).completed (some (o.sx.toNat, gr, tag))))

/-- An instruction whose meaning is `vatomic` is such an atomic. -/
theorem atomicsByPosition_of_vatomic {mk : Gates → FormX → Instr} {fp : Bool} {op : Bool → Nat}
    (hx : ∀ g o s, exec (mk g o) s = issue (mk g o) s fun s => s.vatomic g o fp op) : AtomicsByPosition mk fp op := by
  intro g o s s1 s2 s3 s4 tag w gr t base hr hready ht hw hgr hbase hord hpos
  subst ht hw hgr hbase
  rw [hx]
  refine issue_ok hr (State.atomicChecks_ready hready ?_)
  simp only [hord, R.andThen_ok, Strip.atomicAt]
  rw [hpos]
  rfl

/-- The reduction store of a row of R304 adds to the element of each active position in order. -/
def ReducesByPosition (mk : Gates → FormX → Instr) (fp : Bool) : Prop :=
  ∀ (g : Gates) (o : FormX) (s s1 s2 s3 : State) (tag : Tag) (w : Nat) (t : Strip) (base : Word), Ready (mk g o) s s1 →
    AtomicReady o fp none tag s1 s2 → t = s2.myStrip → w = t.ewB →
    base = (if o.sy = 0 then 0 else t.snap[o.sy.toNat]?.getD 0) →
    (State.overPositions (t.active o.msk o.mreg) s2 fun p s =>
      s.reduceElem s.me ⟨base + t.index o.vi.toNat p, w, .atomic, false, w, o.pol, [o.scp.toNat], g.scopes⟩
        fp (t.el o.sz.toNat w p)) = .ok ⟨⟩ s3 →
    exec (mk g o) s = .next (finished (mk g o) s1 (s3.modMyStrip fun t => { t with vstart := 0 }))

/-- An instruction whose meaning is `vreduce` is such a store. -/
theorem reducesByPosition_of_vreduce {mk : Gates → FormX → Instr} {fp : Bool}
    (hx : ∀ g o s, exec (mk g o) s = issue (mk g o) s fun s => s.vreduce g o fp) : ReducesByPosition mk fp := by
  intro g o s s1 s2 s3 tag w t base hr hready ht hw hbase hpos
  subst ht hw hbase
  rw [hx]
  refine issue_ok hr (State.atomicChecks_ready hready ?_)
  simp only [Strip.atomicAt]
  rw [hpos]
  rfl

/-- Settles O34: each row is `vatomic` or `vreduce` with its operation. -/
theorem vectorAtomicsAndReductionStores : Obligations.VectorAtomicsAndReductionStores := by
  unfold Obligations.VectorAtomicsAndReductionStores
  refine ⟨?_, ?_⟩
  · show ∀ row ∈ (_ : List ((Gates → FormX → Instr) × Bool × (Bool → Nat))), AtomicsByPosition row.1 row.2.1 row.2.2
    simp only [List.forall_mem_cons, List.not_mem_nil, false_implies, implies_true, and_true]
    exact ⟨atomicsByPosition_of_vatomic fun _ _ _ => rfl, atomicsByPosition_of_vatomic fun _ _ _ => rfl,
      atomicsByPosition_of_vatomic fun _ _ _ => rfl, atomicsByPosition_of_vatomic fun _ _ _ => rfl,
      atomicsByPosition_of_vatomic fun _ _ _ => rfl, atomicsByPosition_of_vatomic fun _ _ _ => rfl⟩
  · show ∀ row ∈ (_ : List ((Gates → FormX → Instr) × Bool)), ReducesByPosition row.1 row.2
    simp only [List.forall_mem_cons, List.not_mem_nil, false_implies, implies_true, and_true]
    exact ⟨reducesByPosition_of_vreduce fun _ _ _ => rfl, reducesByPosition_of_vreduce fun _ _ _ => rfl⟩

/-! Scalar atomics (R300, R301). -/

/-- The scalar atomic of a row of R300 does its operation once and writes the old value, extended as the row says. -/
def AtomicReturnsOld (mk : Gates → FormX → Instr) (op : Nat) (sg : Bool) : Prop :=
  ∀ (g : Gates) (o : FormX) (s s1 s2 s3 s4 s5 s6 : State) (a b : Word) (n old : Nat) (fl : Flags), Ready (mk g o) s s1 →
    n = (if o.w64 = 1 then 8 else 4) → s1.rdS o.sy = .ok a s2 → s2.rdS o.sz = .ok b s3 →
    s3.dstReady o.sx = .ok ⟨⟩ s4 → s4.ordBefore o.ord = .ok ⟨⟩ s5 →
    s5.atomicElem s5.me ⟨a, n, .atomic, false, n, o.pol, [o.scp.toNat], g.scopes⟩ op (b.toNat % 2 ^ (8 * n)) 0 =
      .ok (old, fl) s6 →
    exec (mk g o) s = .next (finished (mk g o) s1
      (((s6.setS o.sx (extended sg n old)).addFlags fl).ordAfter o.ord o.scp))

/-- What `satomic` does once its sources, its compare value and its destination are there. -/
theorem State.satomic_ok {g : Gates} {o : FormX} {op : Nat} {cmp : Option SReg} {sg : Bool} {s s2 s3 s4 s5 s6 s7 : State}
    {a b c : Word} {n old : Nat} {fl : Flags} (hn : n = (if o.w64 = 1 then 8 else 4)) (ha : s.rdS o.sy = .ok a s2)
    (hb : s2.rdS o.sz = .ok b s3) (hc : s3.compareOf cmp = .ok c s4) (hd : s4.dstReady o.sx = .ok ⟨⟩ s5)
    (ho : s5.ordBefore o.ord = .ok ⟨⟩ s6)
    (hat : s6.atomicElem s6.me ⟨a, n, .atomic, false, n, o.pol, [o.scp.toNat], g.scopes⟩ op (b.toNat % 2 ^ (8 * n))
      (c.toNat % 2 ^ (8 * n)) = .ok (old, fl) s7) :
    s.satomic g o op cmp sg = .ok ⟨⟩ (((s7.setS o.sx (extended sg n old)).addFlags fl).ordAfter o.ord o.scp) := by
  simp only [← beq_iff_eq (a := o.w64)] at hn
  subst hn
  unfold State.satomic
  simp only [ha, hb, hc, hd, ho, hat, R.bind_ok, R.andThen_ok]

/-- An instruction whose meaning is `satomic` with nothing to compare is such an atomic. -/
theorem atomicReturnsOld_of_satomic {mk : Gates → FormX → Instr} {op : Nat} {sg : Bool}
    (hx : ∀ g o s, exec (mk g o) s = issue (mk g o) s fun s => s.satomic g o op none sg) : AtomicReturnsOld mk op sg := by
  intro g o s s1 s2 s3 s4 s5 s6 a b n old fl hr hn ha hb hd ho hat
  rw [hx]
  refine issue_ok hr (State.satomic_ok hn ha hb (c := 0) rfl hd ho ?_)
  rw [show (0 : Word).toNat = 0 from rfl, Nat.zero_mod]
  exact hat

/-- `acas` stores only where the old value equals Read(SW) (R300). -/
theorem acas_spec (g : Gates) (o : FormX) (s s1 s2 s3 s4 s5 s6 s7 : State) (a b c : Word) (n old : Nat) (fl : Flags)
    (hr : Ready (.acas g o) s s1) (hn : n = (if o.w64 = 1 then 8 else 4)) (ha : s1.rdS o.sy = .ok a s2)
    (hb : s2.rdS o.sz = .ok b s3) (hc : s3.rdS o.sw = .ok c s4) (hd : s4.dstReady o.sx = .ok ⟨⟩ s5)
    (ho : s5.ordBefore o.ord = .ok ⟨⟩ s6)
    (hat : s6.atomicElem s6.me ⟨a, n, .atomic, false, n, o.pol, [o.scp.toNat], g.scopes⟩ 9 (b.toNat % 2 ^ (8 * n))
      (c.toNat % 2 ^ (8 * n)) = .ok (old, fl) s7) :
    exec (.acas g o) s = .next (finished (.acas g o) s1
      (((s7.setS o.sx (extended true n old)).addFlags fl).ordAfter o.ord o.scp)) := by
  show execAcas g o s = _
  exact issue_ok hr (State.satomic_ok (cmp := some o.sw) hn ha hb hc hd ho hat)

/-- Every row of the scalar atomics without a compare value. -/
theorem scalarAtomicRows : ∀ row ∈ ([(.aadd, 0, true), (.aand, 1, true), (.aor, 2, true), (.axor, 3, true), (.amin, 4, true),
      (.amax, 5, true), (.aminu, 6, false), (.amaxu, 7, false), (.aswap, 8, true), (.afadd, 10, false), (.afmin, 11, false),
      (.afmax, 12, false)] : List ((Gates → FormX → Instr) × Nat × Bool)), AtomicReturnsOld row.1 row.2.1 row.2.2 := by
  simp only [List.forall_mem_cons, List.not_mem_nil, false_implies, implies_true, and_true]
  exact ⟨atomicReturnsOld_of_satomic fun _ _ _ => rfl, atomicReturnsOld_of_satomic fun _ _ _ => rfl,
    atomicReturnsOld_of_satomic fun _ _ _ => rfl, atomicReturnsOld_of_satomic fun _ _ _ => rfl,
    atomicReturnsOld_of_satomic fun _ _ _ => rfl, atomicReturnsOld_of_satomic fun _ _ _ => rfl,
    atomicReturnsOld_of_satomic fun _ _ _ => rfl, atomicReturnsOld_of_satomic fun _ _ _ => rfl,
    atomicReturnsOld_of_satomic fun _ _ _ => rfl, atomicReturnsOld_of_satomic fun _ _ _ => rfl,
    atomicReturnsOld_of_satomic fun _ _ _ => rfl, atomicReturnsOld_of_satomic fun _ _ _ => rfl⟩

/-- The table of the integer operations (R300). -/
theorem atomicNew_table (w old b cmp : Nat) :
    atomicNew 0 w old b cmp = (some ((old + b) % 2 ^ w), 0) ∧ atomicNew 1 w old b cmp = (some (old &&& b), 0) ∧
    atomicNew 2 w old b cmp = (some (old ||| b), 0) ∧ atomicNew 3 w old b cmp = (some (old ^^^ b), 0) ∧
    atomicNew 4 w old b cmp = (some (if vInt true w b < vInt true w old then b else old), 0) ∧
    atomicNew 5 w old b cmp = (some (if vInt true w old < vInt true w b then b else old), 0) ∧
    atomicNew 6 w old b cmp = (some (min old b), 0) ∧ atomicNew 7 w old b cmp = (some (max old b), 0) ∧
    atomicNew 8 w old b cmp = (some b, 0) ∧ atomicNew 9 w old b cmp = (if old = cmp then some b else none, 0) :=
  ⟨rfl, rfl, rfl, rfl, rfl, rfl, rfl, rfl, rfl, rfl⟩

end Sys2Proof.Machine
end

section
/-! What the traffic of the caches leaves (R126 to R147): memory, every context, slot, job, key and counter, the party that issues,
and of a cluster all but its snoop filter. -/

namespace Sys2Proof.Machine

/-- The parts of a state that the traffic of its caches leaves as they are. -/
structure Lasting where
  mem : List Host.Cell
  ctxs : List (Nat × Ctx)
  bind : List (Nat × BitVec 512)
  jobs : List Job
  keys : List (Nat × Key)
  counters : List Counter
  chip : Chip
  cur : Latch
  cluster : Nat → Cluster

/-- What a state holds of them. -/
def State.lasting (s : State) : Lasting :=
  ⟨s.mem, s.ctxs, s.bind, s.jobs, s.keys, s.counters, s.chip, s.cur,
    fun k => { s.cluster k with filter := [] }⟩

/-- What stores leave too: memory and the error counts aside, all of it. -/
def Lasting.rest (v : Lasting) : Lasting := { v with mem := [], chip := { v.chip with tele := { v.chip.tele with ue := 0 } } }

/-- A fold leaves what each of its steps leaves. -/
theorem State.lasting_foldl {α : Type} {f : State → α → State} (h : ∀ s a, (f s a).lasting = s.lasting) (l : List α)
    (s : State) : (l.foldl f s).lasting = s.lasting := by
  induction l generalizing s with
  | nil => rfl
  | cons a l ih => rw [List.foldl_cons, ih, h]

/-- A key of a map whose values have been changed, where the default is changed into itself. -/
theorem aget_map {α : Type} {d : α} {f : Nat → α → α} {n : Nat} (h : f n d = d) (l : List (Nat × α)) :
    aget d (l.map fun (k, v) => (k, f k v)) n = f n (aget d l n) := by
  induction l with
  | nil => exact h.symm
  | cons p r ih =>
    obtain ⟨k, v⟩ := p
    rw [List.map_cons]
    unfold aget
    split
    · next hk => rw [hk]
    · exact ih

/-! Single updates. -/
section
variable (s : State)
@[simp] theorem State.lasting_modCore (k : Nat) (f : Core → Core) : (s.modCore k f).lasting = s.lasting := rfl
@[simp] theorem State.lasting_modDie (k : Nat) (f : Die → Die) : (s.modDie k f).lasting = s.lasting := rfl
@[simp] theorem State.lasting_modLink (k : Nat) (f : Link → Link) : (s.modLink k f).lasting = s.lasting := rfl
@[simp] theorem State.lasting_emit (o : Output) : (s.emit o).lasting = s.lasting := rfl
@[simp] theorem State.lasting_setWstate (w : Nat) (x : WordState) : (s.setWstate w x).lasting = s.lasting := rfl
@[simp] theorem State.lasting_homeCurrent (w : Nat) : (s.homeCurrent w).lasting = s.lasting := rfl
@[simp] theorem State.lasting_freeRemotes : s.freeRemotes.lasting = s.lasting := rfl
@[simp] theorem State.lasting_mapL1 (f : Nat → L1Line → Option L1Line) : (s.mapL1 f).lasting = s.lasting := rfl
@[simp] theorem State.lasting_untrackL2 (p : Nat → LineKey → Bool) : (s.untrackL2 p).lasting = s.lasting := rfl

/-- A change of a cluster's snoop filter. -/
theorem State.lasting_modFilter (k : Nat) (f : List FilterEntry → List FilterEntry) :
    (s.modCluster k fun c => { c with filter := f c.filter }).lasting = s.lasting := by
  have h : ∀ j, { (s.modCluster k fun c => { c with filter := f c.filter }).cluster j with filter := [] } =
      { s.cluster j with filter := [] } := by
    intro j
    by_cases hj : j = k
    · rw [hj, State.cluster_modCluster_same]
    · simp [State.cluster, State.modCluster, hj]
  simp only [State.lasting, h]
  rfl

@[simp] theorem State.lasting_unrecord : s.unrecord.lasting = s.lasting := by
  have h : ∀ j, { s.unrecord.cluster j with filter := [] } = { s.cluster j with filter := [] } := by
    intro j
    show { aget Cluster.zero (s.clusters.map fun (k, c) => (k, { c with
      filter := c.filter.filterMap (FilterEntry.restrict fun i => (s.core (4 * k + i)).trackedLines) })) j with filter := [] } = _
    rw [aget_map (f := fun k (c : Cluster) => { c with
      filter := c.filter.filterMap (FilterEntry.restrict fun i => (s.core (4 * k + i)).trackedLines) }) rfl]
    rfl
  simp only [State.lasting, h]
  rfl

@[simp] theorem State.lasting_dropTracked (keep : Option Nat) (p : Nat → LineKey → Bool) :
    (s.dropTracked keep p).lasting = s.lasting := State.lasting_unrecord _
@[simp] theorem State.lasting_invalidate (w : Nat) (keep : Option Nat) : (s.invalidate w keep).lasting = s.lasting := by
  simp [State.invalidate]
@[simp] theorem State.lasting_downgrade (w : Nat) (keep : Option Nat) : (s.downgrade w keep).lasting = s.lasting := rfl
@[simp] theorem State.lasting_evictFilter (core : Nat) (key : LineKey) (v : FilterEntry) :
    (s.evictFilter core key v).lasting = s.lasting := State.lasting_dropTracked _ _ _
@[simp] theorem State.lasting_upgrade (core w : Nat) : (s.upgrade core w).lasting = s.lasting := rfl
end

/-! Messages to peers (R399, R402). -/

@[simp] theorem State.lasting_pump (s : State) (k n : Nat) : (s.pump k n).lasting = s.lasting := by
  induction n generalizing s with
  | zero => rfl
  | succ n ih =>
    unfold State.pump
    dsimp only
    split
    · rfl
    · split
      · rfl
      · rw [ih, lasting_modLink, lasting_emit]

theorem State.lasting_send {s t : State} {y : BitVec 8} {m : Msg} (h : s.send y m = some t) : t.lasting = s.lasting := by
  unfold State.send at h
  split at h
  · cases h
  · cases h; rw [lasting_pump, lasting_modLink]

@[simp] theorem State.lasting_sendOrDrop (s : State) (y : BitVec 8) (m : Msg) : (s.sendOrDrop y m).lasting = s.lasting := by
  unfold State.sendOrDrop
  cases h : s.send y m with
  | none => rfl
  | some t => exact State.lasting_send h

@[simp] theorem State.lasting_returnWords (s : State) (l : L1Line) : (s.returnWords l).lasting = s.lasting :=
  lasting_foldl (fun s _ => lasting_sendOrDrop s _ _) _ _

@[simp] theorem State.lasting_tellPeer (s : State) (y : BitVec 8) (key : LineKey) (d : Nat) :
    (s.tellPeer y key d).lasting = s.lasting := by
  unfold State.tellPeer
  dsimp only
  split
  · next t h => exact (State.lasting_send h : t.lasting = _)
  · rfl

/-! Lines that leave caches and homes (R134, R136, R141). -/

@[simp] theorem State.lasting_passRegistration (s : State) (w : Nat) : (s.passRegistration w).lasting = s.lasting := by
  unfold State.passRegistration
  split
  · dsimp only
    split <;> rfl
  · rfl

@[simp] theorem State.lasting_endRegistration (s : State) (w : Nat) : (s.endRegistration w).lasting = s.lasting := by
  unfold State.endRegistration
  split
  · rw [lasting_homeCurrent, lasting_passRegistration]
  · rfl

@[simp] theorem State.lasting_endRegistrations (ws : List Nat) (s : State) :
    (ws.foldl State.endRegistration s).lasting = s.lasting := lasting_foldl lasting_endRegistration _ _

@[simp] theorem State.lasting_dropLine (s : State) (core : Nat) (key : LineKey) :
    (s.dropLine core key).lasting = s.lasting := by
  unfold State.dropLine
  split
  · rfl
  · dsimp only
    rw [lasting_unrecord, lasting_modCore]
    split
    · rw [lasting_endRegistrations]
    · rw [lasting_returnWords]

@[simp] theorem State.lasting_dropInDie (s : State) (die : Nat) (key : LineKey) :
    (s.dropInDie die key).lasting = s.lasting := by
  unfold State.dropInDie
  rw [lasting_dropTracked]
  refine lasting_foldl (fun s a => ?_) _ _
  dsimp only
  split
  · exact lasting_dropLine s _ _
  · rfl

@[simp] theorem State.lasting_leaveDevice (s : State) (key : LineKey) : (s.leaveDevice key).lasting = s.lasting := by
  unfold State.leaveDevice
  split
  · rfl
  · exact (lasting_foldl lasting_homeCurrent _ _).trans (lasting_sendOrDrop _ _ _)

@[simp] theorem State.lasting_nodeDrops (s : State) (node : Nat) (key : LineKey) :
    (s.nodeDrops node key).lasting = s.lasting := by
  unfold State.nodeDrops
  split
  · rw [lasting_tellPeer]
  · refine (lasting_foldl (fun s w => ?_) _ _).trans (by rw [lasting_modDie, lasting_dropInDie])
    dsimp only
    split
    · rfl
    · split
      case h_4 => rfl
      all_goals split <;> rfl

@[simp] theorem State.lasting_l2Drop (s : State) (die : Nat) (key : LineKey) : (s.l2Drop die key).lasting = s.lasting := by
  unfold State.l2Drop
  split
  · rfl
  · split
    · rw [lasting_nodeDrops]
    · dsimp only
      split
      · rw [lasting_leaveDevice, lasting_modDie, lasting_dropInDie]
      · rw [lasting_modDie, lasting_dropInDie]

@[simp] theorem State.lasting_useL2 (s : State) (die part : Nat) (key : LineKey) (tracked : Bool) :
    (s.useL2 die part key tracked).lasting = s.lasting := by
  unfold State.useL2
  dsimp only
  rw [lasting_modDie]
  split
  · rfl
  · split
    · rfl
    · rw [lasting_l2Drop]

@[simp] theorem State.lasting_evictRemote (s : State) (v : RemoteEntry) : (s.evictRemote v).lasting = s.lasting := by
  unfold State.evictRemote
  dsimp only
  rw [lasting_freeRemotes]
  refine (lasting_foldl (fun s n => lasting_nodeDrops s n _) _ _).trans (lasting_foldl (fun s w => ?_) _ _)
  split
  · split <;> rfl
  · rfl

@[simp] theorem State.lasting_touchRemote (s : State) (slice : Nat) (key : LineKey) (node : Option Nat) :
    (s.touchRemote slice key node).lasting = s.lasting := by
  unfold State.touchRemote
  dsimp only
  split
  · rfl
  · rfl
  · rfl
  · split
    · rfl
    · exact lasting_evictRemote s _

/-! Requests at the home (R133 to R135, R140). -/

@[simp] theorem State.lasting_registerWord (s : State) (slice core w : Nat) :
    (s.registerWord slice core w).lasting = s.lasting := by
  unfold State.registerWord
  dsimp only
  split
  · rfl
  · split
    · rfl
    · split
      · exact lasting_endRegistrations _ s
      · exact lasting_tellPeer _ _ _ _

@[simp] theorem State.lasting_requestWord (s : State) (core : Option Nat) (d slice : Nat) (req : HomeReq) (w : Nat) :
    (s.requestWord core d slice req w).lasting = s.lasting := by
  unfold State.requestWord
  dsimp only
  cases req with
  | untrackedLoad => rfl
  | trackedLoad own =>
    dsimp only
    repeat' split
    all_goals simp only [lasting_setWstate, lasting_downgrade, lasting_endRegistration]
  | ownStore =>
    dsimp only
    rw [lasting_setWstate, lasting_invalidate]
    split
    · split
      · rw [lasting_endRegistration]
      · rw [lasting_passRegistration]
    · rfl
  | throughStore =>
    dsimp only
    rw [lasting_setWstate, lasting_homeCurrent, lasting_invalidate, lasting_endRegistration]
  | sisStore =>
    dsimp only
    repeat' split
    all_goals simp only [lasting_setWstate, lasting_registerWord, lasting_invalidate, lasting_passRegistration,
      lasting_homeCurrent]
  | atomic =>
    dsimp only
    rw [lasting_setWstate, lasting_homeCurrent, lasting_invalidate, lasting_endRegistration]

@[simp] theorem State.lasting_homeRequest (s : State) (core : Nat) (req : HomeReq) (key : LineKey) (ws : List Nat) :
    (s.homeRequest core req key ws).lasting = s.lasting := by
  unfold State.homeRequest State.nodeRequest
  dsimp only
  rw [lasting_freeRemotes]
  have hws := fun t => lasting_foldl (fun s w => lasting_requestWord s (some core) (nodeOfCore core)
    (State.homeSlice t key.base (core / 16 % 4)) req w) ws
  split
  · exact hws _ _
  · rw [lasting_useL2]
    exact (hws _ _).trans (lasting_touchRemote _ _ _ _)

/-! A core's lines (R100, R101, R128 to R130, R137). -/

@[simp] theorem State.lasting_record (s : State) (core : Nat) (key : LineKey) : (s.record core key).lasting = s.lasting := by
  unfold State.record
  dsimp only
  rw [lasting_modDie, lasting_modFilter _ _ fun f => ((f.find? fun (e : FilterEntry) =>
    e.unit == (s.trackUnit core key).1 && e.side == (s.trackUnit core key).2).getD
      ⟨(s.trackUnit core key).1, (s.trackUnit core key).2, []⟩).join (core % 4) key :: f.filter fun e =>
        !(e.unit == (s.trackUnit core key).1 && e.side == (s.trackUnit core key).2)]
  split
  · rfl
  · split
    · rfl
    · rw [lasting_evictFilter]

@[simp] theorem State.lasting_installLine (s : State) (core : Nat) (l : L1Line) :
    (s.installLine core l).lasting = s.lasting := by
  have hroom : ∀ o : Option L1Line, (match o with | none => s | some v => s.dropLine core v.key).lasting = s.lasting := by
    intro o
    cases o with
    | none => rfl
    | some v => exact lasting_dropLine s _ _
  unfold State.installLine
  dsimp only
  split
  · rw [lasting_record, lasting_modCore, lasting_useL2]
    split
    · rfl
    · exact hroom _
  · rw [lasting_unrecord, lasting_modCore, lasting_useL2]
    split
    · rfl
    · exact hroom _

@[simp] theorem State.lasting_touchL1 (s : State) (core : Nat) (p : L1Line → Bool) :
    (s.touchL1 core p).lasting = s.lasting := by
  unfold State.touchL1
  split <;> rfl

@[simp] theorem State.lasting_fillUntracked (s : State) (core : Nat) (key : LineKey) (regs : List Nat) :
    (s.fillUntracked core key regs).lasting = s.lasting := lasting_installLine _ _ _

@[simp] theorem State.lasting_loadLine (s : State) (core : Nat) (key : LineKey) (pol : BitVec 2) (w : Nat) :
    (s.loadLine core key pol w).lasting = s.lasting := by
  unfold State.loadLine
  dsimp only
  split
  · split
    · rw [lasting_installLine, lasting_homeRequest, lasting_endRegistrations]
    · split
      · rw [lasting_fillUntracked, lasting_homeRequest]
      · rw [lasting_touchL1]
  · split
    · rw [lasting_installLine, lasting_homeRequest]
    · rw [lasting_fillUntracked, lasting_homeRequest]

@[simp] theorem State.lasting_ownLine (s : State) (core : Nat) (key : LineKey) : (s.ownLine core key).lasting = s.lasting := by
  unfold State.ownLine
  split
  · split
    · rw [lasting_installLine]
    · dsimp only
      rw [lasting_installLine, lasting_homeRequest, lasting_endRegistrations]
  · rw [lasting_installLine, lasting_homeRequest]

@[simp] theorem State.lasting_sisRegister (s : State) (core : Nat) (key : LineKey) (w : Nat) :
    (s.sisRegister core key w).lasting = s.lasting := by
  unfold State.sisRegister
  dsimp only
  rw [lasting_installLine, lasting_homeRequest]
  split
  · rfl
  · rw [lasting_fillUntracked, lasting_homeRequest]

/-! Stores (R97, R126, R130, R462). -/

/-- A store of bytes writes them and leaves all the rest. -/
theorem State.lasting_putBytes (s : State) (core : Option Nat) (a n x : Nat) (atHome : Bool) :
    (s.putBytes core a n x atHome).lasting = { s.lasting with mem := Memory.writeN s.mem a n x } := by
  unfold State.putBytes
  dsimp only
  cases core <;> dsimp only <;> split
  · rfl
  · split <;> rfl
  · rfl
  · split <;> rfl

/-- A check of a line that fails counts its error. -/
theorem State.rest_mergeCheck (s : State) (a : Nat) : (s.mergeCheck a).lasting.rest = s.lasting.rest := by
  unfold State.mergeCheck
  split <;> rfl

/-- A store of a word writes its bytes under every policy. -/
theorem State.lasting_storeWord (s : State) (core : Nat) (key : LineKey) (pol : BitVec 2) (a n x : Nat) :
    (s.storeWord core key pol a n x).lasting = { s.lasting with mem := Memory.writeN s.mem a n x } := by
  have hmem : ∀ t : State, t.lasting = s.lasting → ∀ h, (t.putBytes (some core) a n x h).lasting =
      { s.lasting with mem := Memory.writeN s.mem a n x } := by
    intro t ht h
    rw [lasting_putBytes, ht, show t.mem = s.mem from congrArg Lasting.mem ht]
  unfold State.storeWord
  dsimp only
  split
  · exact hmem _ (by rw [lasting_touchL1, lasting_upgrade]) _
  split
  · exact hmem _ (by rw [lasting_ownLine]) _
  split
  · exact hmem _ (by rw [lasting_touchL1]) _
  split
  · exact hmem _ (by rw [lasting_sisRegister]) _
  · exact hmem _ (by rw [lasting_touchL1, lasting_homeRequest]) _

end Sys2Proof.Machine
end

section
/-! The statements about what a store, a load and an atomic change (R97, R126, R134, R145, R146). -/

namespace Sys2Proof.Machine

/-! Numbers in memory. -/

namespace Memory

/-- A number of i + j bytes is its low i bytes and the j bytes above them. -/
theorem readN_add (m : List Host.Cell) (a i j : Nat) : readN m a (i + j) = readN m a i + 256 ^ i * readN m (a + i) j := by
  induction i generalizing a with
  | zero => simp [readN]
  | succ i ih =>
    rw [Nat.succ_add, readN, readN, ih (a + 1), Nat.add_right_comm a 1 i, Nat.add_assoc a i 1, Nat.pow_succ']
    ring

/-- A number of n bytes is below 256^n. -/
theorem readN_lt (m : List Host.Cell) (a n : Nat) : readN m a n < 256 ^ n := by
  induction n generalizing a with
  | zero => exact Nat.one_pos
  | succ n ih =>
    have hb : (read m a).toNat < 256 := (read m a).isLt
    have hr := ih (a + 1)
    rw [readN, Nat.pow_succ']
    omega

/-- The n bytes at place i of a number of k bytes. -/
theorem readN_part (m : List Host.Cell) (a : Nat) {i n k : Nat} (h : i + n ≤ k) :
    readN m a k / 256 ^ i % 256 ^ n = readN m (a + i) n := by
  obtain ⟨j, rfl⟩ := Nat.exists_eq_add_of_le h
  rw [Nat.add_assoc, readN_add, readN_add, Nat.add_mul_div_left _ _ (Nat.pow_pos (by decide)),
    Nat.div_eq_of_lt (readN_lt m a i), Nat.zero_add, Nat.add_mul_mod_self_left, Nat.mod_eq_of_lt (readN_lt _ _ _)]

/-- Only the low n bytes of a number are written. -/
theorem writeN_mod (m : List Host.Cell) (a n x : Nat) : writeN m a n (x % 256 ^ n) = writeN m a n x := by
  induction n generalizing m a x with
  | zero => rfl
  | succ n ih =>
    have hbyte : BitVec.ofNat 8 (x % 256 ^ (n + 1)) = BitVec.ofNat 8 x := by
      rw [← BitVec.toNat_inj, BitVec.toNat_ofNat, BitVec.toNat_ofNat]
      exact Nat.mod_mod_of_dvd x (Dvd.intro_left (256 ^ n) rfl)
    have hrest : x % 256 ^ (n + 1) / 256 = x / 256 % 256 ^ n := by
      rw [Nat.pow_succ', Nat.mod_mul_right_div_self]
    rw [writeN, writeN, hbyte, hrest, ih]

/-- A number of i + j bytes is written as its low i bytes and the j bytes above them. -/
theorem writeN_add (m : List Host.Cell) (a i j x : Nat) :
    writeN m a (i + j) x = writeN (writeN m a i x) (a + i) j (x / 256 ^ i) := by
  induction i generalizing m a x with
  | zero => simp [writeN]
  | succ i ih =>
    rw [Nat.succ_add, writeN, writeN, ih, Nat.add_right_comm a 1 i, Nat.add_assoc a i 1, Nat.div_div_eq_div_mul,
      ← Nat.pow_succ']

/-- Write the parts of a store one after another. -/
def writeParts (m : List Host.Cell) (ps : List (Nat × Nat × Nat)) : List Host.Cell :=
  ps.foldl (fun m p => writeN m p.1 p.2.1 p.2.2) m

/-- The parts of a store of an element together write its bytes (R157). -/
theorem writeParts_pieces (m : List Host.Cell) (a n x : Nat) (hn : n ∈ [1, 2, 4, 8]) :
    writeParts m (pieces a n x) = writeN m a n x := by
  simp only [List.mem_cons, List.not_mem_nil, or_false] at hn
  rcases hn with rfl | rfl | rfl | rfl
  · rfl
  · rfl
  · rfl
  · rw [writeN_add m a 4 4 x, ← writeN_mod _ _ 4 x, ← writeN_mod _ _ 4 (x / 256 ^ 4)]
    simp [writeParts, pieces, List.range_succ]

/-- The words of a load of an element hold its bytes (R157). -/
theorem readN_words (m : List Host.Cell) (a n : Nat) (hn : n ∈ [1, 2, 4, 8]) (ha : a % n = 0) :
    joinWords ((wordsOf a n).map fun w => readN m w 4) / 2 ^ (8 * (a % 4)) % 2 ^ (8 * n) = readN m a n := by
  have hword : ∀ k, k ∈ [1, 2, 4] → a % k = 0 → readN m (wordOf a) 4 / 2 ^ (8 * (a % 4)) % 2 ^ (8 * k) = readN m a k := by
    intro k hk hak
    simp only [List.mem_cons, List.not_mem_nil, or_false] at hk
    have hfit : a % 4 + k ≤ 4 := by rcases hk with rfl | rfl | rfl <;> omega
    have hplace : wordOf a + a % 4 = a := by unfold wordOf; omega
    rw [Nat.pow_mul, Nat.pow_mul, show 2 ^ 8 = 256 from rfl, readN_part m (wordOf a) hfit, hplace]
  simp only [List.mem_cons, List.not_mem_nil, or_false] at hn
  rcases hn with rfl | rfl | rfl | rfl
  · simpa [wordsOf, joinWords] using hword 1 (by simp) ha
  · simpa [wordsOf, joinWords] using hword 2 (by simp) ha
  · simpa [wordsOf, joinWords] using hword 4 (by simp) ha
  · have hsplit : readN m a 8 = readN m a 4 + 256 ^ 4 * readN m (a + 4) 4 := readN_add m a 4 4
    have hlt : readN m a 8 < 256 ^ 8 := readN_lt m a 8
    have hzero : a % 4 = 0 := by omega
    have hjoin : joinWords ((wordsOf a 8).map fun w => readN m w 4) = readN m a 8 := by
      rw [hsplit]
      simp [wordsOf, joinWords, List.range_succ]
    rw [hjoin, hzero]
    simpa using Nat.mod_eq_of_lt hlt

end Memory

/-! Results taken apart. -/

/-- A result of two operations in a row. -/
theorem R.bind_eq_ok {α β : Type} {r : R α} {f : α → State → R β} {b : β} {u : State} :
    r.bind f = .ok b u ↔ ∃ a t, r = .ok a t ∧ f a t = .ok b u := by
  cases r <;> simp [R.bind]

/-- A result of two operations in a row, the first without a value. -/
theorem R.andThen_eq_ok {α β : Type} {r : R α} {f : State → R β} {b : β} {u : State} :
    r.andThen f = .ok b u ↔ ∃ a t, r = .ok a t ∧ f t = .ok b u := R.bind_eq_ok

/-! What an access asks before it is performed. -/

/-- A question that has its answer changes nothing (R399). -/
theorem State.ask_ok {s t : State} {y : BitVec 8} {m : Msg} {key : LineKey} {pa : Nat} {v : BitVec 8 × Msg}
    (h : s.ask y m key pa = .ok v t) : t = s := by
  unfold State.ask at h
  split at h
  · split at h
    · cases h; rfl
    · cases h
  · dsimp only at h
    split at h
    · cases h
    · cases h; rfl

/-- Questions that all have their answers change nothing, if none does by itself. -/
theorem State.askAll_ok {α β : Type} {f : α → State → R β} (hf : ∀ {a s v t}, f a s = .ok v t → t = s) {l : List α}
    {s t : State} {u : PUnit} (h : s.askAll f l = .ok u t) : t = s := by
  induction l generalizing s with
  | nil => cases h; rfl
  | cons a r ih =>
    unfold State.askAll at h
    split at h
    · next s1 h1 => rw [ih h, hf h1]
    · cases h
    · split at h
      · cases h
      · next hno => exact absurd h (hno _ _)

/-- Room in the remote filter is made without a change of what lasts (R349). -/
theorem State.lasting_remoteRoom {s t : State} {core : Nat} {req : HomeReq} {key : LineKey} {ws : List Nat} {u : PUnit}
    (h : s.remoteRoom core req key ws = .ok u t) : t.lasting = s.lasting := by
  unfold State.remoteRoom at h
  dsimp only at h
  repeat' split at h
  all_goals cases h
  all_goals simp only [lasting_evictRemote]

theorem State.lasting_peersFirst {s t : State} {req : HomeReq} {core : Nat} {key : LineKey} {e : Elem} {ws : List Nat}
    {u : PUnit} (h : s.peersFirst req core key e ws = .ok u t) : t.lasting = s.lasting := by
  unfold State.peersFirst at h
  split at h
  · cases h
  · obtain ⟨_, s1, h1, h⟩ := R.andThen_eq_ok.1 h
    obtain ⟨_, s2, h2, h⟩ := R.andThen_eq_ok.1 h
    cases h
    have hs1 : s1 = s := State.askAll_ok (fun h => State.ask_ok h) h1
    rw [hs1] at h2
    exact (State.lasting_remoteRoom h2 : s2.lasting = _)

theorem State.lasting_peersForLoad {s t : State} {core : Nat} {key : LineKey} {e : Elem} {w : Nat} {u : PUnit}
    (h : s.peersForLoad core key e w = .ok u t) : t.lasting = s.lasting := by
  unfold State.peersForLoad at h
  split at h
  · cases h; rfl
  dsimp only at h
  split at h
  · cases h; rfl
  · exact lasting_peersFirst h

theorem State.lasting_peersForStore {s t : State} {core : Nat} {key : LineKey} {e : Elem} {w : Nat} {u : PUnit}
    (h : s.peersForStore core key e w = .ok u t) : t.lasting = s.lasting := by
  unfold State.peersForStore at h
  split at h
  · cases h; rfl
  dsimp only at h
  split at h
  · cases h; rfl
  split at h
  · exact lasting_peersFirst h
  split at h
  · cases h; rfl
  split at h
  · obtain ⟨_, s1, h1, h⟩ := R.andThen_eq_ok.1 h
    rw [lasting_peersFirst h]
    split at h1
    · cases h1; rfl
    · exact lasting_peersForLoad h1
  · exact lasting_peersFirst h

/-- A word that can be used is used as it stands (R461, R462). -/
theorem State.consume_ok {s t : State} {w : Nat} {va : Word} {u : PUnit} (h : s.consume w va = .ok u t) : t = s := by
  unfold State.consume at h
  split at h
  · cases h
  split at h
  · cases h
  · cases h; rfl

/-- Words that can all be used are used as they stand. -/
theorem State.consumes_ok {ws : List Nat} {s t : State} {va : Word} {u : PUnit}
    (h : (R.each ws s fun w s => s.consume w va) = .ok u t) : t = s := by
  induction ws generalizing s with
  | nil => cases h; rfl
  | cons w r ih =>
    obtain ⟨_, s1, h1, h⟩ := R.bind_eq_ok.1 h
    rw [ih h, State.consume_ok h1]

/-- A translation and its checks leave what lasts (R93, R444). -/
theorem State.lasting_locate {s t : State} {c : Nat} {e : Elem} {d : Target} (h : s.locate c e = .ok d t) :
    t.lasting = s.lasting := by
  have hpage : ∀ {va fetch x u}, s.pageOf c va fetch = .ok x u → u.lasting = s.lasting := fun hp =>
    (congrArg State.lasting (State.pageOf_rest hp) :)
  unfold State.locate at h
  dsimp only at h
  split at h
  · cases h
  split at h
  · cases h
  split at h
  · split at h
    · cases h
    · obtain ⟨⟨p, k⟩, s1, h1, h⟩ := R.bind_eq_ok.1 h
      dsimp only at h
      split at h
      · cases h
      repeat' split at h
      all_goals cases h
      exact hpage h1
  · obtain ⟨⟨p, k⟩, s1, h1, h⟩ := R.bind_eq_ok.1 h
    dsimp only at h
    repeat' split at h
    all_goals cases h
    exact hpage h1

/-- What lasts decides which addresses are this device's. -/
theorem State.owns_congr {s t : State} (h : t.lasting.rest = s.lasting.rest) (pa : Nat) : t.owns pa = s.owns pa := by
  unfold State.owns State.dev
  rw [show t.chip.flash = s.chip.flash from congrArg (fun v : Lasting => v.chip.flash) h]

/-! Stores (R97, R126, R134). -/

/-- The parts of a store to this device's DRAM write their bytes and leave the rest. -/
theorem State.storeParts_rest {core pa : Nat} {key : LineKey} {e : Elem} {other : Nat × Nat × Nat → State → R PUnit}
    {ps : List (Nat × Nat × Nat)} {s t : State} {u : PUnit} (ho : s.owns pa = true)
    (h : (R.each ps s fun (a, n, x) s =>
      if s.owns pa then (s.peersForStore core key e (wordOf a)).andThen fun s =>
        R.done ((s.mergeCheck a).storeWord core key e.pol a n x)
      else other (a, n, x) s) = .ok u t) :
    t.lasting.rest = s.lasting.rest ∧ t.mem = Memory.writeParts s.mem ps := by
  induction ps generalizing s with
  | nil => cases h; exact ⟨rfl, rfl⟩
  | cons p r ih =>
    obtain ⟨a, n, x⟩ := p
    obtain ⟨_, s1, h1, h⟩ := R.bind_eq_ok.1 h
    dsimp only at h1
    rw [if_pos ho] at h1
    obtain ⟨_, s2, h2, h1⟩ := R.andThen_eq_ok.1 h1
    have hs2 : s2.lasting = s.lasting := State.lasting_peersForStore h2
    have hs1 : s1 = (s2.mergeCheck a).storeWord core key e.pol a n x := by cases h1; rfl
    have hl1 := congrArg State.lasting hs1
    rw [State.lasting_storeWord] at hl1
    have hrest : s1.lasting.rest = s.lasting.rest := by
      rw [hl1, ← hs2, ← State.rest_mergeCheck s2 a]
      rfl
    have hmem : s1.mem = Memory.writeN s.mem a n x := by
      have hm : (s2.mergeCheck a).mem = s2.mem := by unfold State.mergeCheck; split <;> rfl
      rw [show s1.mem = Memory.writeN (s2.mergeCheck a).mem a n x from congrArg Lasting.mem hl1, hm,
        show s2.mem = s.mem from congrArg Lasting.mem hs2]
    obtain ⟨hr, hm⟩ := ih (by rw [State.owns_congr hrest, ho]) h
    exact ⟨hr.trans hrest, by rw [hm, hmem]; rfl⟩

/-- What a store of an element leaves, in the terms of the statements. -/
theorem State.rest_fields {s t : State} (h : t.lasting.rest = s.lasting.rest) :
    t.ctxs = s.ctxs ∧ t.bind = s.bind ∧ t.jobs = s.jobs ∧ t.keys = s.keys ∧ t.counters = s.counters ∧
    ∀ k, { t.cluster k with filter := [] } = { s.cluster k with filter := [] } :=
  ⟨congrArg Lasting.ctxs h, congrArg Lasting.bind h, congrArg Lasting.jobs h, congrArg Lasting.keys h,
    congrArg Lasting.counters h, congrFun (congrArg Lasting.cluster h)⟩

/-- A store to a word of this device's DRAM (R97, R126). -/
theorem writeElem_spec (s s1 t : State) (c x pa ow : Nat) (e : Elem) (hn : e.n ∈ [1, 2, 4, 8])
    (hl : s.locate c e = .ok (.phys pa ow) s1) (ho : s1.owns pa = true) (h : s.writeElem c e x = .ok ⟨⟩ t) :
    t.mem = Memory.writeN s.mem pa e.n x ∧ t.lasting.rest = s.lasting.rest := by
  have h1 : s1.lasting = s.lasting := State.lasting_locate hl
  unfold State.writeElem at h
  rw [hl, R.bind_ok] at h
  obtain ⟨hrest, hmem⟩ := State.storeParts_rest (other := fun p s => s.peerStore c _ e p.1 p.2.1 p.2.2) ho h
  rw [Memory.writeParts_pieces _ _ _ _ hn, show s1.mem = s.mem from congrArg Lasting.mem h1] at hmem
  exact ⟨hmem, hrest.trans (congrArg Lasting.rest h1)⟩

/-! Loads (R126, R145). -/

/-- A core after tracked copies have gone. -/
theorem State.core_dropTracked (s : State) (keep : Option Nat) (p : Nat → LineKey → Bool) (k : Nat) :
    (s.dropTracked keep p).core k = { s.core k with
      l1 := (s.core k).l1.filter fun l => !(l.tracked && some k != keep && p k l.key)
      icache := (s.core k).icache.filter fun (b, _) => !p k (rowLine b) } :=
  aget_map (f := fun k (c : Core) => { c with
    l1 := c.l1.filter fun l => !(l.tracked && some k != keep && p k l.key)
    icache := c.icache.filter fun (b, _) => !p k (rowLine b) }) rfl s.cores

/-- The line that a core's filter has recorded stays in its L1 (R137, R141). -/
theorem State.mem_record {s : State} {core : Nat} {l : L1Line} (h : l ∈ (s.core core).l1) :
    l ∈ ((s.record core l.key).core core).l1 := by
  have hevict : ∀ v, l ∈ ((s.evictFilter core l.key v).core core).l1 := by
    intro v
    unfold State.evictFilter
    rw [State.core_dropTracked]
    refine List.mem_filter.2 ⟨h, ?_⟩
    simp
  unfold State.record
  dsimp only
  show l ∈ (State.core (if _ then s else _) core).l1
  split
  · exact h
  · split
    · exact h
    · exact hevict _

/-- A tracked line that is installed is in the core's L1 (R100). -/
theorem State.mem_installLine {s : State} {core : Nat} {l : L1Line} (h : l.tracked = true) :
    l ∈ ((s.installLine core l).core core).l1 := by
  unfold State.installLine
  dsimp only
  rw [if_pos h]
  refine State.mem_record ?_
  rw [State.core_modCore_same]
  exact List.mem_cons_self

/-- A tracked line of a core that holds a word serves its loads with the current value (R145). -/
theorem State.currentCopy_of_mem {s : State} {core w : Nat} {l : L1Line} (h : l ∈ (s.core core).l1) (ht : l.tracked = true)
    (hw : holdsWord l.key w = true) : s.currentCopy core w = true :=
  List.any_eq_true.2 ⟨l, h, by rw [ht, hw]; rfl⟩

/-- After a tracked load of a word its core has a current copy of it (R126, R145). -/
theorem State.currentCopy_loadLine {s : State} {core w : Nat} {key : LineKey} {pol : BitVec 2} (hp : pol = 0 ∨ pol = 3)
    (hw : holdsWord key w = true) : (s.loadLine core key pol w).currentCopy core w = true := by
  have htracked : (pol == 0 || pol == 3) = true := by rcases hp with rfl | rfl <;> rfl
  have hinstall : ∀ (t : State) (b : Bool), (t.installLine core ⟨key, if b then .E else .S, [], [], t.now⟩).currentCopy core w =
      true := by
    intro t b
    have ht : (⟨key, if b then .E else .S, [], [], t.now⟩ : L1Line).tracked = true := by cases b <;> rfl
    exact State.currentCopy_of_mem (State.mem_installLine ht) ht hw
  unfold State.loadLine
  dsimp only
  split
  · next l hf =>
    rw [htracked, Bool.and_true]
    split
    · exact hinstall _ _
    · next hu =>
      rw [if_neg (by simp [hu]), State.touchL1, hf]
      dsimp only
      have hkey : l.key = key := by simpa using List.find?_some hf
      refine State.currentCopy_of_mem (l := l) ?_ (by simpa [L1Line.tracked] using hu) (by rw [hkey, hw])
      rw [State.core_modCore_same]
      exact List.mem_cons_self
  · rw [if_pos htracked]
    exact hinstall _ _

/-- The words of a load of this device's DRAM, one after another. -/
theorem State.loadWords_lasting {core pa : Nat} {key : LineKey} {e : Elem} {other : Nat → State → R Nat} {ws vs : List Nat}
    {s t : State} (ho : s.owns pa = true)
    (h : (R.gather ws s fun w s =>
      if s.owns pa then (s.peersForLoad core key e w).andThen fun s => (s.consume w e.va).andThen fun s =>
        .ok ((s.loadLine core key e.pol w).loadWord core w).toNat (s.loadLine core key e.pol w)
      else other w s) = .ok vs t) :
    t.lasting = s.lasting ∧ (e.pol = 0 ∨ e.pol = 3 → (∀ w ∈ ws, holdsWord key w = true) →
      vs = ws.map fun w => Memory.readN s.mem w 4) := by
  induction ws generalizing s vs with
  | nil => cases h; exact ⟨rfl, fun _ _ => rfl⟩
  | cons w r ih =>
    obtain ⟨v, s1, h1, h⟩ := R.bind_eq_ok.1 h
    obtain ⟨us, s2, h2, h⟩ := R.bind_eq_ok.1 h
    dsimp only at h1
    rw [if_pos ho] at h1
    obtain ⟨_, s3, h3, h1⟩ := R.andThen_eq_ok.1 h1
    obtain ⟨_, s4, h4, h1⟩ := R.andThen_eq_ok.1 h1
    rw [State.consume_ok h4] at h1
    have hs3 : s3.lasting = s.lasting := State.lasting_peersForLoad h3
    have hs1 : s1 = s3.loadLine core key e.pol w := by cases h1; rfl
    have hv : v = ((s3.loadLine core key e.pol w).loadWord core w).toNat := by cases h1; rfl
    have hl1 : s1.lasting = s.lasting := by rw [hs1, State.lasting_loadLine, hs3]
    have hm1 : s1.mem = s.mem := congrArg Lasting.mem hl1
    cases h
    obtain ⟨hl, hval⟩ := ih (by rw [State.owns_congr (congrArg Lasting.rest hl1), ho]) h2
    refine ⟨hl.trans hl1, fun hp hk => ?_⟩
    have hword : v = Memory.readN s.mem w 4 := by
      rw [hv, State.loadWord, if_pos (State.currentCopy_loadLine hp (hk w List.mem_cons_self)), ← hs1, State.word, hm1,
        BitVec.toNat_ofNat]
      exact Nat.mod_eq_of_lt (Memory.readN_lt s.mem w 4)
    rw [List.map_cons, ← hword, hval hp fun u hu => hk u (List.mem_cons_of_mem _ hu), hm1]

/-- The row line of an aligned element holds its words (R142). -/
theorem holdsWord_rowLine {pa n : Nat} (hn : n ∈ [1, 2, 4, 8]) (ha : pa % n = 0) : ∀ w ∈ wordsOf pa n,
    holdsWord (rowLine pa) w = true := by
  intro w hw
  simp only [List.mem_cons, List.not_mem_nil, or_false] at hn
  show (decide (pa / 128 * 128 ≤ w) && decide (w < pa / 128 * 128 + 128)) = true
  rw [Bool.and_eq_true, decide_eq_true_eq, decide_eq_true_eq]
  unfold wordsOf at hw
  split at hw
  · rw [List.mem_singleton] at hw
    subst hw
    unfold wordOf
    omega
  · next h4 =>
    have h8 : n = 8 := by omega
    subst h8
    obtain ⟨i, hi, rfl⟩ := List.mem_map.1 hw
    rw [List.mem_range] at hi
    omega

/-- A load of a word of this device's DRAM (R126, R145). -/
theorem readElem_spec (s s1 t : State) (c v pa ow : Nat) (e : Elem) (hn : e.n ∈ [1, 2, 4, 8]) (ha : pa % e.n = 0)
    (hcol : e.col = false) (hl : s.locate c e = .ok (.phys pa ow) s1) (ho : s1.owns pa = true)
    (h : s.readElem c e = .ok v t) :
    t.lasting = s.lasting ∧ (e.pol = 0 ∨ e.pol = 3 → v = Memory.readN s.mem pa e.n) := by
  have h1 : s1.lasting = s.lasting := State.lasting_locate hl
  unfold State.readElem at h
  rw [hl, R.bind_ok] at h
  dsimp only at h
  rw [hcol, if_neg Bool.false_ne_true] at h
  obtain ⟨ws, s2, h2, h⟩ := R.bind_eq_ok.1 h
  obtain ⟨hlast, hval⟩ := State.loadWords_lasting (other := fun w s => s.peerLoad (coreOf c) (rowLine pa) e w) ho h2
  cases h
  refine ⟨hlast.trans h1, fun hp => ?_⟩
  rw [hval hp (holdsWord_rowLine hn ha), show s1.mem = s.mem from congrArg Lasting.mem h1, Memory.readN_words _ _ _ hn ha]

/-- Settles O30: a store writes its bytes (`writeElem_spec`); a load leaves what lasts (`readElem_spec`). -/
theorem loadsAndStoresTouchOnlyTheirBytes : Obligations.LoadsAndStoresTouchOnlyTheirBytes := by
  unfold Obligations.LoadsAndStoresTouchOnlyTheirBytes
  refine ⟨fun s s1 t c x pa ow e hw hn ha hl ho h => ?_, fun s s1 t c v pa ow e hn ha hcol hl ho h => ?_⟩
  · obtain ⟨hmem, hrest⟩ := writeElem_spec s s1 t c x pa ow e hn hl ho h
    rw [hmem]
    refine ⟨?_, fun a hout => Memory.read_writeN_outside _ _ _ _ _ hw hout, Memory.wf_writeN _ _ _ _ hw,
      State.rest_fields hrest⟩
    rw [Memory.readN_writeN _ _ _ _ hw, Nat.pow_mul]
  · obtain ⟨hlast, hval⟩ := readElem_spec s s1 t c v pa ow e hn ha hcol hl ho h
    obtain ⟨hctxs, hbind, hjobs, hkeys, hcounters, hcluster⟩ := State.rest_fields (congrArg Lasting.rest hlast)
    exact ⟨congrArg Lasting.mem hlast, hctxs, hbind, hjobs, hkeys, hcounters, hcluster, congrArg Lasting.chip hlast, hval⟩

/-! Atomics (R134, R146). -/

/-- The parts of a value stored one after another. -/
theorem State.lasting_putParts (core : Option Nat) (atHome : Bool) (ps : List (Nat × Nat × Nat)) (s : State) :
    (ps.foldl (fun s (a, n, x) => s.putBytes core a n x atHome) s).lasting =
      { s.lasting with mem := Memory.writeParts s.mem ps } := by
  induction ps generalizing s with
  | nil => rfl
  | cons p r ih =>
    have hp := State.lasting_putBytes s core p.1 p.2.1 p.2.2 atHome
    rw [List.foldl_cons, ih, hp, show (s.putBytes core p.1 p.2.1 p.2.2 atHome).mem = _ from congrArg Lasting.mem hp]
    rfl

/-- What an atomic has done to what lasts: the old value is the current one, and its new value, if it has one, is stored. -/
def AtomicDone (s t : State) (pa n min b cmp old : Nat) (fl : Flags) : Prop :=
  old = Memory.readN s.mem pa n ∧ fl = (atomicNew min (8 * n) old b cmp).2 ∧
    t.lasting = { s.lasting with mem := match (atomicNew min (8 * n) old b cmp).1 with
      | some x => Memory.writeN s.mem pa n x
      | none => s.mem }

section
variable {s u : State} {pa n min b cmp : Nat} {fl : Flags} (hu : u.lasting = s.lasting)
include hu

/-- An atomic that stores its new value. -/
theorem atomicDone_stored {core : Option Nat} {atHome : Bool} {x : Nat} (hn : n ∈ [1, 2, 4, 8])
    (h : atomicNew min (8 * n) (u.current pa n) b cmp = (some x, fl)) :
    AtomicDone s ((pieces pa n x).foldl (fun s (a, n, x) => s.putBytes core a n x atHome) u) pa n min b cmp
      (u.current pa n) fl := by
  have hmem : u.mem = s.mem := congrArg Lasting.mem hu
  exact ⟨by rw [State.current, hmem], by rw [h],
    by rw [h, State.lasting_putParts, Memory.writeParts_pieces _ _ _ _ hn, hu, hmem]⟩

/-- An atomic that stores nothing. -/
theorem atomicDone_kept (h : atomicNew min (8 * n) (u.current pa n) b cmp = (none, fl)) :
    AtomicDone s u pa n min b cmp (u.current pa n) fl :=
  ⟨by rw [State.current, show u.mem = s.mem from congrArg Lasting.mem hu], by rw [h], by rw [h, hu]; rfl⟩
end

/-- An atomic on a word of this device's DRAM (R134, R146). -/
theorem atomicElem_done {s s1 t : State} {c min b cmp pa ow old : Nat} {fl : Flags} {e : Elem} (hn : e.n ∈ [1, 2, 4, 8])
    (hl : s.locate c e = .ok (.phys pa ow) s1) (ho : s1.owns pa = true)
    (h : s.atomicElem c e min b cmp = .ok (old, fl) t) : AtomicDone s t pa e.n min b cmp old fl := by
  have hs1 : s1.lasting = s.lasting := State.lasting_locate hl
  unfold State.atomicElem at h
  rw [hl] at h
  dsimp only [R.bind_ok] at h
  rw [if_pos ho] at h
  obtain ⟨_, s2, h2, h⟩ := R.andThen_eq_ok.1 h
  obtain ⟨_, s3, h3, h⟩ := R.andThen_eq_ok.1 h
  have hs3 : s3.lasting = s.lasting := by
    rw [State.consumes_ok h3, ← hs1]
    split at h2
    · exact State.lasting_peersForStore h2
    · exact State.lasting_peersFirst h2
  split at h
  · have hown : (s3.ownLine (coreOf c) (rowLine pa)).lasting = s.lasting := by rw [State.lasting_ownLine, hs3]
    split at h
    · next hnew => cases h; exact atomicDone_stored hown hn hnew
    · next hnew => cases h; exact atomicDone_kept hown hnew
  · have hreq := (State.lasting_foldl (fun s w => State.lasting_homeRequest s (coreOf c) .atomic (rowLine pa) [w])
      (wordsOf pa e.n) s3).trans hs3
    unfold State.homeAtomic at h
    dsimp only at h
    split at h
    · next hnew => cases h; exact atomicDone_stored hreq hn hnew
    · next hnew => cases h; exact atomicDone_kept hreq hnew

/-- Settles O33: the rows are `satomic`, its table, and what an atomic does to what lasts (`atomicElem_done`). -/
theorem scalarAtomicsReturnAndChangeTheirElement : Obligations.ScalarAtomicsReturnAndChangeTheirElement := by
  unfold Obligations.ScalarAtomicsReturnAndChangeTheirElement
  refine ⟨⟨scalarAtomicRows, acas_spec, fun w old b cmp _ _ _ => atomicNew_table w old b cmp⟩,
    fun s s1 t c min b cmp pa ow old fl e hw hn ha hl ho h => ?_⟩
  obtain ⟨hold, hfl, hlast⟩ := atomicElem_done (List.mem_cons_of_mem _ (List.mem_cons_of_mem _ hn)) hl ho h
  have hmem : t.mem = _ := congrArg Lasting.mem hlast
  obtain ⟨hctxs, -, hjobs, hkeys, hcounters, -⟩ := State.rest_fields (congrArg Lasting.rest hlast :)
  refine ⟨hold, hfl, ?_, fun a hout => ?_, hctxs, hjobs, hkeys, hcounters⟩
  · rw [hmem]
    split
    · next x hx => rw [hx, Memory.readN_writeN _ _ _ _ hw, Nat.pow_mul]; rfl
    · next hx =>
      rw [hx, Option.getD_none, hold, Nat.pow_mul]
      exact (Nat.mod_eq_of_lt (Memory.readN_lt _ _ _)).symm
  · rw [hmem]
    dsimp only
    split
    · exact Memory.read_writeN_outside _ _ _ _ _ hw hout
    · rfl

end Sys2Proof.Machine
end

section
/-! The statement about the far fence and the hand-over of keys (R129, R159, R160, R295 to R297, R299). -/

namespace Sys2Proof.Machine

/-- An acquire leaves who issues. -/
@[simp] theorem State.acquire_me (s : State) (core scope : Nat) : (s.acquire core scope).me = s.me := by
  unfold State.me
  rw [State.acquire_cur]

/-- `fence.far` acquires at its scope and serialises the cores of it (R160, R299). -/
theorem fenceFar_spec (g : Gates) (o : FormC) (s s1 : State) (hr : Ready (.fenceFar g o) s s1)
    (hi : s1.myCtx.imprecise = []) :
    exec (.fenceFar g o) s = .next (finished (.fenceFar g o) s1
      ((scopeCores (coreOf s1.me) o.code.toNat).foldl State.serialise (s1.acquire (coreOf s1.me) o.code.toNat))) := by
  show execFenceFar g o s = _
  refine issue_ok hr ?_
  rw [State.syncPoint_none _ hi, R.andThen_ok]
  dsimp only
  rw [State.acquire_me]

/-! What an acquire drops (R129, R147, R158). -/

/-- A U line that an acquire leaves has registered words alone (R129). -/
theorem pruneU_dropped {l k : L1Line} (h : pruneU (if l.st == .U then { l with copies := [] } else l) = some k)
    (hu : k.st = .U) : k.copies = [] ∧ k.regs ≠ [] := by
  by_cases hl : l.st = .U
  · rw [if_pos (beq_iff_eq.2 hl)] at h
    unfold pruneU at h
    split at h
    · cases h
    · next hp =>
      cases h
      exact ⟨rfl, by simpa [hl] using hp⟩
  · rw [if_neg (by simpa using hl), pruneU, if_neg (by simp [hl])] at h
    cases h
    exact absurd hu hl

/-- An acquire drops the unregistered words of the core's U lines, from scope 2 on (R129, R158). -/
theorem acquire_spec (s : State) (core scope : Nat) : (scope < 2 → s.acquire core scope = s.refetch) ∧
    (2 ≤ scope → ∀ l ∈ ((s.acquire core scope).core core).l1, l.st = .U → l.copies = [] ∧ l.regs ≠ []) ∧
    (s.acquire core scope).mem = s.mem ∧ (s.acquire core scope).ctxs = s.ctxs ∧
    (∀ k, k ≠ core → (s.acquire core scope).core k = s.refetch.core k) ∧
    ∀ k, { s.refetch.core k with held := [] } = { s.core k with held := [] } := by
  obtain ⟨cs, rs, hcores⟩ := s.acquire_cores core scope
  refine ⟨fun h => if_pos h, fun h l hl hu => ?_, by rw [hcores], by rw [hcores], fun k hk => ?_, fun k => ?_⟩
  · rw [State.acquire] at hl
    rw [if_neg (Nat.not_lt_of_le h), State.core_modCore_same] at hl
    obtain ⟨l0, _, hl0⟩ := List.mem_filterMap.1 hl
    exact pruneU_dropped hl0 hu
  · unfold State.acquire
    dsimp only
    split
    · rfl
    · rw [State.core_modCore_ne _ _ _ _ hk]
      rfl
  · unfold State.refetch
    split
    · by_cases hk : k = coreOf s.me
      · rw [hk, State.core_modCore_same]
      · rw [State.core_modCore_ne _ _ _ _ hk]
    · rfl

/-! `racq` (R159, R296). -/

/-- A scalar write changes a context. -/
theorem State.setS_ctxs (s : State) (k : SReg) (v : Word) : ∃ cs, s.setS k v = { s with ctxs := cs } := by
  unfold State.setS
  split <;> exact ⟨_, rfl⟩

/-- A scalar write leaves the key rack. -/
@[simp] theorem State.setS_key (s : State) (k : SReg) (v : Word) (n : Nat) : (s.setS k v).key n = s.key n := by
  obtain ⟨cs, h⟩ := s.setS_ctxs k v
  rw [h]
  rfl

/-- The lines of a range that a core drops leave what lasts. -/
@[simp] theorem State.lasting_dropRange (s : State) (core lo hi : Nat) : (s.dropRange core lo hi).lasting = s.lasting :=
  lasting_foldl (fun s k => lasting_dropLine s core k) _ _

/-- The lines of a key's ranges that a core drops leave the key rack. -/
@[simp] theorem State.key_dropRanges (s : State) (core n : Nat) (rs : List (Nat × Nat)) :
    (rs.foldl (fun s r => s.dropRange core r.1 r.2) s).key n = s.key n := by
  have hlast : (rs.foldl (fun s r => s.dropRange core r.1 r.2) s).lasting = s.lasting :=
    State.lasting_foldl (f := fun s (r : Nat × Nat) => s.dropRange core r.1 r.2) (fun s r => lasting_dropRange s core r.1 r.2) rs s
  exact congrArg (fun v : Lasting => aget Key.zero v.keys n) hlast

/-- The device of a key number of 20 bits (R295). -/
theorem keyDevice_eq {n : Word} (h : n.toNat < 2 ^ 20) : keyDevice n = n.toNat / 4096 := by
  unfold keyDevice
  exact Nat.mod_eq_of_lt (by omega)

/-- What `racq` raises, waits for and does, for a key of this device (R159, R296). -/
theorem racq_spec (g : Gates) (o : FormA) (s s1 s2 s3 : State) (n : Word) (e : Nat) (hr : Ready (.racq g o) s s1)
    (hn : s1.rdS o.sx = .ok n s2) (hd : s2.dstReady o.sy = .ok ⟨⟩ s3) (hi : s3.myCtx.imprecise = [])
    (he : e = n.toNat % 4096) :
    (2 ^ 20 ≤ n.toNat → exec (.racq g o) s = .next (s3.dropAnswers.takeCause 0x8A 0)) ∧
    (n.toNat < 2 ^ 20 → n.toNat / 4096 = s3.dev →
      (s3.keyOk e = false → exec (.racq g o) s = .next (s3.dropAnswers.takeCause 0x8A 0)) ∧
      ∀ s4 widest, s3.keyOk e = true → s3.admitted ((s3.key e).base.toNat * 128) = .ok widest s4 →
        (widest < (s4.key e).scope.toNat → exec (.racq g o) s = .next (s4.dropAnswers.takeCause 0x25 0)) ∧
        ((s4.key e).scope.toNat ≤ widest → s4.holdsKey e = true →
          exec (.racq g o) s = .next (s4.dropAnswers.takeCause 0x89 0)) ∧
        ((s4.key e).scope.toNat ≤ widest → s4.holdsKey e = false → (s4.key e).freeFor s4.me = false →
          exec (.racq g o) s = .next ((s4.modKey e (Key.join s4.me)).park (.key e))) ∧
        ∀ t, (s4.key e).scope.toNat ≤ widest → s4.holdsKey e = false → (s4.key e).freeFor s4.me = true →
          t = (s4.modKey e (Key.take s4.me)).setS o.sy (((s4.key e).tenure + 1).setWidth 64) →
          exec (.racq g o) s = .next (finished (.racq g o) s1
            (((t.keyRanges (t.key e)).foldl (fun s r => s.dropRange (coreOf s3.me) r.1 r.2) t).acquire (coreOf s3.me)
              (t.key e).scope.toNat))) := by
  subst he
  have sources : ∀ k : Word → State → R PUnit,
      ((s1.rdS o.sx).bind fun n s => (s.dstReady o.sy).andThen fun s => s.syncPoint.andThen fun s => k n s) = k n s3 := by
    intro k
    rw [hn, R.bind_ok, hd, R.andThen_ok, State.syncPoint_none _ hi, R.andThen_ok]
  refine ⟨fun hbig => issue_trap hr ((sources _).trans (if_pos hbig)), fun hlt hdev => ?_⟩
  have here : (keyDevice n == s3.dev) = true := by rw [keyDevice_eq hlt, hdev, beq_self_eq_true]
  refine ⟨fun hko => issue_trap hr ((sources _).trans ?_), fun s4 widest hko hadm => ⟨fun hwide => issue_trap hr
    ((sources _).trans ?_), fun hsc hh => issue_trap hr ((sources _).trans ?_), fun hsc hh hf => issue_stall hr
    ((sources _).trans ?_), fun t hsc hh hf ht => issue_ok hr ((sources _).trans ?_)⟩⟩
  · simp only [if_neg (Nat.not_le_of_lt hlt), here, if_true, keyEntry, hko, Bool.not_false]
  · simp only [if_neg (Nat.not_le_of_lt hlt), here, if_true, keyEntry, hko, Bool.not_true, Bool.false_eq_true, if_false, hadm,
      R.bind_ok, gt_iff_lt, if_pos hwide]
  · simp only [if_neg (Nat.not_le_of_lt hlt), here, if_true, keyEntry, hko, Bool.not_true, Bool.false_eq_true, if_false, hadm,
      R.bind_ok, gt_iff_lt, if_neg (Nat.not_lt_of_le hsc), hh]
  · simp only [if_neg (Nat.not_le_of_lt hlt), here, if_true, keyEntry, hko, Bool.not_true, Bool.false_eq_true, if_false, hadm,
      R.bind_ok, gt_iff_lt, if_neg (Nat.not_lt_of_le hsc), hh, hf]
  · subst ht
    simp only [if_neg (Nat.not_le_of_lt hlt), here, if_true, keyEntry, hko, Bool.not_true, Bool.false_eq_true, if_false, hadm,
      R.bind_ok, gt_iff_lt, if_neg (Nat.not_lt_of_le hsc), hh, hf, State.setS_key, State.key_modKey_same, State.key_dropRanges]
    rfl

/-! `rrel` (R159, R297). -/

/-- What `rrel` raises and does, for a key of this device (R159, R297). -/
theorem rrel_spec (g : Gates) (o : FormA) (s s1 s2 : State) (n : Word) (e : Nat) (hr : Ready (.rrel g o) s s1)
    (hn : s1.rdS o.sx = .ok n s2) (he : e = n.toNat % 4096) :
    (2 ^ 20 ≤ n.toNat → exec (.rrel g o) s = .next (s2.dropAnswers.takeCause 0x8A 0)) ∧
    (n.toNat < 2 ^ 20 → n.toNat / 4096 = s2.dev → s2.keyOk e = true →
      (s2.holdsKey e = false → exec (.rrel g o) s = .next (s2.dropAnswers.takeCause 0x89 0)) ∧
      (s2.holdsKey e = true → s2.myCtx.imprecise = [] →
        exec (.rrel g o) s = .next (finished (.rrel g o) s1 (s2.giveKey e (coreOf s2.me))))) := by
  subst he
  have source : ∀ k : Word → State → R PUnit, ((s1.rdS o.sx).bind fun n s => k n s) = k n s2 := by
    intro k
    rw [hn, R.bind_ok]
  refine ⟨fun hbig => issue_trap hr ((source _).trans (if_pos hbig)), fun hlt hdev hko => ?_⟩
  have here : (keyDevice n == s2.dev) = true := by rw [keyDevice_eq hlt, hdev, beq_self_eq_true]
  refine ⟨fun hh => issue_trap hr ((source _).trans ?_), fun hh hi => issue_ok hr ((source _).trans ?_)⟩
  · simp only [if_neg (Nat.not_le_of_lt hlt), here, if_true, keyEntry, hko, Bool.not_true, Bool.false_eq_true, if_false, hh,
      Bool.not_false]
  · simp only [if_neg (Nat.not_le_of_lt hlt), here, if_true, keyEntry, hko, Bool.not_true, Bool.false_eq_true, if_false, hh,
      State.syncPoint_none _ hi, R.andThen_ok]

/-- Settles O35: the fence, the acquire, and the two instructions of the hand-over. -/
theorem fencesAndKeysHandOver : Obligations.FencesAndKeysHandOver := by
  unfold Obligations.FencesAndKeysHandOver
  exact ⟨fenceFar_spec, acquire_spec, racq_spec, rrel_spec⟩

end Sys2Proof.Machine
end

section
/-! The statement about barriers and work counters (R39, R40, R305 to R310). -/

namespace Sys2Proof.Machine

/-! Barriers (R305, R306). -/

/-- An arrival, and a drop, by themselves in a cycle (R306). -/
theorem Barrier.cycle_one (b : Barrier) (h : b.arr < 2 ^ 32) :
    b.cycle 1 0 = (if b.exp ≤ (b.arr + 1) % 2 ^ 32 then ⟨(b.ph + 1) % 2 ^ 64, 0, b.exp⟩
      else ⟨b.ph, (b.arr + 1) % 2 ^ 32, b.exp⟩, []) ∧
    b.cycle 0 1 = (if b.exp = 0 then (b, [true]) else if b.exp - 1 ≤ b.arr then (⟨(b.ph + 1) % 2 ^ 64, 0, b.exp - 1⟩, [false])
      else (⟨b.ph, b.arr, b.exp - 1⟩, [false])) := by
  have hmod : b.arr % 2 ^ 32 = b.arr := Nat.mod_eq_of_lt h
  refine ⟨?_, ?_⟩
  · simp [Barrier.cycle, Barrier.drops]
  · by_cases he : b.exp = 0
    · simp only [Barrier.cycle, Barrier.drops, if_pos he, Nat.add_zero, hmod]
      rfl
    · simp only [Barrier.cycle, Barrier.drops, if_neg he, Barrier.drop, Nat.add_zero, hmod]
      split <;> simp_all

/-- A barrier in the scratchpad window raises 0x21 whatever the scope (R305). -/
theorem State.barrierAt_window (g : Gates) (s : State) (va : Word) (k : Access) (scp : Scope) (ha : va.toNat % 16 = 0)
    (hge : Config.spWindow ≤ va.toNat) (hlt : va.toNat < 2 ^ 57) : s.barrierAt g va k scp = .trap 0x21 va s :=
  if_pos (by rw [decide_eq_true ha, decide_eq_true hge, decide_eq_true hlt]; rfl)

/-- Finding a barrier leaves what lasts (R305). -/
theorem State.lasting_barrierAt {g : Gates} {s t : State} {va : Word} {k : Access} {scp : Scope} {pa : Nat}
    (h : s.barrierAt g va k scp = .ok pa t) : t.lasting = s.lasting := by
  unfold State.barrierAt at h
  split at h
  · cases h
  · obtain ⟨d, s1, h1, h⟩ := R.bind_eq_ok.1 h
    cases d with
    | pad _ _ _ _ => cases h
    | phys _ _ => cases h; exact State.lasting_locate h1

/-- The event of a row of R306 on a barrier of this device. -/
def BarrierEventDone (mk : Gates → FormS → Instr) (arrivals drops : Nat) : Prop :=
  ∀ (g : Gates) (o : FormS) (s s1 s2 s3 s4 s5 s6 : State) (b va : Word) (pa : Nat), Ready (mk g o) s s1 →
    s1.rdS o.sy = .ok b s2 → s2.dstReady o.sx = .ok ⟨⟩ s3 → s3.myCtx.imprecise = [] → va = b + o.off.signExtend 64 →
    s3.barrierAt g va .atomic o.scp = .ok pa s4 → s4.owns pa = true → s4.barrierPeers .atomic pa va = .ok ⟨⟩ s5 →
    (R.each (wordsOf pa 16) s5 fun w s => s.consume w va) = .ok ⟨⟩ s6 →
    (true ∈ ((s6.barrier pa).cycle arrivals drops).2 →
      exec (mk g o) s = .next (s6.dropAnswers.takeCause 0x86 0)) ∧
    (true ∉ ((s6.barrier pa).cycle arrivals drops).2 → exec (mk g o) s = .next (finished (mk g o) s1
      ((s6.putBarrier (some (coreOf s6.me)) pa ((s6.barrier pa).cycle arrivals drops).1).setS o.sx
        (BitVec.ofNat 64 (s6.barrier pa).ph))))

/-- A drop of a cycle underflows. -/
theorem any_id_iff (l : List Bool) : l.any id = true ↔ true ∈ l := by simp

/-- An instruction whose meaning is `arrive` is such an event. -/
theorem barrierEventDone_of_arrive {mk : Gates → FormS → Instr} (drop : Bool)
    (hx : ∀ g o s, exec (mk g o) s = issue (mk g o) s fun s => s.arrive g o drop) :
    BarrierEventDone mk (if drop then 0 else 1) (if drop then 1 else 0) := by
  intro g o s s1 s2 s3 s4 s5 s6 b va pa hr hb hd hi hva hat hown hpeers huse
  subst hva
  have hme : s3.me = s6.me := by
    have h4 : s4.lasting = s3.lasting := State.lasting_barrierAt hat
    have h5 : s5.lasting = s4.lasting := State.lasting_peersFirst hpeers
    rw [State.consumes_ok huse]
    exact (congrArg (fun v : Lasting => v.cur.party.ctx) (h5.trans h4)).symm
  rw [hx]
  unfold State.arrive
  refine ⟨fun hu => issue_trap hr ?_, fun hu => issue_ok hr ?_⟩
  · simp only [hb, R.bind_ok, hd, R.andThen_ok, State.syncPoint_none _ hi, formAddr, hat, hown, if_true, hpeers, huse,
      (any_id_iff _).2 hu]
  · simp only [hb, R.bind_ok, hd, R.andThen_ok, State.syncPoint_none _ hi, formAddr, hat, hown, if_true, hpeers, huse,
      if_neg (mt (any_id_iff _).1 hu), hme]

/-- `barwait` on a barrier of this device (R306). -/
theorem barwait_spec (g : Gates) (o : FormS) (s s1 s2 s3 s4 s5 s6 : State) (b v va : Word) (pa : Nat)
    (hr : Ready (.barwait g o) s s1) (hb : s1.rdS o.sy = .ok b s2) (hv : s2.rdS o.sx = .ok v s3)
    (hi : s3.myCtx.imprecise = []) (hva : va = b + o.off.signExtend 64) (hat : s3.barrierAt g va .load o.scp = .ok pa s4)
    (hown : s4.owns pa = true) (hpeers : s4.barrierPeers .untrackedLoad pa va = .ok ⟨⟩ s5)
    (huse : (R.each (wordsOf pa 16) s5 fun w s => s.consume w va) = .ok ⟨⟩ s6) :
    (v.toNat < (s6.barrier pa).ph → exec (.barwait g o) s = .next (finished (.barwait g o) s1
      (s6.acquire (coreOf s6.me) o.scp.toNat))) ∧
    ((s6.barrier pa).ph ≤ v.toNat → exec (.barwait g o) s = .next (s6.park (.barrier (pa + 8) v.toNat))) := by
  subst hva
  refine ⟨fun hlt => issue_ok hr ?_, fun hle => issue_stall hr ?_⟩
  · simp only [hb, hv, R.bind_ok, R.andThen_ok, State.syncPoint_none _ hi, formAddr, hat, hown, if_true, hpeers, huse,
      if_pos hlt]
  · simp only [hb, hv, R.bind_ok, R.andThen_ok, State.syncPoint_none _ hi, formAddr, hat, hown, if_true, hpeers, huse,
      if_neg (Nat.not_lt_of_le hle)]

/-- BARRIER_EVENTS_APPLY applies the events of one cycle together (R306). -/
theorem barrierEventsApply_spec (job : Nat) (addr : Word) (evs : List BarrierEvent) (s t : State) (j : Job) (pa : Nat) (p : Page)
    (old : Barrier) (r : Barrier × List Bool) (hj : s.jobAt job = some j) (hx : s.xlate j.root addr.toNat = some (pa, p))
    (ha : addr.toNat % 16 = 0) (hown : s.owns pa = true) (hold : old = s.barrier pa)
    (hr : r = old.cycle (evs.filter fun e => !e.drop).length (evs.filter fun e => e.drop).length)
    (ht : t = (evs.filter fun e => !e.drop).foldl (fun s e => s.barrierResult old.ph e false) (s.putBarrier none pa r.1)) :
    exec (.barrierEventsApply job addr evs) s =
      .next (((evs.filter fun e => e.drop).zip r.2).foldl (fun s x => s.barrierResult old.ph x.1 x.2) t) := by
  subst hold hr ht
  show execBarrierEventsApply job addr evs s = _
  unfold execBarrierEventsApply
  simp only [hj, Option.bind_some, hx, ha, hown, bne_self_eq_false, Bool.not_true, Bool.or_self, Bool.false_eq_true, if_false]

/-! Work counters (R308 to R310). -/

/-- A handle that names no counter the context may use raises 0x88 (R308). -/
theorem State.namedCounter_none {s s2 : State} {o : FormS} {b : Word} {k : Word → Counter → State → R PUnit}
    (hb : s.rdS o.sy = .ok b s2) (hc : s2.jobCounter s2.myJobSlot (b + o.off.signExtend 64) = none) :
    s.namedCounter o k = .trap 0x88 0 s2 := by
  unfold State.namedCounter
  simp only [hb, R.bind_ok, formAddr, hc]

/-- The counter that an instruction names (R308). -/
theorem State.namedCounter_some {s s2 : State} {o : FormS} {b : Word} {c : Counter} {k : Word → Counter → State → R PUnit}
    (hb : s.rdS o.sy = .ok b s2) (hc : s2.jobCounter s2.myJobSlot (b + o.off.signExtend 64) = some c) :
    s.namedCounter o k = k (b + o.off.signExtend 64) c s2 := by
  unfold State.namedCounter
  simp only [hb, R.bind_ok, formAddr, hc]

/-- The meaning of an instruction on a counter of which a handle names none raises 0x88 (R308). -/
theorem counterInstructions_unnamed : ∀ i ∈ ([.wcarr, .wcwait, .wccancel] : List (Gates → FormS → Instr)), ∀ (g : Gates)
    (o : FormS) (s s1 s2 : State) (b : Word), Ready (i g o) s s1 → s1.rdS o.sy = .ok b s2 →
    s2.jobCounter s2.myJobSlot (b + o.off.signExtend 64) = none →
    exec (i g o) s = .next (s2.dropAnswers.takeCause 0x88 0) := by
  intro i hi g o s s1 s2 b hr hb hc
  simp only [List.mem_cons, List.not_mem_nil, or_false] at hi
  rcases hi with rfl | rfl | rfl
  · exact issue_trap hr (State.namedCounter_none hb hc)
  · exact issue_trap hr (State.namedCounter_none hb hc)
  · show execWccancel g o s = _
    unfold execWccancel
    rw [issueR_ready _ _ hr, State.namedCounter_none hb hc]
    rfl

/-- `wcarr` (R309). -/
theorem wcarr_spec {g : Gates} {o : FormS} {s s1 s2 s3 : State} {b n : Word} {c : Counter} (hr : Ready (.wcarr g o) s s1)
    (hb : s1.rdS o.sy = .ok b s2) (hc : s2.jobCounter s2.myJobSlot (b + o.off.signExtend 64) = some c)
    (hk : hKind (b + o.off.signExtend 64) = 6) (hn : s2.rdS o.sx = .ok n s3) :
    (c.status ≠ .running → exec (.wcarr g o) s = .next (finished (.wcarr g o) s1 s3)) ∧
    (c.status = .running → c.value < n.toNat → exec (.wcarr g o) s = .next (s3.dropAnswers.takeCause 0x87 0)) ∧
    (c.status = .running → n.toNat ≤ c.value → s3.myCtx.imprecise = [] →
      exec (.wcarr g o) s = .next (finished (.wcarr g o) s1 (s3.modCounter (b + o.off.signExtend 64) fun c => { c with
        value := c.value - n.toNat, status := if c.value - n.toNat = 0 then .complete else c.status }))) := by
  refine ⟨fun hs => issue_ok hr ((State.namedCounter_some hb hc).trans ?_), fun hs hlt => issue_trap hr
    ((State.namedCounter_some hb hc).trans ?_), fun hs hle hi => issue_ok hr ((State.namedCounter_some hb hc).trans ?_)⟩
  · simp only [hk, bne_self_eq_false, Bool.false_eq_true, if_false, hn, R.bind_ok, bne_iff_ne.2 hs, if_true]
  · simp only [hk, bne_self_eq_false, Bool.false_eq_true, if_false, hn, R.bind_ok, hs, gt_iff_lt, if_pos hlt]
  · simp only [hk, bne_self_eq_false, Bool.false_eq_true, if_false, hn, R.bind_ok, hs, gt_iff_lt,
      if_neg (Nat.not_lt_of_le hle), State.syncPoint_none _ hi, R.andThen_ok]
    rfl

/-- What a wait on an ended counter writes (R310). -/
theorem statusWord_eq (c : CStatus) : statusWord c = if c = .cancelled then 1 else 0 := by cases c <;> rfl

/-- `wcwait` (R310). -/
theorem wcwait_spec {g : Gates} {o : FormS} {s s1 s2 s3 : State} {b : Word} {c : Counter} (hr : Ready (.wcwait g o) s s1)
    (hb : s1.rdS o.sy = .ok b s2) (hc : s2.jobCounter s2.myJobSlot (b + o.off.signExtend 64) = some c)
    (hd : s2.dstReady o.sx = .ok ⟨⟩ s3) :
    (s2.contains s2.me (b + o.off.signExtend 64) = true → exec (.wcwait g o) s = .next (s2.dropAnswers.takeCause 0x88 0)) ∧
    (s2.contains s2.me (b + o.off.signExtend 64) = false → s3.myCtx.imprecise = [] →
      (c.status = .running → exec (.wcwait g o) s = .next (s3.park (.counter (b + o.off.signExtend 64)))) ∧
      (c.status ≠ .running → exec (.wcwait g o) s = .next (finished (.wcwait g o) s1
        ((s3.setS o.sx (if c.status = .cancelled then 1 else 0)).acquire (coreOf s3.me) o.scp.toNat)))) := by
  refine ⟨fun hin => issue_trap hr ((State.namedCounter_some hb hc).trans (if_pos hin)), fun hout hi => ⟨fun hs => issue_stall hr
    ((State.namedCounter_some hb hc).trans ?_), fun hs => issue_ok hr ((State.namedCounter_some hb hc).trans ?_)⟩⟩
  · simp only [hout, Bool.false_eq_true, if_false, hd, State.syncPoint_none _ hi, R.andThen_ok, hs, beq_self_eq_true, if_true]
  · simp only [hout, Bool.false_eq_true, if_false, hd, State.syncPoint_none _ hi, R.andThen_ok, beq_eq_false_iff_ne.2 hs,
      statusWord_eq]

/-- An instruction that goes on, and the answers that it has used, change no slot. -/
theorem State.slot_advance (s : State) (c : Nat) : s.dropAnswers.advance.slot c = s.slot c := by
  unfold State.advance
  dsimp only
  split <;> rfl

/-- `wccancel` (R39, R310). -/
theorem wccancel_spec {g : Gates} {o : FormS} {s s1 s2 s3 t : State} {b : Word} {c : Counter} {n : Nat}
    (hb : s1.rdS o.sy = .ok b s2) (hc : s2.jobCounter s2.myJobSlot (b + o.off.signExtend 64) = some c)
    (hr : Ready (.wccancel g o) s s1) (hd : s2.dstReady o.sx = .ok ⟨⟩ s3)
    (hn : s3.cancelLevel (b + o.off.signExtend 64) = (n, t)) :
    (slotState (t.slot s3.me) = 1 →
      slotState ((finished (.wccancel g o) s1 (t.setS o.sx (BitVec.ofNat 64 n))).slot s.me) = 1 →
      exec (.wccancel g o) s = .next (finished (.wccancel g o) s1 (t.setS o.sx (BitVec.ofNat 64 n)))) ∧
    (slotState (s3.slot s3.me) = 1 → slotState (t.slot s3.me) ≠ 1 → slotState (s.slot s.me) = 1 →
      slotState (t.slot s.me) ≠ 1 → ticketOf (.wccancel g o) s1 = none → exec (.wccancel g o) s = .next t) := by
  have hfin : ∀ u, finished (.wccancel g o) s1 u = (u.postedBy (ticketOf (.wccancel g o) s1) false).dropAnswers.advance := by
    intro u
    unfold finished finishedBy State.postedBy
    cases ticketOf (.wccancel g o) s1 <;> rfl
  show (_ → _ → execWccancel g o s = _) ∧ (_ → _ → _ → _ → _ → execWccancel g o s = _)
  unfold execWccancel
  simp only [issueR_ready _ _ hr, State.namedCounter_some hb hc, hd, R.andThen_ok, hn]
  refine ⟨fun hlive hstay => ?_, fun h3 hend hs hgone htk => ?_⟩
  · rw [hfin, State.slot_advance] at hstay
    simp only [hlive, bne_self_eq_false, Bool.and_false, Bool.false_eq_true, if_false, R.andThen_ok, State.settleLive]
    rw [if_neg, hfin]
    · rfl
    · simp only [w64, hstay, bne_self_eq_false, Bool.and_false, Bool.false_eq_true, not_false_eq_true]
  · simp only [h3, bne_iff_ne.2 hend, beq_self_eq_true, Bool.and_self, if_true, R.andThen_ok, State.settleLive, htk,
      State.postedBy, hs, bne_iff_ne.2 hgone]

/-- Settles O36: barriers by their cycle, counters by the instruction. -/
theorem barriersAndWorkCountersCount : Obligations.BarriersAndWorkCountersCount := by
  unfold Obligations.BarriersAndWorkCountersCount
  refine ⟨⟨Barrier.cycle_one, State.barrierAt_window, ?_, barwait_spec, barrierEventsApply_spec⟩, counterInstructions_unnamed,
    fun g o s s1 s2 s3 b h c hb hh hc => ?_⟩
  · show ∀ row ∈ (_ : List ((Gates → FormS → Instr) × Nat × Nat)), BarrierEventDone row.1 row.2.1 row.2.2
    simp only [List.forall_mem_cons, List.not_mem_nil, false_implies, implies_true, and_true]
    exact ⟨barrierEventDone_of_arrive false fun _ _ _ => rfl, barrierEventDone_of_arrive true fun _ _ _ => rfl⟩
  · subst hh
    exact ⟨fun n hr hk hn => wcarr_spec hr hb hc hk hn, fun hr hd => wcwait_spec hr hb hc hd,
      fun n t hr hd hn => wccancel_spec hb hc hr hd hn⟩

end Sys2Proof.Machine
end

section
/-! The statement about streams (R116, R117, R284 to R287). -/

namespace Sys2Proof.Machine

/-! What a bind does (R285, R286). -/
section
variable {s : State} {v : VNum} {same : Stream → Bool} {tag : Stream → Tag} {width : Tag → Bool} {make : State → R PUnit}
variable (hv : v.toNat % s.myStrip.grp = 0)
include hv

/-- A bind of a register with no stream makes one (R284). -/
theorem State.bindStream_new (hb : s.myCtx.boundStream v = none) (hp : s.myCtx.parkedStream v = none) :
    s.bindStream v same tag width make = make s := by
  unfold State.bindStream
  simp only [hv, bne_self_eq_false, Bool.false_eq_true, if_false, hb, hp]

/-- A later strip's execution of the same bind is attached (R285). -/
theorem State.bindStream_attach {st : Stream} (hb : s.myCtx.boundStream v = some st) (hpc : st.pc = s.cur.pc)
    (ha : s.myStrip.stripb ∉ st.attached) : s.bindStream v same tag width make =
      .ok ⟨⟩ ((s.modCtx s.me fun x => x.modStream v (Stream.attach s.myStrip.stripb)).modMyStrip (Strip.forget v)) := by
  unfold State.bindStream
  simp only [hv, bne_self_eq_false, Bool.false_eq_true, if_false, hb]
  rw [if_pos (by simp [hpc, ha])]

/-- Another bind of a register whose stream still has strips, or has been given up, raises 0x0D (R285). -/
theorem State.bindStream_bound {st : Stream} (hb : s.myCtx.boundStream v = some st)
    (hother : st.pc ≠ s.cur.pc ∨ s.myStrip.stripb ∈ st.attached) (hbusy : st.unbound = true ∨ st.attached ≠ []) :
    s.bindStream v same tag width make = .trap 0x0D 0 s := by
  unfold State.bindStream
  simp only [hv, bne_self_eq_false, Bool.false_eq_true, if_false, hb]
  have hidle : st.idle = false := by
    rcases hbusy with h | h <;> simp [Stream.idle, h]
  rw [if_neg (by rcases hother with h | h <;> simp [h]), hidle, if_neg Bool.false_ne_true]

/-- Another bind of a register whose stream's strips have all ended ends that stream and makes one (R285). -/
theorem State.bindStream_idle {st : Stream} (hb : s.myCtx.boundStream v = some st) (hpc : st.pc ≠ s.cur.pc)
    (hu : st.unbound = false) (ha : st.attached = []) :
    s.bindStream v same tag width make = make (s.endStreams s.me (· == st)) := by
  have hparked : st.parked = false := by
    have h := List.find?_some hb
    simp only [Bool.and_eq_true, Bool.not_eq_true'] at h
    exact h.2
  have hidle : st.idle = true := by simp [Stream.idle, hparked, hu, ha]
  unfold State.bindStream
  simp only [hv, bne_self_eq_false, Bool.false_eq_true, if_false, hb]
  rw [if_neg (by simp [hpc]), hidle, if_pos rfl]

/-- A parked stream of the same kind is resumed (R286). -/
theorem State.bindStream_resume {st : Stream} (hb : s.myCtx.boundStream v = none) (hp : s.myCtx.parkedStream v = some st)
    (hs : same st = true) (hw : width (tag st) = true) : s.bindStream v same tag width make =
      .ok ⟨⟩ ((s.modCtx s.me fun x => x.modStream v (Stream.resume s.myStrip.stripb s.cur.pc (tag st))).modMyStrip
        (Strip.forget v)) := by
  unfold State.bindStream
  simp only [hv, bne_self_eq_false, Bool.false_eq_true, if_false, hb, hp, hs, if_true, hw, Bool.not_true]
end

/-! The three binds (R284). -/

/-- `vbind` makes a walk over the tensor of a shape record (R284). -/
theorem vbind_new (g : Gates) (o : FormV) (s s1 s2 s3 : State) (h : Shape) (hr : Ready (.vbind g o) s s1)
    (hv : o.vd.toNat % s1.myStrip.grp = 0) (hb : s1.myCtx.boundStream o.vd = none) (hp : s1.myCtx.parkedStream o.vd = none)
    (ht : s1.takeGroups [o.va.toNat] = .ok ⟨⟩ s2) (htag : (s2.myStrip.reg o.va.toNat).tag = 25)
    (hpoison : s2.myStrip.poisonedAt [o.va.toNat] 8 (List.range 18) = false)
    (hc : Shape.check (s2.myStrip.record o.va.toNat) = .ok h) (hw : tensorBits (tagFmt h.ftag) = 8 * s1.myStrip.ewB)
    (ho : h.orientOk false = true ∨ h.orientOk true = true)
    (hn : s2.newStream o.vd .walk h.ftag (s2.myStrip.record o.va.toNat) = .ok ⟨⟩ s3) :
    exec (.vbind g o) s = .next (finished (.vbind g o) s1 s3) := by
  have horient : (!h.orientOk false && !h.orientOk true) = false := by
    rcases ho with ho | ho <;> simp [ho]
  refine issue_ok hr ((State.bindStream_new hv hb hp).trans ?_)
  simp only [ht, R.andThen_ok, State.shapeIn_ok _ htag hpoison hc, hw, bne_self_eq_false, Bool.false_eq_true, if_false, horient,
    hn]
  rfl

/-- `vbindz` makes a stream of the context's Satchel channel (R284). -/
theorem vbindz_new (g : Gates) (o : FormV) (s s1 s2 : State) (hr : Ready (.vbindz g o) s s1)
    (hv : o.vd.toNat % s1.myStrip.grp = 0) (hb : s1.myCtx.boundStream o.vd = none) (hp : s1.myCtx.parkedStream o.vd = none)
    (hw : s1.myStrip.ewB = 1)
    (hn : (s1.modCtx s1.me fun x => { x with satchelTag := none }).newStream o.vd .satchel s1.myStrip.fmt [] = .ok ⟨⟩ s2) :
    exec (.vbindz g o) s = .next (finished (.vbindz g o) s1 s2) := by
  refine issue_ok hr ((State.bindStream_new hv hb hp).trans ?_)
  simp only [hw, beq_self_eq_true, Bool.not_true, Bool.false_eq_true, if_false, hn]

/-- `vbindn` makes a stream of a receive queue (R284). -/
theorem vbindn_spec (g : Gates) (o : FormV) (s s1 : State) (hr : Ready (.vbindn g o) s s1) :
    (16 ≤ (s1.snapS o.sb).toNat → exec (.vbindn g o) s = .next (s1.dropAnswers.takeCause 0x02 0)) ∧
    ∀ s2, (s1.snapS o.sb).toNat < 16 → o.vd.toNat % s1.myStrip.grp = 0 → s1.myCtx.boundStream o.vd = none →
      s1.myCtx.parkedStream o.vd = none → widthOk (tagFmt (o.sc ++ o.fmt)) s1.myStrip.ewB = true →
      s1.newStream o.vd (.network (s1.snapS o.sb).toNat) (o.sc ++ o.fmt) [] = .ok ⟨⟩ s2 →
      exec (.vbindn g o) s = .next (finished (.vbindn g o) s1 s2) := by
  refine ⟨fun hbig => issue_trap hr (if_pos hbig), fun s2 hlt hv hb hp hw hn => issue_ok hr
    ((if_neg (Nat.not_le_of_lt hlt)).trans ((State.bindStream_new hv hb hp).trans ?_))⟩
  simp only [hw, Bool.not_true, Bool.false_eq_true, if_false, hn]

/-- A bind of a register that has a stream: of the same bind, or of another (R285). -/
theorem binds_bound : ∀ i ∈ ([.vbind, .vbindz] : List (Gates → FormV → Instr)), ∀ (g : Gates) (o : FormV) (s s1 : State)
    (st : Stream), Ready (i g o) s s1 → o.vd.toNat % s1.myStrip.grp = 0 → s1.myCtx.boundStream o.vd = some st →
    (st.pc = s1.cur.pc → s1.myStrip.stripb ∉ st.attached → exec (i g o) s = .next (finished (i g o) s1
      ((s1.modCtx s1.me fun x => x.modStream o.vd (Stream.attach s1.myStrip.stripb)).modMyStrip (Strip.forget o.vd)))) ∧
    (st.pc ≠ s1.cur.pc ∨ s1.myStrip.stripb ∈ st.attached → st.unbound = true ∨ st.attached ≠ [] →
      exec (i g o) s = .next (s1.dropAnswers.takeCause 0x0D 0)) := by
  intro i hi g o s s1 st hr hv hb
  simp only [List.mem_cons, List.not_mem_nil, or_false] at hi
  rcases hi with rfl | rfl
  · exact ⟨fun hpc ha => issue_ok hr (State.bindStream_attach hv hb hpc ha),
      fun hother hbusy => issue_trap hr (State.bindStream_bound hv hb hother hbusy)⟩
  · exact ⟨fun hpc ha => issue_ok hr (State.bindStream_attach hv hb hpc ha),
      fun hother hbusy => issue_trap hr (State.bindStream_bound hv hb hother hbusy)⟩

/-- `vbindz` of a register whose stream's strips have all ended ends that stream (R285). -/
theorem vbindz_idle (g : Gates) (o : FormV) (s s1 s2 e : State) (st : Stream) (hr : Ready (.vbindz g o) s s1)
    (hv : o.vd.toNat % s1.myStrip.grp = 0) (hb : s1.myCtx.boundStream o.vd = some st) (hpc : st.pc ≠ s1.cur.pc)
    (hu : st.unbound = false) (ha : st.attached = []) (hw : s1.myStrip.ewB = 1) (he : e = s1.endStreams s1.me (· == st))
    (hn : (e.modCtx e.me fun x => { x with satchelTag := none }).newStream o.vd .satchel e.myStrip.fmt [] = .ok ⟨⟩ s2) :
    exec (.vbindz g o) s = .next (finished (.vbindz g o) s1 s2) := by
  refine issue_ok hr ((State.bindStream_idle hv hb hpc hu ha).trans ?_)
  rw [← he]
  simp only [hw, beq_self_eq_true, Bool.not_true, Bool.false_eq_true, if_false, hn]

/-- A bind that resumes a parked stream of its own kind, under a condition on its operands, the stream and the width. -/
def Resumes (mk : Gates → FormV → Instr) (cond : FormV → Stream → Nat → Prop) : Prop :=
  ∀ (g : Gates) (o : FormV) (s s1 : State) (st : Stream), Ready (mk g o) s s1 → o.vd.toNat % s1.myStrip.grp = 0 →
    s1.myCtx.boundStream o.vd = none → s1.myCtx.parkedStream o.vd = some st → cond o st s1.myStrip.ewB →
    exec (mk g o) s = .next (finished (mk g o) s1 ((s1.modCtx s1.me fun x => x.modStream o.vd fun u =>
      { u with parked := false, unbound := false, attached := [s1.myStrip.stripb], pc := s1.cur.pc
               tag := st.tag }).modMyStrip (Strip.forget o.vd)))

/-- `vbind` resumes a walk when it names the register itself (R286). -/
theorem vbind_resumes : Resumes .vbind fun o st w => st.kind = .walk ∧ o.va = o.vd ∧ tensorBits (tagFmt st.tag) = 8 * w := by
  intro g o s s1 st hr hv hb hp hc
  obtain ⟨hk, hva, hw⟩ := hc
  exact issue_ok hr (State.bindStream_resume hv hb hp (by simp [hk, hva]) (by simp [hw]))

/-- `vbindz` resumes a stream of the Satchel channel (R286). -/
theorem vbindz_resumes : Resumes .vbindz fun _ st w => st.kind = .satchel ∧ w = 1 := by
  intro g o s s1 st hr hv hb hp hc
  exact issue_ok hr (State.bindStream_resume hv hb hp (by simp [hc.1]) (by simp [hc.2]))

/-! A new stream, and one given up (R284, R285, R287). -/

/-- A context holds at most four streams; a new one has the strip attached (R284, R287). -/
theorem newStream_spec (s : State) (v : VNum) (kind : StreamKind) (tag : Tag) (shape : List Word) (u : State)
    (hu : u = (if 4 ≤ (s.modCtx s.me fun x => x.unpark v.toNat 1).myCtx.streams.length
      then (s.modCtx s.me fun x => x.unpark v.toNat 1).endStreams s.me Stream.idle
      else s.modCtx s.me fun x => x.unpark v.toNat 1)) :
    (4 ≤ u.myCtx.streams.length → s.newStream v kind tag shape = .trap 0x11 0 u) ∧
    (u.myCtx.streams.length < 4 → s.newStream v kind tag shape = .ok ⟨⟩ ((u.modCtx u.me fun x => { x with
      streams := x.streams ++ [⟨v, false, kind, tag, 0, shape, u.cur.pc, [u.myStrip.stripb], false⟩] }).modMyStrip
        (Strip.forget v))) := by
  subst hu
  exact ⟨fun hfull => if_pos hfull, fun hroom => if_neg (Nat.not_le_of_lt hroom)⟩

/-- `vunbind` gives the stream up and marks the elements of the strip's last group (R285, R287). -/
theorem vunbind_spec (g : Gates) (o : FormV) (s s1 : State) (hr : Ready (.vunbind g o) s s1) :
    (s1.myCtx.bound s1.myStrip.stripb o.vd.toNat = none → exec (.vunbind g o) s = .next (s1.dropAnswers.takeCause 0x0D 0)) ∧
    ∀ st last, s1.myCtx.bound s1.myStrip.stripb o.vd.toNat = some st →
      last = ((s1.myStrip.consumed.find? (·.1 == o.vd)).map (·.2)).getD 0 →
      exec (.vunbind g o) s = .next (finished (.vunbind g o) s1
        ((s1.modCtx s1.me fun x => x.modStream o.vd (Stream.giveUp s1.myStrip.stripb)).putBits o.mreg
          (if o.msk = 1 ∧ s1.myStrip.begins = true then (List.range s1.myStrip.vl).map fun p => (p, last.getLsbD p)
           else []) 0)) := by
  refine ⟨fun hb => issue_trap hr ?_, fun st last hb hl => issue_ok hr ?_⟩
  · simp only [hb]
  · subst hl
    simp only [hb, ← beq_iff_eq (a := o.msk), Bool.and_eq_true]

/-- Settles O37: each clause is a case of `bindStream`, of a new stream, or of `vunbind`. -/
theorem streamsAreBoundAndGivenUp : Obligations.StreamsAreBoundAndGivenUp := by
  unfold Obligations.StreamsAreBoundAndGivenUp
  refine ⟨vbind_new, vbindz_new, vbindn_spec, binds_bound, vbindz_idle, ?_, newStream_spec, vunbind_spec⟩
  show ∀ row ∈ (_ : List ((Gates → FormV → Instr) × (FormV → Stream → Nat → Prop))), Resumes row.1 row.2
  simp only [List.forall_mem_cons, List.not_mem_nil, false_implies, implies_true, and_true]
  exact ⟨vbind_resumes, vbindz_resumes⟩

end Sys2Proof.Machine
end

section
/-! The statement about the copies and collectives that enter the copy table (R94, R118, R288 to R293). -/

namespace Sys2Proof.Machine

/-! What `pcopy` and `pcopyz` do with the first operand that is misaligned, and then with the length (R288, R289). -/

/-- The end that `pcopy` and `pcopyz` share: the length, the scope of the post gate, a slot, and the copy (R94, R118, R288). -/
def State.enterCopy (s : State) (kind : CopyKind) (a0 : Nat) (n : Word) (token : SReg) (tk : Option Ticket) : R PUnit :=
  if n.toNat > 2 ^ 36 then .trap 0x26 n s
  else
    match s.beyondScope tk a0 n.toNat with
    | some a => .trap 0x25 a s
    | none =>
        if !s.slotFree then .stall .copySlot s
        else if n = 0 then R.done (s.emptyCopy token tk)
        else R.done (s.startCopy kind token tk)

/-- The clauses about the length, the scope and the slot, for an instruction whose body ends so. -/
theorem enterCopy_clauses {i : Instr} {s s1 t : State} {kind : CopyKind} {a0 : Nat} {n : Word} {token : SReg}
    {body : Option Ticket → State → R PUnit} (hr : Ready i s s1)
    (hb : body (ticketOf i s1) s1 = t.enterCopy kind a0 n token (ticketOf i s1)) :
    (2 ^ 36 < n.toNat → issueOwn i s body = .next (t.dropAnswers.takeCause 0x26 n)) ∧
    (∀ a, n.toNat ≤ 2 ^ 36 → t.beyondScope (ticketOf i s1) a0 n.toNat = some a →
      issueOwn i s body = .next (t.dropAnswers.takeCause 0x25 a)) ∧
    (n.toNat ≤ 2 ^ 36 → t.beyondScope (ticketOf i s1) a0 n.toNat = none →
      (t.slotFree = false → issueOwn i s body = .next (t.park .copySlot)) ∧
      (n = 0 → t.slotFree = true → issueOwn i s body = .next (started i s1 (t.emptyCopy token (ticketOf i s1)))) ∧
      (0 < n.toNat → t.slotFree = true →
        issueOwn i s body = .next (started i s1 (t.startCopy kind token (ticketOf i s1))))) := by
  unfold State.enterCopy at hb
  refine ⟨fun hlong => issueOwn_trap hr (hb.trans (if_pos hlong)), fun a hle ha => issueOwn_trap hr (hb.trans ?_),
    fun hle ha => ⟨fun hf => issueOwn_stall hr (hb.trans ?_), fun hz hf => issueOwn_ok hr (hb.trans ?_),
      fun hpos hf => issueOwn_ok hr (hb.trans ?_)⟩⟩
  · simp only [gt_iff_lt, if_neg (Nat.not_lt_of_le hle), ha]
  · simp only [gt_iff_lt, if_neg (Nat.not_lt_of_le hle), ha, hf, Bool.not_false, if_true]
  · simp only [gt_iff_lt, if_neg (Nat.not_lt_of_le hle), ha, hf, Bool.not_true, Bool.false_eq_true, if_false, if_pos hz]
  · have hne : n ≠ 0 := by
      rintro rfl
      exact absurd hpos (Nat.lt_irrefl 0)
    simp only [gt_iff_lt, if_neg (Nat.not_lt_of_le hle), ha, hf, Bool.not_true, Bool.false_eq_true, if_false, if_neg hne]

/-- A number that is a multiple of another, by the remainder. -/
theorem bne_zero_of_mod {n k : Nat} (h : n % k = 0) : (n % k != 0) = false := by rw [h]; rfl

/-- `pcopy` (R94, R288). -/
theorem pcopy_spec (g : Gates) (o : FormE) (s s1 s2 s3 s4 s5 : State) (dst src n : Word) (hr : Ready (.pcopy g o) s s1)
    (h1 : s1.rdS o.sy = .ok dst s2) (h2 : s2.rdS o.sz = .ok src s3) (h3 : s3.rdS o.sw = .ok n s4)
    (hd : s4.dstReady o.sx = .ok ⟨⟩ s5) :
    (dst.toNat % 4 ≠ 0 → exec (.pcopy g o) s = .next (s5.dropAnswers.takeCause 0x22 dst)) ∧
    (dst.toNat % 4 = 0 → src.toNat % 4 ≠ 0 → exec (.pcopy g o) s = .next (s5.dropAnswers.takeCause 0x22 src)) ∧
    (dst.toNat % 4 = 0 → src.toNat % 4 = 0 → n.toNat % 4 ≠ 0 →
      exec (.pcopy g o) s = .next (s5.dropAnswers.takeCause 0x22 n)) ∧
    (dst.toNat % 4 = 0 → src.toNat % 4 = 0 → n.toNat % 4 = 0 →
      (2 ^ 36 < n.toNat → exec (.pcopy g o) s = .next (s5.dropAnswers.takeCause 0x26 n)) ∧
      (∀ a, n.toNat ≤ 2 ^ 36 → s5.beyondScope (ticketOf (.pcopy g o) s1) dst.toNat n.toNat = some a →
        exec (.pcopy g o) s = .next (s5.dropAnswers.takeCause 0x25 a)) ∧
      (n.toNat ≤ 2 ^ 36 → s5.beyondScope (ticketOf (.pcopy g o) s1) dst.toNat n.toNat = none →
        (s5.slotFree = false → exec (.pcopy g o) s = .next (s5.park .copySlot)) ∧
        (n = 0 → s5.slotFree = true → exec (.pcopy g o) s = .next (started (.pcopy g o) s1
          (s5.emptyCopy o.sx (ticketOf (.pcopy g o) s1)))) ∧
        (0 < n.toNat → s5.slotFree = true → exec (.pcopy g o) s = .next (started (.pcopy g o) s1
          (s5.startCopy (.copy dst.toNat src.toNat n.toNat) o.sx (ticketOf (.pcopy g o) s1)))))) := by
  have sources : ∀ k : Word → Word → Word → State → R PUnit,
      ((s1.rdS o.sy).bind fun dst s => (s.rdS o.sz).bind fun src s => (s.rdS o.sw).bind fun n s =>
        (s.dstReady o.sx).andThen fun s => k dst src n s) = k dst src n s5 := by
    intro k
    rw [h1, R.bind_ok, h2, R.bind_ok, h3, R.bind_ok, hd, R.andThen_ok]
  refine ⟨fun hm => issueOwn_trap hr ((sources _).trans ?_), fun hm1 hm => issueOwn_trap hr ((sources _).trans ?_),
    fun hm1 hm2 hm => issueOwn_trap hr ((sources _).trans ?_), fun hm1 hm2 hm3 => enterCopy_clauses hr ((sources _).trans ?_)⟩
  · simp only [List.find?, bne_iff_ne.2 hm]
  · simp only [List.find?, bne_zero_of_mod hm1, bne_iff_ne.2 hm]
  · simp only [List.find?, bne_zero_of_mod hm1, bne_zero_of_mod hm2, bne_iff_ne.2 hm]
  · simp only [List.find?, bne_zero_of_mod hm1, bne_zero_of_mod hm2, bne_zero_of_mod hm3]
    rfl

/-- `pcopyz` (R94, R289). -/
theorem pcopyz_spec (g : Gates) (o : FormE) (s s1 s2 s3 s4 : State) (src n : Word) (hr : Ready (.pcopyz g o) s s1)
    (h1 : s1.rdS o.sz = .ok src s2) (h2 : s2.rdS o.sw = .ok n s3) (hd : s3.dstReady o.sx = .ok ⟨⟩ s4) :
    (src.toNat % 128 ≠ 0 → exec (.pcopyz g o) s = .next (s4.dropAnswers.takeCause 0x22 src)) ∧
    (src.toNat % 128 = 0 → n.toNat % 128 ≠ 0 → exec (.pcopyz g o) s = .next (s4.dropAnswers.takeCause 0x22 n)) ∧
    (src.toNat % 128 = 0 → n.toNat % 128 = 0 →
      (2 ^ 36 < n.toNat → exec (.pcopyz g o) s = .next (s4.dropAnswers.takeCause 0x26 n)) ∧
      (∀ a, n.toNat ≤ 2 ^ 36 → s4.beyondScope (ticketOf (.pcopyz g o) s1) src.toNat n.toNat = some a →
        exec (.pcopyz g o) s = .next (s4.dropAnswers.takeCause 0x25 a)) ∧
      (n.toNat ≤ 2 ^ 36 → s4.beyondScope (ticketOf (.pcopyz g o) s1) src.toNat n.toNat = none →
        (s4.slotFree = false → exec (.pcopyz g o) s = .next (s4.park .copySlot)) ∧
        (n = 0 → s4.slotFree = true → exec (.pcopyz g o) s = .next (started (.pcopyz g o) s1
          (s4.emptyCopy o.sx (ticketOf (.pcopyz g o) s1)))) ∧
        (0 < n.toNat → s4.slotFree = true → exec (.pcopyz g o) s = .next (started (.pcopyz g o) s1
          (s4.startCopy (.satchel src.toNat n.toNat) o.sx (ticketOf (.pcopyz g o) s1)))))) := by
  have sources : ∀ k : Word → Word → State → R PUnit,
      ((s1.rdS o.sz).bind fun src s => (s.rdS o.sw).bind fun n s => (s.dstReady o.sx).andThen fun s => k src n s) =
        k src n s4 := by
    intro k
    rw [h1, R.bind_ok, h2, R.bind_ok, hd, R.andThen_ok]
  refine ⟨fun hm => issueOwn_trap hr ((sources _).trans ?_), fun hm1 hm => issueOwn_trap hr ((sources _).trans ?_),
    fun hm1 hm2 => enterCopy_clauses hr ((sources _).trans ?_)⟩
  · simp only [List.find?, bne_iff_ne.2 hm]
  · simp only [List.find?, bne_zero_of_mod hm1, bne_iff_ne.2 hm]
  · simp only [List.find?, bne_zero_of_mod hm1, bne_zero_of_mod hm2]
    rfl

/-- `coll` (R291 to R293). -/
theorem coll_spec (g : Gates) (o : FormE) (s s1 s2 s3 s4 s5 s6 : State) (a : Word) (bs : List Byte) (d : Coll) (gr : Group)
    (hr : Ready (.coll g o) s s1) (h1 : s1.rdS o.sy = .ok a s2) (hd : s2.dstReady o.sx = .ok ⟨⟩ s3) :
    (a.toNat % 64 ≠ 0 → exec (.coll g o) s = .next (s3.dropAnswers.takeCause 0x22 a)) ∧
    (a.toNat % 64 = 0 → (∀ k, ticketOf (.coll g o) s1 = some k → 4 ≤ k.scp.toNat) →
      s3.readRun s3.me a.toNat 64 1 = .ok bs s4 → d = Coll.ofBytes bs →
      ((s4.jobOf s4.me).bind fun j => afind? j.groups d.group) = some gr → d.ok bs gr.members.length = true →
      (d.wctr = 0 ∨ hKind d.wctr = 6 ∧ (s4.jobCounter (jobSlot (slotJob (s4.slot s4.me))) d.wctr).isSome = true) →
      d.src % d.width = 0 → d.dst % d.width = 0 →
      s4.collSpace s4.me (max 1 (d.sourceBytes gr.members.length gr.rank) / 4096 + 2) d.src
        (max 1 (d.sourceBytes gr.members.length gr.rank)) = .ok true s5 →
      s5.collSpace s5.me (d.resultBytes gr.members.length / 4096 + 2) d.dst (d.resultBytes gr.members.length) = .ok true s6 →
      s6.slotFree = true →
      exec (.coll g o) s = .next (started (.coll g o) s1 ((s6.startCopy (.coll bs gr.issued) o.sx
        (ticketOf (.coll g o) s1)).issuedOn (jobSlot (slotJob (s4.slot s4.me))) d.group))) := by
  have sources : ∀ k : Word → State → R PUnit,
      ((s1.rdS o.sy).bind fun a s => (s.dstReady o.sx).andThen fun s => k a s) = k a s3 := by
    intro k
    rw [h1, R.bind_ok, hd, R.andThen_ok]
  refine ⟨fun hm => issueOwn_trap hr ((sources _).trans (if_pos (bne_iff_ne.2 hm))),
    fun hm hscope hread hdesc hgr hok hctr hsrc hdst hs hd' hfree => issueOwn_ok hr ((sources _).trans ?_)⟩
  subst hdesc
  have hnarrow : ((ticketOf (.coll g o) s1).any fun (t : Ticket) => t.scp.toNat < 4) = false := by
    cases htk : ticketOf (.coll g o) s1 with
    | none => rfl
    | some k => simpa using hscope k htk
  have hcounter : ((Coll.ofBytes bs).wctr != 0 && (hKind (Coll.ofBytes bs).wctr != 6 ||
      (s4.jobCounter (jobSlot (slotJob (s4.slot s4.me))) (Coll.ofBytes bs).wctr).isNone)) = false := by
    rcases hctr with h | ⟨h6, hsome⟩
    · rw [h]; rfl
    · rw [Option.isNone_eq_false_iff.2 hsome, h6]
      simp
  simp only [bne_zero_of_mod hm, hnarrow, Bool.false_eq_true, if_false, hread, R.bind_ok, hgr, hok, Bool.not_true, hcounter,
    bne_zero_of_mod hsrc, bne_zero_of_mod hdst, hs, hd', Bool.or_self, hfree]

/-! An operation that enters the table (R66, R118). -/

/-- Counting an operation in its unit changes the counters alone (R37). -/
theorem State.opBegin_rest (s : State) (n : Nat) : ∃ cs, s.opBegin n = { s with counters := cs } := by
  unfold State.opBegin
  split <;> exact ⟨_, rfl⟩

/-- What starting a copy changes: the next number, its core's table, its context's tokens, and the counters (R37, R66, R118). -/
theorem State.startCopy_eq (s : State) (kind : CopyKind) (k : SReg) (tk : Option Ticket) : ∃ cs, s.startCopy kind k tk =
    { s with
      nextId := s.nextId + 1, counters := cs, ctxs := aset s.ctxs s.me ((s.ctx s.me).pending k s.nextId)
      cores := aset s.cores (coreOf s.me) { s.core (coreOf s.me) with copies := (s.core (coreOf s.me)).copies ++
        [⟨s.nextId, s.me, jobSlot (slotJob (s.slot s.me)), kind, tokenOf k, tk, 0, 0, none⟩] } } := by
  obtain ⟨cs, h⟩ := State.opBegin_rest ((State.modCore { s with nextId := s.nextId + 1 } (coreOf s.me) fun c => { c with
    copies := c.copies ++ [⟨s.nextId, s.me, jobSlot (slotJob (s.slot s.me)), kind, tokenOf k, tk, 0, 0, none⟩] }).modCtx s.me
      fun x => x.pending k s.nextId) s.me
  exact ⟨cs, h⟩

/-- A copy enters the table of its core, its token pending (R66, R118). -/
theorem startCopy_spec (s : State) (kind : CopyKind) (k : SReg) (tk : Option Ticket) :
    ((s.startCopy kind k tk).core (coreOf s.me)).copies = (s.core (coreOf s.me)).copies ++
      [⟨s.nextId, s.me, jobSlot (slotJob (s.slot s.me)), kind, if k = 0 then none else some k, tk, 0, 0, none⟩] ∧
    (s.startCopy kind k tk).mem = s.mem ∧ (k ≠ 0 → ((s.startCopy kind k tk).ctx s.me).pend.any (·.1 == k) = true) := by
  obtain ⟨cs, h⟩ := s.startCopy_eq kind k tk
  rw [h]
  refine ⟨?_, rfl, fun hk => ?_⟩
  · rw [State.core, aget_aset_same]
    rfl
  · rw [State.ctx, aget_aset_same, Ctx.pending, if_neg hk]
    exact List.any_eq_true.2 ⟨_, List.mem_cons_self, beq_self_eq_true k⟩

/-- Settles O38: `pcopy` and `pcopyz` by their shared end, `coll` by its checks, and what a copy that starts leaves. -/
theorem copiesEnterTheTable : Obligations.CopiesEnterTheTable := by
  unfold Obligations.CopiesEnterTheTable
  exact ⟨pcopy_spec, pcopyz_spec, coll_spec, startCopy_spec⟩

end Sys2Proof.Machine
end

section
/-! The statement about what the engines do (R119 to R125, R290, R293, R294, R343 to R345). -/

namespace Sys2Proof.Machine

/-! Copies (R119, R120). -/

/-- The happenings of a copy: it completes, or stops at its own fault or at one that befalls it (R119, R120, R443). -/
theorem copy_ends (core id dst src n : Nat) (s : State) (p : Copy) (hp : s.copyOf core id = some p)
    (hk : p.kind = .copy dst src n) :
    (∀ t, s.copyLines core p dst src n (n / 4 + 1) p.pos = .ok ⟨⟩ t →
      exec (.copyComplete core id) s = .next (t.finishCopy core p)) ∧
    (∀ c a t, s.copyLines core p dst src n (n / 4 + 1) p.pos = .trap c a t →
      exec (.copyComplete core id) s = .next (t.failCopy core p c a)) ∧
    (∀ (m : Nat) (c : Code) (a : Word) (t : State),
      s.copyLines core p dst src (min n m) (n / 4 + 1) p.pos = .ok ⟨⟩ t →
      exec (.copyFault core id m c a) s = .next (t.failCopy core p c a)) ∧
    exec (.uetDeliveryFailure core id) s = .next (s.failCopy core p 0x20 (BitVec.ofNat 64 (dst + p.pos))) := by
  refine ⟨fun t h => ?_, fun c a t h => ?_, fun m c a t h => ?_, ?_⟩
  · show execCopyComplete core id s = _
    simp only [execCopyComplete, hp, hk, h]
  · show execCopyComplete core id s = _
    simp only [execCopyComplete, hp, hk, h]
  · show execCopyFault core id m c a s = _
    simp only [execCopyFault, hp, hk, h]
  · show execUetDeliveryFailure core id s = _
    simp only [execUetDeliveryFailure, hp, hk]

/-- A completion of a copy that is no longer in its table does nothing. -/
theorem copyComplete_gone (core id : Nat) (s : State) (h : s.copyOf core id = none) :
    exec (.copyComplete core id) s = .next s := by
  show execCopyComplete core id s = _
  simp only [execCopyComplete, h]

/-! The decompression path (R124, R343 to R345). -/

/-- SATCHEL_CHECK is one cycle of the path of a context's channel (R124). -/
theorem satchelCheck_spec (ctx core : Nat) (s : State) (p : Copy) (h : s.satchelFront ctx = some (core, p)) :
    exec (.satchelCheck ctx) s = .next (s.satchelCycle core ctx) := by
  show execSatchelCheck ctx s = _
  simp only [execSatchelCheck, h]

/-- A check is decided two cycles after its block's last byte (R343, R344). -/
theorem satchelChecks_spec (core n : Nat) (s : State) (c : SatchelCheck) (r : List SatchelCheck) (p : Copy)
    (hc : (s.owner n).checks = c :: r) :
    (1 < c.due → s.satchelChecks core n = s.modOwner n fun x =>
      { x with checks := x.checks.map fun c => { c with due := c.due - 1 } }) ∧
    (c.due ≤ 1 → s.copyOf core c.id = some p → c.wrong = false → s.satchelChecks core n =
      (s.modOwner n fun x => { x with checks := r.map fun c => { c with due := c.due - 1 } }).satchelPassed core c.id) ∧
    (c.due ≤ 1 → s.copyOf core c.id = some p → c.wrong = true → (s.core core).decoding n = none → s.satchelChecks core n =
      s.satchelFail core p 0x60 c.place (blockName c.id c.place :: r.map fun c => blockName c.id c.place)) := by
  unfold State.satchelChecks
  simp only [hc]
  refine ⟨fun hd => if_pos hd, fun hd hp hw => ?_, fun hd hp hw hn => ?_⟩
  · simp only [gt_iff_lt, if_neg (Nat.not_lt_of_le hd), hp, hw, Bool.false_eq_true, if_false]
  · simp only [gt_iff_lt, if_neg (Nat.not_lt_of_le hd), hp, hw, if_true, hn, List.append_nil]

/-- A block is read, and a bad header stops the channel once no earlier check is due (R121 to R123, R290). -/
theorem satchelRead_spec (core src len : Nat) (s : State) (p : Copy) :
    (∀ t, s.satchelBlock core p (src + p.pos) (len - p.pos) = .ok (.header, false) t → (s.owner p.ctx).checks = [] →
      s.satchelRead core p src len = t.satchelFail core p 0x61 (src + p.pos) []) ∧
    ∀ h out wrong t, s.satchelBlock core p (src + p.pos) (len - p.pos) = .ok (.block h out wrong, false) t →
      s.satchelRead core p src len = t.modCopy core p.id fun p =>
        { p with block := some ⟨h.size, BitVec.ofNat 6 h.ftag, out, wrong⟩ } := by
  unfold State.satchelRead
  refine ⟨fun t hb hc => ?_, fun h out wrong t hb => ?_⟩
  · simp only [hb, hc, List.isEmpty_nil, Bool.not_true, Bool.false_eq_true, if_false]
  · simp only [hb]

/-- At most 32 bytes of a block enter the buffer in a cycle; with the last its check begins (R124, R343). -/
theorem satchelDecode_spec (core src : Nat) (s : State) (p : Copy) (b : SatchelBlock) (k : Nat) (r : SatchelRun) (u : State)
    (hk : k = min (min 32 (s.satchelRoom p.ctx)) (b.bytes.length - p.given))
    (hr : r = ⟨blockName p.id (src + p.pos), b.tag, (b.bytes.drop p.given).take k⟩)
    (hu : u = (s.modOwner p.ctx fun x => if k = 0 then x else { x with satchel := addRun r x.satchel })) :
    (p.given + k < b.bytes.length →
      s.satchelDecode core p src b = u.modCopy core p.id fun p => { p with given := p.given + k }) ∧
    (b.bytes.length ≤ p.given + k → s.satchelDecode core p src b =
      (u.modOwner p.ctx fun x => { x with checks := x.checks ++ [⟨p.id, src + p.pos, 2, b.wrong⟩] }).modCopy core p.id fun p =>
        { p with pos := p.pos + b.size, given := 0, block := none }) := by
  subst hu hr hk
  exact ⟨fun hlt => if_pos hlt, fun hle => if_neg (Nat.not_lt_of_le hle)⟩

/-! Collectives (R292 to R294). -/

/-- A place of a list that is not empty, by any number. -/
theorem getElem?_mod_of_ne_nil {α : Type} {l : List α} (h : l ≠ []) (k : Nat) : ∃ a ∈ l, l[k % l.length]? = some a := by
  have hlt : k % l.length < l.length := Nat.mod_lt _ (List.length_pos_of_ne_nil h)
  exact ⟨l[k % l.length], List.getElem_mem hlt, List.getElem?_eq_getElem hlt⟩

/-- A collective one of whose far members cannot be reached stops with that member's rank (R294, R443). -/
theorem coll_unreachable {core id k : Nat} {s : State} {p : Copy} {bs : List Byte} {gr : Group} {far : List Nat}
    (hp : s.copyOf core id = some p) (hk : p.kind = .coll bs k)
    (hg : ((s.ownerJob p.ctx).bind fun j => afind? j.groups (Coll.ofBytes bs).group) = some gr)
    (hf : far = (List.range gr.members.length).filter (fun r => (gr.members[r]?.map (·.1)) == some 1)) (hne : far ≠ []) :
    ∃ r ∈ far, exec (.uetDeliveryFailure core id) s =
      .next (State.failCopy { s with fresh := s.fresh + 1 } core p 0x20 (BitVec.ofNat 64 r)) := by
  have hmembers : s.farMembers p (Coll.ofBytes bs).group = far := by
    unfold State.farMembers
    rw [hg, hf]
  obtain ⟨r, hr, hget⟩ := getElem?_mod_of_ne_nil hne (Config.freeDouble s.fresh).toNat
  refine ⟨r, hr, ?_⟩
  show execUetDeliveryFailure core id s = _
  simp only [execUetDeliveryFailure, hp, hk, hmembers, hget]

/-- COLLECTIVE_RUN runs the collective of its copy (R294). -/
theorem collectiveRun_eq {core id k : Nat} {sent : List Contribution} {s t : State} {p : Copy} {bs : List Byte}
    (ht : t = { s with heldBack := s.heldBack.filter (· != .collectiveRun core id sent) }) (hp : t.copyOf core id = some p)
    (hk : p.kind = .coll bs k) : exec (.collectiveRun core id sent) s = .next (t.collRun core p bs k sent) := by
  show execCollectiveRun core id sent s = _
  unfold execCollectiveRun
  simp only [← ht, hp, hk]

/-- A collective waits for its counter, and ends with it when it is cancelled (R294). -/
theorem collRun_counter {core k : Nat} {sent : List Contribution} {t : State} {p : Copy} {bs : List Byte} {c : Counter}
    (hw : (Coll.ofBytes bs).wctr ≠ 0) (hc : t.counter (Coll.ofBytes bs).wctr = some c) :
    (c.status = .running → t.collRun core p bs k sent = { t with heldBack := t.heldBack ++ [.collectiveRun core p.id sent] }) ∧
    (c.status = .cancelled → t.collRun core p bs k sent = t.finishCopy core p) := by
  unfold State.collRun
  simp only [if_neg hw, hc, Option.map_some]
  refine ⟨fun hs => ?_, fun hs => ?_⟩
  · rw [hs]
    rfl
  · rw [hs]

/-- A contribution that carries what this member's collective carries does not differ (R293). -/
theorem Coll.differs_eq_false {d : Coll} {n : Nat} {c : Contribution} (h : c.op = d.op ∧ c.ftag = d.ftag ∧ c.count = d.count ∧
    c.root = d.root ∧ c.bytes.length = d.sourceBytes n c.rank) : d.differs n c = false := by
  obtain ⟨hop, htag, hcount, hroot, hlen⟩ := h
  simp [Coll.differs, hop, htag, hcount, hroot, hlen]

/-- A collective without a counter, once every member's contribution is there (R292 to R294). -/
theorem collRun_ready {core k : Nat} {sent others : List Contribution} {t : State} {p : Copy} {bs : List Byte} {d : Coll}
    {gr : Group} (hd : d = Coll.ofBytes bs) (ho : others = sent.filter (·.k == k)) (hw : d.wctr = 0)
    (hg : ((t.ownerJob p.ctx).bind fun j => afind? j.groups d.group) = some gr)
    (hall : ∀ q < gr.members.length, q ≠ gr.rank → ∃ c ∈ others, c.rank = q) :
    ((∃ c ∈ others, c.rank < gr.members.length ∧ d.differs gr.members.length c = true) →
      t.collRun core p bs k sent = t.failCopy core p 0x26 0) ∧
    ∀ (mine : List Byte) (srcs : List (List Byte)) (bad : Bool) (u v : State),
      (∀ c ∈ others, c.rank < gr.members.length → c.op = d.op ∧ c.ftag = d.ftag ∧ c.count = d.count ∧ c.root = d.root ∧
        c.bytes.length = d.sourceBytes gr.members.length c.rank) →
      t.engineBytes core p.ctx p.id d.src (d.sourceBytes gr.members.length gr.rank) = .ok (mine, bad) u →
      (bad = true → gr.members.any (·.1 == 1) = false) →
      srcs = (List.range gr.members.length).map (fun q =>
        if q = gr.rank then mine else ((others.find? (·.rank == q)).map (·.bytes)).getD []) →
      u.enginePut core p.ctx p.id d.dst (d.result gr.rank srcs) bad = .ok ⟨⟩ v →
      t.collRun core p bs k sent =
        (v.emit (.contribution d.group gr.rank k d.op d.ftag d.count d.root mine)).finishCopy core p := by
  subst hd
  have hthere : (((List.range gr.members.length).filter (· != gr.rank)).all fun q => others.any (·.rank == q)) = true := by
    simp only [List.all_eq_true, List.mem_filter, List.mem_range, bne_iff_ne, List.any_eq_true, beq_iff_eq]
    exact fun q hq => hall q hq.1 hq.2
  unfold State.collRun
  simp only [← ho, if_pos hw, Option.map_none, hg, hthere, Bool.not_true, Bool.false_eq_true, if_false]
  refine ⟨fun ⟨c, hc, hrank, hdiff⟩ => if_pos ?_, fun mine srcs bad u v hsame hread hbad hsrcs hput => ?_⟩
  · exact List.any_eq_true.2 ⟨c, hc, by rw [decide_eq_true hrank, hdiff]; rfl⟩
  · have hagree : (others.any fun c => c.rank < gr.members.length && (Coll.ofBytes bs).differs gr.members.length c) = false := by
      simp only [List.any_eq_false, Bool.and_eq_true, decide_eq_true_eq, not_and]
      intro c hc hrank
      rw [Coll.differs_eq_false (hsame c hc hrank)]
      exact Bool.false_ne_true
    have hclean : (bad && gr.members.any (·.1 == 1)) = false := by
      cases bad with
      | false => rfl
      | true => exact hbad rfl
    rw [hagree, if_neg Bool.false_ne_true]
    simp only [hread, hclean, Bool.false_eq_true, if_false, ← hsrcs, hput]

/-- Settles O39: copies by `copyLines`, the decompression path by its parts, collectives by `collRun`. -/
theorem enginesFinishOrStop : Obligations.EnginesFinishOrStop := by
  unfold Obligations.EnginesFinishOrStop
  refine ⟨copyComplete_gone, copy_ends, satchelCheck_spec, satchelChecks_spec, fun core src len s p => ?_,
    fun core id k sent others s t p bs d ht hp hk hd ho => ⟨?_, ?_, ?_⟩⟩
  · obtain ⟨hheader, hblock⟩ := satchelRead_spec core src len s p
    exact ⟨hheader, hblock, satchelDecode_spec core src s p⟩
  · intro gr far hg hf hne
    subst ht hd
    exact coll_unreachable (s := s) hp hk hg hf hne
  · intro c hw hc
    subst hd
    rw [collectiveRun_eq ht hp hk]
    obtain ⟨hrun, hcancel⟩ := collRun_counter (core := core) (k := k) (sent := sent) (p := p) hw hc
    exact ⟨fun hs => congrArg _ (hrun hs), fun hs => congrArg _ (hcancel hs)⟩
  · intro gr hw hg hall
    rw [collectiveRun_eq ht hp hk]
    obtain ⟨hdiffers, hruns⟩ := collRun_ready (core := core) hd ho hw hg hall
    exact ⟨fun h => congrArg _ (hdiffers h), fun mine srcs bad u v h1 h2 h3 h4 h5 => congrArg _ (hruns mine srcs bad u v h1 h2 h3 h4 h5)⟩

end Sys2Proof.Machine
end

section
/-! The statement about the happenings of the memory system (R101, R105, R106, R129, R133 to R136, R461). -/

namespace Sys2Proof.Machine

/-! Requests of cores at their home (R133 to R135). -/

/-- A core that has taken the ownership of a line holds it in M (R134). -/
theorem State.ownLine_holds (s : State) (core : Nat) (line : LineKey) :
    ∃ l ∈ ((s.ownLine core line).core core).l1, l.key = line ∧ l.st = .M := by
  unfold State.ownLine
  split
  · next l hl =>
    have hkey : l.key = line := by simpa using List.find?_some hl
    split
    · exact ⟨_, State.mem_installLine rfl, hkey, rfl⟩
    · exact ⟨_, State.mem_installLine rfl, rfl, rfl⟩
  · exact ⟨_, State.mem_installLine rfl, rfl, rfl⟩

/-- HOME_REQUEST (R133 to R135, R349). -/
theorem homeRequest_spec (core first : Nat) (line : LineKey) (req : HomeReq) (ws : List Nat) (s t u : State)
    (ht : t = { s with heldBack := s.heldBack.filter (· != .homeRequest core req line) }) (ho : s.owns line.base = true)
    (hfirst : first = (footprint line).headD line.base) (hws : ws = (if req = .sisStore then [first] else footprint line)) :
    (∀ r, t.inProgress homeParty ws = some r → exec (.homeRequest core req line) s =
      .next { t with heldBack := t.heldBack ++ [.homeRequest core req line] }) ∧
    (t.inProgress homeParty ws = none → t.peerAsks req (nodeOfCore core) ws = [] → t.remoteRoom core req line ws = .ok ⟨⟩ u →
      (∀ own, req = .trackedLoad own → exec (.homeRequest core req line) s =
        .next (u.loadLine core line (if own then 0 else 3) first)) ∧
      (req = .untrackedLoad → exec (.homeRequest core req line) s = .next (u.loadLine core line 1 first)) ∧
      (req = .ownStore → exec (.homeRequest core req line) s = .next (u.ownLine core line) ∧
        ∃ l ∈ ((u.ownLine core line).core core).l1, l.key = line ∧ l.st = .M) ∧
      (req = .sisStore → exec (.homeRequest core req line) s = .next (u.sisRegister core line first)) ∧
      (req = .throughStore ∨ req = .atomic → exec (.homeRequest core req line) s =
        .next (u.homeRequest core req line ws))) := by
  have hown : (!t.owns line.base) = false := by rw [ht]; exact congrArg (!·) ho
  simp only [← beq_iff_eq (a := req)] at hws
  refine ⟨fun r hr => ?_, fun hfree hasks hroom => ?_⟩
  · show execHomeRequest core req line s = _
    unfold execHomeRequest
    simp only [← ht, ← hfirst, ← hws, hown, Bool.false_eq_true, if_false, hr, Option.isSome_some, if_true]
    rw [ht]
  · have hrun : execHomeRequest core req line s = (match req with
        | .trackedLoad own => .next (u.loadLine core line (if own then 0 else 3) first)
        | .untrackedLoad => .next (u.loadLine core line 1 first)
        | .ownStore => .next (u.ownLine core line)
        | .throughStore => .next (u.homeRequest core .throughStore line ws)
        | .sisStore => .next (u.sisRegister core line first)
        | .atomic => .next (u.homeRequest core .atomic line ws)) := by
      unfold execHomeRequest
      simp only [← ht, ← hfirst, ← hws, hown, Bool.false_eq_true, if_false, hfree, Option.isSome_none, hasks, List.isEmpty_nil,
        Bool.not_true, hroom] <;> cases req <;> rfl
    show (∀ own, req = _ → execHomeRequest core req line s = _) ∧ (_ → execHomeRequest core req line s = _) ∧
      (_ → execHomeRequest core req line s = _ ∧ _) ∧ (_ → execHomeRequest core req line s = _) ∧
      (_ → execHomeRequest core req line s = _)
    rw [hrun]
    refine ⟨?_, ?_, ?_, ?_, ?_⟩
    · rintro own rfl
      rfl
    · rintro rfl
      rfl
    · rintro rfl
      exact ⟨rfl, u.ownLine_holds core line⟩
    · rintro rfl
      rfl
    · rintro (rfl | rfl) <;> rfl

/-! Lines that are dropped (R101, R106, R136). -/

/-- The keys of a core's lines after a step are among those before. -/
def KeysShrink (s t : State) : Prop := ∀ k, ∀ l ∈ (t.core k).l1, ∃ l0 ∈ (s.core k).l1, l0.key = l.key

theorem KeysShrink.refl (s : State) : KeysShrink s s := fun _ l hl => ⟨l, hl, rfl⟩

theorem KeysShrink.trans {s t u : State} (h : KeysShrink s t) (h' : KeysShrink t u) : KeysShrink s u := by
  intro k l hl
  obtain ⟨l1, hl1, hk1⟩ := h' k l hl
  obtain ⟨l0, hl0, hk0⟩ := h k l1 hl1
  exact ⟨l0, hl0, hk0.trans hk1⟩

/-- A step that leaves the cores. -/
theorem KeysShrink.of_cores {s t : State} (h : t.cores = s.cores) : KeysShrink s t := by
  intro k l hl
  rw [State.core, h] at hl
  exact ⟨l, hl, rfl⟩

theorem KeysShrink.foldl {α : Type} {f : State → α → State} (h : ∀ s a, KeysShrink s (f s a)) (l : List α) (s : State) :
    KeysShrink s (l.foldl f s) := by
  induction l generalizing s with
  | nil => exact .refl s
  | cons a l ih => exact (h s a).trans (ih (f s a))

/-- A change of one core that shrinks its keys. -/
theorem KeysShrink.modCore {s : State} {j : Nat} {f : Core → Core} (h : ∀ l ∈ (f (s.core j)).l1, ∃ l0 ∈ (s.core j).l1, l0.key = l.key) :
    KeysShrink s (s.modCore j f) := by
  intro k l hl
  by_cases hk : k = j
  · subst hk
    rw [State.core_modCore_same] at hl
    exact h l hl
  · rw [State.core_modCore_ne _ _ _ _ hk] at hl
    exact ⟨l, hl, rfl⟩

/-- A message leaves the cores. -/
theorem State.cores_pump (s : State) (k n : Nat) : (s.pump k n).cores = s.cores := by
  induction n generalizing s with
  | zero => rfl
  | succ n ih =>
    unfold State.pump
    dsimp only
    split
    · rfl
    · split
      · rfl
      · rw [ih]
        rfl

theorem State.cores_sendOrDrop (s : State) (y : BitVec 8) (m : Msg) : (s.sendOrDrop y m).cores = s.cores := by
  unfold State.sendOrDrop State.send
  split
  · rfl
  · exact State.cores_pump _ _ _

theorem State.cores_returnWords (s : State) (l : L1Line) : (s.returnWords l).cores = s.cores := by
  unfold State.returnWords
  induction l.regs generalizing s with
  | nil => rfl
  | cons w r ih => exact (ih _).trans (State.cores_sendOrDrop _ _ _)

/-- A registration that ends leaves the keys of every core's lines (R134, R136). -/
theorem keysShrink_endRegistration (s : State) (w : Nat) : KeysShrink s (s.endRegistration w) := by
  have hpass : KeysShrink s (s.passRegistration w) := by
    unfold State.passRegistration
    split
    · next k _ =>
      dsimp only
      split
      · have hcore : KeysShrink s (s.modCore k fun c => { c with l1 := c.l1.map (L1Line.unregister w (s.word w)) }) := by
          refine .modCore fun l hl => ?_
          obtain ⟨l0, hl0, rfl⟩ := List.mem_map.1 hl
          refine ⟨l0, hl0, ?_⟩
          unfold L1Line.unregister
          split <;> rfl
        refine hcore.trans ?_
        exact .of_cores rfl
      · exact .of_cores rfl
    · exact .refl s
  unfold State.endRegistration
  split
  · exact hpass.trans (.of_cores rfl)
  · exact .refl s

/-- A line that a core drops leaves no new line in any core (R136). -/
theorem keysShrink_dropLine (s : State) (j : Nat) (key : LineKey) : KeysShrink s (s.dropLine j key) := by
  unfold State.dropLine
  split
  · exact .refl s
  · dsimp only
    refine .trans ?_ (.trans (.modCore (j := j) (f := fun c => { c with l1 := c.l1.filter (·.key != key) }) fun l hl =>
      ⟨l, (List.mem_filter.1 hl).1, rfl⟩) (.of_cores rfl))
    split
    · exact .foldl keysShrink_endRegistration _ s
    · exact .of_cores (State.cores_returnWords s _)

/-- A dropped line is no longer held by its core (R136). -/
theorem State.dropLine_gone (s : State) (core : Nat) (line : LineKey) :
    ∀ l ∈ ((s.dropLine core line).core core).l1, l.key ≠ line := by
  unfold State.dropLine
  split
  · next hnone =>
    intro l hl
    simpa using List.find?_eq_none.1 hnone l hl
  · intro l hl
    have hmem : l ∈ (State.core (State.modCore _ core fun c => { c with l1 := c.l1.filter (·.key != line) }) core).l1 := hl
    rw [State.core_modCore_same] at hmem
    simpa using (List.mem_filter.1 hmem).2

/-- Dropping a line in some cores leaves none of them a line of that name (R136). -/
theorem dropLines_gone (die : Nat) (key : LineKey) (cs : List (Nat × Core)) (s : State) (k : Nat) (hd : nodeOfCore k = die)
    (h : k ∈ cs.map (·.1) ∨ ∀ l ∈ (s.core k).l1, l.key ≠ key) :
    ∀ l ∈ ((cs.foldl (fun s (j, _) => if nodeOfCore j == die then s.dropLine j key else s) s).core k).l1, l.key ≠ key := by
  induction cs generalizing s with
  | nil =>
    rcases h with h | h
    · cases h
    · exact h
  | cons p r ih =>
    obtain ⟨j, c⟩ := p
    rw [List.foldl_cons]
    refine ih _ ?_
    dsimp only
    have hshrink : KeysShrink s (if nodeOfCore j == die then s.dropLine j key else s) := by
      split
      · exact keysShrink_dropLine s _ _
      · exact .refl s
    rcases h with h | h
    · rcases List.mem_cons.1 h with h | h
      · right
        have hj : k = j := h
        rw [← hj, if_pos (beq_iff_eq.2 hd)]
        exact s.dropLine_gone k key
      · exact .inl h
    · right
      intro l hl
      obtain ⟨l0, hl0, hk⟩ := hshrink k l hl
      rw [← hk]
      exact h l0 hl0

/-- A core that the state does not list holds no line. -/
theorem State.l1_unlisted {s : State} {k : Nat} (h : k ∉ s.cores.map (·.1)) : (s.core k).l1 = [] := by
  have hzero : ∀ cs : List (Nat × Core), k ∉ cs.map (·.1) → aget Core.zero cs k = Core.zero := by
    intro cs hcs
    induction cs with
    | nil => rfl
    | cons p r ih =>
      rw [List.map_cons, List.mem_cons, not_or] at hcs
      rw [aget, if_neg (Ne.symm hcs.1)]
      exact ih hcs.2
  rw [State.core, hzero _ h]
  rfl

/-- No core of a die keeps a line that goes from the die's caches (R136). -/
theorem State.dropInDie_gone (s : State) (die k : Nat) (key : LineKey) (hd : nodeOfCore k = die) :
    ∀ l ∈ ((s.dropInDie die key).core k).l1, l.key ≠ key := by
  intro l hl
  unfold State.dropInDie at hl
  rw [State.core_dropTracked] at hl
  refine dropLines_gone die key s.cores s k hd ?_ l (List.mem_filter.1 hl).1
  by_cases hk : k ∈ s.cores.map (·.1)
  · exact .inl hk
  · right
    rw [State.l1_unlisted hk]
    exact fun l hl => nomatch hl

/-- A fold that leaves cores and dies when each of its steps does. -/
theorem State.caches_foldl {α : Type} {f : State → α → State} (h : ∀ s a, (f s a).cores = s.cores ∧ (f s a).dies = s.dies)
    (l : List α) (s : State) : (l.foldl f s).cores = s.cores ∧ (l.foldl f s).dies = s.dies := by
  induction l generalizing s with
  | nil => exact ⟨rfl, rfl⟩
  | cons a l ih => exact ⟨(ih _).1.trans (h s a).1, (ih _).2.trans (h s a).2⟩

/-- What a die's drop of a line leaves of the caches: the line is out of the L2 and of every core of the die (R136). -/
theorem State.nodeDrops_caches (s : State) (die : Nat) (line : LineKey) (hd : die < 4) :
    (s.nodeDrops die line).cores = (s.dropInDie die line).cores ∧ (s.nodeDrops die line).dies =
      ((s.dropInDie die line).modDie die fun d => { d with l2 := d.l2.filter (·.key != line) }).dies := by
  unfold State.nodeDrops
  rw [if_neg (Nat.not_le_of_lt hd)]
  refine State.caches_foldl (fun s w => ?_) _ _
  dsimp only
  split
  · exact ⟨rfl, rfl⟩
  · split
    case h_4 => exact ⟨rfl, rfl⟩
    all_goals split <;> exact ⟨rfl, rfl⟩

/-- L2_DROP_LINE (R106, R136). -/
theorem l2DropLine_spec (die : Nat) (line : LineKey) (s : State) :
    (s.pinnedInL2 die line = true ∨ (∀ x ∈ (s.die die).l2, x.key ≠ line) → exec (.l2DropLine die line) s = .next s) ∧
    (s.owns line.base = true → s.pinnedInL2 die line = false → (∃ x ∈ (s.die die).l2, x.key = line) → die < 4 →
      exec (.l2DropLine die line) s = .next (s.nodeDrops die line) ∧
      (∀ x ∈ ((s.nodeDrops die line).die die).l2, x.key ≠ line) ∧
      ∀ k, nodeOfCore k = die → ∀ l ∈ ((s.nodeDrops die line).core k).l1, l.key ≠ line) := by
  have hexec : exec (.l2DropLine die line) s = .next (s.l2Drop die line) := rfl
  rw [hexec, State.l2Drop]
  refine ⟨fun h => ?_, fun ho hp hx hd => ?_⟩
  · rw [if_pos]
    rcases h with h | h
    · rw [h, Bool.true_or]
    · have hnone : ((s.die die).l2.any (·.key == line)) = false := by simpa using h
      rw [hnone, Bool.not_false, Bool.or_true]
  · obtain ⟨x, hx, hk⟩ := hx
    have hsome : ((s.die die).l2.any (·.key == line)) = true := List.any_eq_true.2 ⟨x, hx, beq_iff_eq.2 hk⟩
    obtain ⟨hcores, hdies⟩ := s.nodeDrops_caches die line hd
    refine ⟨by rw [hp, hsome, if_neg (by decide), if_pos ho], fun y hy => ?_, fun k hk l hl => ?_⟩
    · rw [State.die, hdies] at hy
      have hy' : y ∈ (State.die (State.modDie _ die fun d => { d with l2 := d.l2.filter (·.key != line) }) die).l2 := hy
      rw [State.die_modDie_same] at hy'
      simpa using (List.mem_filter.1 hy').2
    · rw [State.core, hcores] at hl
      exact s.dropInDie_gone die k line hk l hl

/-! Leases, pinned pages and errors (R105, R129, R461). -/

/-- A line whose lease ends keeps no unregistered word (R129). -/
theorem L1Line.expire_copies {line : LineKey} {l k : L1Line} (h : l.expire line = some k) (hk : k.key = line) (hu : k.st = .U) :
    k.copies = [] := by
  unfold L1Line.expire at h
  split at h
  · unfold pruneU at h
    split at h
    · cases h
    · cases h
      rfl
  · next hn =>
    cases h
    exact absurd (by rw [hk, hu]; simp) hn

/-- U_LINE_LEASE_EXPIRY (R129). -/
theorem uLineLeaseExpiry_spec (core : Nat) (line : LineKey) (s : State) :
    ∃ t, exec (.uLineLeaseExpiry core line) s = .next t ∧ t.mem = s.mem ∧
      ∀ l ∈ (t.core core).l1, l.key = line → l.st = .U → l.copies = [] := by
  refine ⟨_, rfl, rfl, fun l hl hk hu => ?_⟩
  rw [State.core_modCore_same] at hl
  obtain ⟨l0, _, hl0⟩ := List.mem_filterMap.1 hl
  exact L1Line.expire_copies hl0 hk hu

/-- SCRATCHPAD_FRAME_FILL (R105). -/
theorem scratchpadFrameFill_spec (ctx page : Nat) (s t : State) (p : Page) (hrun : slotState (s.slot ctx) = 1)
    (hlen : page < slotSpLen (s.slot ctx)) (hp : s.enginePage ctx (slotSpBase (s.slot ctx) + page * 4096) = .ok p t)
    (hspace : p.space = 0) :
    exec (.scratchpadFrameFill ctx page) s = .next (t.pin (coreOf ctx) (slotSpBase (s.slot ctx)) page
      (p.paddr t (slotSpBase (s.slot ctx) + page * 4096)) p.ow) := by
  have hok : (slotState (s.slot ctx) != 1 || decide (page ≥ slotSpLen (s.slot ctx))) = false := by
    rw [hrun, decide_eq_false (Nat.not_le_of_lt hlen)]
    rfl
  show execScratchpadFrameFill ctx page s = _
  unfold execScratchpadFrameFill
  simp only [hok, Bool.false_eq_true, if_false, hp, hspace, bne_self_eq_false]

/-- An error that cannot be corrected poisons its line (R461). -/
theorem State.poisoned_poisonLine (s : State) (base : Nat) : (s.poisonLine base).poisoned base = true := by
  show (if s.poison.contains (base / 128 * 128) then s.poison else base / 128 * 128 :: s.poison).contains (base / 128 * 128) = true
  split
  · assumption
  · simp

/-- An error in a scalar register marks it and leaves its value (R461). -/
theorem softError_scalar (c : Nat) (r : SReg) (s : State) (hr : r ≠ 0) :
    ∃ t, exec (.softError (.scalarReg c r) false) s = .next t ∧ (t.ctx c).spoison.getLsbD r.toNat = true ∧
      (t.ctx c).s = (s.ctx c).s := by
  refine ⟨_, rfl, ?_, ?_⟩
  · rw [State.ctx_modCtx_same]
    dsimp only
    have hlt : r.toNat < 64 := r.isLt
    rw [if_neg hr, BitVec.getLsbD_or, BitVec.getLsbD_shiftLeft]
    simp [hlt]
  · rw [State.ctx_modCtx_same]
    rfl

/-- Settles O40: requests, drops, leases, pinned pages and errors, each by its own lemma. -/
theorem memoryHappeningsChangeCaches : Obligations.MemoryHappeningsChangeCaches := by
  unfold Obligations.MemoryHappeningsChangeCaches
  exact ⟨homeRequest_spec, fun core line s => ⟨rfl, fun _ => s.dropLine_gone core line⟩, l2DropLine_spec, uLineLeaseExpiry_spec,
    scratchpadFrameFill_spec, fun _ _ => rfl, fun base s => ⟨rfl, s.poisoned_poisonLine base⟩, softError_scalar,
    fun _ _ _ _ => rfl⟩

end Sys2Proof.Machine
end

section
/-! The statement about tiles and accumulators (R89, R314 to R327). -/

namespace Sys2Proof.Machine

/-! Tiles (R319, R320). -/

/-- A tile access whose checks are met goes on, and gives back the group it took if it does not complete (R319). -/
theorem State.tileAccess_ready {s t : State} {g : Gates} {o : FormT} {store : Bool} {h : Shape} {a : TensorAcc}
    {k : Shape → TensorAcc → State → R PUnit} (hready : TileReady o store h s t)
    (ha : a = ⟨o.or == 1, o.pol, [], g.scopes⟩) : s.tileAccess g o store k = (k h a t).orBack s := by
  obtain ⟨htake, htag, hpoison, hcheck, hbits, horient, hown, hin⟩ := hready
  subst ha
  have hfmt : (store && tagFmt (t.myCtx.tile o.tx).tag != tagFmt h.ftag) = false := by
    cases store with
    | false => rfl
    | true => rw [hown rfl]; simp
  unfold State.tileAccess
  simp only [htake, R.andThen_ok, State.shapeIn_ok _ htag hpoison hcheck, hbits, bne_self_eq_false, horient, Bool.not_true,
    hfmt, hin, Bool.false_eq_true, if_false]

/-- A wrong element width raises 0x0F (R319). -/
theorem State.tileAccess_width {s t : State} {g : Gates} {o : FormT} {store : Bool} {h : Shape}
    {k : Shape → TensorAcc → State → R PUnit} (htake : s.takeGroups [o.va.toNat] = .ok ⟨⟩ t)
    (htag : (t.myStrip.reg o.va.toNat).tag = 25) (hpoison : t.myStrip.poisonedAt [o.va.toNat] 8 (List.range 18) = false)
    (hcheck : Shape.check (t.myStrip.record o.va.toNat) = .ok h)
    (hbits : tensorBits (tagFmt h.ftag) ≠ tshBits (t.myCtx.shapeOf o.tx)) :
    s.tileAccess g o store k = .trap 0x0F 0 (t.backTo s) := by
  unfold State.tileAccess
  simp only [htake, R.andThen_ok, State.shapeIn_ok _ htag hpoison hcheck, bne_iff_ne.2 hbits, if_true, R.orBack_trap]

/-- `tld` loads the rows still to do (R319). -/
theorem tld_spec (g : Gates) (o : FormT) (s s1 s2 s3 : State) (h : Shape) (sh : BitVec 24) (a : TensorAcc)
    (hr : Ready (.tld g o) s s1) (hready : TileReady o false h s1 s2) (hsh : sh = s2.myCtx.shapeOf o.tx)
    (ha : a = ⟨o.or == 1, o.pol, [], g.scopes⟩)
    (hrows : (State.overPositions (s2.rowsLeft (tshRows sh)) s2 fun y s => s.tileRow h a o.tx sh y) = .ok ⟨⟩ s3) :
    exec (.tld g o) s = .next (finished (.tld g o) s1 (s3.modMyStrip fun t => { t with vstart := 0 })) := by
  subst hsh
  refine issue_ok hr ((State.tileAccess_ready hready ha).trans ?_)
  simp only [hrows, R.andThen_ok]
  rfl

/-- `tst` stores the rows still to do (R319). -/
theorem tst_spec (g : Gates) (o : FormT) (s s1 s2 s3 : State) (h : Shape) (sh : BitVec 24) (a : TensorAcc)
    (hr : Ready (.tst g o) s s1) (hready : TileReady o true h s1 s2) (hsh : sh = s2.myCtx.shapeOf o.tx)
    (ha : a = ⟨o.or == 1, o.pol, [], g.scopes⟩)
    (hrows : (State.overPositions (s2.rowsLeft (tshRows sh)) s2 fun y s => R.each (List.range (tshCols sh)) s fun x s =>
      s.storeTensor s.me h a y x ((s.myCtx.tile o.tx).get (tshBits sh) y x)) = .ok ⟨⟩ s3) :
    exec (.tst g o) s = .next (finished (.tst g o) s1 (s3.modMyStrip fun t => { t with vstart := 0 })) := by
  subst hsh
  refine issue_ok hr ((State.tileAccess_ready hready ha).trans ?_)
  simp only [hrows, R.andThen_ok]
  rfl

/-- One row of a tile load: its elements, and the scales of the blocks that begin in it (R112, R319). -/
theorem tileRow_spec (s s1 s2 : State) (h : Shape) (a : TensorAcc) (tx : TNum) (sh : BitVec 24) (y : Nat) (vs es : List Nat)
    (hv : (R.gather (List.range (tshCols sh)) s fun x s => s.loadTensor s.me h a y x) = .ok vs s1)
    (he : (if tagScaled h.ftag = true ∧ y % 32 = 0 then R.gather (List.range ((tshCols sh + 31) / 32)) s1 fun bx s =>
      s.loadScale s.me h a ((List.range (min 32 (tshRows sh - y))).flatMap fun dy =>
        (List.range (min 32 (tshCols sh - 32 * bx))).map fun dx => (y + dy, 32 * bx + dx)) else .ok [] s1) = .ok es s2) :
    s.tileRow h a tx sh y = .ok ⟨⟩ (s2.modCtx s2.me fun x => x.modTile tx (TReg.loadRow (tshBits sh) y h.ftag vs es)) := by
  have hscales : s1.rowScales h a (tshRows sh) (tshCols sh) y = .ok es s2 := by
    unfold State.rowScales
    simp only [Bool.and_eq_true, beq_iff_eq]
    exact he
  unfold State.tileRow
  simp only [hv, R.bind_ok, hscales]

/-- `tzero` clears the rows still to do and gives the named tag; a wrong width raises 0x0F (R320). -/
theorem tzero_spec (g : Gates) (o : FormT) (s s1 : State) (sh : BitVec 24) (hr : Ready (.tzero g o) s s1)
    (hsh : sh = s1.myCtx.shapeOf o.tx) :
    (o.fmt ≠ 0 → tensorBits o.fmt.toNat ≠ tshBits sh → exec (.tzero g o) s = .next (s1.dropAnswers.takeCause 0x0F 0)) ∧
    (o.fmt = 0 ∨ tensorBits o.fmt.toNat = tshBits sh → exec (.tzero g o) s = .next (finished (.tzero g o) s1
      ((s1.modCtx s1.me fun x => x.modTile o.tx fun r => { ((List.range (tshRows sh)).drop s1.myStrip.vstart).foldl
        TReg.clearRow r with tag := o.fmt.setWidth 6 }).modMyStrip fun t => { t with vstart := 0 }))) := by
  subst hsh
  refine ⟨fun hne hw => issue_trap hr (if_pos ?_), fun h => issue_ok hr (if_neg ?_)⟩
  · rw [bne_iff_ne.2 hne, bne_iff_ne.2 hw]
    rfl
  · rw [Bool.and_eq_true, bne_iff_ne, bne_iff_ne]
    rintro ⟨hne, hw⟩
    exact h.elim hne hw

/-! Claims (R314 to R318, R322). -/

/-- An instruction on rows of a claim that is held goes on (R314, R317, R318). -/
theorem State.claim_held {s : State} {row0 m : Nat} {k : State → R PUnit} (h : ClaimHeld s row0 m) :
    s.claim row0 m k = k s := by
  obtain ⟨hrev, hrows, hin, hbusy⟩ := h
  have hok : (decide (s.myCtx.rowsGranted = 0) || decide (row0 + m > s.myCtx.rowsGranted)) = false := by
    rw [decide_eq_false hrows, decide_eq_false (Nat.not_lt_of_le hin)]
    rfl
  unfold State.claim
  simp only [hrev, hok, hbusy, Bool.false_eq_true, if_false]

/-- A revoked claim raises 0x66 (R317). -/
theorem State.claim_revoked {s : State} {row0 m : Nat} {k : State → R PUnit} (h : s.myCtx.revoked = true) :
    s.claim row0 m k = .trap 0x66 0 s := by
  unfold State.claim
  simp only [h, if_true]

/-- Rows that are not granted raise 0x65 (R314). -/
theorem State.claim_outside {s : State} {row0 m : Nat} {k : State → R PUnit} (h : s.myCtx.revoked = false)
    (hout : s.myCtx.rowsGranted < row0 + m) : s.claim row0 m k = .trap 0x65 0 s := by
  unfold State.claim
  simp only [h, Bool.false_eq_true, if_false, decide_eq_true hout, gt_iff_lt, Bool.or_true, if_true]

/-- Some row has another MODE (R322). -/
theorem rowsTake_iff (s : State) (row0 m : Nat) (mode : AccMode) : ((List.range m).any fun i =>
    (s.accRow s.me (row0 + i)).mode != .none && (s.accRow s.me (row0 + i)).mode != mode) = true ↔ ¬ RowsTake s row0 m mode := by
  unfold RowsTake
  simp only [List.any_eq_true, List.mem_range, Bool.and_eq_true, bne_iff_ne, not_forall, not_or]
  exact ⟨fun ⟨i, hi, h⟩ => ⟨i, hi, h⟩, fun ⟨i, hi, h⟩ => ⟨i, hi, h⟩⟩

/-- A multiply on rows that take its MODE goes on (R322). -/
theorem State.claimMode_takes {s : State} {row0 m : Nat} {mode : AccMode} {k : State → R PUnit} (h : ClaimHeld s row0 m)
    (ht : RowsTake s row0 m mode) : s.claimMode row0 m mode k = k s := by
  unfold State.claimMode
  rw [State.claim_held h]
  exact if_neg fun hc => (rowsTake_iff s row0 m mode).1 hc ht

/-- A multiply on a row of another MODE raises 0x05 (R322). -/
theorem State.claimMode_other {s : State} {row0 m : Nat} {mode : AccMode} {k : State → R PUnit} (h : ClaimHeld s row0 m)
    (ht : ¬ RowsTake s row0 m mode) : s.claimMode row0 m mode k = .trap 0x05 0 s := by
  unfold State.claimMode
  rw [State.claim_held h]
  exact if_pos ((rowsTake_iff s row0 m mode).2 ht)

/-- `tcvt` converts the accumulator values of the rows still to do (R326, R327). -/
theorem tcvt_spec (g : Gates) (o : FormT) (s s1 : State) (sh : BitVec 24) (row0 : Nat) (outs : List (Nat × List (Nat × Flags)))
    (hr : Ready (.tcvt g o) s s1) (hsh : sh = s1.myCtx.shapeOf o.tx) (hbits : tensorBits o.fmt.toNat = tshBits sh)
    (hcols : tshCols sh ≤ 64) (hrow : row0 = (s1.snapS o.sb).toNat % 2 ^ 32) (hclaim : ClaimHeld s1 row0 (tshRows sh))
    (houts : outs = (((List.range (tshRows sh)).drop s1.myStrip.vstart).map fun i => (i, (List.range (tshCols sh)).map fun c =>
      convert (if (s1.accRow s1.me (row0 + i)).mode = .int then 5 else 8) none o.fmt.toNat
        (if o.sc = 1 then some ((s1.myCtx.tile o.tx).scaleAt i (c / 32)) else none) (effMode o.rnd s1.fctlOf)
        (pilgrim s1.seedOf ((s1.snapS o.sb).extractLsb' 32 32) (BitVec.ofNat 32 (i * 256 + c))).toNat
        (effSat o.satm s1.fctlOf) (ftzOf s1.fctlOf) ((s1.accRow s1.me (row0 + i)).get c)))) :
    exec (.tcvt g o) s = .next (finished (.tcvt g o) s1 (((s1.modCtx s1.me fun x => x.modTile o.tx fun r =>
      { outs.foldl (fun (r : TReg) y => r.putRow (tshBits sh) y.1 (y.2.map (·.1))) r with tag := o.sc ++ o.fmt }).addFlags
        (outs.foldl (fun f y => y.2.foldl (fun f v => f ||| v.2) f) 0)).modMyStrip fun t => { t with vstart := 0 })) := by
  subst hsh hrow
  simp only [← beq_iff_eq (a := o.sc), ← beq_iff_eq (b := AccMode.int)] at houts
  subst houts
  show execTcvt g o s = _
  refine issue_ok hr ?_
  simp only [hbits, bne_self_eq_false, Bool.false_eq_true, if_false, gt_iff_lt, if_neg (Nat.not_lt_of_le hcols),
    State.claim_held hclaim]
  rfl

/-- `tld` and `tst` of a tile of another element width (R319). -/
def TileWidthRaises (mk : Gates → FormT → Instr) : Prop :=
  ∀ (g : Gates) (o : FormT) (s s1 s2 : State) (h : Shape), Ready (mk g o) s s1 → s1.takeGroups [o.va.toNat] = .ok ⟨⟩ s2 →
    (s2.myStrip.reg o.va.toNat).tag = 25 → s2.myStrip.poisonedAt [o.va.toNat] 8 (List.range 18) = false →
    Shape.check (s2.myStrip.record o.va.toNat) = .ok h →
    (tensorBits (tagFmt h.ftag) ≠ tshBits (s2.myCtx.shapeOf o.tx) →
      exec (mk g o) s = .next ((s2.backTo s1).dropAnswers.takeCause 0x0F 0))

/-- An instruction whose meaning is `tileAccess` raises so. -/
theorem tileWidthRaises_of_tileAccess {mk : Gates → FormT → Instr} {store : Bool}
    {k : FormT → Shape → TensorAcc → State → R PUnit}
    (hx : ∀ g o s, exec (mk g o) s = issue (mk g o) s fun s => s.tileAccess g o store (k o)) : TileWidthRaises mk := by
  intro g o s s1 s2 h hr htake htag hpoison hcheck hbits
  rw [hx]
  exact issue_trap hr (State.tileAccess_width htake htag hpoison hcheck hbits)

/-- `mattach` claims a run of free bands (R315). -/
theorem mattach_spec (g : Gates) (o : FormA) (s s1 s2 u : State) (q : Word) (hr : Ready (.mattach g o) s s1)
    (hq : s1.rdS o.sx = .ok q s2) (hu : u = s2.modCtx s2.me (fun x => { x with revoked := false })) :
    (u.myCtx.rowsGranted ≠ 0 ∨ q.toNat ∉ [64, 128, 192, 256] →
      exec (.mattach g o) s = .next (u.dropAnswers.takeCause 0x64 q)) ∧
    (u.myCtx.rowsGranted = 0 → q.toNat ∈ [64, 128, 192, 256] →
      (∀ t, u.takeBands (q.toNat / 64) = some t → exec (.mattach g o) s = .next (finished (.mattach g o) s1 t)) ∧
      (u.takeBands (q.toNat / 64) = none → exec (.mattach g o) s = .next (finished (.mattach g o) s1
        (u.modCtx u.me fun x => { x with mgrant := 0 })))) := by
  have hbad : (u.myCtx.rowsGranted != 0 || !(q.toNat == 64 || q.toNat == 128 || q.toNat == 192 || q.toNat == 256)) = true ↔
      u.myCtx.rowsGranted ≠ 0 ∨ q.toNat ∉ [64, 128, 192, 256] := by
    simp only [Bool.or_eq_true, bne_iff_ne, Bool.not_eq_true', Bool.or_eq_false_iff, beq_eq_false_iff_ne, List.mem_cons,
      List.not_mem_nil, or_false, not_or, and_assoc]
  have hunmark : s2.modCtx s2.me Ctx.unmark = u := hu.symm
  refine ⟨fun h => issue_trap hr ?_, fun h0 hmem => ⟨fun t ht => issue_ok hr ?_, fun ht => issue_ok hr ?_⟩⟩
  · rw [hq, R.bind_ok]
    dsimp only
    rw [hunmark, if_pos (hbad.2 h)]
  all_goals
    rw [hq, R.bind_ok]
    dsimp only
    rw [hunmark, if_neg (fun hc => (hbad.1 hc).elim (absurd h0) (absurd hmem)), ht]

/-- `mdetach` gives the bands up once nothing of its context is left in the matrix unit (R316). -/
theorem mdetach_spec (g : Gates) (s s1 : State) (hr : Ready (.mdetach g) s s1) :
    (s1.myCtx.queue = [] → s1.myCtx.run = none → (∀ m ∈ (s1.cluster (clusterOf s1.me)).matq, m.ctx ≠ s1.me) →
      (∀ d ∈ (s1.cluster (clusterOf s1.me)).drains, d.ctx ≠ s1.me) →
      exec (.mdetach g) s = .next (finished (.mdetach g) s1
        ((s1.giveBands s1.me).modCtx s1.me fun x => { x with revoked := false, mgrant := 0 }))) ∧
    (s1.myCtx.queue ≠ [] ∨ s1.myCtx.run ≠ none → exec (.mdetach g) s = .next (s1.park .matrix)) := by
  refine ⟨fun hq hrun hm hd => issue_ok hr (if_neg ?_), fun h => issue_stall hr (if_pos ?_)⟩
  · have hblocks : s1.myCtx.hasBlocks = false := by
      rw [Ctx.hasBlocks, hq, hrun]
      rfl
    have hmat : ((s1.cluster (clusterOf s1.me)).matq.any fun m => m.ctx == s1.me) = false := by simpa using hm
    have hdrains : ((s1.cluster (clusterOf s1.me)).drains.any fun d => d.ctx == s1.me) = false := by simpa using hd
    rw [hblocks, hmat, hdrains]
    decide
  · rw [(Ctx.hasBlocks_iff s1.myCtx).2 h]
    rfl

/-- `tmma` (R321, R322). -/
theorem tmma_spec (g : Gates) (o : FormT) (s s1 : State) (a b : TReg) (mode : AccMode) (row0 : Nat) (p : Mma)
    (hr : Ready (.tmma g o) s s1) (ha : a = s1.myCtx.tile o.tx) (hb : b = s1.myCtx.tile o.ty)
    (hnamed : o.fmt ≠ 0 → a.tag = o.sc ++ o.fmt ∧ b.tag = o.sc ++ o.fmt) :
    (pairMode a.tag b.tag = none → exec (.tmma g o) s = .next (s1.dropAnswers.takeCause 0x05 0)) ∧
    (pairMode a.tag b.tag = some mode → tshCols (s1.myCtx.shapeOf o.tx) = tshCols (s1.myCtx.shapeOf o.ty) →
      tshBits (s1.myCtx.shapeOf o.tx) = tensorBits (tagFmt a.tag) →
      tshBits (s1.myCtx.shapeOf o.ty) = tensorBits (tagFmt b.tag) → row0 = (s1.snapS o.sb).toNat →
      (s1.myCtx.revoked = true → exec (.tmma g o) s = .next (s1.dropAnswers.takeCause 0x66 0)) ∧
      (s1.myCtx.revoked = false → s1.myCtx.rowsGranted < row0 + tshRows (s1.myCtx.shapeOf o.tx) →
        exec (.tmma g o) s = .next (s1.dropAnswers.takeCause 0x65 0)) ∧
      (ClaimHeld s1 row0 (tshRows (s1.myCtx.shapeOf o.tx)) → ¬ RowsTake s1 row0 (tshRows (s1.myCtx.shapeOf o.tx)) mode →
        exec (.tmma g o) s = .next (s1.dropAnswers.takeCause 0x05 0)) ∧
      (ClaimHeld s1 row0 (tshRows (s1.myCtx.shapeOf o.tx)) → RowsTake s1 row0 (tshRows (s1.myCtx.shapeOf o.tx)) mode →
        p = ⟨mode, tagFmt a.tag, tagFmt b.tag, tshRows (s1.myCtx.shapeOf o.tx), tshRows (s1.myCtx.shapeOf o.ty),
          tshCols (s1.myCtx.shapeOf o.tx), a.get (tshBits (s1.myCtx.shapeOf o.tx)),
          b.get (tshBits (s1.myCtx.shapeOf o.ty)), a.scales, b.scales⟩ →
        exec (.tmma g o) s = .next (started (.tmma g o) s1 (s1.multiply row0 p (ticketOf (.tmma g o) s1))))) := by
  have htags : (o.fmt != 0 && (a.tag != o.sc ++ o.fmt || b.tag != o.sc ++ o.fmt)) = false := by
    by_cases hf : o.fmt = 0
    · rw [hf]
      rfl
    · obtain ⟨h1, h2⟩ := hnamed hf
      rw [h1, h2, bne_self_eq_false, Bool.or_self, Bool.and_false]
  show (_ → execTmma g o s = _) ∧ (_ → _ → _ → _ → _ → (_ → execTmma g o s = _) ∧ (_ → _ → execTmma g o s = _) ∧
    (_ → _ → execTmma g o s = _) ∧ (_ → _ → _ → execTmma g o s = _))
  refine ⟨fun hp => issueOwn_trap hr ?_, fun hp hcols hx hy hrow => ⟨fun hrev => issueOwn_trap hr ?_,
    fun hrev hout => issueOwn_trap hr ?_, fun hc ht => issueOwn_trap hr ?_, fun hc ht hpm => issueOwn_ok hr ?_⟩⟩
  · simp only [htags, Bool.false_eq_true, if_false, ← ha, ← hb, hp]
  all_goals
    simp only [htags, Bool.false_eq_true, if_false, ← ha, ← hb, hp, hcols, hx, hy, bne_self_eq_false, Bool.or_self, ← hrow]
  · exact State.claim_revoked hrev
  · exact State.claim_outside hrev hout
  · exact State.claimMode_other hc ht
  · rw [State.claimMode_takes hc ht, hpm, hx, hy, hcols]

/-- `tmma.s` (R323). -/
theorem tmmaS_spec (g : Gates) (o : FormT) (s s1 s2 s3 : State) (a : TReg) (mode : AccMode) (rows : List Nat)
    (hr : Ready (.tmmaS g o) s s1) (ha : a = s1.myCtx.tile o.tx) (hp : pairMode a.tag (o.fmt.setWidth 6) = some mode)
    (hs : tagScaled a.tag = false) (hw : s1.myStrip.ewB = 4) (htake : s1.takeGroups [o.va.toNat] = .ok ⟨⟩ s2)
    (hidx : s2.myStrip.indexCause o.va.toNat = none) (hvl : s2.myStrip.vl ≤ tshCols (s2.myCtx.shapeOf o.tx))
    (hpoison : s2.myStrip.poisonedAt [o.va.toNat] 4 (List.range s2.myStrip.vl) = false)
    (hc : ClaimHeld s2 (s2.snapS o.sb).toNat (tshRows (s2.myCtx.shapeOf o.tx)))
    (ht : RowsTake s2 (s2.snapS o.sb).toNat (tshRows (s2.myCtx.shapeOf o.tx)) mode)
    (hrows : (R.gather (List.range s2.myStrip.vl) s2 fun k s =>
      let va := s.snapS o.sa + s2.myStrip.index o.va.toNat k * 128
      if va.toNat % 128 != 0 then .trap 0x22 va s
      else (R.gather (List.range 32) s fun i s =>
        s.readElem s.me { rowElem (va + w64 (4 * i)) 4 .load o.pol with gates := g.scopes }).bind fun ws s =>
          .ok (joinWords ws) s.dropAnswers) = .ok rows s3) :
    exec (.tmmaS g o) s = .next (started (.tmmaS g o) s1
      (s3.multiply (s2.snapS o.sb).toNat ⟨mode, tagFmt a.tag, tagFmt (o.fmt.setWidth 6), tshRows (s2.myCtx.shapeOf o.tx), 64,
        s2.myStrip.vl, a.get (tensorBits (tagFmt a.tag)),
        fun j k => rowElement (tagFmt (o.fmt.setWidth 6)) (rows[k]?.getD 0) j, fun _ _ => none, fun _ _ => none⟩
        (ticketOf (.tmmaS g o) s1))) := by
  subst ha
  dsimp only at hrows
  show execTmmaS g o s = _
  refine issueOwn_ok hr ?_
  simp only [hp, hs, Bool.false_eq_true, if_false, hw, bne_self_eq_false, htake, R.andThen_ok, hidx, gt_iff_lt,
    if_neg (Nat.not_lt_of_le hvl), hpoison, State.claimMode_takes hc ht, hrows, R.bind_ok, R.orBack_ok]

/-! What a multiply changes (R322, R324). -/

/-- A row of a cluster that changes leaves memory, cores, queue and drains. -/
theorem State.modRows_rest {α : Type} (k base : Nat) (f : α → AccRow → AccRow) (l : List (Nat × α)) (s : State) :
    let t := l.foldl (fun (s : State) (x : Nat × α) => s.modRow k (base + x.1) (f x.2)) s
    t.mem = s.mem ∧ t.cores = s.cores ∧ (t.cluster k).matq = (s.cluster k).matq ∧
      (t.cluster k).drains = (s.cluster k).drains := by
  induction l generalizing s with
  | nil => exact ⟨rfl, rfl, rfl, rfl⟩
  | cons x l ih =>
    obtain ⟨hmem, hcores, hmatq, hdrains⟩ := ih (s.modRow k (base + x.1) (f x.2))
    have hcluster : (s.modRow k (base + x.1) (f x.2)).cluster k = _ := State.cluster_modCluster_same s k _
    rw [hcluster] at hmatq hdrains
    exact ⟨hmem, hcores, hmatq, hdrains⟩

/-- Flags that are added, and a strip's completion, change contexts alone. -/
theorem State.finishedFlags_rest (s : State) (f : Flags) : (s.addFlags f).finished.mem = s.mem ∧
    (s.addFlags f).finished.cores = s.cores ∧ (s.addFlags f).finished.clusters = s.clusters := by
  unfold State.addFlags
  split <;> exact ⟨rfl, rfl, rfl⟩

/-- A multiply changes rows of its cluster and waits in the matrix unit's queue (R322, R324). -/
theorem multiply_spec (s t : State) (row0 : Nat) (p : Mma) (tk : Option Ticket) (h : s.multiply row0 p tk = t) :
    t.mem = s.mem ∧ t.cores = s.cores ∧ (t.cluster (clusterOf s.me)).matq =
      (s.cluster (clusterOf s.me)).matq ++ [⟨s.me, tk⟩] ∧
    (t.cluster (clusterOf s.me)).drains = (s.cluster (clusterOf s.me)).drains := by
  subst h
  unfold State.multiply
  dsimp only
  obtain ⟨hmem, hcores, hmatq, hdrains⟩ := State.modRows_rest (clusterOf s.me) (64 * s.myCtx.band + row0)
    (fun (vs : List (Nat × Flags)) => AccRow.take p.mode (vs.map (·.1))) ((List.range p.m).map fun i =>
      (i, (List.range p.n).map fun j => p.value s.ftz i j ((s.accRow s.me (row0 + i)).get j))) s
  refine ⟨(State.finishedFlags_rest _ _).1.trans hmem, (State.finishedFlags_rest _ _).2.1.trans hcores, ?_, ?_⟩
  · rw [State.cluster, (State.finishedFlags_rest _ _).2.2]
    exact (congrArg Cluster.matq (State.cluster_modCluster_same _ _ _)).trans (congrArg (· ++ _) hmatq)
  · rw [State.cluster, (State.finishedFlags_rest _ _).2.2]
    exact (congrArg Cluster.drains (State.cluster_modCluster_same _ _ _)).trans hdrains

/-- `tdrain` (R325). -/
theorem tdrain_spec (g : Gates) (o : FormT) (s s1 s2 : State) (a st : Word) (widest : Nat) (hr : Ready (.tdrain g o) s s1)
    (ha : a = s1.snapS o.sa) (hst : st = s1.snapS o.sb) :
    (a.toNat % 4 ≠ 0 → exec (.tdrain g o) s = .next (s1.dropAnswers.takeCause 0x22 a)) ∧
    (a.toNat % 4 = 0 → st.toNat % 4 = 0 → ¬ (Config.spWindow ≤ a.toNat ∧ a.toNat < Config.spEnd) →
      s1.myCtx.revoked = false → s1.myCtx.rowsGranted ≠ 0 → s1.matrixBusy s1.me = false →
      (if (ticketOf (.tdrain g o) s1).isSome then s1.admitted a.toNat else .ok 7 s1) = .ok widest s2 →
      (∀ k, ticketOf (.tdrain g o) s1 = some k → k.scp.toNat ≤ widest) →
      exec (.tdrain g o) s = .next (started (.tdrain g o) s1
        (((({ s2 with nextId := s2.nextId + 1 } : State).modCluster (clusterOf s2.me) fun k => { k with drains := k.drains ++
          [⟨s2.nextId, s2.me, s2.myJobSlot, a, st, s1.myCtx.band, s1.myCtx.rowsGranted, ticketOf (.tdrain g o) s1⟩] }).opBegin
            s2.me).modMyStrip fun t => { t with vstart := 0 }))) := by
  subst ha hst
  refine ⟨fun hm => issueOwn_trap hr (if_pos (bne_iff_ne.2 hm)),
    fun hm hms hpad hrev hrows hbusy hadm hscope => ?_⟩
  have hwindow : (decide (Config.spWindow ≤ (s1.snapS o.sa).toNat) && decide ((s1.snapS o.sa).toNat < Config.spEnd)) = false := by
    rw [Bool.and_eq_false_iff, decide_eq_false_iff_not, decide_eq_false_iff_not]
    exact Decidable.not_and_iff_not_or_not.1 hpad
  have hwide : ((ticketOf (.tdrain g o) s1).any fun (t : Ticket) => decide (widest < t.scp.toNat)) = false := by
    cases htk : ticketOf (.tdrain g o) s1 with
    | none => rfl
    | some k => simpa using hscope k htk
  show execTdrain g o s = _
  refine issueOwn_ok hr ?_
  simp only [bne_zero_of_mod hm, bne_zero_of_mod hms, hwindow, hrev, Bool.false_eq_true, if_false, if_neg hrows, hbusy,
    gt_iff_lt]
  cases htk : ticketOf (.tdrain g o) s1 with
  | none =>
    rw [htk] at hadm hwide
    rw [Option.isSome_none, if_neg Bool.false_ne_true] at hadm
    cases hadm
    rfl
  | some k =>
    rw [htk] at hadm hwide
    rw [Option.isSome_some, if_pos rfl] at hadm
    simp only [hadm, R.bind_ok, hwide, Bool.false_eq_true, if_false]
    rfl

/-- Settles O41: tiles by their accesses, accumulators by their claims. -/
theorem tileInstructionsAndAccumulators : Obligations.TileInstructionsAndAccumulators := by
  unfold Obligations.TileInstructionsAndAccumulators
  refine ⟨⟨tld_spec, tileRow_spec, fun _ _ _ _ _ _ => rfl, tst_spec, tzero_spec, tcvt_spec, ?_⟩,
    mattach_spec, mdetach_spec, tmma_spec, tmmaS_spec, multiply_spec, tdrain_spec⟩
  show ∀ row ∈ (_ : List ((Gates → FormT → Instr) × Bool)), TileWidthRaises row.1
  simp only [List.forall_mem_cons, List.not_mem_nil, false_implies, implies_true, and_true]
  exact ⟨tileWidthRaises_of_tileAccess fun _ _ _ => rfl, tileWidthRaises_of_tileAccess fun _ _ _ => rfl⟩

end Sys2Proof.Machine
end

section
/-! The statement about the happenings of the matrix unit (R317, R324, R325). -/

namespace Sys2Proof.Machine

/-- What a drain does at its completion and at a fault of a contribution (R325). -/
theorem drain_spec (n id k : Nat) (s : State) (d : Drain) (hd : s.drainOf n id = some (k, d)) :
    (∀ t, s.drainValues k d (s.touched k d) = .ok ⟨⟩ t → exec (.drainComplete n id) s = .next (t.finishDrain k d)) ∧
    (∀ c a t, s.drainValues k d (s.touched k d) = .trap c a t →
      exec (.drainComplete n id) s = .next (t.failDrain k d c a)) ∧
    ∀ m c t x, (s.touched k d)[m]? = some x → s.drainValues k d ((s.touched k d).take m) = .ok ⟨⟩ t →
      exec (.drainContributionFault n id m c) s = .next (t.failDrain k d c
        (d.addr + BitVec.ofNat 64 x.1 * d.stride + BitVec.ofNat 64 (4 * x.2))) := by
  refine ⟨fun t h => ?_, fun c a t h => ?_, fun m c t x hx h => ?_⟩
  · show execDrainComplete n id s = _
    unfold execDrainComplete
    simp only [hd, h]
  · show execDrainComplete n id s = _
    unfold execDrainComplete
    simp only [hd, h]
  · show execDrainContributionFault n id m c s = _
    unfold execDrainContributionFault
    simp only [hd, h, hx]
    have haddr : w64 (d.at' x.1 x.2) = d.addr + BitVec.ofNat 64 x.1 * d.stride + BitVec.ofNat 64 (4 * x.2) :=
      BitVec.ofNat_toNat _ _ |>.trans (BitVec.setWidth_eq _)
    rw [haddr]

/-- A field of b bits at bit b * j of a number that is a word of n bits. -/
theorem ofNat_field (x : Nat) {b j n : Nat} (h : b * j + b ≤ n) :
    (BitVec.ofNat n x).toNat / 2 ^ (b * j) % 2 ^ b = x / 2 ^ (b * j) % 2 ^ b := by
  rw [BitVec.toNat_ofNat, mod_two_pow_field _ h]

/-- A value that leaves its row clears its own TOUCH bit alone, and reads as 0 (R325). -/
theorem AccRow.leave_spec (r : AccRow) (j : Nat) (hj : j < 64) : (AccRow.leave j r).touch.getLsbD j = false ∧
    (∀ i, i < 64 → i ≠ j → (AccRow.leave j r).touch.getLsbD i = r.touch.getLsbD i) ∧ (AccRow.leave j r).get j = 0 := by
  refine ⟨?_, fun i hi hij => ?_, ?_⟩
  · simp [AccRow.leave, hj]
  · simp only [AccRow.leave, BitVec.getLsbD_and, BitVec.getLsbD_not, BitVec.getLsbD_shiftLeft]
    by_cases hlt : i < j
    · simp [hi, hlt]
    · have hne : i - j ≠ 0 := by omega
      simp [hi, hlt, hne]
  · have hclear : (r.put j 0).vals.toNat / 2 ^ (32 * j) % 2 ^ 32 = 0 := by
      have hfield := replaceField_field r.vals.toNat (b := 32) (y := 0 % 2 ^ 32) (by decide) j j
      rw [if_pos rfl] at hfield
      unfold AccRow.put
      rw [ofNat_field _ (by omega)]
      exact hfield
    unfold AccRow.get
    split
    · rfl
    · exact hclear

/-- A claim of a unit that is switched out is revoked once its operations are done (R317). -/
theorem accumulatorRevoke_spec (ctx : Nat) (s s0 : State)
    (h0 : s0 = { s with heldBack := s.heldBack.filter (· ≠ .accumulatorRevoke ctx) }) :
    (s0.revokeOf ctx = none → exec (.accumulatorRevoke ctx) s = .next s0) ∧
    ∀ n, s0.revokeOf ctx = some n →
      (s0.claimBusy n = true →
        exec (.accumulatorRevoke ctx) s = .next { s0 with heldBack := s0.heldBack ++ [.accumulatorRevoke ctx] }) ∧
      (s0.claimBusy n = false → ∃ u : Byte, u.getLsbD 1 = true ∧ exec (.accumulatorRevoke ctx) s =
        .next ((((s0.giveBands n).modOwner n fun x => { x with mgrant := 0, revoked := true }).savedWrite n 0x630
          (List.replicate 8 0)).savedWrite n 0x47 [u])) := by
  have hs0 : ({ s with heldBack := s.heldBack.filter (· != .accumulatorRevoke ctx) } : State) = s0 := by
    subst h0
    simp only [bne, ne_eq, decide_not, beq_eq_decide]
  clear h0
  subst hs0
  have hexec : exec (.accumulatorRevoke ctx) s = execAccumulatorRevoke ctx s := rfl
  rw [hexec]
  unfold execAccumulatorRevoke
  refine ⟨fun h => ?_, fun n h => ⟨fun hb => ?_, fun hb => ?_⟩⟩
  · simp only [h]
  · simp only [h, hb, if_true]
  · simp only [h, hb, Bool.false_eq_true, if_false]
    exact ⟨_, by simp, rfl⟩

/-- Settles O42: the queue in its order, drains by their values, revocations by the operations that are not done. -/
theorem matrixHappeningsCompleteInOrder : Obligations.MatrixHappeningsCompleteInOrder := by
  unfold Obligations.MatrixHappeningsCompleteInOrder
  refine ⟨fun k s m r h => ?_, fun k s h => ?_, fun n id s h => ⟨?_, fun m c => ?_⟩, fun n id k s d => drain_spec n id k s d,
    AccRow.leave_spec, accumulatorRevoke_spec⟩
  · show execMatrixOperationComplete k s = _
    unfold execMatrixOperationComplete
    simp only [h]
  · show execMatrixOperationComplete k s = _
    unfold execMatrixOperationComplete
    simp only [h]
  · show execDrainComplete n id s = _
    unfold execDrainComplete
    simp only [h]
  · show execDrainContributionFault n id m c s = _
    unfold execDrainContributionFault
    simp only [h]

end Sys2Proof.Machine
end

section
/-! The statement about the Relay (R329 to R340). -/

namespace Sys2Proof.Machine

/-! Its instructions (R336 to R339). -/

/-- On the Relay of its own job an instruction goes on. -/
theorem State.onRelay_mine {s : State} (h : s.relayMine = true) (k : State → R PUnit) : s.onRelay k = k s := if_pos h

/-- An instruction of another job raises 0x63 (R329). -/
theorem State.onRelay_foreign {s : State} (h : s.relayMine = false) (k : State → R PUnit) :
    s.onRelay k = .trap 0x63 0 s := if_neg (by rw [h]; exact Bool.false_ne_true)

/-- The shadow bank takes a write while no copy-back is due (R336). -/
theorem State.shadow_free {s : State} (h : s.myRelay.commit = none) (f : RelayBank → RelayBank) :
    s.shadow f = R.done (s.modRelay (clusterOf s.me) fun r => r.modBank (!r.act) f) :=
  if_neg (by rw [h]; exact Bool.false_ne_true)

/-- A write of the shadow bank waits for a copy-back that is due (R336). -/
theorem State.shadow_due {s : State} (h : s.myRelay.commit ≠ none) (f : RelayBank → RelayBank) :
    s.shadow f = .stall .copyback s :=
  if_pos (Option.isSome_iff_ne_none.2 h)

/-- An instruction of another job raises 0x63, whatever else it does. -/
def RelayInstr (i : Gates → FormY → Instr) : Prop :=
  ∀ (g : Gates) (o : FormY) (s s1 : State), Ready (i g o) s s1 → s1.relayMine = false →
    exec (i g o) s = .next (s1.dropAnswers.takeCause 0x63 0)

/-- An image of a station's table goes into the shadow bank (R331, R336). -/
theorem rtw_spec (g : Gates) (o : FormY) (s s1 s2 s3 s4 : State) (a : Word) (h body : List Byte) (hr : Ready (.rtw g o) s s1)
    (hmine : s1.relayMine = true) (ha : s1.rdS o.sa = .ok a s2) :
    (a.toNat % 32 ≠ 0 → exec (.rtw g o) s = .next (s2.dropAnswers.takeCause 0x22 a)) ∧
    (a.toNat % 32 = 0 → s2.image a.toNat 32 = .ok h s3 →
      s3.image (a.toNat + 32) (32 * natAt h 6 2) = .ok body s4 →
      (tableHead h = false ∨ entriesOf (natAt h 2 1) o.stn.toNat (natAt h 6 2) body = none →
        exec (.rtw g o) s = .next (s4.dropAnswers.takeCause 0x67 a)) ∧
      ∀ es, tableHead h = true → entriesOf (natAt h 2 1) o.stn.toNat (natAt h 6 2) body = some es →
        (s4.myRelay.commit = none → exec (.rtw g o) s = .next (finished (.rtw g o) s1
          (s4.modRelay (clusterOf s4.me) fun r => r.modBank (!r.act) (RelayBank.modStation o.stn.toNat
            (Station.load (natAt h 2 1) (natAt h 4 2) es))))) ∧
        (s4.myRelay.commit ≠ none → exec (.rtw g o) s = .next (s4.park .copyback))) := by
  refine ⟨fun hm => issue_trap hr ?_, fun hm hh hb => ⟨fun hbad => issue_trap hr ?_, fun es hhead hes =>
    ⟨fun hc => issue_ok hr ?_, fun hc => issue_stall hr ?_⟩⟩⟩
  · simp only [State.onRelay_mine hmine, ha, R.bind_ok]
    exact if_pos (bne_iff_ne.2 hm)
  all_goals simp only [State.onRelay_mine hmine, ha, R.bind_ok, bne_zero_of_mod hm, Bool.false_eq_true, if_false, hh, hb]
  · have hnone : (if tableHead h then entriesOf (natAt h 2 1) o.stn.toNat (natAt h 6 2) body else none) = none := by
      rcases hbad with hbad | hbad
      · rw [hbad]; rfl
      · rw [hbad, ite_self]
    simp only [hnone]
  · simp only [hhead, if_true, hes, State.shadow_free hc]
  · simp only [hhead, if_true, hes, State.shadow_due hc]

/-- A class image goes into a slot of the shadow bank (R330, R336). -/
theorem rclass_spec (g : Gates) (o : FormY) (s s1 s2 s3 s4 : State) (a n : Word) (b : List Byte) (c : RelayClass)
    (hr : Ready (.rclass g o) s s1) (hmine : s1.relayMine = true) (ha : s1.rdS o.sa = .ok a s2)
    (hn : s2.rdS o.sb = .ok n s3) (hm : a.toNat % 64 = 0) (hb : s3.image a.toNat 64 = .ok b s4) :
    (15 < n.toNat ∨ classOf b = none → exec (.rclass g o) s = .next (s4.dropAnswers.takeCause 0x67 a)) ∧
    (n.toNat ≤ 15 → classOf b = some c → s4.myRelay.commit = none → exec (.rclass g o) s = .next (finished (.rclass g o) s1
      (s4.modRelay (clusterOf s4.me) fun r => r.modBank (!r.act) fun b => { b with classes := aset b.classes n.toNat c }))) := by
  refine ⟨fun hbad => issue_trap hr ?_, fun hle hc hcommit => issue_ok hr ?_⟩
  all_goals simp only [State.onRelay_mine hmine, ha, hn, R.bind_ok, bne_zero_of_mod hm, Bool.false_eq_true, if_false, hb]
  · have hnone : (if n.toNat > 15 then none else classOf b) = none := by
      rcases hbad with hbad | hbad
      · exact if_pos hbad
      · rw [hbad, ite_self]
    simp only [hnone]
  · simp only [gt_iff_lt, Nat.not_lt.2 hle, if_false, hc, State.shadow_free hcommit]
    rfl

/-- A valid miss action goes into the shadow bank (R332, R336). -/
theorem rmiss_spec (g : Gates) (o : FormY) (s s1 s2 : State) (a : Word) (hr : Ready (.rmiss g o) s s1)
    (hmine : s1.relayMine = true) (ha : s1.rdS o.sa = .ok a s2) :
    (actionOk a o.stn.toNat = false → exec (.rmiss g o) s = .next (s2.dropAnswers.takeCause 0x67 a)) ∧
    (actionOk a o.stn.toNat = true → s2.myRelay.commit = none → exec (.rmiss g o) s = .next (finished (.rmiss g o) s1
      (s2.modRelay (clusterOf s2.me) fun r => r.modBank (!r.act) (RelayBank.setMiss o.stn.toNat a)))) := by
  refine ⟨fun hbad => issue_trap hr ?_, fun hok hc => issue_ok hr ?_⟩
  · simp only [State.onRelay_mine hmine, ha, R.bind_ok, hbad, Bool.not_false, if_true]
  · simp only [State.onRelay_mine hmine, ha, R.bind_ok, hok, Bool.not_true, Bool.false_eq_true, if_false,
      State.shadow_free hc]

/-- A copy-back makes the banks equal, the active one as it was (R337). -/
theorem Relay.copyBack_spec (r : Relay) : (Relay.copyBack r).bank0 = (Relay.copyBack r).bank1 ∧
    (Relay.copyBack r).commit = none ∧ (Relay.copyBack r).act = r.act ∧ (Relay.copyBack r).bank r.act = r.bank r.act := by
  cases hact : r.act <;> simp [Relay.copyBack, Relay.count, Relay.modBank, Relay.bank, hact]

/-- A counter is read, 0 above 23 (R339). -/
theorem rstat_spec (g : Gates) (o : FormA) (s s1 s2 s3 : State) (n : Word) (hr : Ready (.rstat g o) s s1)
    (hmine : s1.relayMine = true) (hn : s1.rdS o.sy = .ok n s2) (hd : s2.dstReady o.sx = .ok ⟨⟩ s3) :
    exec (.rstat g o) s = .next (finished (.rstat g o) s1
      (s3.setS o.sx (if n.toNat < 24 then BitVec.ofNat 64 (aget 0 s2.myRelay.counters n.toNat) else 0))) := by
  refine issue_ok hr ?_
  simp only [State.onRelay_mine hmine, hn, R.bind_ok]
  exact State.wrS_ok _ hd

/-! Runs (R333 to R335). -/

/-- `rrun` once its form and place are allowed. -/
theorem rrun_eq {g : Gates} {o : FormY} {s : State} (hform : formCause (.rrun g o) false s.cur.party.place = none)
    (hregion : s.myRegion = none) :
    exec (.rrun g o) s = .next (State.settle (s.runTicket g fun tk s => s.onRelay fun s => s.rrun o tk)) := by
  show execRrun g o s = _
  unfold execRrun
  simp only [hform, hregion, Option.isSome_none, Bool.false_eq_true, if_false]

/-- An admitted run waits for its end, and then completes or raises its trap (R335). -/
theorem rrun_admitted (g : Gates) (o : FormY) (s : State) (tk : Option Ticket) (q : RelayRun) (u : State)
    (hform : formCause (.rrun g o) false s.cur.party.place = none) (hregion : s.myRegion = none)
    (hmine : s.relayMine = true) (hkept : s.myStrip.kept = some tk) (hq : s.runOfStrip s.me s.myStrip.stripb = some q)
    (hu : u = s.modRelay (clusterOf s.me) (fun r => { r with runs := r.runs.filter (·.id != q.id) })) :
    (s.myRelay.over q = false → exec (.rrun g o) s = .next (s.park (.relayRun s.myStrip.stripb))) ∧
    (s.myRelay.over q = true → q.trapped = none → exec (.rrun g o) s =
      .next ((((u.modMyStrip fun t => { (if 0 < t.vl then t.tagGroup o.vd.toNat 8 5 else t) with
        vstart := 0, kept := none }).complete s.me tk).opEnd s.me).dropAnswers.advance)) ∧
    ∀ p c n, s.myRelay.over q = true → q.trapped = some (p, c, n) → exec (.rrun g o) s =
      .next ((u.modMyStrip fun t => { t with vstart := p }).dropAnswers.takeCause c (BitVec.ofNat 64 n)) := by
  have hticket : (s.runTicket g fun tk s => s.onRelay fun s => s.rrun o tk) = s.rrun o tk := by
    unfold State.runTicket
    simp only [hkept, State.onRelay_mine hmine]
  subst hu
  rw [rrun_eq hform hregion, hticket]
  unfold State.rrun
  simp only [hq]
  refine ⟨fun hover => ?_, fun hover htrap => ?_, fun p c n hover htrap => ?_⟩
  · rw [hover]
    rfl
  · simp only [hover, Bool.not_true, Bool.false_eq_true, if_false, htrap]
    rfl
  · simp only [hover, Bool.not_true, Bool.false_eq_true, if_false, htrap]
    rfl

/-- A run that has not started starts once its operands pass (R333). -/
theorem rrun_starts (g : Gates) (o : FormY) (s s1 : State) (hform : formCause (.rrun g o) false s.cur.party.place = none)
    (hregion : s.myRegion = none) (hkept : s.myStrip.kept = none) (hpost : g.post = none)
    (hwait : s.waitGate g = .ok ⟨⟩ s1) (hmine : s1.relayMine = true)
    (hq : s1.runOfStrip s1.me s1.myStrip.stripb = none) :
    (s1.myStrip.ewB ≠ 4 → exec (.rrun g o) s = .next (s1.dropAnswers.takeCause 0x0F 0)) ∧
    ∀ s2, s1.beginRun o none = .ok ⟨⟩ s2 → exec (.rrun g o) s = .next (s2.park (.relayRun s1.myStrip.stripb)) := by
  have hticket : (s.runTicket g fun tk s => s.onRelay fun s => s.rrun o tk) =
      (s1.beginRun o none).andThen fun s => .stall (.relayRun s1.myStrip.stripb) s := by
    unfold State.runTicket
    simp only [hkept, hwait, R.andThen_ok, hpost, State.onRelay_mine hmine]
    unfold State.rrun
    simp only [hq]
  rw [rrun_eq hform hregion, hticket]
  refine ⟨fun hew => ?_, fun s2 hbegin => ?_⟩
  · have htrap : s1.beginRun o none = .trap 0x0F 0 s1 := if_pos (bne_iff_ne.2 hew)
    rw [htrap]
    rfl
  · rw [hbegin]
    rfl

/-! The chain (R334, R335, R340). -/

/-- In a cycle the records move on, and a recirculating one is admitted before a new one (R340). -/
theorem relayAdmission_spec (k : Nat) (s u : State) (hu : u = s.modRelay k (fun r =>
      { r with chain := r.chain.map fun x => { x with station := x.station + 1 } })) :
    (∀ (x : RelayRec) (rest : List RelayRec), (u.cluster k).relay.recirc = x :: rest → exec (.relayAdmission k) s =
      .next ((u.modRelay k fun r => Relay.enter { r with recirc := rest } x).modRelay k Relay.stations)) ∧
    (∀ q, (u.cluster k).relay.recirc = [] → (u.cluster k).relay.nextRun = some q →
      exec (.relayAdmission k) s = .next ((u.admitNext k q).modRelay k Relay.stations)) ∧
    ((u.cluster k).relay.recirc = [] → (u.cluster k).relay.nextRun = none →
      exec (.relayAdmission k) s = .next (u.modRelay k Relay.stations)) := by
  have hmove : s.modRelay k Relay.move = u := hu.symm
  have hexec : exec (.relayAdmission k) s = .next (s.relayCycle k true) := rfl
  rw [hexec]
  unfold State.relayCycle
  rw [hmove]
  refine ⟨fun x rest hx => ?_, fun q hnone hq => ?_, fun hnone hq => ?_⟩
  · simp only [hx]
  · simp only [hnone, hq, if_true]
  · simp only [hnone, hq]

/-- Counting events leaves the records and the runs where they are. -/
theorem Relay.counts_records (ks : List Nat) : ∀ r : Relay, (r.counts ks).chain = r.chain ∧ (r.counts ks).recirc = r.recirc ∧
    (r.counts ks).leaving = r.leaving := by
  induction ks with
  | nil => exact fun _ => ⟨rfl, rfl, rfl⟩
  | cons k ks ih => exact fun r => ih (r.count k)

/-- A record at its station stays, recirculates or leaves (R334). -/
theorem Relay.station_spec (r : Relay) (x : RelayRec) (q : RelayRun) (e : StationEnd) (hq : r.run? x.run = some q)
    (he : e = x.look (r.bank x.bank) ((r.bank x.bank).class q.slot)) :
    (e.after = .stays → (r.station x).chain = r.chain ++ [e.record] ∧ (r.station x).recirc = r.recirc) ∧
    (e.after = .again → (r.station x).chain = r.chain ∧ (r.station x).recirc = insertBy (·.first) e.record r.recirc) ∧
    (e.after = .leaves → (r.station x).chain = r.chain ∧ (r.station x).leaving = r.leaving ++ [e.record]) := by
  obtain ⟨hchain, hrecirc, hleaving⟩ := Relay.counts_records e.events r
  unfold Relay.station
  simp only [hq, ← he]
  refine ⟨fun ha => ?_, fun ha => ?_, fun ha => ?_⟩
  · simp only [ha, hchain, hrecirc, and_self]
  · simp only [ha, hchain, hrecirc, and_self]
  · simp only [ha]
    split <;> exact ⟨hchain, congrArg (· ++ [e.record]) hleaving⟩

/-- The Relay of a cluster after a change of it. -/
theorem State.relay_modRelay_same (s : State) (k : Nat) (f : Relay → Relay) :
    ((s.modRelay k f).cluster k).relay = f (s.cluster k).relay :=
  congrArg Cluster.relay (State.cluster_modCluster_same ..)

/-- A change of a strip leaves the clusters. -/
theorem State.cluster_modStrip (s : State) (c b : Nat) (f : Strip → Strip) (k : Nat) :
    (s.modStrip c b f).cluster k = s.cluster k := rfl

/-- The first record that has left is taken off the list, and memory and cores keep what they hold (R335). -/
theorem State.relayLeave_spec (k : Nat) (s : State) (x : RelayRec) (rest : List RelayRec)
    (hx : (s.cluster k).relay.leaving = x :: rest) : ((s.relayLeave k).cluster k).relay.leaving = rest ∧
      (s.relayLeave k).mem = s.mem ∧ (s.relayLeave k).cores = s.cores := by
  unfold State.relayLeave
  simp only [hx]
  split
  · exact ⟨State.relay_modRelay_same .. ▸ rfl, rfl, rfl⟩
  · refine ⟨?_, rfl, rfl⟩
    rw [State.cluster_modStrip, State.relay_modRelay_same]
    rfl

/-- Settles O43: the instructions by their reads and the shadow bank, the runs by their stages, the chain by its stations. -/
theorem relayRunsRecordsThroughItsChain : Obligations.RelayRunsRecordsThroughItsChain := by
  unfold Obligations.RelayRunsRecordsThroughItsChain
  refine ⟨fun s k h => State.onRelay_foreign (beq_eq_false_iff_ne.2 h) k, ?_, rtw_spec, rclass_spec, rmiss_spec,
    fun g o s s1 hr hmine hc => issueOwn_ok hr ?_, fun k s m hm hmay => ⟨?_, Relay.copyBack_spec⟩, rstat_spec,
    fun g o s s1 b hform hregion hb => ⟨fun tk q u hkept hmine hq hu => ?_, ?_⟩, relayAdmission_spec,
    fun r x => ⟨rfl, fun h => ?_, Relay.station_spec r x⟩, fun k s h => ?_,
    fun k s x rest hx => ⟨_, rfl, State.relayLeave_spec k s x rest hx⟩⟩
  · show ∀ row ∈ (_ : List (Gates → FormY → Instr)), RelayInstr row
    simp only [List.forall_mem_cons, List.not_mem_nil, false_implies, implies_true, and_true]
    exact ⟨fun _ _ _ _ hr h => issue_trap hr (State.onRelay_foreign h _),
      fun _ _ _ _ hr h => issue_trap hr (State.onRelay_foreign h _),
      fun _ _ _ _ hr h => issue_trap hr (State.onRelay_foreign h _),
      fun _ _ _ _ hr h => issueOwn_trap hr (State.onRelay_foreign h _)⟩
  · simp only [State.onRelay_mine hmine, hc, Option.isSome_none, Bool.false_eq_true, if_false]
    rfl
  · show execRcommitCopyback k s = _
    unfold execRcommitCopyback
    simp only [hm, hmay, if_true]
  · subst hb
    exact rrun_admitted g o s tk q u hform hregion hmine hkept hq hu
  · exact rrun_starts g o s s1 hform hregion
  · unfold Relay.station
    simp only [h]
  · show Host.Outcome.next (s.relayLeave k) = _
    unfold State.relayLeave
    simp only [h]

end Sys2Proof.Machine
end

section
/-! The statements about reset and scalar registers (R43, R67, R394), the decoder's tables (R177 to R185, R352 to R355), and
the step of a control thread or a strip (R174 to R187). -/

namespace Sys2Proof.Machine

/-! Scalar registers (R43). -/

/-- s0 reads zero (R43). -/
theorem Ctx.sreg_zero (x : Ctx) : x.sreg 0 = 0 := if_pos rfl

/-- A write of s0 is discarded (R43). -/
theorem Ctx.setSreg_zero (x : Ctx) (v : Word) : x.setSreg 0 v = x := if_pos rfl

/-- What a scalar register reads as after a write to another one than s0 (R43). -/
theorem Ctx.sreg_setSreg (x : Ctx) (k q : SReg) (v : Word) (hk : k ≠ 0) :
    (x.setSreg k v).sreg q = if q = k then v else x.sreg q := by
  unfold Ctx.sreg Ctx.setSreg
  rw [if_neg hk]
  by_cases hqk : q = k
  · subst hqk
    rw [if_neg hk, if_pos rfl, Vector.getElem?_setIfInBounds_self_of_lt q.isLt]
    rfl
  · have hne : k.toNat ≠ q.toNat := fun h => hqk (BitVec.eq_of_toNat_eq h.symm)
    simp only [hqk, if_false, Vector.getElem?_setIfInBounds_ne hne]

/-- Forgetting a token leaves the registers. -/
theorem Ctx.sreg_forgetToken (x : Ctx) (k q : SReg) : (x.forgetToken k).sreg q = x.sreg q := rfl

/-- Settles O1: reset by its value, registers by the write of one. -/
theorem resetAndScalarRegisters : Obligations.ResetAndScalarRegisters := by
  unfold Obligations.ResetAndScalarRegisters
  have hempty : slotState 0 = 0 := BitVec.eq_of_getLsbD_eq fun i _ => by simp [slotState]
  have hslot : ∀ c, State.reset.slot c = 0 := fun c => rfl
  refine ⟨⟨rfl, rfl, rfl, fun _ => rfl, fun c => ⟨rfl, hslot c, by rw [hslot c, hempty]⟩, fun _ => rfl, fun _ => rfl,
    fun x v => ⟨x.sreg_zero, x.setSreg_zero v⟩, fun x k q v => x.sreg_setSreg k q v, fun k => ?_⟩,
    fun s k j v hctl => ⟨s.myCtx.sreg_zero, ?_, fun c hc => ?_⟩⟩
  · unfold Ctx.sreg
    rw [show Ctx.zero.s = Vector.replicate 64 0 from rfl, Vector.getElem?_replicate, if_pos k.isLt, ite_eq_left_iff]
    exact fun _ => rfl
  · have hset : s.setS k v = s.modCtx s.me fun x => (x.setSreg k v).forgetToken k := by
      unfold State.setS
      rw [hctl]
    have hctx : (s.setS k v).myCtx = (s.myCtx.setSreg k v).forgetToken k := by
      rw [hset]
      exact State.ctx_modCtx_same ..
    rw [hctx, Ctx.sreg_forgetToken]
    by_cases hk : k = 0
    · subst hk
      rw [Ctx.setSreg_zero]
      by_cases hj : j = 0
      · rw [if_pos hj, hj, Ctx.sreg_zero]
      · rw [if_neg hj, if_neg hj]
    · rw [Ctx.sreg_setSreg _ _ _ _ hk]
      by_cases hj : j = 0
      · rw [if_pos hj, hj, if_neg (Ne.symm hk), Ctx.sreg_zero]
      · rw [if_neg hj]
  · have hset : s.setS k v = s.modCtx s.me fun x => (x.setSreg k v).forgetToken k := by
      unfold State.setS
      rw [hctl]
    rw [hset]
    exact State.ctx_modCtx_ne _ _ _ _ hc

/-! The decoder (R177 to R187). -/

/-- What the checks of R187 let through is well formed. -/
theorem classify_wellFormed {i j : Instr} {raw : Bool} (h : classify i raw = .ok j) : WellFormed j = true := by
  unfold classify at h
  cases ha : accepts i with
  | false => simp [ha] at h
  | true =>
    cases hr : reservedOk i with
    | false => simp [ha, hr] at h
    | true =>
      cases hs : scopesOk i with
      | false =>
        cases raw with
        | false => simp [ha, hr, hs] at h
        | true => simp [ha] at h
      | true =>
        cases raw with
        | true => simp [ha, hr] at h
        | false =>
          simp only [ha, hr, hs, Bool.not_true, Bool.or_self, Bool.false_eq_true, if_false, Decoded.ok.injEq] at h
          subst h
          unfold WellFormed
          rw [ha, hr, hs]
          rfl

/-- A native instruction that decodes is well formed. -/
theorem decode_wellFormed {h : Half} {t : List Half} {i : Instr} (hd : decode h t = .ok i) : WellFormed i = true := by
  unfold decode at hd
  split at hd
  · split at hd
    · cases hd
      rfl
    · cases hd
  · simp only at hd
    split at hd
    · cases hd
    · split at hd
      · cases hd
      · exact classify_wellFormed hd

/-- Refutes O2: the word written out for `tmma` names FMT 8 (f32), a format that no multiply takes (R321), and is illegal. -/
theorem not_decodingReadsTheTables : ¬ Obligations.DecodingReadsTheTables := by
  unfold Obligations.DecodingReadsTheTables
  intro h
  obtain ⟨-, -, -, -, -, -, -, htmma, -⟩ := h
  have hillegal : decode 0b110000_011_00_00010#16
      [0b0000_0000_0001_0001#16, 0b0010_0000_0000_0110#16, 0b0000_0000_0000_0000#16] = .illegal := by decide +kernel
  rw [hillegal] at htmma
  cases htmma

/-! A step of a control thread or a strip (R16, R174, R175). -/

/-- A control thread or a strip whose turn it is issues its instruction. -/
theorem runAction_issue {p : Party} (s : State) (hplace : p.place = .ctl ∨ ∃ b, p.place = .strip b) :
    runAction (.issue p) s = issueOne p s := by
  unfold runAction
  rcases hplace with hplace | ⟨b, hplace⟩ <;> simp only [hplace]

/-- What moves next issues its instruction. -/
theorem moveOn_of_movesNext {s w : State} {p : Party} (hmoves : MovesNext s p w)
    (hplace : p.place = .ctl ∨ ∃ b, p.place = .strip b) : moveOn s = issueOne p w := by
  unfold moveOn
  rcases hmoves with ⟨hregion, hw⟩ | ⟨hregion, hagenda, a, r, t, hturns, ht, hact⟩
  · simp only [hregion, hw]
  · have hrun : runAction a t = issueOne p w := by
      rcases hact with ⟨ha, hw⟩ | ⟨k, i, ha, hnext, hp, hw⟩
      · rw [ha, hw]
        exact runAction_issue t hplace
      · rw [ha, hp, hw]
        unfold runAction
        simp only [hnext]
    rw [← hrun, ht]
    simp only [hregion]
    split
    next e r' h => rw [hagenda] at h; cases h
    next => simp only [hturns]

/-- A control thread or a strip that moves next issues its instruction at a step of a device that is up. -/
theorem step_of_movesNext {s w : State} {p : Party} (hfrozen : s.chip.frozen = false) (hbooted : s.chip.booted = true)
    (hboot : s.chip.boot = 0) (hmoves : MovesNext { s with now := s.now + 1 } p w)
    (hplace : p.place = .ctl ∨ ∃ b, p.place = .strip b) : step s = issueOne p w := by
  have hstep : step s = moveOn { s with now := s.now + 1 } := by
    show oneStep s = _
    unfold oneStep
    simp only [hfrozen, hbooted, hboot, bne_self_eq_false, Bool.and_false, Bool.or_self, Bool.false_eq_true, if_false,
      Bool.not_true]
  rw [hstep]
  exact moveOn_of_movesNext hmoves hplace

/-- An instruction that can be fetched runs in the bytes that the party goes on in (R174, R229). -/
theorem issueOne_fetched {w r t : State} {p : Party} {pc : Word} {bs bytes : List Byte}
    (hplace : p.place = .ctl ∨ ∃ b, p.place = .strip b) (hpc : pc = w.pcOf p)
    (hbreak : (w.ctx p.ctx).breaksAt pc = false ∨ w.passes p pc = true) (hrun : w.runAt p.ctx pc.toNat = none)
    (hfetch : State.fetchBytes { w with cur := latchOf p pc pc } p.ctx pc = .ok bs r) (hline : r.lineAt p pc bs = (bytes, t)) :
    issueOne p w = runLine p bytes pc t := by
  have hgo : ((w.ctx p.ctx).breaksAt pc && !w.passes p pc) = false := by
    rcases hbreak with h | h <;> simp [h]
  unfold issueOne
  rcases hplace with hplace | ⟨b, hplace⟩ <;>
    simp only [← hpc, hgo, Bool.false_eq_true, if_false, hrun, hplace, R.andThen_ok, hfetch, hline]

/-- The bytes are those just read, unless the party holds others of the line (R229). -/
theorem State.lineAt_same (s : State) (p : Party) (pc : Word) (bs : List Byte)
    (h : ∀ x ∈ (s.core (coreOf p.ctx)).held, x.1 = p → x.2.1 = pc → x.2.2 = bs) : s.lineAt p pc bs = (bs, s) := by
  unfold State.lineAt
  cases hf : (s.core (coreOf p.ctx)).held.find? (·.1 == p) with
  | none => rfl
  | some x =>
    have hmem := List.mem_of_find?_eq_some hf
    have hp : x.1 = p := eq_of_beq (List.find?_some hf :)
    refine if_pos ?_
    by_cases hpc : x.2.1 = pc
    · rw [h x hmem hp hpc, beq_self_eq_true, Bool.or_true]
    · rw [bne_iff_ne.2 hpc, Bool.true_or]

/-- What an instruction does in its line, by what its head and tail decode to (R174, R185, R187, R229). -/
theorem runLine_head {t v : State} {p : Party} {pc next : Word} {bytes : List Byte} {h : Half} {tl : List Half}
    (hplace : p.place = .ctl ∨ ∃ b, p.place = .strip b)
    (hhead : fetchHead (halvesOf bytes) (lineOf pc) (headOf pc) = .head h tl next)
    (hv : v = (if lineOf next = lineOf pc then State.holdLine { t with cur := latchOf p pc next } next bytes
      else State.refetch { t with cur := latchOf p pc next })) :
    v.cur.party.place = p.place ∧ runLine p bytes pc t = runDecoded (decode h tl) v := by
  have hcur : v.cur = latchOf p pc next := by
    rw [hv]
    split
    · rfl
    · unfold State.refetch
      split <;> rfl
  refine ⟨by rw [hcur]; rfl, ?_⟩
  unfold runLine
  rw [hhead]
  have hstrip : (match p.place with | .lane _ _ => false | _ => true) = true := by
    rcases hplace with hplace | ⟨b, hplace⟩ <;> rw [hplace]
  by_cases hnext : lineOf next = lineOf pc
  · rw [if_pos hnext] at hv
    rcases hplace with hplace | ⟨b, hplace⟩ <;>
      simp only [hnext, hplace, beq_self_eq_true, Bool.and_self, if_true, hv]
  · rw [if_neg hnext] at hv
    simp only [beq_eq_false_iff_ne.2 hnext, Bool.false_and, Bool.false_eq_true, if_false, hv]

/-- Settles O4: the step issues what moves next, the issue runs the line it goes on in, the line its head. -/
theorem stepRunsTheDecodedInstruction : Obligations.StepRunsTheDecodedInstruction := by
  unfold Obligations.StepRunsTheDecodedInstruction
  refine ⟨fun s w r t p pc bs bytes hfrozen hbooted hboot hmoves hplace hpc hbreak hrun hfetch hline => ?_,
    State.lineAt_same⟩
  have hstep : step s = runLine p bytes pc t :=
    (step_of_movesNext hfrozen hbooted hboot hmoves hplace).trans
      (issueOne_fetched hplace hpc hbreak hrun hfetch hline)
  rw [hstep]
  refine ⟨fun hend => ?_, fun hover => ?_, fun h tl next v hhead hv => ?_⟩
  · unfold runLine
    rw [hend]
  · unfold runLine
    rw [hover]
  · obtain ⟨hv, hline⟩ := runLine_head hplace hhead hv
    rw [hline, ← hv]
    refine ⟨fun i hi hhead => ⟨decode_wellFormed hi, ?_⟩, fun hi => ?_, fun i hi => ?_, fun i hi => ?_⟩
    · rw [hi]
      exact if_pos hhead
    all_goals rw [hi]; rfl

end Sys2Proof.Machine
end

section
/-! The statement about GO, STOP, pre-emption and the end of a handler (R36, R427, R429, R431). -/

namespace Sys2Proof.Machine

/-! The bits of a slot (R426). -/

/-- A field of a slot above GO, when GO is cleared. -/
theorem extract_clearGo (r : BitVec 512) {lo n : Nat} (hlo : 0 < lo) :
    (r &&& ~~~ (1#512)).extractLsb' lo n = r.extractLsb' lo n := by
  refine BitVec.eq_of_getLsbD_eq fun i hi => ?_
  rw [BitVec.getLsbD_extractLsb', BitVec.getLsbD_extractLsb', BitVec.getLsbD_and, BitVec.getLsbD_not, BitVec.getLsbD_one]
  by_cases hin : lo + i < 512
  · have hone : decide (lo + i = 0) = false := decide_eq_false (by omega)
    rw [hone, Bool.and_false, Bool.not_false, decide_eq_true hin, Bool.true_and, Bool.and_true]
  · rw [BitVec.getLsbD_of_ge r _ (Nat.not_lt.1 hin)]
    simp

/-- STATE when GO is cleared. -/
theorem slotState_clearGo (r : BitVec 512) : slotState (r &&& ~~~ (1#512)) = slotState r :=
  extract_clearGo r (by decide)

/-- JOB when GO is cleared. -/
theorem slotJob_clearGo (r : BitVec 512) : slotJob (r &&& ~~~ (1#512)) = slotJob r :=
  extract_clearGo r (by decide)

/-- A slot whose record is written (R426). -/
theorem State.slot_written (s : State) (c : Nat) (r : BitVec 512) :
    State.slot { s with bind := aset s.bind c r } c = r := aget_aset_same ..

/-- A slot whose STATE is set (R426). -/
theorem State.slot_setSlotState (s : State) (c : Nat) (st : BitVec 2) :
    (s.setSlotState c st).slot c = (s.slot c &&& ~~~ (6#512)) ||| ((st.setWidth 512) <<< 1) := aget_aset_same ..

/-- STATE after it is set. -/
theorem slotState_setState (r : BitVec 512) (st : BitVec 2) :
    slotState ((r &&& ~~~ (6#512)) ||| ((st.setWidth 512) <<< 1)) = st := by
  have hmask : ∀ i < 2, (~~~ (6#512)).getLsbD (1 + i) = false := by decide +kernel
  refine BitVec.eq_of_getLsbD_eq fun i hi => ?_
  have h6 := hmask i hi
  have hlow : 1 + i < 512 ∧ i < 512 ∧ ¬ 1 + i < 1 := by omega
  simp only [slotState, BitVec.getLsbD_extractLsb', BitVec.getLsbD_and, BitVec.getLsbD_or, BitVec.getLsbD_shiftLeft,
    BitVec.getLsbD_setWidth, h6, hi, hlow, Nat.add_sub_cancel_left, decide_true, decide_false, Bool.and_false,
    Bool.false_or, Bool.true_and, Bool.not_false]

/-- GO after STATE is set. -/
theorem getLsbD_zero_setState (r : BitVec 512) (st : BitVec 2) :
    ((r &&& ~~~ (6#512)) ||| ((st.setWidth 512) <<< 1)).getLsbD 0 = r.getLsbD 0 := by
  have hmask : (~~~ (6#512)).getLsbD 0 = true := by decide +kernel
  rw [BitVec.getLsbD_or, BitVec.getLsbD_and, hmask, BitVec.getLsbD_shiftLeft]
  simp

/-! A fresh bind (R67, R427). -/

/-- A context with the n first arguments of its unit in its registers from s4 on (R427). -/
def Ctx.withArgs (g : Nat → Word) (n : Nat) (x : Ctx) : Ctx :=
  ((List.range n).zip ((List.range n).map g)).foldl (fun (x : Ctx) (i, a) => x.setSreg (BitVec.ofNat 6 (4 + i)) a) x

/-- The arguments of a unit are in its registers from s4 on, and the other registers are as they were. -/
theorem Ctx.sreg_withArgs (x : Ctx) (g : Nat → Word) (q : SReg) : ∀ n ≤ 8, (x.withArgs g n).sreg q =
      if 4 ≤ q.toNat ∧ q.toNat < 4 + n then g (q.toNat - 4) else x.sreg q := by
  intro n hn
  induction n with
  | zero => rw [if_neg (by omega)]; rfl
  | succ n ih =>
    have hnat : (BitVec.ofNat 6 (4 + n)).toNat = 4 + n := by
      rw [BitVec.toNat_ofNat, Nat.mod_eq_of_lt (by omega)]
    have hne : BitVec.ofNat 6 (4 + n) ≠ 0 := by
      intro h
      have := congrArg BitVec.toNat h
      rw [hnat] at this
      exact absurd this (by simp)
    unfold Ctx.withArgs at ih ⊢
    rw [List.range_succ, List.map_append, List.zip_append (by simp), List.foldl_append]
    refine (Ctx.sreg_setSreg _ _ _ _ hne).trans ?_
    by_cases hq : q = BitVec.ofNat 6 (4 + n)
    · have hqn : q.toNat = 4 + n := by rw [hq, hnat]
      rw [if_pos hq, if_pos (by omega), hqn, Nat.add_sub_cancel_left]
    · have hqn : q.toNat ≠ 4 + n := fun h => hq (BitVec.eq_of_toNat_eq (h.trans hnat.symm))
      rw [if_neg hq, ih (by omega)]
      by_cases hin : 4 ≤ q.toNat ∧ q.toNat < 4 + n
      · rw [if_pos hin, if_pos (by omega)]
      · rw [if_neg hin, if_neg (by omega)]

/-- A context as its first bind leaves it: its record's fields in its registers, and its arguments (R67, R427). -/
def Ctx.freshOf (r : BitVec 512) (g : Nat → Word) : Ctx :=
  { ((Ctx.zero.setSreg 2 (r.extractLsb' 256 64)).setSreg 3 (r.extractLsb' 320 64)).withArgs g 8 with
    seed := r.extractLsb' 160 32, pc := r.extractLsb' 448 64 }

/-- Argument i of the unit of a slot (R427). -/
def State.argOf (s : State) (r : BitVec 512) (i : Nat) : Word :=
  w64 (s.jobNat (slotJob r) ((r.extractLsb' 384 64).toNat + 8 * i) 8)

/-- A fresh bind sets the context and STATE, and acquires (R67, R427). -/
theorem State.bindFresh_eq (s : State) (c : Nat) : s.bindFresh c =
    ((s.setCtx c (Ctx.freshOf (s.slot c) (s.argOf (s.slot c)))).setSlotState c 1).acquire (coreOf c) 4 := rfl

/-- The registers of a context are those of its register array. -/
theorem Ctx.sreg_congr {x y : Ctx} (h : x.s = y.s) (q : SReg) : x.sreg q = y.sreg q := by
  unfold Ctx.sreg
  rw [h]

/-- The registers of a context after its first bind (R427). -/
theorem Ctx.freshOf_sreg (r : BitVec 512) (g : Nat → Word) (q : SReg) : (Ctx.freshOf r g).sreg q =
    if 4 ≤ q.toNat ∧ q.toNat < 4 + 8 then g (q.toNat - 4)
    else ((Ctx.zero.setSreg 2 (r.extractLsb' 256 64)).setSreg 3 (r.extractLsb' 320 64)).sreg q := by
  have hs : (Ctx.freshOf r g).s =
      (((Ctx.zero.setSreg 2 (r.extractLsb' 256 64)).setSreg 3 (r.extractLsb' 320 64)).withArgs g 8).s := by
    unfold Ctx.freshOf
    rfl
  exact (Ctx.sreg_congr hs q).trans (Ctx.sreg_withArgs _ g q 8 (Nat.le_refl 8))

/-- A fresh bind leaves the slot running and its context as the record says (R67, R427). -/
theorem State.bindFresh_spec (s : State) (c : Nat) : slotState ((s.bindFresh c).slot c) = 1 ∧
    ((s.bindFresh c).slot c).getLsbD 0 = (s.slot c).getLsbD 0 ∧
    (s.bindFresh c).ctx c = Ctx.freshOf (s.slot c) (s.argOf (s.slot c)) := by
  obtain ⟨cs, rs, hacq⟩ :=
    ((s.setCtx c (Ctx.freshOf (s.slot c) (s.argOf (s.slot c)))).setSlotState c 1).acquire_cores (coreOf c) 4
  have hslot : (s.bindFresh c).slot c = (s.slot c &&& ~~~ (6#512)) ||| (((1#2).setWidth 512) <<< 1) := by
    rw [State.bindFresh_eq, hacq]
    exact State.slot_setSlotState ..
  refine ⟨?_, ?_, ?_⟩
  · rw [hslot, slotState_setState]
    rfl
  · rw [hslot, getLsbD_zero_setState]
  · rw [State.bindFresh_eq, hacq]
    exact State.ctx_setCtx_same ..

/-- GO, by STATE of the slot (R427, R429). -/
theorem go_spec (c : Nat) (s t : State) (ht : t = { s with bind := aset s.bind c (s.slot c &&& ~~~ (1#512)) }) :
    (slotState (s.slot c) = 1 → exec (.go c) s = .next (t.modTele fun k => { k with goign := k.goign + 1 })) ∧
    (slotState (s.slot c) ≠ 1 → s.slotEnded c = true → exec (.go c) s = .next (t.setSlotState c 3)) ∧
    (slotState (s.slot c) = 2 → s.slotEnded c = false → exec (.go c) s =
      .next (if ((t.resumeCtx c).ctx c).halted then (t.resumeCtx c).settleUnit c else t.resumeCtx c)) ∧
    (slotState (s.slot c) = 0 ∨ slotState (s.slot c) = 3 → s.slotEnded c = false →
      exec (.go c) s = .next (t.bindFresh c) ∧ slotState ((t.bindFresh c).slot c) = 1 ∧
      ((t.bindFresh c).slot c).getLsbD 0 = false ∧
      ((t.bindFresh c).ctx c).pc = (s.slot c).extractLsb' 448 64 ∧
      ((t.bindFresh c).ctx c).seed = (s.slot c).extractLsb' 160 32 ∧
      ((t.bindFresh c).ctx c).sreg 2 = (s.slot c).extractLsb' 256 64 ∧
      ((t.bindFresh c).ctx c).sreg 3 = (s.slot c).extractLsb' 320 64 ∧
      (∀ i < 8, ((t.bindFresh c).ctx c).sreg (BitVec.ofNat 6 (4 + i)) =
        w64 (t.jobNat (slotJob (s.slot c)) (((s.slot c).extractLsb' 384 64).toNat + 8 * i) 8)) ∧
      ((t.bindFresh c).ctx c).v = Ctx.zero.v ∧ ((t.bindFresh c).ctx c).vl = 0) := by
  have hslot : t.slot c = s.slot c &&& ~~~ (1#512) := by rw [ht]; exact State.slot_written ..
  have hstate : slotState (t.slot c) = slotState (s.slot c) := by rw [hslot, slotState_clearGo]
  have hgo : s.goCtx c = (if slotState (t.slot c) == 1 then t.modTele fun k => { k with goign := k.goign + 1 }
      else if slotState (t.slot c) == 2 then
        (if ((t.resumeCtx c).ctx c).halted then (t.resumeCtx c).settleUnit c else t.resumeCtx c)
      else t.bindFresh c) := by
    rw [ht]; rfl
  have hexec : exec (.go c) s = if s.slotEnded c && slotState (s.slot c) != 1 then .next (t.setSlotState c 3)
      else .next (s.goCtx c) := by
    rw [ht]; rfl
  rw [hexec, hgo, hstate]
  refine ⟨fun h => ?_, fun h hend => ?_, fun h hend => ?_, fun h hend => ⟨?_, ?_⟩⟩
  · simp only [h, bne_self_eq_false, Bool.and_false, Bool.false_eq_true, if_false, beq_self_eq_true, if_true]
  · simp only [hend, bne_iff_ne.2 h, Bool.and_self, if_true]
  · simp only [hend, Bool.false_and, Bool.false_eq_true, if_false, h, beq_self_eq_true, if_true]
    rfl
  · rcases h with h | h <;> simp only [hend, Bool.false_and, Bool.false_eq_true, if_false, h] <;> rfl
  · obtain ⟨hrun, hzero, hctx⟩ := t.bindFresh_spec c
    rw [hctx, hslot]
    rw [hslot] at hzero
    refine ⟨hrun, ?_, extract_clearGo _ (by decide), extract_clearGo _ (by decide), ?_, ?_, fun i hi => ?_, rfl, rfl⟩
    · rw [hzero]
      simp
    · exact (Ctx.freshOf_sreg ..).trans ((Ctx.sreg_setSreg _ 3 2 _ (by decide)).trans
        ((Ctx.sreg_setSreg _ 2 2 _ (by decide)).trans (extract_clearGo _ (by decide))))
    · exact (Ctx.freshOf_sreg ..).trans ((Ctx.sreg_setSreg _ 3 3 _ (by decide)).trans (extract_clearGo _ (by decide)))
    · have hnat : (BitVec.ofNat 6 (4 + i)).toNat = 4 + i := by
        rw [BitVec.toNat_ofNat, Nat.mod_eq_of_lt (by omega)]
      rw [Ctx.freshOf_sreg, if_pos (by omega), hnat, Nat.add_sub_cancel_left]
      unfold State.argOf
      rw [slotJob_clearGo, extract_clearGo _ (by decide)]

/-! STOP, pre-emption and the end of a handler (R36, R429, R431). -/

/-- A list that an element has been taken from does not hold it. -/
theorem filter_ne_filter_bne [DecidableEq α] (l : List α) (a : α) :
    (l.filter (fun x => decide (x ≠ a))).filter (fun x => !decide (x = a)) = l.filter fun x => decide (x ≠ a) := by
  rw [List.filter_filter]
  refine List.filter_congr fun x _ => ?_
  by_cases h : x = a <;> simp [h]

/-- STATE of a slot whose running context is pre-empted is 0b10, and STOP is clear (R36, R426). -/
theorem State.slot_preempt (s : State) (c : Nat) :
    slotState ((s.preempt c).slot c) = 2 ∧ ((s.preempt c).slot c).getLsbD 3 = false := by
  refine ⟨State.saveCtx_slotState .., ?_⟩
  simp only [State.preempt, State.saveCtx, State.slot, State.setCtx_bind, aget_aset_same]
  have hmask : (~~~ (8#512)).getLsbD 3 = false := by decide +kernel
  rw [BitVec.getLsbD_and, hmask, Bool.and_false]

/-- A pre-emption saves a running context, once no instruction of it waits for a peer's answer (R36, R196). -/
theorem preemption_spec (c : Nat) (s t : State) (ht : t = { s with heldBack := s.heldBack.filter (· ≠ .preemptionRequest c) }) :
    (slotState (s.slot c) = 1 →
      (t.inExecution c = true → exec (.preemptionRequest c) s =
        .next { t with heldBack := t.heldBack ++ [.preemptionRequest c] }) ∧
      (t.inExecution c = false →
        exec (.preemptionRequest c) s = .next (((t.preempt c).noteStopped c).later (.stewardBind (dieOf c))))) ∧
    (slotState (s.slot c) ≠ 1 → exec (.preemptionRequest c) s = .next t) := by
  have hheld : s.heldBack.filter (· != .preemptionRequest c) = t.heldBack := by
    rw [ht]
    simp only [bne, ne_eq, decide_not, beq_eq_decide]
  have hexec : exec (.preemptionRequest c) s = .next (t.switchOut c) := by
    have hstart : ({ s with heldBack := s.heldBack.filter (· != .preemptionRequest c) } : State) = t := by
      rw [hheld, ht]
    show Host.Outcome.next (State.switchOut { s with heldBack := s.heldBack.filter (· != .preemptionRequest c) } c) = _
    rw [hstart]
  have hslot : t.slot c = s.slot c := by rw [ht]; rfl
  have hagain : t.heldBack.filter (· != .preemptionRequest c) = t.heldBack := by
    rw [ht]
    simp only [bne, beq_eq_decide]
    exact filter_ne_filter_bne ..
  rw [hexec]
  unfold State.switchOut
  rw [hslot]
  refine ⟨fun h => ⟨fun hin => ?_, fun hin => ?_⟩, fun h => ?_⟩
  · simp only [h, bne_self_eq_false, Bool.false_eq_true, if_false, hin, if_true, hagain]
  · simp only [h, bne_self_eq_false, Bool.false_eq_true, if_false, hin]
  · simp only [bne_iff_ne.2 h, if_true]

/-- The end of a handler, by DISP (R431). -/
theorem handlerComplete_spec (c : Nat) (s : State) :
    (slotState (s.slot c) ≠ 2 ∨ s.movedOn c = true → exec (.handlerComplete c) s = .next s) ∧
    (slotState (s.slot c) = 2 → s.movedOn c = false →
      (s.disp c = 0 → exec (.handlerComplete c) s = .next ((s.rehalt c).resumeCtx c)) ∧
      (s.disp c = 2 → exec (.handlerComplete c) s = .next s) ∧
      ∀ l u, s.disp c ≠ 0 → s.disp c ≠ 2 → s.unitOf c = some (l, u) →
        exec (.handlerComplete c) s = .next (s.cancelUnit l u)) := by
  have hexec : exec (.handlerComplete c) s = execHandlerComplete c s := rfl
  rw [hexec]
  unfold execHandlerComplete
  refine ⟨fun h => if_pos ?_, fun h hmoved => ?_⟩
  · rcases h with h | h
    · rw [bne_iff_ne.2 h, Bool.true_or]
    · rw [h, Bool.or_true]
  · simp only [h, hmoved, bne_self_eq_false, Bool.or_self, Bool.false_eq_true, if_false]
    refine ⟨fun hd => ?_, fun hd => ?_, fun l u h0 h2 hu => ?_⟩
    · simp only [hd, if_true]
    · simp only [hd, if_true]
      rfl
    · simp only [h0, h2, if_false, hu]

/-- Settles O45: GO by STATE, a stop by what the context still executes, a handler's end by DISP. -/
theorem slotsGoStopAndResume : Obligations.SlotsGoStopAndResume := by
  unfold Obligations.SlotsGoStopAndResume
  refine ⟨go_spec, fun c s t ht => ?_, handlerComplete_spec⟩
  obtain ⟨hrun, hidle⟩ := preemption_spec c s t ht
  obtain ⟨hstate, hstop⟩ := t.slot_preempt c
  exact ⟨fun h => ⟨if_pos (beq_iff_eq.2 h), (hrun h).1, (hrun h).2, hstate, hstop⟩,
    fun h => ⟨if_neg (mt beq_iff_eq.1 h), hidle h⟩⟩

end Sys2Proof.Machine
end

section
/-! The statement about bind records, Steward decisions, quanta, L2 modes and edges (R104, R295, R419 to R428). -/

namespace Sys2Proof.Machine

/-! Fields of a bind record (R426). -/

/-- Bit i of a number x that stands in w bits from bit lo on. -/
def fieldBit (lo w x i : Nat) : Bool := decide (lo ≤ i ∧ i < lo + w) && x.testBit (i - lo)

/-- Outside its bits a field is 0. -/
theorem fieldBit_outside {lo w x i : Nat} (h : i < lo ∨ lo + w ≤ i) : fieldBit lo w x i = false := by
  unfold fieldBit
  rw [decide_eq_false (by omega), Bool.false_and]

/-- Inside its bits a field is its number. -/
theorem fieldBit_inside {lo w x i : Nat} (h : lo ≤ i) (h' : i < lo + w) : fieldBit lo w x i = x.testBit (i - lo) := by
  unfold fieldBit
  rw [decide_eq_true ⟨h, h'⟩, Bool.true_and]

/-- A number shifted to its place in a record. -/
theorem getLsbD_placed {lo w x : Nat} (hx : x < 2 ^ w) (hw : lo + w ≤ 512) (i : Nat) :
    (BitVec.ofNat 512 (x * 2 ^ lo)).getLsbD i = fieldBit lo w x i := by
  rw [BitVec.getLsbD_ofNat, Nat.testBit_mul_two_pow]
  unfold fieldBit
  by_cases hlo : lo ≤ i
  · by_cases hin : i < lo + w
    · rw [decide_eq_true (by omega : i < 512), decide_eq_true hlo, decide_eq_true ⟨hlo, hin⟩, Bool.true_and, Bool.true_and]
    · have hbit : x.testBit (i - lo) = false :=
        Nat.testBit_lt_two_pow (Nat.lt_of_lt_of_le hx (Nat.pow_le_pow_right (by decide) (by omega)))
      rw [hbit, Bool.and_false, Bool.and_false, Bool.and_false]
  · rw [decide_eq_false hlo, decide_eq_false (mt And.left hlo), Bool.false_and, Bool.and_false]

/-- The bits of a bind record. -/
theorem bindRecord_getLsbD (job : BitVec 32) (l : Launch) (u : Unit') (saved : Bool) (hl : l.lidx < 2 ^ 32) (hu : u.no < 2 ^ 12)
    (hp : l.prio < 8) (hs : l.splen < 256) (i : Nat) : (bindRecord job l u saved).getLsbD i =
      (fieldBit 448 64 l.entry.toNat i || fieldBit 384 64 u.argp.toNat i || fieldBit 320 64 u.tblk.toNat i ||
        fieldBit 256 64 u.stack.toNat i ||
        fieldBit 211 45 ((l.spbase.toNat + u.no * l.splen * 4096) % 2 ^ 57 / 4096) i || fieldBit 203 8 l.splen i ||
        fieldBit 160 32 l.seed.toNat i || fieldBit 128 32 job.toNat i || fieldBit 96 32 l.lidx i || fieldBit 84 12 u.no i ||
        fieldBit 81 3 l.prio i || fieldBit 27 50 (u.savea.toNat % 2 ^ 57 / 128) i ||
        fieldBit 0 3 (if saved then 4 else 0) i || fieldBit 0 1 1 i) := by
  have hone : (1#512).getLsbD i = fieldBit 0 1 1 i := by
    rw [← getLsbD_placed (lo := 0) (w := 1) (x := 1) (by decide) (by decide), Nat.pow_zero, Nat.mul_one]
  unfold bindRecord
  simp only [BitVec.getLsbD_or]
  rw [getLsbD_placed l.entry.isLt (by decide), getLsbD_placed u.argp.isLt (by decide), getLsbD_placed u.tblk.isLt (by decide),
    getLsbD_placed u.stack.isLt (by decide), getLsbD_placed (w := 45) (by omega) (by decide),
    getLsbD_placed (w := 8) hs (by decide), getLsbD_placed l.seed.isLt (by decide), getLsbD_placed job.isLt (by decide),
    getLsbD_placed hl (by decide), getLsbD_placed hu (by decide), getLsbD_placed (w := 3) hp (by decide),
    getLsbD_placed (w := 50) (by omega) (by decide), getLsbD_placed (w := 3) (by cases saved <;> decide) (by decide), hone]

/-- A field that alone stands in its bits of a record. -/
theorem extract_eq_of_fieldBit {r : BitVec 512} {lo n x : Nat} (h : ∀ i < n, r.getLsbD (lo + i) = fieldBit lo n x (lo + i)) :
    r.extractLsb' lo n = BitVec.ofNat n x := by
  refine BitVec.eq_of_getLsbD_eq fun i hi => ?_
  rw [BitVec.getLsbD_extractLsb', h i hi, fieldBit_inside (by omega) (by omega), BitVec.getLsbD_ofNat, Nat.add_sub_cancel_left]

/-- A bind record holds each field at its place (R426). -/
theorem bindRecord_spec (job : BitVec 32) (l : Launch) (u : Unit') (saved : Bool) (hl : l.lidx < 2 ^ 32) (hu : u.no < 2 ^ 12)
    (hp : l.prio < 8) (hs : l.splen < 256) :
    (bindRecord job l u saved).getLsbD 0 = true ∧ (bindRecord job l u saved).getLsbD 3 = false ∧
    slotState (bindRecord job l u saved) = (if saved then 2 else 0) ∧ slotJob (bindRecord job l u saved) = job ∧
    slotLidx (bindRecord job l u saved) = l.lidx ∧ slotUnit (bindRecord job l u saved) = u.no ∧
    slotPrio (bindRecord job l u saved) = l.prio ∧
    slotSave (bindRecord job l u saved) = u.savea.toNat % 2 ^ 57 / 128 * 128 ∧
    (bindRecord job l u saved).extractLsb' 448 64 = l.entry ∧ (bindRecord job l u saved).extractLsb' 384 64 = u.argp ∧
    (bindRecord job l u saved).extractLsb' 320 64 = u.tblk ∧ (bindRecord job l u saved).extractLsb' 256 64 = u.stack := by
  have hbit := bindRecord_getLsbD job l u saved hl hu hp hs
  have field : ∀ {lo n x : Nat}, (∀ i < n, (bindRecord job l u saved).getLsbD (lo + i) = fieldBit lo n x (lo + i)) →
    (bindRecord job l u saved).extractLsb' lo n = BitVec.ofNat n x := extract_eq_of_fieldBit
  have whole : ∀ {n : Nat} (x : BitVec n), BitVec.ofNat n x.toNat = x := fun x =>
    (BitVec.ofNat_toNat _ _).trans (BitVec.setWidth_eq _)
  have low : ∀ {n x : Nat}, x < 2 ^ n → (BitVec.ofNat n x).toNat = x := fun h => by
    rw [BitVec.toNat_ofNat, Nat.mod_eq_of_lt h]
  refine ⟨?_, ?_, ?_, (field (x := job.toNat) ?_).trans (whole _), (congrArg BitVec.toNat (field (x := l.lidx) ?_)).trans (low hl),
    (congrArg BitVec.toNat (field (x := u.no) ?_)).trans (low hu), (congrArg BitVec.toNat (field (x := l.prio) ?_)).trans (low hp),
    congrArg (· * 128) ((congrArg BitVec.toNat (field (x := u.savea.toNat % 2 ^ 57 / 128) ?_)).trans (low (by omega))),
    (field (x := l.entry.toNat) ?_).trans (whole _), (field (x := u.argp.toNat) ?_).trans (whole _),
    (field (x := u.tblk.toNat) ?_).trans (whole _), (field (x := u.stack.toNat) ?_).trans (whole _)⟩
  case refine_1 =>
    simp (disch := omega) only [hbit, fieldBit_outside, Bool.or_false, Bool.false_or]
    cases saved <;> rfl
  case refine_2 => simp (disch := omega) only [hbit, fieldBit_outside, Bool.or_false]
  case refine_3 =>
    refine BitVec.eq_of_getLsbD_eq fun i hi => ?_
    unfold slotState
    rw [BitVec.getLsbD_extractLsb', decide_eq_true hi, Bool.true_and]
    simp (disch := omega) only [hbit, fieldBit_outside, Bool.or_false, Bool.false_or]
    have hi' : i = 0 ∨ i = 1 := by omega
    rcases hi' with h | h <;> subst h <;> cases saved <;> rfl
  all_goals
    intro i hi
    simp (disch := omega) only [hbit, fieldBit_outside, Bool.or_false, Bool.false_or]

/-! Writes of the Steward's registers (R295, R426). -/

/-- The bits of a slot that a write of the Steward does not take from the value: the reserved ones and GO, STATE and STOP. -/
def slotKept : BitVec 512 := slotReserved ||| 0xF#512

/-- The bits of a slot after a write of the Steward. -/
theorem slotWritten_getLsbD (old v : BitVec 512) (i : Nat) : (slotWritten old v).getLsbD i =
    (v.getLsbD i && (decide (i < 512) && !slotKept.getLsbD i) || old.getLsbD i && (0xF#512).getLsbD i) := by
  unfold slotWritten slotKept
  rw [BitVec.getLsbD_or, BitVec.getLsbD_and, BitVec.getLsbD_and, BitVec.getLsbD_not]

/-- A field whose bits a write takes from the value. -/
theorem slotWritten_value (old v : BitVec 512) {lo n : Nat}
    (hmask : ∀ i < n, slotKept.getLsbD (lo + i) = false ∧ (0xF#512).getLsbD (lo + i) = false ∧ lo + i < 512) :
    (slotWritten old v).extractLsb' lo n = v.extractLsb' lo n := by
  refine BitVec.eq_of_getLsbD_eq fun i hi => ?_
  obtain ⟨hkept, hlow, hin⟩ := hmask i hi
  rw [BitVec.getLsbD_extractLsb', BitVec.getLsbD_extractLsb', slotWritten_getLsbD, hkept, hlow, decide_eq_true hin]
  simp

/-- The reserved bits of a slot are zero after a write. -/
theorem slotWritten_reserved (old v : BitVec 512) {lo n : Nat}
    (hmask : ∀ i < n, slotKept.getLsbD (lo + i) = true ∧ (0xF#512).getLsbD (lo + i) = false) :
    (slotWritten old v).extractLsb' lo n = 0 := by
  refine BitVec.eq_of_getLsbD_eq fun i hi => ?_
  obtain ⟨hkept, hlow⟩ := hmask i hi
  rw [BitVec.getLsbD_extractLsb', slotWritten_getLsbD, hkept, hlow]
  simp

/-- STATE of a slot is kept by a write of the Steward. -/
theorem slotState_slotWritten (old v : BitVec 512) : slotState (slotWritten old v) = slotState old := by
  have hmask : ∀ i < 2, slotKept.getLsbD (1 + i) = true ∧ (0xF#512).getLsbD (1 + i) = true := by decide +kernel
  refine BitVec.eq_of_getLsbD_eq fun i hi => ?_
  obtain ⟨hkept, hlow⟩ := hmask i hi
  unfold slotState
  rw [BitVec.getLsbD_extractLsb', BitVec.getLsbD_extractLsb', slotWritten_getLsbD, hkept, hlow]
  simp

/-- A write of a slot by the Steward (R426). -/
theorem registerWrite_slot (c : Nat) (v : BitVec 512) (s : State) : ∃ t, exec (.registerWrite (.slot c v)) s = .next t ∧
    slotState (t.slot c) = slotState (s.slot c) ∧ slotJob (t.slot c) = slotJob v ∧ slotLidx (t.slot c) = slotLidx v ∧
    slotUnit (t.slot c) = slotUnit v ∧ slotPrio (t.slot c) = slotPrio v ∧ slotSave (t.slot c) = slotSave v ∧
    (t.slot c).extractLsb' 192 11 = 0 ∧ (t.slot c).extractLsb' 77 4 = 0 ∧
    t.agenda = s.agenda ++ (if v.getLsbD 3 then [.stop c] else []) ++ (if v.getLsbD 0 then [.go c] else []) := by
  refine ⟨_, rfl, ?_⟩
  generalize ht : (if v.getLsbD 0 then _ else _ : State) = t
  have hslot : t.slot c = slotWritten (s.slot c) v := by
    rw [← ht]
    split <;> split <;> exact State.slot_written ..
  rw [hslot]
  refine ⟨slotState_slotWritten _ _, slotWritten_value _ _ (by decide +kernel),
    congrArg BitVec.toNat (slotWritten_value _ _ (by decide +kernel)),
    congrArg BitVec.toNat (slotWritten_value _ _ (by decide +kernel)),
    congrArg BitVec.toNat (slotWritten_value _ _ (by decide +kernel)),
    congrArg (fun x : BitVec 50 => x.toNat * 128) (slotWritten_value _ _ (by decide +kernel)),
    slotWritten_reserved _ _ (by decide +kernel), slotWritten_reserved _ _ (by decide +kernel), ?_⟩
  rw [← ht]
  cases v.getLsbD 3 <;> cases v.getLsbD 0 <;> simp [State.later]

/-- A write of a key-rack entry by the Steward (R295). -/
theorem registerWrite_key (e job : Nat) (v : BitVec 128) (s : State) (he : e < 4096) :
    ∃ t, exec (.registerWrite (.key e job v)) s = .next t ∧
    (t.key e).valid = v.getLsbD 84 ∧ (t.key e).scope = v.extractLsb' 81 3 ∧ (t.key e).lenm1 = v.extractLsb' 57 24 ∧
    (t.key e).base = v.extractLsb' 7 50 ∧ (t.key e).tenure = (s.key e).tenure ∧ (t.key e).holder = (s.key e).holder ∧
    (t.key e).held = (s.key e).held ∧ ∀ n, n ≠ e → t.key n = s.key n := by
  refine ⟨_, rfl, ?_⟩
  rw [Nat.mod_eq_of_lt he]
  have hsame : (s.modKey e (Key.write job v)).key e = Key.write job v (s.key e) := State.key_modKey_same ..
  rw [hsame]
  exact ⟨rfl, rfl, rfl, rfl, rfl, rfl, rfl, fun n hn => aget_aset_ne _ _ _ _ _ hn⟩

/-! Decisions of a Steward (R423 to R428). -/

/-- A Steward binds the first waiting unit or its gang, makes room for it, or asks for another mode (R423, R428). -/
theorem stewardBind_spec (die : Nat) (s t : State) (ht : t = (s.freeRelays die).modDie die (fun d => { d with ring := [] })) :
    (t.waitingOn die = [] → exec (.stewardBind die) s = .next t) ∧
    ∀ l u r grp, t.waitingOn die = (l, u) :: r → grp = (if l.gang then t.gangOf l else [(l, u)]) →
      (∀ m, t.modeAsked die ((l, u) :: r) = some m → exec (.stewardBind die) s =
        .next (if t.dieBusy die then t else t.later (.l2ModeChange die m))) ∧
      (t.modeAsked die ((l, u) :: r) = none → t.plan grp [] = none →
        exec (.stewardBind die) s = .next (t.makeRoom grp die l.prio)) ∧
      (∀ p w, t.modeAsked die ((l, u) :: r) = none → t.plan grp [] = some p →
        w = (p.foldl (fun s (l, u, c) => s.bindUnit l u c) t).updateEligible →
        exec (.stewardBind die) s = .next (if r.isEmpty then w else w.later (.stewardBind die))) := by
  subst ht
  have hexec : exec (.stewardBind die) s = execStewardBind die s := rfl
  rw [hexec]
  unfold execStewardBind
  refine ⟨fun h => ?_, fun l u r grp h hgrp => ⟨fun m hm => ?_, fun hm hp => ?_, fun p w hm hp hw => ?_⟩⟩
  · simp only [h]
  · simp only [h, hm]
  · simp only [h, hm, ← hgrp, hp]
  · simp only [h, hm, ← hgrp, hp, ← hw]

/-- A plan gives each unit of its group a free context that suits it (R425). -/
theorem State.plan_spec (s : State) (grp : List (Launch × Unit')) : ∀ (taken : List Nat) (p : List (Launch × Unit' × Nat)),
    s.plan grp taken = some p → p.map (fun q => (q.1, q.2.1)) = grp ∧
      ∀ q ∈ p, q.2.2 ∈ s.freeOn (q.1.dieOfUnit q.2.1.no) ∧ s.suits q.1 q.2.1 q.2.2 = true := by
  induction grp with
  | nil =>
    intro taken p h
    cases h
    exact ⟨rfl, fun q hq => absurd hq (List.not_mem_nil)⟩
  | cons a grp ih =>
    obtain ⟨l, u⟩ := a
    intro taken p h
    unfold State.plan at h
    cases hc : (s.freeOn (l.dieOfUnit u.no)).find? fun c => !taken.contains c && s.suits l u c with
    | none => simp only [hc] at h; cases h
    | some c =>
      simp only [hc] at h
      obtain ⟨p', hp', rfl⟩ := Option.map_eq_some_iff.1 h
      obtain ⟨hmap, hall⟩ := ih _ _ hp'
      have hsuits := List.find?_some hc
      rw [Bool.and_eq_true] at hsuits
      refine ⟨congrArg _ hmap, List.forall_mem_cons.2 ⟨⟨List.mem_of_find?_eq_some hc, hsuits.2⟩, hall⟩⟩

/-! Quanta, modes and edges (R104, R419 to R425). -/

/-- A unit whose quantum is over stops for one that waits, or for another mode (R424, R425, R428). -/
theorem quantumExpiry_spec (c : Nat) (s : State) (l : Launch) (u : Unit') (hu : s.unitOf c = some (l, u)) :
    (slotState (s.slot c) ≠ 1 ∨ l.gang = true → exec (.quantumExpiry c) s = .next s) ∧
    (slotState (s.slot c) = 1 → l.gang = false →
      ((s.modeAsked (dieOf c) (s.waitingOn (dieOf c))).isSome = true ∨
        (s.freeOn (dieOf c) = [] ∧ ∃ w ∈ s.waitingOn (dieOf c), l.prio ≤ w.1.prio) →
        exec (.quantumExpiry c) s = .next (s.switchOut c)) ∧
      (s.modeAsked (dieOf c) (s.waitingOn (dieOf c)) = none →
        (s.freeOn (dieOf c) ≠ [] ∨ ∀ w ∈ s.waitingOn (dieOf c), w.1.prio < l.prio) →
        exec (.quantumExpiry c) s = .next s)) := by
  have hexec : exec (.quantumExpiry c) s = execQuantumExpiry c s := rfl
  rw [hexec]
  unfold execQuantumExpiry
  simp only [hu]
  refine ⟨fun h => if_pos ?_, fun hrun hgang => ?_⟩
  · rcases h with h | h
    · rw [bne_iff_ne.2 h, Bool.true_or]
    · rw [h, Bool.or_true]
  · simp only [hrun, hgang, bne_self_eq_false, Bool.or_self, Bool.false_eq_true, if_false]
    refine ⟨fun h => ?_, fun hm h => ?_⟩
    · rcases h with h | ⟨hfree, hw⟩
      · rw [if_pos h]
      · have hany : ((s.waitingOn (dieOf c)).any fun (w, _) => w.prio ≥ l.prio) = true := by
          obtain ⟨w, hw, hprio⟩ := hw
          exact List.any_eq_true.2 ⟨w, hw, decide_eq_true hprio⟩
        rw [hfree, hany, List.isEmpty_nil, Bool.and_self, if_pos rfl, ite_self]
    · rw [hm]
      refine (if_neg Bool.false_ne_true).trans (if_neg ?_)
      rw [Bool.and_eq_true]
      rintro ⟨hfree, hany⟩
      obtain ⟨w, hw, hprio⟩ := List.any_eq_true.1 hany
      rcases h with h | h
      · exact h (List.isEmpty_iff.1 hfree)
      · exact Nat.not_lt.2 (of_decide_eq_true hprio) (h w hw)

/-- A die in another mode, its Steward called (R104). -/
theorem State.setPart_spec (s : State) (die : Nat) (m : Bool) (e : Event) :
    (((s.modDie die fun d => { d with part := m }).later e).die die).part = m ∧
      ((s.modDie die fun d => { d with part := m }).later e).agenda = s.agenda ++ [e] :=
  ⟨congrArg Die.part (State.die_modDie_same s die fun d => { d with part := m }), rfl⟩

/-- An edge whose predecessor has ended (R419 to R422). -/
theorem edgeFlush_spec (job lidx edge : Nat) (s t : State) (l : Launch) (e : Edge) (j : Job) (hl : s.launch job lidx = some l)
    (he : l.edges[edge]? = some e) (hj : s.jobAt job = some j)
    (ht : t = (e.flush.foldl (fun s f => s.flushEntry j.root f) s).modLaunch job lidx (Launch.satisfy edge)) :
    (((s.launch job e.pred).bind fun p => p.ended) = none ∨ e.satisfied = true →
      exec (.edgeFlush job lidx edge) s = .next s) ∧
    ∀ st, ((s.launch job e.pred).bind fun p => p.ended) = some st → e.satisfied = false →
      (st = .cancelled → exec (.edgeFlush job lidx edge) s =
        .next (t.cancelLevel (handle 2 job lidx 0 0)).2.updateEligible) ∧
      (st ≠ .cancelled → e.streaming = false → exec (.edgeFlush job lidx edge) s = .next t.updateEligible) ∧
      (st ≠ .cancelled → e.streaming = true →
        (∀ u, t.storeMark job e.wmark (BitVec.allOnes 64) = some u →
          exec (.edgeFlush job lidx edge) s = .next u.updateEligible) ∧
        (t.storeMark job e.wmark (BitVec.allOnes 64) = none →
          exec (.edgeFlush job lidx edge) s = .next (t.cancelLevel (handle 2 job lidx 0 0)).2.updateEligible)) := by
  subst ht
  have hexec : exec (.edgeFlush job lidx edge) s = execEdgeFlush job lidx edge s := rfl
  rw [hexec]
  unfold execEdgeFlush
  simp only [hl, he, hj]
  refine ⟨fun h => ?_, fun st hst hsat => ⟨fun hc => ?_, fun hc hs => ?_, fun hc hs => ⟨fun u hu => ?_, fun hu => ?_⟩⟩⟩
  · rcases h with h | h
    · simp only [h]
    · simp only [h, if_true]
      split <;> rfl
  · simp only [hst, hsat, hc, Bool.false_eq_true, if_false, beq_self_eq_true, if_true]
  · simp only [hst, hsat, hs, Bool.false_eq_true, if_false, beq_eq_false_iff_ne.2 hc]
  · simp only [hst, hsat, hs, Bool.false_eq_true, if_false, beq_eq_false_iff_ne.2 hc, if_true, hu]
  · simp only [hst, hsat, hs, Bool.false_eq_true, if_false, beq_eq_false_iff_ne.2 hc, if_true, hu]

/-- Settles O46: records by their fields, decisions by what waits, edges by how their predecessor ended. -/
theorem stewardsBindAndQuantaEnd : Obligations.StewardsBindAndQuantaEnd := by
  unfold Obligations.StewardsBindAndQuantaEnd
  refine ⟨⟨bindRecord_spec, registerWrite_slot, registerWrite_key, stewardBind_spec, fun s grp p => s.plan_spec grp [] p⟩,
    quantumExpiry_spec, fun die m s => ⟨fun h => if_pos h, fun h => ⟨_, if_neg ?_, State.setPart_spec ..⟩⟩, edgeFlush_spec⟩
  · rw [h]
    exact Bool.false_ne_true

end Sys2Proof.Machine
end

section
/-! The statement about shootdowns, migrations and the walks that wait for them (R108, R445, R446). -/

namespace Sys2Proof.Machine

/-- A shootdown, by the entry it finds and the frames it takes (R108, R445). -/
theorem shootdown_spec (job : Nat) (va leaf : Word) (s t : State) (j : Job) (a lo e pa : Nat) (hj : s.jobAt job = some j)
    (he : s.entryAt va.toNat j.root walkLevels = some (a, lo, e))
    (ht : t = { s with heldBack := s.heldBack.filter (· != .shootdown job va leaf) }) :
    (bit e 63 = false → exec (.shootdown job va leaf) s = .next (t.setEntry a leaf.toNat)) ∧
    (bit e 63 = true → takesFrames e leaf.toNat = true →
      (t.pageBusy job (va.toNat / 2 ^ lo * 2 ^ lo) (va.toNat / 2 ^ lo * 2 ^ lo + 2 ^ lo) = true →
        exec (.shootdown job va leaf) s = .next { t with heldBack := t.heldBack ++ [.shootdown job va leaf] }) ∧
      (t.pageBusy job (va.toNat / 2 ^ lo * 2 ^ lo) (va.toNat / 2 ^ lo * 2 ^ lo + 2 ^ lo) = false →
        pa = (⟨e, lo, false⟩ : Page).paddr t (va.toNat / 2 ^ lo * 2 ^ lo) →
        exec (.shootdown job va leaf) s = .next ((((t.setEntry a leaf.toNat).dropTlb job fun x =>
          x.page * 2 ^ x.bits / 2 ^ lo == va.toNat / 2 ^ lo).revokeFrames pa (pa + 2 ^ lo)).leaveRange pa (pa + 2 ^ lo)))) ∧
    (bit e 63 = true → takesFrames e leaf.toNat = false →
      exec (.shootdown job va leaf) s = .next ((t.setEntry a leaf.toNat).dropTlb job fun x =>
        x.page * 2 ^ x.bits / 2 ^ lo == va.toNat / 2 ^ lo)) := by
  subst ht
  have hexec : exec (.shootdown job va leaf) s = execShootdown job va leaf s := rfl
  rw [hexec]
  unfold execShootdown
  simp only [hj, he]
  refine ⟨fun hv => ?_, fun hv hf => ⟨fun hb => ?_, fun hb hpa => ?_⟩, fun hv hf => ?_⟩
  · simp only [hv, Bool.not_false, if_true]
  · simp only [hv, hf, hb, Bool.not_true, Bool.false_eq_true, if_false, Bool.and_self, if_true]
  · subst hpa
    simp only [hv, hf, hb, Bool.not_true, Bool.false_eq_true, if_false, Bool.and_false, if_true]
  · simp only [hv, hf, Bool.not_true, Bool.false_eq_true, if_false, Bool.false_and]

/-- A migration between places of this device (R108, R446). -/
theorem pageMigration_spec (job : Nat) (va paddr : Word) (s t u : State) (j : Job) (a lo e old new : Nat)
    (hj : s.jobAt job = some j) (he : s.entryAt va.toNat j.root walkLevels = some (a, lo, e))
    (ht : t = { s with heldBack := s.heldBack.filter (· != .pageMigration job va paddr) }) :
    (bit e 63 = false ∨ bit e 62 = false → exec (.pageMigration job va paddr) s = .next t) ∧
    (bit e 63 = true → bit e 62 = true →
      (t.pageBusy job (va.toNat / 2 ^ lo * 2 ^ lo) (va.toNat / 2 ^ lo * 2 ^ lo + 2 ^ lo) = true →
        exec (.pageMigration job va paddr) s =
          .next { t with heldBack := t.heldBack ++ [.pageMigration job va paddr] }) ∧
      (t.pageBusy job (va.toNat / 2 ^ lo * 2 ^ lo) (va.toNat / 2 ^ lo * 2 ^ lo + 2 ^ lo) = false →
        old = (⟨e, lo, false⟩ : Page).paddr t (va.toNat / 2 ^ lo * 2 ^ lo) →
        new = (⟨leafAt e paddr.toNat, lo, false⟩ : Page).paddr t (va.toNat / 2 ^ lo * 2 ^ lo) →
        u = ((((t.setEntry a (leafAt e (leafPaddr e) + 2)).dropTlb job fun x =>
          x.page * 2 ^ x.bits / 2 ^ lo == va.toNat / 2 ^ lo).revokeFrames old (old + 2 ^ lo)).leaveRange old
            (old + 2 ^ lo)) → u.owns old = true → u.owns new = true →
        exec (.pageMigration job va paddr) s = .next ((u.movePage old new lo).setEntry a (leafAt e paddr.toNat)))) := by
  subst ht
  have hexec : exec (.pageMigration job va paddr) s = execPageMigration job va paddr s := rfl
  rw [hexec]
  unfold execPageMigration
  simp only [hj, he]
  refine ⟨fun h => if_pos ?_, fun hv hl => ⟨fun hb => ?_, fun hb hold hnew hu hown hto => ?_⟩⟩
  · rcases h with h | h <;> simp [h]
  · simp only [hv, hl, hb, Bool.not_true, Bool.or_self, Bool.false_eq_true, if_false, if_true]
  · subst hold hnew hu
    simp only [hv, hl, hb, Bool.not_true, Bool.or_self, Bool.false_eq_true, if_false, hown, hto, Bool.and_self, if_true]

/-- A walk that met MIG waits as long as the leaf has it (R446). -/
theorem migWalkRetry_spec (p : Party) (s : State) (j : Job) (va : Word) (hw : s.partyWait p = some (.migration va))
    (hj : s.jobOf p.ctx = some j) :
    (walkFrom s va.toNat j.root walkLevels = .mig → exec (.migWalkRetry p) s = .next s) ∧
    (walkFrom s va.toNat j.root walkLevels ≠ .mig → exec (.migWalkRetry p) s = .next (s.unparkParty p)) := by
  have hexec : exec (.migWalkRetry p) s = execMigWalkRetry p s := rfl
  rw [hexec]
  unfold execMigWalkRetry
  simp only [hw, hj]
  constructor <;> intro h <;> split
  · rfl
  · rename_i hne; exact absurd h hne
  · rename_i heq; exact absurd heq h
  · rfl

/-- Settles O47: an entry by its valid bit, its frames and the copies on its page; a walk by the leaf it finds. -/
theorem pagesChangeInTheirOrder : Obligations.PagesChangeInTheirOrder := by
  unfold Obligations.PagesChangeInTheirOrder
  exact ⟨shootdown_spec, pageMigration_spec, migWalkRetry_spec⟩

end Sys2Proof.Machine
end

section
/-! The statement about the checks of a request (R404 to R406, R411, R463). -/

namespace Sys2Proof.Machine

/-- A request with a bad header answers 4 (R404). -/
theorem State.serve_malformed {s : State} {r : Req} (h : r.headerOk = false) (op : BitVec 16) (k : State → State) :
    s.serve r op k = s.respond r 4 [] := by
  unfold State.serve
  simp only [h, Bool.not_false, if_true]

/-- A request before the negotiation answers 2 (R405). -/
theorem State.serve_unnegotiated {s : State} {r : Req} (h : r.headerOk = true) (hv : (s.channel r.chan).version = none)
    (op : BitVec 16) (k : State → State) : s.serve r op k = s.respond r 2 [] := by
  unfold State.serve
  simp only [h, Bool.not_true, Bool.false_eq_true, if_false, hv]

/-- A request of another version pair answers 1 (R405). -/
theorem State.serve_version {s : State} {r : Req} {v : Byte × Byte} (h : r.headerOk = true)
    (hv : (s.channel r.chan).version = some v) (hne : (r.vmaj, r.vmin) ≠ v) (op : BitVec 16) (k : State → State) :
    s.serve r op k = s.respond r 1 [] := by
  unfold State.serve
  simp only [h, Bool.not_true, Bool.false_eq_true, if_false, hv, bne_iff_ne.2 hne, if_true]

/-- A request of another operation answers 3 (R406). -/
theorem State.serve_operation {s : State} {r : Req} {v : Byte × Byte} (h : r.headerOk = true)
    (hv : (s.channel r.chan).version = some v) (heq : (r.vmaj, r.vmin) = v) {op : BitVec 16} (hop : r.op ≠ op)
    (k : State → State) : s.serve r op k = s.respond r 3 [] := by
  unfold State.serve
  simp only [h, Bool.not_true, Bool.false_eq_true, if_false, hv, heq, bne_self_eq_false, bne_iff_ne.2 hop, if_true]

/-- A request that passes the common checks goes on to its own (R406). -/
theorem State.serve_served {s : State} {r : Req} {op : BitVec 16} (h : Served r op s) (k : State → State) :
    s.serve r op k = k s := by
  obtain ⟨hheader, hv, hop⟩ := h
  unfold State.serve
  simp only [hheader, Bool.not_true, Bool.false_eq_true, if_false, hv, bne_self_eq_false, hop]

/-- A request on a job that is not there answers 5 (R406). -/
theorem State.onJob_missing {s : State} {r : Req} (h : s.jobById r.jobId = none) (e : Event) (k : Job → State → State) :
    s.onJob r e k = s.respond r 5 [] := by
  unfold State.onJob
  simp only [h]

/-- A request on a job that is being saved waits its turn (R463). -/
theorem State.onJob_saving {s : State} {r : Req} {j : Job} {q : Req} (h : s.jobById r.jobId = some j)
    (hq : j.ckpt = some q) (e : Event) (k : Job → State → State) :
    s.onJob r e k = s.modJob j.id fun j => { j with deferred := j.deferred ++ [e] } := by
  unfold State.onJob
  simp only [h, hq, Option.isSome_some, if_true]

/-- A request on a live job that is not being saved is done on it (R406). -/
theorem State.onJob_live {s : State} {r : Req} {j : Job} (h : s.jobById r.jobId = some j) (hq : j.ckpt = none) (e : Event)
    (k : Job → State → State) : s.onJob r e k = k j s := by
  unfold State.onJob
  simp only [h, hq, Option.isSome_none, Bool.false_eq_true, if_false]

/-- The common checks of a request of operation op, in their order (R404 to R406). -/
def ChecksInOrder (i : Req → Instr) (op : BitVec 16) : Prop :=
  ∀ (r : Req) (s : State),
    (r.headerOk = false → exec (i r) s = .next (s.respond r 4 [])) ∧
    (r.headerOk = true → (s.channel r.chan).version = none → exec (i r) s = .next (s.respond r 2 [])) ∧
    ∀ v, r.headerOk = true → (s.channel r.chan).version = some v →
      ((r.vmaj, r.vmin) ≠ v → exec (i r) s = .next (s.respond r 1 [])) ∧
      ((r.vmaj, r.vmin) = v → r.op ≠ op → exec (i r) s = .next (s.respond r 3 []))

/-- A request whose meaning is served makes the common checks. -/
theorem checksInOrder_of_serve {i : Req → Instr} {op : BitVec 16} {k : Req → State → State}
    (h : ∀ r s, exec (i r) s = .next (s.serve r op (k r))) : ChecksInOrder i op := by
  intro r s
  rw [h]
  exact ⟨fun hh => by rw [State.serve_malformed hh], fun hh hv => by rw [State.serve_unnegotiated hh hv],
    fun v hh hv => ⟨fun hne => by rw [State.serve_version hh hv hne], fun heq hop => by rw [State.serve_operation hh hv heq hop]⟩⟩

/-- A request on a job checks the length of its payload and its job, which may be in a save (R406, R463). -/
def ChecksItsJob (i : Req → Instr) (e : Req → Event) (op : BitVec 16) (n : Nat) : Prop :=
  ∀ (r : Req) (s : State), Served r op s →
    (r.payload.length ≠ n → exec (i r) s = .next (s.respond r 4 [])) ∧
    (r.payload.length = n → s.jobById r.jobId = none → exec (i r) s = .next (s.respond r 5 [])) ∧
    ∀ j q, r.payload.length = n → s.jobById r.jobId = some j → j.ckpt = some q →
      exec (i r) s = .next (s.modJob j.id fun j => { j with deferred := j.deferred ++ [e r] })

/-- A request whose meaning is served on a job after the check of its length. -/
theorem checksItsJob_of_serve {i : Req → Instr} {e : Req → Event} {op : BitVec 16} {n : Nat} {k : Req → Job → State → State}
    (h : ∀ r s, exec (i r) s = .next (s.serve r op fun s =>
      if r.payload.length != n then s.respond r 4 [] else s.onJob r (e r) (k r))) : ChecksItsJob i e op n := by
  intro r s hserved
  rw [h, State.serve_served hserved]
  refine ⟨fun hn => by rw [if_pos (bne_iff_ne.2 hn)], fun hn hj => ?_, fun j q hn hj hq => ?_⟩
  · rw [hn, bne_self_eq_false, if_neg Bool.false_ne_true, State.onJob_missing hj]
  · rw [hn, bne_self_eq_false, if_neg Bool.false_ne_true, State.onJob_saving hj hq]

/-- HELLO negotiates the pair 1.0 once (R405). -/
theorem hello_spec (r : Req) (s : State) (hh : r.headerOk = true) (hop : r.op = 1) :
    (∀ v, (s.channel r.chan).version = some v → exec (.hello r) s = .next (s.respond r 2 [])) ∧
    ((s.channel r.chan).version = none → r.payload.length = 8 → r.nat 3 5 = 0 → r.nat 0 1 ≤ r.nat 1 1 →
      (1 < r.nat 0 1 ∨ r.nat 1 1 < 1 → exec (.hello r) s = .next (s.respond r 1 [])) ∧
      (r.nat 0 1 ≤ 1 → 1 ≤ r.nat 1 1 → exec (.hello r) s =
        .next ((s.modChannel r.chan fun c => { c with version := some (1, 0) }).respond r 0 []))) := by
  have hexec : exec (.hello r) s = execHello r s := rfl
  rw [hexec]
  unfold execHello
  refine ⟨fun v hv => ?_, fun hv hlen hzero hle => ?_⟩
  · simp only [hh, Bool.not_true, Bool.false_eq_true, if_false, hop, bne_self_eq_false, hv, Option.isSome_some, if_true]
  · have hform : (r.payload.length != 8 || decide (r.nat 0 1 > r.nat 1 1) || r.nat 3 5 != 0) = false := by
      simp [hlen, hzero, hle]
    simp only [hh, Bool.not_true, Bool.false_eq_true, if_false, hop, bne_self_eq_false, hv, Option.isSome_none, hform]
    refine ⟨fun hout => if_pos ?_, fun hlo hhi => if_neg ?_⟩
    · rcases hout with h | h <;> simp [h]
    · simp [hlo]
      omega

/-- Settles O48: the common checks by `serve`, those of a job by `onJob`, HELLO by its own. -/
theorem requestsAreCheckedInOrder : Obligations.RequestsAreCheckedInOrder := by
  unfold Obligations.RequestsAreCheckedInOrder
  refine ⟨fun stream => ?_, ?_, hello_spec, fun chan s => rfl⟩
  · show ∀ row ∈ (_ : List ((Req → Instr) × BitVec 16)), ChecksInOrder row.1 row.2
    simp only [List.forall_mem_cons, List.not_mem_nil, false_implies, implies_true, and_true]
    exact ⟨checksInOrder_of_serve fun _ _ => rfl, checksInOrder_of_serve fun _ _ => rfl, checksInOrder_of_serve fun _ _ => rfl,
      checksInOrder_of_serve fun _ _ => rfl, checksInOrder_of_serve fun _ _ => rfl, checksInOrder_of_serve fun _ _ => rfl,
      checksInOrder_of_serve fun _ _ => rfl, checksInOrder_of_serve fun _ _ => rfl, checksInOrder_of_serve fun _ _ => rfl,
      checksInOrder_of_serve fun _ _ => rfl, checksInOrder_of_serve fun _ _ => rfl, checksInOrder_of_serve fun _ _ => rfl,
      checksInOrder_of_serve fun _ _ => rfl, checksInOrder_of_serve fun _ _ => rfl, checksInOrder_of_serve fun _ _ => rfl,
      checksInOrder_of_serve fun _ _ => rfl, checksInOrder_of_serve fun _ _ => rfl⟩
  · show ∀ row ∈ (_ : List ((Req → Instr) × (Req → Event) × BitVec 16 × Nat)), ChecksItsJob row.1 row.2.1 row.2.2.1 row.2.2.2
    simp only [List.forall_mem_cons, List.not_mem_nil, false_implies, implies_true, and_true]
    exact ⟨checksItsJob_of_serve fun _ _ => rfl, checksItsJob_of_serve fun _ _ => rfl, checksItsJob_of_serve fun _ _ => rfl,
      checksItsJob_of_serve fun _ _ => rfl, checksItsJob_of_serve fun _ _ => rfl, checksItsJob_of_serve fun _ _ => rfl,
      checksItsJob_of_serve fun _ _ => rfl⟩

end Sys2Proof.Machine
end

section
/-! The statement about the home of a line and the requests of peers (R133, R134, R300, R304, R347, R349, R399, R402). -/

namespace Sys2Proof.Machine

/-! The course of a request (R133, R402). -/

/-- A message for this device is handled here. -/
theorem State.arrived_here {s : State} {m : Msg} (h : m.dst = s.dev) (t : BitVec 8) (k : State → State) :
    s.arrived t m k = .next (k s) := by
  unfold State.arrived
  rw [h, beq_self_eq_true, if_pos rfl]

/-- A message for another device goes on to it (R402). -/
theorem State.arrived_elsewhere {s : State} {m : Msg} (h : m.dst ≠ s.dev) (t : BitVec 8) (k : State → State) :
    s.arrived t m k = .next (s.sendOrDrop t m) := by
  unfold State.arrived
  rw [beq_eq_false_iff_ne.2 h, if_neg Bool.false_ne_true]

section
variable {m : Msg} {me : Event} {node : Nat} {req : HomeReq} {ws : List Nat} {s t v : State}

/-- A request for an address that this device does not have is refused (R399). -/
theorem State.forPeer_foreign (ht : t = { s with heldBack := s.heldBack.filter (· != me) })
    (h : s.owns (m.addr.toNat % 2 ^ 56) = false ∨ unpopulated (m.addr.toNat % 2 ^ 56) = true) (here : Bool)
    (k : Bool → State → State) : s.forPeer m me node req here ws k = t.replyErr m 0x20 := by
  subst ht
  unfold State.forPeer
  refine if_pos ?_
  rcases h with h | h
  · exact Bool.or_eq_true_iff.2 (.inl (by rw [Bool.not_eq_true']; exact h))
  · exact Bool.or_eq_true_iff.2 (.inr h)

/-- A request waits while another one on its words is in progress (R133). -/
theorem State.forPeer_waits (ht : t = { s with heldBack := s.heldBack.filter (· != me) })
    (hown : s.owns (m.addr.toNat % 2 ^ 56) = true) (hpop : unpopulated (m.addr.toNat % 2 ^ 56) = false)
    (hprog : t.inProgress (peerParty m) ws ≠ none) (here : Bool) (k : Bool → State → State) :
    s.forPeer m me node req here ws k = { t with heldBack := t.heldBack ++ [me] } := by
  have hownt : t.owns (m.addr.toNat % 2 ^ 56) = true := by rw [ht]; exact hown
  unfold State.forPeer
  simp only [← ht, hownt, hpop, Bool.not_true, Bool.or_self, Bool.false_eq_true, if_false, Option.isSome_iff_ne_none.2 hprog, if_true]
  rfl

/-- Whether another peer has sent the requester the data, as the handling of a request asks it (R134). -/
def isForwarded (m : Msg) (s : State) : Bool :=
  (s.requests.filter (·.party == peerParty m)).any fun r => r.mtype == 0x11 || r.mtype == 0x12

/-- It is so when a peer was asked to forward it. -/
theorem isForwarded_iff : isForwarded m s = true ↔ forwarded m s := by
  unfold isForwarded forwarded
  simp only [List.any_eq_true, List.mem_filter, Bool.or_eq_true, beq_iff_eq]
  constructor
  · rintro ⟨r, ⟨hr, hp⟩, ht⟩
    exact ⟨r, hr, hp, ht⟩
  · rintro ⟨r, hr, hp, ht⟩
    exact ⟨r, ⟨hr, hp⟩, ht⟩

/-- A request that a home can handle is handled (R133, R349). -/
theorem State.forPeer_ready (h : HomeReady m me node req ws s v) (here : Bool) (k : Bool → State → State) :
    s.forPeer m me node req here ws k = k (!here && isForwarded m s) v := by
  obtain ⟨t, u, ht, hown, hpop, hprog, hanswered, hasked, hroom, hv⟩ := h
  have hownt : t.owns (m.addr.toNat % 2 ^ 56) = true := by rw [ht]; exact hown
  have hkey : t.keyOf m = s.keyOf m := by rw [ht]; rfl
  have hasks : ((t.otherAsks node req ws).filter fun (a, d) =>
      !(t.requests.filter (·.party == peerParty m)).any fun r => r.mtype == a && r.dst == d) = [] := by
    refine List.filter_eq_nil_iff.2 fun a ha => ?_
    obtain ⟨r, hr, hp, hty, hdst⟩ := hasked a ha
    have hany : ((t.requests.filter (·.party == peerParty m)).any fun r => r.mtype == a.1 && r.dst == a.2) = true := by
      refine List.any_eq_true.2 ⟨r, List.mem_filter.2 ⟨hr, beq_iff_eq.2 hp⟩, ?_⟩
      rw [hty, hdst, beq_self_eq_true, beq_self_eq_true, Bool.and_self]
    simp only [hany, Bool.not_true]
    exact Bool.false_ne_true
  have hnone : ((t.requests.filter (·.party == peerParty m)).any fun r => r.answer.isNone) = false := by
    refine Bool.eq_false_iff.2 fun hany => ?_
    obtain ⟨r, hr, hn⟩ := List.any_eq_true.1 hany
    obtain ⟨hmem, hp⟩ := List.mem_filter.1 hr
    exact hanswered r hmem (beq_iff_eq.1 hp) (Option.isNone_iff_eq_none.1 hn)
  have hreq : t.requests = s.requests := by rw [ht]
  rw [hreq] at hasks hnone
  unfold State.forPeer isForwarded
  simp only [← ht, hownt, hpop, Bool.not_true, Bool.or_self, Bool.false_eq_true, if_false, hprog, Option.isSome_none, hasks,
    List.isEmpty_nil, Bool.false_and, hnone, hkey, hroom, ← hv]

end

/-! The requests as their messages arrive (R134, R304, R399). -/

/-- The line goes to the requester, with the state granted, unless another peer has sent it (R134). -/
def State.peerLine (m : Msg) (req : HomeReq) (grant : State → BitVec 2) (key : LineKey) (fwd : Bool) (s : State) : State :=
  if fwd then (s.peerTransition (nodeOfPeer m.src) req key (footprint key)).replyTo 0x21 m noMsg
  else (s.peerTransition (nodeOfPeer m.src) req key (footprint key)).replyLine 0x20 m key
    (grant (s.peerTransition (nodeOfPeer m.src) req key (footprint key)))

/-- The state that a tracked load of a peer is granted: E where it owns the whole line (R134). -/
def ldtGrant (m : Msg) (key : LineKey) (s : State) : BitVec 2 :=
  if m.pol == 0 && (footprint key).all fun w => s.wstate w = ⟨.E (nodeOfPeer m.src), [nodeOfPeer m.src]⟩ then 1 else 0

/-- The bytes that a peer writes are merged (R134). -/
def State.peerMerges (m : Msg) (node : Nat) (ok : BitVec 8) (key : LineKey) (s : State) : State :=
  ((s.peerTransition node .throughStore key (m.words key)).mergeBytes m (m.bytes key) true).replyTo ok m noMsg

/-- The bytes that a peer registers are merged, and the line goes back (R134). -/
def State.peerRegisters (m : Msg) (key : LineKey) (s : State) : State :=
  ((s.peerTransition (nodeOfPeer m.src) .sisStore key (m.words key)).mergeBytes m (m.bytes key) false).replyLine 0x20 m key 3

/-- Each word that a peer reduces into is added to (R304). -/
def State.peerReduces (m : Msg) (key : LineKey) (s : State) : State :=
  ((places m (if m.w64 then 8 else 4)).foldl (State.reduceAt m key (if m.w64 then 8 else 4))
    (s.peerTransition (nodeOfPeer m.src) .atomic key (m.words key))).replyTo 0x21 m noMsg

/-- LDT as a request of a peer. -/
theorem ldt_eq {m : Msg} {s : State} (hdst : m.dst = s.dev) : exec (.ldt m) s = .next (
    s.forPeer m (.ldt m) (nodeOfPeer m.src) (.trackedLoad (m.pol == 0)) false (footprint (s.keyOf m)) fun fwd t =>
      State.peerLine m (.trackedLoad (m.pol == 0)) (ldtGrant m (s.keyOf m)) (s.keyOf m) fwd t) := by
  show execLdt m s = _
  unfold execLdt
  rw [State.arrived_here hdst]
  rfl

/-- LDU as a request of a peer. -/
theorem ldu_eq {m : Msg} {s : State} (hdst : m.dst = s.dev) : exec (.ldu m) s = .next (
    s.forPeer m (.ldu m) (nodeOfPeer m.src) .untrackedLoad false (footprint (s.keyOf m)) fun fwd t =>
      State.peerLine m .untrackedLoad (fun _ => 3) (s.keyOf m) fwd t) := by
  show execLdu m s = _
  unfold execLdu
  rw [State.arrived_here hdst]
  rfl

/-- OWNR as a request of a peer. -/
theorem ownr_eq {m : Msg} {s : State} (hdst : m.dst = s.dev) : exec (.ownr m) s = .next (
    s.forPeer m (.ownr m) (nodeOfPeer m.src) .ownStore false (footprint (s.keyOf m)) fun fwd t =>
      State.peerLine m .ownStore (fun _ => 2) (s.keyOf m) fwd t) := by
  show execOwnr m s = _
  unfold execOwnr
  rw [State.arrived_here hdst]
  rfl

/-- WR as a request of a peer. -/
theorem wr_eq {m : Msg} {s : State} (hdst : m.dst = s.dev) : exec (.wr m) s = .next (
    s.forPeer m (.wr m) (nodeOfPeer m.src) .throughStore true (m.words (s.keyOf m)) fun _ t =>
      if !m.checked then t.refuseLine m (s.keyOf m) else State.peerMerges m (nodeOfPeer m.src) 0x21 (s.keyOf m) t) := by
  show execWr m s = _
  unfold execWr
  rw [State.arrived_here hdst]
  rfl

/-- REG as a request of a peer. -/
theorem reg_eq {m : Msg} {s : State} (hdst : m.dst = s.dev) : exec (.reg m) s = .next (
    s.forPeer m (.reg m) (nodeOfPeer m.src) .sisStore true (m.words (s.keyOf m)) fun _ t =>
      if !m.checked then t.refuseLine m (s.keyOf m) else State.peerRegisters m (s.keyOf m) t) := by
  show execReg m s = _
  unfold execReg
  rw [State.arrived_here hdst]
  rfl

/-- RED as a request of a peer. -/
theorem red_eq {m : Msg} {s : State} (hdst : m.dst = s.dev) : exec (.red m) s = .next (
    s.forPeer m (.red m) (nodeOfPeer m.src) .atomic true (m.words (s.keyOf m)) fun _ t =>
      if !m.checked then t.refuseLine m (s.keyOf m) else State.peerReduces m (s.keyOf m) t) := by
  show execRed m s = _
  unfold execRed
  rw [State.arrived_here hdst]
  rfl

/-- CRD as a request of a peer. -/
theorem crd_eq {m : Msg} {s : State} (hdst : m.dst = s.dev) : exec (.crdMessage m) s = .next (
    s.forPeer m (.crdMessage m) noNode .untrackedLoad true (footprint (s.keyOf m)) fun _ t =>
      t.replyLine 0x31 m (s.keyOf m) 0) := by
  show execCrdMessage m s = _
  unfold execCrdMessage
  rw [State.arrived_here hdst]

/-- CWR as a request of a peer. -/
theorem cwr_eq {m : Msg} {s : State} (hdst : m.dst = s.dev) : exec (.cwrMessage m) s = .next (
    s.forPeer m (.cwrMessage m) noNode .throughStore true (m.words (s.keyOf m)) fun _ t =>
      if !m.checked then t.refuseLine m (s.keyOf m) else State.peerMerges m noNode 0x33 (s.keyOf m) t) := by
  show execCwrMessage m s = _
  unfold execCwrMessage
  rw [State.arrived_here hdst]
  rfl

/-- The first clauses of a request at its home: another device's address, and a request in progress. -/
def HomeChecks (i : Msg → Instr) (e : Msg → Event) (ws : Msg → LineKey → List Nat) : Prop :=
  ∀ (m : Msg) (s t : State), m.dst = s.dev → t = { s with heldBack := s.heldBack.filter (· != e m) } →
    (s.owns (m.addr.toNat % 2 ^ 56) = false ∨ unpopulated (m.addr.toNat % 2 ^ 56) = true →
      exec (i m) s = .next (t.replyErr m 0x20)) ∧
    (s.owns (m.addr.toNat % 2 ^ 56) = true → unpopulated (m.addr.toNat % 2 ^ 56) = false →
      t.inProgress (peerParty m) (ws m (s.keyOf m)) ≠ none →
      exec (i m) s = .next { t with heldBack := t.heldBack ++ [e m] })

/-- A meaning that handles its message as a request of a peer makes the home's checks. -/
theorem homeChecks_of_forPeer {i : Msg → Instr} {e : Msg → Event} {ws : Msg → LineKey → List Nat} {here : Bool}
    {node : Msg → Nat} {req : Msg → HomeReq} {k : Msg → State → Bool → State → State}
    (h : ∀ {m s}, m.dst = s.dev →
      exec (i m) s = .next (s.forPeer m (e m) (node m) (req m) here (ws m (s.keyOf m)) (k m s))) : HomeChecks i e ws := by
  intro m s t hdst ht
  rw [h hdst]
  exact ⟨fun hf => by rw [State.forPeer_foreign ht hf], fun hown hpop hp => by rw [State.forPeer_waits ht hown hpop hp]⟩

/-! The requests (R134, R300, R304, R399). -/

section
variable {m : Msg} {s v : State} {n : Nat} {key : LineKey}

/-- What a request of a peer leads to at a home that can handle it. -/
theorem handled_of_forPeer {i : Instr} {me : Event} {node : Nat} {req : HomeReq} {here : Bool} {ws : List Nat}
    {k : Bool → State → State} (hexec : exec i s = .next (s.forPeer m me node req here ws k))
    (h : HomeReady m me node req ws s v) :
    exec i s = .next (k (!here && isForwarded m s) v) := by
  rw [hexec, State.forPeer_ready h]

/-- A request whose data another peer may have sent is answered with an acknowledgement then, and with the line else. -/
theorem peerLine_of_forPeer {i : Instr} {me : Event} {req : HomeReq} {ws : List Nat} {grant : State → BitVec 2}
    (hexec : exec i s = .next (
      s.forPeer m me (nodeOfPeer m.src) req false ws fun fwd t => State.peerLine m req grant key fwd t))
    (h : HomeReady m me (nodeOfPeer m.src) req ws s v) :
    (forwarded m s → exec i s = .next ((v.peerTransition (nodeOfPeer m.src) req key (footprint key)).replyTo 0x21 m noMsg)) ∧
    (¬ forwarded m s → exec i s = .next ((v.peerTransition (nodeOfPeer m.src) req key (footprint key)).replyLine 0x20 m key
      (grant (v.peerTransition (nodeOfPeer m.src) req key (footprint key))))) := by
  rw [handled_of_forPeer hexec h, Bool.not_false, Bool.true_and]
  unfold State.peerLine
  refine ⟨fun hf => ?_, fun hf => ?_⟩
  · rw [isForwarded_iff.2 hf, if_pos rfl]
  · rw [Bool.eq_false_iff.2 (mt isForwarded_iff.1 hf), if_neg Bool.false_ne_true]

/-- A request that brings a line is refused when its check value is wrong, and merged else. -/
theorem checked_of_forPeer {i : Instr} {me : Event} {node : Nat} {req : HomeReq} {ws : List Nat}
    {no yes : State → State}
    (hexec : exec i s = .next (s.forPeer m me node req true ws fun _ s => if !m.checked then no s else yes s))
    (h : HomeReady m me node req ws s v) : (m.checked = false → exec i s = .next (no v)) ∧
      (m.checked = true → exec i s = .next (yes v)) := by
  rw [handled_of_forPeer hexec h]
  exact ⟨fun hc => by rw [hc, Bool.not_false, if_pos rfl], fun hc => by rw [hc, Bool.not_true, if_neg Bool.false_ne_true]⟩

end

/-- Loads, ownership, writes, registrations, reductions and the accesses of copies at the home of their line (R127, R134, R304). -/
theorem homeAnswers_spec (m : Msg) (s v : State) (n : Nat) (key : LineKey) (hdst : m.dst = s.dev) (hn : n = nodeOfPeer m.src)
    (hkey : key = s.keyOf m) :
    (HomeReady m (.ldt m) n (.trackedLoad (m.pol == 0)) (footprint key) s v →
      (forwarded m s → exec (.ldt m) s =
        .next ((v.peerTransition n (.trackedLoad (m.pol == 0)) key (footprint key)).replyTo 0x21 m noMsg)) ∧
      (¬ forwarded m s → ∃ g : BitVec 2, (g = 0 ∨ m.pol = 0 ∧ g = 1) ∧ exec (.ldt m) s =
        .next ((v.peerTransition n (.trackedLoad (m.pol == 0)) key (footprint key)).replyLine 0x20 m key g))) ∧
    (HomeReady m (.ldu m) n .untrackedLoad (footprint key) s v →
      (forwarded m s → exec (.ldu m) s =
        .next ((v.peerTransition n .untrackedLoad key (footprint key)).replyTo 0x21 m noMsg)) ∧
      (¬ forwarded m s → exec (.ldu m) s =
        .next ((v.peerTransition n .untrackedLoad key (footprint key)).replyLine 0x20 m key 3))) ∧
    (HomeReady m (.ownr m) n .ownStore (footprint key) s v →
      (forwarded m s → exec (.ownr m) s =
        .next ((v.peerTransition n .ownStore key (footprint key)).replyTo 0x21 m noMsg)) ∧
      (¬ forwarded m s → exec (.ownr m) s =
        .next ((v.peerTransition n .ownStore key (footprint key)).replyLine 0x20 m key 2))) ∧
    (HomeReady m (.crdMessage m) (2 ^ 40) .untrackedLoad (footprint key) s v →
      exec (.crdMessage m) s = .next (v.replyLine 0x31 m key 0)) ∧
    (HomeReady m (.wr m) n .throughStore (m.words key) s v →
      (m.checked = false → exec (.wr m) s = .next (v.refuseLine m key)) ∧
      (m.checked = true → exec (.wr m) s = .next (((v.peerTransition n .throughStore key (m.words key)).mergeBytes m
        (m.bytes key) true).replyTo 0x21 m noMsg))) ∧
    (HomeReady m (.cwrMessage m) (2 ^ 40) .throughStore (m.words key) s v →
      (m.checked = false → exec (.cwrMessage m) s = .next (v.refuseLine m key)) ∧
      (m.checked = true → exec (.cwrMessage m) s = .next (((v.peerTransition (2 ^ 40) .throughStore key (m.words key)).mergeBytes
        m (m.bytes key) true).replyTo 0x33 m noMsg))) ∧
    (HomeReady m (.reg m) n .sisStore (m.words key) s v →
      (m.checked = false → exec (.reg m) s = .next (v.refuseLine m key)) ∧
      (m.checked = true → exec (.reg m) s = .next (((v.peerTransition n .sisStore key (m.words key)).mergeBytes m
        (m.bytes key) false).replyLine 0x20 m key 3))) ∧
    (HomeReady m (.red m) n .atomic (m.words key) s v →
      (m.checked = false → exec (.red m) s = .next (v.refuseLine m key)) ∧
      (m.checked = true → exec (.red m) s = .next (((places m (if m.w64 then 8 else 4)).foldl
        (State.reduceAt m key (if m.w64 then 8 else 4)) (v.peerTransition n .atomic key (m.words key))).replyTo 0x21 m noMsg))) := by
  subst hn hkey
  refine ⟨fun h => ?_, fun h => (peerLine_of_forPeer (ldu_eq hdst) h :), fun h => (peerLine_of_forPeer (ownr_eq hdst) h :),
    fun h => (handled_of_forPeer (crd_eq hdst) h :), fun h => (checked_of_forPeer (wr_eq hdst) h :),
    fun h => (checked_of_forPeer (cwr_eq hdst) h :), fun h => (checked_of_forPeer (reg_eq hdst) h :),
    fun h => (checked_of_forPeer (red_eq hdst) h :)⟩
  obtain ⟨hyes, hno⟩ := peerLine_of_forPeer (ldt_eq hdst) h
  refine ⟨hyes, fun hf => ⟨_, ?_, hno hf⟩⟩
  unfold ldtGrant
  split
  next he => exact .inr ⟨beq_iff_eq.1 (Bool.and_eq_true_iff.1 he).1, rfl⟩
  next => exact .inl rfl

/-- An atomic of a peer at its home (R134, R300). -/
theorem atom_spec (m : Msg) (s v : State) (n off pa : Nat) (hdst : m.dst = s.dev) (hn : n = (if m.mask.getLsbD 72 then 8 else 4))
    (hoff : off = (m.mask.extractLsb' 80 16).toNat) (hpa : pa = m.addr.toNat % 2 ^ 56 / 128 * 128 + off) :
    (off % n ≠ 0 ∨ 128 < off + n → exec (.atom m) s = .next (s.replyErr m 0x22)) ∧
    (off % n = 0 → off + n ≤ 128 → HomeReady m (.atom m) (nodeOfPeer m.src) .atomic (wordsOf pa n) s v →
      (m.checked = false → exec (.atom m) s = .next (v.replyErr m 0xA1)) ∧
      (m.checked = true → v.badCheck.contains (pa / 128 * 128) = false → v.poisoned pa = true →
        exec (.atom m) s = .next (v.replyErr m 0xA0)) ∧
      ∀ a u, m.checked = true → v.badCheck.contains (pa / 128 * 128) = false → v.poisoned pa = false →
        v.homeAtomic none (fun s w => s.peerTransition (nodeOfPeer m.src) .atomic (rowLine pa) [w]) pa n
          (m.mask.extractLsb' 64 8).toNat (m.line.toNat / 2 ^ (8 * off) % 2 ^ (8 * n))
          ((m.mask.extractLsb' 0 64).toNat % 2 ^ (8 * n)) = (a, u) →
        exec (.atom m) s = .next (u.replyTo 0x24 m (msgBytes noMsg off n a.1))) := by
  have hexec : exec (.atom m) s = execAtom m s := rfl
  rw [hexec]
  unfold execAtom
  rw [State.arrived_here hdst]
  simp only [← hn, ← hoff, ← hpa]
  refine ⟨fun h => ?_, fun hm hle h => ?_⟩
  · refine congrArg _ (if_pos ?_)
    rcases h with h | h
    · rw [bne_iff_ne.2 h, Bool.true_or]
    · rw [decide_eq_true h, Bool.or_true]
  · have hin : (off % n != 0 || decide (off + n > 128)) = false := by
      rw [bne_zero_of_mod hm, decide_eq_false (Nat.not_lt.2 hle), Bool.or_self]
    simp only [hin, Bool.false_eq_true, if_false, State.forPeer_ready h]
    refine ⟨fun hc => ?_, fun hc hb hp => ?_, fun a u hc hb hp ha => ?_⟩
    · simp only [hc, Bool.not_false, if_true]
    · simp only [hc, Bool.not_true, Bool.false_eq_true, if_false, hb, hp, if_true]
    · simp only [hc, Bool.not_true, Bool.false_eq_true, if_false, hb, hp, ha]

/-- A message for another device goes on to it. -/
def GoesOn (i : Msg → Instr) (ty : BitVec 8) : Prop :=
  ∀ (m : Msg) (s : State), m.dst ≠ s.dev → exec (i m) s = .next (s.sendOrDrop ty m)

/-- A meaning that first looks whether its message is for this device sends others on. -/
theorem goesOn_of_arrived {i : Msg → Instr} {ty : BitVec 8} (f : Msg → State → Host.Outcome State Fault Refusal)
    (hf : ∀ m s, exec (i m) s = f m s) (h : ∀ m s, ∃ k, f m s = s.arrived ty m k) : GoesOn i ty := fun m s hdst => by
  obtain ⟨k, hk⟩ := h m s
  rw [hf, hk, State.arrived_elsewhere hdst]

/-- Settles O55: the home's checks by the request's course, each request by what it answers, other devices' messages by their
destination. -/
theorem homesAnswerPeers : Obligations.HomesAnswerPeers := by
  unfold Obligations.HomesAnswerPeers
  refine ⟨⟨?_, homeAnswers_spec, atom_spec⟩, ?_⟩
  · show ∀ row ∈ (_ : List ((Msg → Instr) × (Msg → Event) × (Msg → LineKey → List Nat))), HomeChecks row.1 row.2.1 row.2.2
    simp only [List.forall_mem_cons, List.not_mem_nil, false_implies, implies_true, and_true]
    exact ⟨homeChecks_of_forPeer ldt_eq, homeChecks_of_forPeer ldu_eq, homeChecks_of_forPeer ownr_eq,
      homeChecks_of_forPeer wr_eq, homeChecks_of_forPeer reg_eq, homeChecks_of_forPeer red_eq, homeChecks_of_forPeer crd_eq,
      homeChecks_of_forPeer cwr_eq⟩
  · show ∀ row ∈ (_ : List ((Msg → Instr) × BitVec 8)), GoesOn row.1 row.2
    simp only [List.forall_mem_cons, List.not_mem_nil, false_implies, implies_true, and_true]
    exact ⟨goesOn_of_arrived execLdt (fun _ _ => rfl) fun _ _ => ⟨_, rfl⟩, goesOn_of_arrived execLdu (fun _ _ => rfl) fun _ _ => ⟨_, rfl⟩,
      goesOn_of_arrived execOwnr (fun _ _ => rfl) fun _ _ => ⟨_, rfl⟩, goesOn_of_arrived execWr (fun _ _ => rfl) fun _ _ => ⟨_, rfl⟩,
      goesOn_of_arrived execReg (fun _ _ => rfl) fun _ _ => ⟨_, rfl⟩, goesOn_of_arrived execAtom (fun _ _ => rfl) fun _ _ => ⟨_, rfl⟩,
      goesOn_of_arrived execRed (fun _ _ => rfl) fun _ _ => ⟨_, rfl⟩, goesOn_of_arrived execKey (fun _ _ => rfl) fun _ _ => ⟨_, rfl⟩,
      goesOn_of_arrived execDropn (fun _ _ => rfl) fun _ _ => ⟨_, rfl⟩, goesOn_of_arrived execInv (fun _ _ => rfl) fun _ _ => ⟨_, rfl⟩,
      goesOn_of_arrived execFwd (fun _ _ => rfl) fun _ _ => ⟨_, rfl⟩, goesOn_of_arrived execFwdinv (fun _ _ => rfl) fun _ _ => ⟨_, rfl⟩,
      goesOn_of_arrived execRecallMsg (fun _ _ => rfl) fun _ _ => ⟨_, rfl⟩, goesOn_of_arrived execBinv (fun _ _ => rfl) fun _ _ => ⟨_, rfl⟩,
      goesOn_of_arrived execData (fun _ _ => rfl) fun _ _ => ⟨_, rfl⟩, goesOn_of_arrived execAck (fun _ _ => rfl) fun _ _ => ⟨_, rfl⟩,
      goesOn_of_arrived execErr (fun _ _ => rfl) fun _ _ => ⟨_, rfl⟩, goesOn_of_arrived execWb (fun _ _ => rfl) fun _ _ => ⟨_, rfl⟩,
      goesOn_of_arrived execAres (fun _ _ => rfl) fun _ _ => ⟨_, rfl⟩, goesOn_of_arrived execGrant (fun _ _ => rfl) fun _ _ => ⟨_, rfl⟩,
      goesOn_of_arrived execCrdMessage (fun _ _ => rfl) fun _ _ => ⟨_, rfl⟩, goesOn_of_arrived execCdata (fun _ _ => rfl) fun _ _ => ⟨_, rfl⟩,
      goesOn_of_arrived execCwrMessage (fun _ _ => rfl) fun _ _ => ⟨_, rfl⟩, goesOn_of_arrived execCack (fun _ _ => rfl) fun _ _ => ⟨_, rfl⟩⟩

end Sys2Proof.Machine
end

section
/-! The statement about holders, answers and keys of peers (R134, R136, R141, R143, R147, R296, R297, R399). -/

namespace Sys2Proof.Machine

/-- What holders and droppers of lines do (R136, R141, R143). -/
theorem holders_spec (m : Msg) (s : State) (hdst : m.dst = s.dev) :
    exec (.inv m) s = .next (s.holderAnswer m (s.keyOf m) false) ∧
    exec (.recallMsg m) s = .next (s.holderAnswer m (s.keyOf m) false) ∧
    exec (.binv m) s = .next (s.holderAnswer m (s.keyOf m) true) ∧
    (∀ key, key = s.keyOf m →
      (m.pol = 0 ∨ m.pol = 3 → exec (.fwd m) s = .next (((s.forward m key 0).shareLine key).replyTo 0x21 m noMsg)) ∧
      (m.pol ≠ 0 → m.pol ≠ 3 → exec (.fwd m) s = .next ((s.forward m key 3).replyTo 0x21 m noMsg)) ∧
      exec (.fwdinv m) s = .next ((((s.forward m key 2).giveUp key false).unregister key).replyTo 0x21 m noMsg) ∧
      (s.owns key.base = false → exec (.dropn m) s = .next (s.replyErr m 0x20) ∧ exec (.wb m) s = .next s) ∧
      (s.owns key.base = true → exec (.dropn m) s =
          .next (((s.broughtBack m key [] true).peerGone m.src (footprint key)).replyTo 0x21 m noMsg) ∧
        (s.asked m [0x10, 0x13, 0x14] false = none → exec (.wb m) s =
          .next ((s.broughtBack m key [] true).peerGone m.src (m.words key))) ∧
        ∀ r, s.asked m [0x10, 0x13, 0x14] false = some r → exec (.wb m) s =
          .next (((s.broughtBack m r.line r.stored true).peerGone m.src (footprint r.line)).answered r 0x21 m))) := by
  have hfwd : exec (.fwd m) s = execFwd m s := rfl
  have hfwdinv : exec (.fwdinv m) s = execFwdinv m s := rfl
  have hdropn : exec (.dropn m) s = execDropn m s := rfl
  have hwb : exec (.wb m) s = execWb m s := rfl
  refine ⟨State.arrived_here hdst 0x10 fun s => s.holderAnswer m (s.keyOf m) false,
    State.arrived_here hdst 0x13 fun s => s.holderAnswer m (s.keyOf m) false,
    State.arrived_here hdst 0x14 fun s => s.holderAnswer m (s.keyOf m) true, fun key hkey => ?_⟩
  subst hkey
  rw [hfwd, hfwdinv, hdropn, hwb]
  unfold execFwd execFwdinv execDropn execWb
  rw [State.arrived_here hdst, State.arrived_here hdst, State.arrived_here hdst, State.arrived_here hdst]
  refine ⟨fun hp => ?_, fun h0 h3 => ?_, rfl, fun ho => ⟨?_, ?_⟩, fun ho => ⟨?_, fun ha => ?_, fun r ha => ?_⟩⟩
  · have htracked : (m.pol == 0 || m.pol == 3) = true := by rcases hp with h | h <;> rw [h] <;> rfl
    simp only [htracked, if_true]
  · simp only [beq_eq_false_iff_ne.2 h0, beq_eq_false_iff_ne.2 h3, Bool.or_self, Bool.false_eq_true, if_false]
  · simp only [ho, Bool.not_false, if_true]
  · simp only [ho, Bool.not_false, if_true]
  · simp only [ho, Bool.not_true, Bool.false_eq_true, if_false]
  · simp only [ho, Bool.not_true, Bool.false_eq_true, if_false, ha]
  · simp only [ho, Bool.not_true, Bool.false_eq_true, if_false, ha]

/-- DATA: a line that came for the home or for a core of this device (R134, R147). -/
theorem data_spec (m : Msg) (s : State) (hdst : m.dst = s.dev) :
    (s.owns (s.keyOf m).base = true →
      (s.asked m [0x11, 0x12] false = none → exec (.data m) s = .next s) ∧
      ∀ r, s.asked m [0x11, 0x12] false = some r → 2 ^ 64 ≤ r.addr →
        (r.mtype = 0x12 → exec (.data m) s =
          .next (((s.broughtBack m r.line r.stored true).peerGone m.src (footprint r.line)).answered r 0x20 m)) ∧
        (r.mtype = 0x11 → exec (.data m) s = .next ((s.broughtBack m r.line r.stored false).answered r 0x20 m))) ∧
    (s.owns (s.keyOf m).base = false →
      (s.asked m [0x01, 0x02, 0x03, 0x05] true = none → exec (.data m) s = .next s) ∧
      ∀ r, s.asked m [0x01, 0x02, 0x03, 0x05] true = some r → m.src = deviceOf (s.keyOf m).base → m.checked = true →
        (r.spoiled = false → r.party.ctx < 1024 → exec (.data m) s =
          .next (((s.fillPeer m r.line).grantLine (coreOf r.party.ctx) r.line m.grant).answered r 0x20 m)) ∧
        (r.spoiled = true → r.mtype = 0x01 → exec (.data m) s = .next (s.answered r 0x20 m))) := by
  have hdata : exec (.data m) s = execData m s := rfl
  rw [hdata]
  unfold execData
  rw [State.arrived_here hdst]
  refine ⟨fun ho => ⟨fun ha => ?_, fun r ha haddr => ⟨fun ht => ?_, fun ht => ?_⟩⟩,
    fun ho => ⟨fun ha => ?_, fun r ha hsrc hc => ⟨fun hs hctx => ?_, fun hs ht => ?_⟩⟩⟩
  · simp only [ho, if_true, ha]
  · simp only [ho, if_true, ha, if_neg (Nat.not_lt.2 haddr), ht, beq_self_eq_true]
  · have hne : ((0x11 : BitVec 8) == 0x12) = false := rfl
    simp only [ho, if_true, ha, if_neg (Nat.not_lt.2 haddr), ht, hne, Bool.false_eq_true, if_false]
  · simp only [ho, Bool.false_eq_true, if_false, ha]
  · simp only [ho, Bool.false_eq_true, if_false, ha, hc, hs, Bool.false_and, Bool.not_false, Bool.and_self, if_true,
      decide_eq_true hctx, hsrc, beq_self_eq_true]
  · simp only [ho, Bool.false_eq_true, if_false, ha, hc, hs, ht, beq_self_eq_true, Bool.and_self, Bool.not_true, Bool.and_false,
      Bool.false_and, hsrc, if_true]

/-- ACK of what this device asked a peer for (R134). -/
theorem ack_spec (m : Msg) (s : State) (hdst : m.dst = s.dev) :
    (s.asked m [0x03, 0x04, 0x07, 0x08, 0x10, 0x11, 0x12, 0x13, 0x14] false = none → exec (.ack m) s = .next s) ∧
    (∀ r, s.asked m [0x03, 0x04, 0x07, 0x08, 0x10, 0x11, 0x12, 0x13, 0x14] false = some r → r.mtype ≠ 0x03 →
      (r.mtype.toNat < 0x10 → exec (.ack m) s = .next (s.answered r 0x21 m)) ∧
      (r.mtype = 0x11 ∨ r.mtype = 0x12 → 2 ^ 64 ≤ r.addr → exec (.ack m) s = .next s) ∧
      (r.mtype = 0x11 → r.addr < 2 ^ 64 → exec (.ack m) s = .next (s.answered r 0x21 m)) ∧
      (0x10 ≤ r.mtype.toNat → r.mtype ≠ 0x11 → r.addr < 2 ^ 64 → exec (.ack m) s =
        .next ((s.peerGone m.src (footprint r.line)).answered r 0x21 m))) := by
  have hack : exec (.ack m) s = execAck m s := rfl
  rw [hack]
  unfold execAck
  rw [State.arrived_here hdst]
  refine ⟨fun ha => by simp only [ha], fun r ha h3 => ⟨fun ht => ?_, fun ht haddr => ?_, fun ht haddr => ?_, fun ht h11 haddr => ?_⟩⟩
  all_goals simp only [ha, beq_eq_false_iff_ne.2 h3, Bool.false_eq_true, if_false]
  · rw [if_pos ht]
  · have hbig : (decide (r.addr ≥ 2 ^ 64)) = true := decide_eq_true haddr
    have hlarge : ¬ r.mtype.toNat < 16 := by rcases ht with h | h <;> rw [h] <;> decide
    have hfwd : (r.mtype == 0x11 || r.mtype == 0x12) = true := by rcases ht with h | h <;> rw [h] <;> rfl
    rw [if_neg hlarge, hfwd, hbig, Bool.and_self, if_pos rfl]
  · have hsmall : (decide (r.addr ≥ 2 ^ 64)) = false := decide_eq_false (Nat.not_le.2 haddr)
    have hlarge : ¬ r.mtype.toNat < 16 := by rw [ht]; decide
    rw [if_neg hlarge, hsmall, Bool.and_false, if_neg Bool.false_ne_true, ht, beq_self_eq_true, if_pos rfl]
  · have hsmall : (decide (r.addr ≥ 2 ^ 64)) = false := decide_eq_false (Nat.not_le.2 haddr)
    rw [if_neg (Nat.not_lt.2 ht), hsmall, Bool.and_false, if_neg Bool.false_ne_true, beq_eq_false_iff_ne.2 h11,
      if_neg Bool.false_ne_true]

/-- The answers to other requests of this device (R399). -/
theorem answers_spec (m : Msg) (s : State) (hdst : m.dst = s.dev) :
    (∀ r, s.requests.find? (fun r => r.tag == m.tag.toNat && r.dst == m.src && r.answer.isNone) = some r →
      exec (.err m) s = .next (s.answered r 0x22 m)) ∧
    (s.asked m [0x06] false = none → exec (.ares m) s = .next s) ∧
    (∀ r, s.asked m [0x06] false = some r → exec (.ares m) s =
      .next (if m.checked then s.answered r 0x24 m else s.answered r 0x22 { m with aux := 0xA1 })) ∧
    (s.asked m [0x30] false = none → exec (.cdata m) s = .next s) ∧
    (∀ r, s.asked m [0x30] false = some r → exec (.cdata m) s =
      .next (if m.checked then s.answered r 0x31 m else s.answered r 0x22 { m with aux := 0xA1 })) ∧
    (s.asked m [0x32] false = none → exec (.cack m) s = .next s) ∧
    (∀ r, s.asked m [0x32] false = some r → exec (.cack m) s = .next (s.answered r 0x33 m)) ∧
    (s.asked m [0x08] false = none → exec (.grant m) s = .next s) ∧
    (∀ r, s.asked m [0x08] false = some r → r.party ≠ homeParty → exec (.grant m) s = .next (s.answered r 0x25 m)) := by
  have herr : exec (.err m) s = execErr m s := rfl
  have hares : exec (.ares m) s = execAres m s := rfl
  have hcdata : exec (.cdata m) s = execCdata m s := rfl
  have hcack : exec (.cack m) s = execCack m s := rfl
  have hgrant : exec (.grant m) s = execGrant m s := rfl
  rw [herr, hares, hcdata, hcack, hgrant]
  unfold execErr execAres execCdata execCack execGrant
  simp only [State.arrived_here hdst]
  refine ⟨fun r h => ?_, fun h => ?_, fun r h => ?_, fun h => ?_, fun r h => ?_, fun h => ?_, fun r h => ?_, fun h => ?_,
    fun r h hp => ?_⟩
  all_goals simp only [h]
  simp only [beq_eq_false_iff_ne.2 hp, Bool.false_eq_true, if_false]

/-- A request of a party that is answered holds its answer, and memory is as it was (R399). -/
theorem State.answered_spec (s : State) (r : RemoteReq) (t : BitVec 8) (m : Msg) (hr : r ∈ s.requests) (hp : r.party ≠ homeParty) :
    { r with answer := some (t, m) } ∈ (s.answered r t m).requests ∧ (s.answered r t m).mem = s.mem := by
  unfold State.answered
  rw [beq_eq_false_iff_ne.2 hp, if_neg Bool.false_ne_true]
  refine ⟨List.mem_map.2 ⟨r, hr, ?_⟩, rfl⟩
  rw [beq_self_eq_true, if_pos rfl]

/-- A key for a peer (R296, R297). -/
theorem key_spec (m : Msg) (s : State) (e : Nat) (hdst : m.dst = s.dev) (he : e = m.addr.toNat % 4096) :
    (2 ^ 20 ≤ m.addr.toNat ∨ m.addr.toNat / 4096 ≠ s.dev ∨ (s.key e).valid = false →
      exec (.key m) s = .next (s.replyErr m 0x8A)) ∧
    (m.addr.toNat < 2 ^ 20 → m.addr.toNat / 4096 = s.dev → (s.key e).valid = true →
      (m.aux = 0 → s.keyScopeOk (s.key e) = false → exec (.key m) s = .next (s.replyErr m 0x25)) ∧
      (m.aux = 0 → s.keyScopeOk (s.key e) = true → (s.key e).held = false → (s.key e).granted = none → (s.key e).queue = [] →
        exec (.key m) s = .next (s.grantPeer e (2 ^ 20 + m.src * 2 ^ 16 + m.tag.toNat) [])) ∧
      (m.aux = 0 → s.keyScopeOk (s.key e) = true → (s.key e).held = true ∨ (s.key e).granted ≠ none ∨ (s.key e).queue ≠ [] →
        exec (.key m) s = .next (s.modKey e (Key.join (2 ^ 20 + m.src * 2 ^ 16 + m.tag.toNat)))) ∧
      (m.aux ≠ 0 → (s.key e).held = false ∨ (s.key e).remoteHolder ≠ some m.src →
        exec (.key m) s = .next (s.replyErr m 0x89)) ∧
      (m.aux ≠ 0 → (s.key e).held = true → (s.key e).remoteHolder = some m.src →
        exec (.key m) s =
          .next ((s.replyTo 0x25 m { noMsg with addr := (s.key e).tenure.setWidth 64 }).releaseKey e))) := by
  have hkey : exec (.key m) s = execKey m s := rfl
  rw [hkey]
  unfold execKey
  rw [State.arrived_here hdst]
  simp only [← he]
  refine ⟨fun h => congrArg _ (if_pos ?_), fun hn hd hv => ?_⟩
  · rcases h with h | h | h
    · rw [decide_eq_true h, Bool.true_or, Bool.true_or]
    · rw [bne_iff_ne.2 h, Bool.or_true, Bool.true_or]
    · rw [h, Bool.not_false, Bool.or_true]
  · have hok : (decide (m.addr.toNat ≥ 2 ^ 20) || m.addr.toNat / 4096 != s.dev || !(s.key e).valid) = false := by
      rw [decide_eq_false (Nat.not_le.2 hn), hd, bne_self_eq_false, hv]
      rfl
    simp only [hok, Bool.false_eq_true, if_false]
    refine ⟨fun ha hs => ?_, fun ha hs hh hg hq => ?_, fun ha hs hbusy => ?_, fun ha hno => ?_, fun ha hh hr => ?_⟩
    · simp only [ha, hs, beq_self_eq_true, Bool.not_false, Bool.and_self, if_true]
    · simp only [ha, hs, hh, hg, hq, beq_self_eq_true, Bool.not_true, Bool.and_false, Bool.false_eq_true, if_false, if_true,
        Bool.not_false, Option.isNone_none, List.isEmpty_nil, Bool.and_self]
    · have hbusy : (!(s.key e).held && (s.key e).granted.isNone && (s.key e).queue.isEmpty) = false := by
        rcases hbusy with h | h | h
        · rw [h]; rfl
        · rw [Option.isNone_eq_false_iff.2 (Option.isSome_iff_ne_none.2 h), Bool.and_false, Bool.false_and]
        · rw [List.isEmpty_eq_false_iff.2 h, Bool.and_false]
      simp only [ha, hs, hbusy, beq_self_eq_true, Bool.not_true, Bool.and_false, Bool.false_eq_true, if_false, if_true]
    · have hno : ((s.key e).held && (s.key e).remoteHolder == some m.src) = false := by
        rcases hno with h | h
        · rw [h, Bool.false_and]
        · rw [beq_eq_false_iff_ne.2 h, Bool.and_false]
      simp only [beq_eq_false_iff_ne.2 ha, hno, Bool.false_and, Bool.false_eq_true, if_false, Bool.not_false, if_true]
    · simp only [beq_eq_false_iff_ne.2 ha, hh, hr, Bool.false_and, Bool.false_eq_true, if_false, beq_self_eq_true, Bool.and_self,
        Bool.not_true]

/-- Settles O56: holders by what they hold, answers by the request they name, keys by their entry. -/
theorem holdersAnswerAndAnswersEnter : Obligations.HoldersAnswerAndAnswersEnter := by
  unfold Obligations.HoldersAnswerAndAnswersEnter
  refine ⟨holders_spec, fun m s hdst => ?_, State.answered_spec, key_spec⟩
  obtain ⟨hhome, hcore⟩ := data_spec m s hdst
  obtain ⟨hnoAck, hack⟩ := ack_spec m s hdst
  exact ⟨hhome, hcore, hnoAck, hack, answers_spec m s hdst⟩

end Sys2Proof.Machine
end

section
/-! The statement about Ultra Ethernet: exposed regions, packets and receive queues (R284, R395, R443, R461). -/

namespace Sys2Proof.Machine

/-- A region that an inbound request names is one that a live job has exposed, to its port, with its bytes inside (R443). -/
theorem State.exposedAt_spec (port off n : Nat) (key : Word) (s : State) (j : Job) (va : Nat)
    (h : s.exposedAt port key off n = some (j, va)) :
    j ∈ s.jobs ∧ j.live = true ∧ ∃ e ∈ j.exposed, e.key = key ∧ off + n ≤ e.len ∧ va = e.base + off ∧
      (e.ports = 0 ∨ bit e.ports port = true) := by
  obtain ⟨j', hj', hfound⟩ := List.exists_of_findSome?_eq_some h
  obtain ⟨e, he, heq⟩ := Option.map_eq_some_iff.1 hfound
  cases heq
  have hfits := List.find?_some he
  simp only [Bool.and_eq_true, Bool.or_eq_true, decide_eq_true_eq, beq_iff_eq] at hfits
  obtain ⟨⟨⟨hlive, hkey⟩, hports⟩, hlen⟩ := hfits
  exact ⟨hj', hlive, e, List.mem_of_find?_eq_some he, hkey, hlen, rfl, hports⟩

/-- Bytes that come in for an exposed region (R443). -/
theorem uetInboundWrite_spec (port off : Nat) (key : Word) (bs : List Byte) (s : State) :
    (s.exposedAt port key off bs.length = none → exec (.uetInboundWrite port key off bs) s = .next (s.emit (.uetRefuse port))) ∧
    ∀ j va, s.exposedAt port key off bs.length = some (j, va) → exec (.uetInboundWrite port key off bs) s =
      .next (if (linesOf va bs.length).any (s.inboundBarred j) then s.emit (.uetRefuse port)
        else (s.ingress j (bs.length / 128 + 2) va bs).emit (.uetReply port [])) := by
  have hexec : exec (.uetInboundWrite port key off bs) s = execUetInboundWrite port key off bs s := rfl
  rw [hexec]
  unfold execUetInboundWrite
  refine ⟨fun h => by simp only [h], fun j va h => ?_⟩
  simp only [h]
  split <;> rfl

/-- Bytes that are asked of an exposed region (R443, R461). -/
theorem uetInboundRead_spec (port off len : Nat) (key : Word) (s : State) :
    (s.exposedAt port key off len = none → exec (.uetInboundRead port key off len) s = .next (s.emit (.uetRefuse port))) ∧
    ∀ j va, s.exposedAt port key off len = some (j, va) →
      ((∃ a ∈ linesOf va len, s.badLine j a = true) →
        exec (.uetInboundRead port key off len) s = .next ((s.egress j va len).emit (.uetRefuse port))) ∧
      ((∀ a ∈ linesOf va len, s.badLine j a = false) → exec (.uetInboundRead port key off len) s =
        .next (s.emit (.uetReply port ((s.jobRead j.id va len).getD [])))) := by
  have hexec : exec (.uetInboundRead port key off len) s = execUetInboundRead port key off len s := rfl
  rw [hexec]
  unfold execUetInboundRead
  refine ⟨fun h => by simp only [h], fun j va h => ⟨fun hbad => ?_, fun hgood => ?_⟩⟩
  · simp only [h, List.any_eq_true.2 hbad, if_true]
  · have hany : (linesOf va len).any (s.badLine j) = false := List.any_eq_false.2 fun a ha => by rw [hgood a ha]; decide
    simp only [h, hany, Bool.false_eq_true, if_false]

/-- What a receive queue takes (R284). -/
theorem receiveQueueTraffic_spec (job queue : Nat) (k : QueueTraffic) (s : State) :
    (s.jobAt job = none → exec (.receiveQueueTraffic job queue k) s = .next s) ∧
    ∀ j, s.jobAt job = some j →
      (afind? j.queues queue = none → exec (.receiveQueueTraffic job queue k) s = .next s) ∧
      ∀ q, afind? j.queues queue = some q →
        exec (.receiveQueueTraffic job queue k) s =
          .next (s.modJob j.id fun j => { j with queues := aset j.queues queue (q.take k) }) ∧
        (q.take .close).closed = true ∧ (q.take .close).bytes = q.bytes ∧
        ∀ bs, q.closed = false → (q.take (.bytes bs)).bytes = q.bytes ++ bs := by
  have hexec : exec (.receiveQueueTraffic job queue k) s = execReceiveQueueTraffic job queue k s := rfl
  rw [hexec]
  unfold execReceiveQueueTraffic
  refine ⟨fun h => by simp only [h], fun j h => ⟨fun hq => by simp only [h, hq], fun q hq => ⟨by simp only [h, hq], rfl, rfl,
    fun bs hopen => ?_⟩⟩⟩
  unfold RecvQueue.take
  simp only [hopen, Bool.false_eq_true, if_false]

/-- Settles O53: inbound requests by the region they name, queues by what they take. -/
theorem ultraEthernetReachesExposedRegions : Obligations.UltraEthernetReachesExposedRegions := by
  unfold Obligations.UltraEthernetReachesExposedRegions
  exact ⟨uetInboundWrite_spec, uetInboundRead_spec, State.exposedAt_spec, fun _ _ => rfl, receiveQueueTraffic_spec⟩

end Sys2Proof.Machine
end

section
/-! The statement about Turnpike links (R396, R397, R400 to R403). -/

namespace Sys2Proof.Machine

/-- A link that was changed. -/
theorem State.link_modLink_same (s : State) (k : Nat) (f : Link → Link) : (s.modLink k f).link k = f (s.link k) :=
  aget_aset_same ..

/-- Sending TRAIN leaves the links. -/
theorem State.link_sendTrain (s : State) (k j : Nat) : (s.sendTrain k).link j = s.link j := rfl

/-- TRAIN: a link comes up with the recorded peer, or is dead (R396, R401). -/
theorem train_spec (k : Nat) (r : TrainRec) (s : State) :
    ((s.link k).phase ≠ .training → exec (.train k r) s = .next s) ∧
    ((s.link k).phase = .training → r.fits = false ∨ r.dev.toNat = s.dev ∨ s.recorded k ≠ some (r.dev.toNat, r.link.toNat) →
      exec (.train k r) s = .next (s.deadLink k)) ∧
    ((s.link k).phase = .training → r.fits = true → r.dev.toNat ≠ s.dev → s.recorded k = some (r.dev.toNat, r.link.toNat) →
      ∃ t u : State, exec (.train k r) s = .next u ∧ u = (t.replayFrom k none).pump k ((t.replayFrom k none).link k).ready.length ∧
        (t.link k).phase = .up ∧ (t.link k).peer = some (r.dev.toNat, r.link.toNat) ∧
        (t.link k).replay = (s.link k).replay ∧
        ((s.link k).retrained = true → (t.link k).credits = (s.link k).credits) ∧
        ((s.link k).retrained = false → ∀ i : Fin 4, (t.link k).credits[i.val] = (r.credit[i.val]?.getD 0).toNat)) := by
  have hexec : exec (.train k r) s = execTrain k r s := rfl
  rw [hexec]
  unfold execTrain
  refine ⟨fun h => if_pos (bne_iff_ne.2 h), fun h hbad => ?_, fun h hfits hdev hrec => ?_⟩
  · have hbad : (!r.fits || r.dev.toNat == s.dev || s.recorded k != some (r.dev.toNat, r.link.toNat)) = true := by
      rcases hbad with hb | hb | hb
      · rw [hb]; rfl
      · rw [hb, beq_self_eq_true, Bool.or_true, Bool.true_or]
      · rw [bne_iff_ne.2 hb, Bool.or_true]
    simp only [h, bne_self_eq_false, Bool.false_eq_true, if_false, hbad, if_true]
  · have hgood : (!r.fits || r.dev.toNat == s.dev || s.recorded k != some (r.dev.toNat, r.link.toNat)) = false := by
      rw [hfits, beq_eq_false_iff_ne.2 hdev, hrec, bne_self_eq_false]
      rfl
    simp only [h, bne_self_eq_false, Bool.false_eq_true, if_false, hgood]
    refine ⟨_, _, rfl, rfl, ?_⟩
    rw [State.link_modLink_same]
    refine ⟨rfl, rfl, rfl, fun hr => if_pos hr, fun hr i => ?_⟩
    simp only [hr, Bool.false_eq_true, if_false]
    match i with
    | 0 => rfl
    | 1 => rfl
    | 2 => rfl
    | 3 => rfl

/-- What trains again, what is taken down and what times out (R396, R397, R401). -/
theorem linkTimers_spec (k : Nat) (s : State) :
    ((s.link k).phase = .training → exec (.trainResend k) s = .next (s.emit (.train k))) ∧
    ((s.link k).phase ≠ .training → exec (.trainResend k) s = .next s) ∧
    (∀ reason, exec (.down k reason) s = .next (s.linkDown k 0 false)) ∧
    ((s.link k).replay = [] → exec (.ackTimeout k) s = .next s) ∧
    ((s.link k).replay ≠ [] → exec (.ackTimeout k) s = .next (s.linkDown k 2 true)) ∧
    ((s.link k).phase = .training → (s.link k).retrained = true → exec (.retrainTimeout k) s = .next (s.deadLink k)) ∧
    ((s.link k).phase ≠ .training ∨ (s.link k).retrained = false → exec (.retrainTimeout k) s = .next s) := by
  refine ⟨fun h => congrArg _ (if_pos (beq_iff_eq.2 h)), fun h => congrArg _ (if_neg (mt beq_iff_eq.1 h)), fun _ => rfl,
    fun h => congrArg _ (if_pos (List.isEmpty_iff.2 h)), fun h => congrArg _ (if_neg (mt List.isEmpty_iff.1 h)),
    fun h hr => congrArg _ (if_pos ?_), fun h => congrArg _ (if_neg ?_)⟩
  · rw [h, hr]
    rfl
  · rw [Bool.and_eq_true, beq_iff_eq]
    rintro ⟨hp, hr⟩
    rcases h with h | h
    · exact h hp
    · rw [hr] at h; cases h

/-- NAK: flits are sent again, or the link goes down at the sixteenth (R401). -/
theorem nak_spec (k : Nat) (q : BitVec 16) (s t : State) (n : Nat)
    (hn : n = (if (s.link k).naks > 0 && (s.link k).nakSeq == q then (s.link k).naks + 1 else 1))
    (ht : t = s.modLink k (fun l => { l with naks := n, nakSeq := q })) :
    ((s.link k).phase ≠ .up → exec (.nak k q) s = .next s) ∧
    ((s.link k).phase = .up → n < 16 → exec (.nak k q) s = .next (t.replayFrom k (some q))) ∧
    ((s.link k).phase = .up → 16 ≤ n → exec (.nak k q) s = .next (t.linkDown k 1 true)) := by
  have hexec : exec (.nak k q) s = execNak k q s := rfl
  rw [hexec]
  unfold execNak
  refine ⟨fun h => if_pos (bne_iff_ne.2 h), fun h hlt => ?_, fun h hge => ?_⟩
  · simp only [h, bne_self_eq_false, Bool.false_eq_true, if_false, ← hn, ← ht, ge_iff_le, Nat.not_le.2 hlt]
  · simp only [h, bne_self_eq_false, Bool.false_eq_true, if_false, ← hn, ← ht, ge_iff_le, hge, if_true]

/-- Flits: what is discarded, what is taken, and what is sent on (R397, R399 to R402). -/
theorem flit_spec (k : Nat) (f : Flit) (s : State) :
    ((s.link k).phase ≠ .up → exec (.messageFlit k f) s = .next s ∧ exec (.idleFlit k f) s = .next s) ∧
    ((s.link k).phase = .up → f.lcrcOk = false → exec (.idleFlit k f) s = .next s) ∧
    (∀ t, (s.link k).phase = .up → f.lcrcOk = true → t = s.modLink k (Link.take f) →
      exec (.idleFlit k f) s = .next (t.pump k (t.link k).ready.length)) ∧
    ((s.link k).phase = .up → f.lcrcOk = false ∨ f.seq ≠ (s.link k).expect →
      ((s.link k).nakSent = true → exec (.messageFlit k f) s = .next s) ∧
      ((s.link k).nakSent = false → exec (.messageFlit k f) s =
        .next ((s.modLink k fun l => { l with nakSent := true }).emit (.nak k (s.link k).expect)))) ∧
    ∀ t known, (s.link k).phase = .up → f.lcrcOk = true → f.seq = (s.link k).expect →
      known = f.msgs.takeWhile (fun x => (messageEvent x.1 x.2).isSome) →
      t = known.foldl (fun s x => s.deliverMessage x.1 x.2) ((s.modLink k fun l => (l.take f).free f.msgs).modLink k fun l =>
        { l with expect := l.expect + 1, lastAck := f.seq, nakSent := false }) →
      (known.length < f.msgs.length → exec (.messageFlit k f) s = .next (t.linkDown k 4 true)) ∧
      (known = f.msgs → exec (.messageFlit k f) s = .next
        (if (t.pump k (t.link k).ready.length |>.link k).nextSeq = (t.link k).nextSeq
          then (t.pump k (t.link k).ready.length).idle k else t.pump k (t.link k).ready.length)) := by
  have hmsg : exec (.messageFlit k f) s = execMessageFlit k f s := rfl
  have hidle : exec (.idleFlit k f) s = execIdleFlit k f s := rfl
  rw [hmsg, hidle]
  unfold execMessageFlit execIdleFlit
  refine ⟨fun h => ⟨if_pos (bne_iff_ne.2 h), if_pos ?_⟩, fun h hl => if_pos ?_, fun t h hl ht => ?_, fun h hbad => ?_,
    fun t known h hl hs hknown ht => ?_⟩
  · rw [bne_iff_ne.2 h, Bool.true_or]
  · rw [hl, Bool.not_false, Bool.or_true]
  · simp only [h, hl, bne_self_eq_false, Bool.not_true, Bool.or_self, Bool.false_eq_true, if_false, ← ht]
  · have hbad : (!f.lcrcOk || f.seq != (s.link k).expect) = true := by
      rcases hbad with hb | hb
      · rw [hb]; rfl
      · rw [bne_iff_ne.2 hb, Bool.or_true]
    refine ⟨fun hn => ?_, fun hn => ?_⟩ <;>
      simp only [h, bne_self_eq_false, Bool.false_eq_true, if_false, hbad, if_true, hn]
  · have hgood : (!f.lcrcOk || f.seq != (s.link k).expect) = false := by
      rw [hl, hs, bne_self_eq_false]
      rfl
    simp only [h, bne_self_eq_false, Bool.false_eq_true, if_false, hgood, ← hknown, ← ht]
    refine ⟨fun hlt => if_pos hlt, fun heq => ?_⟩
    rw [heq, if_neg (Nat.lt_irrefl _)]
    simp only [beq_iff_eq]

/-- A link that was up trains again (R397, R401). -/
theorem State.linkDown_spec (k : Nat) (reason : BitVec 8) (tell : Bool) (s : State) :
    ((s.link k).phase ≠ .up → s.linkDown k reason tell = s) ∧
    ((s.link k).phase = .up → ((s.linkDown k reason tell).link k).phase = .training ∧
      ((s.linkDown k reason tell).link k).retrained = true ∧ ((s.linkDown k reason tell).link k).replay = (s.link k).replay ∧
      (s.linkDown k reason tell).out = s.out ++ (if tell then [.down k reason] else []) ++ [.train k]) := by
  refine ⟨fun h => if_pos (bne_iff_ne.2 h), fun h => ?_⟩
  have hdown : s.linkDown k reason tell = State.sendTrain (State.modLink (if tell then s.emit (.down k reason) else s) k fun l =>
      { l with phase := .training, retrained := true, naks := 0, nakSent := false }) k := by
    unfold State.linkDown
    rw [h, bne_self_eq_false, if_neg Bool.false_ne_true]
  have hlink : (s.linkDown k reason tell).link k =
      { s.link k with phase := .training, retrained := true, naks := 0, nakSent := false } := by
    rw [hdown, State.link_sendTrain, State.link_modLink_same]
    cases tell <;> rfl
  rw [hlink]
  refine ⟨rfl, rfl, rfl, ?_⟩
  rw [hdown]
  cases tell with
  | true => rfl
  | false => exact congrArg (· ++ [Output.train k]) (List.append_nil _).symm

/-- Settles O54: links by their phase, flits by their check and SEQ. -/
theorem linksCarryFlits : Obligations.LinksCarryFlits := by
  unfold Obligations.LinksCarryFlits
  exact ⟨train_spec, linkTimers_spec, nak_spec, flit_spec, State.linkDown_spec⟩

end Sys2Proof.Machine
end

section
/-! The statement about system calls (R39, R224, R284, R293, R386, R409 to R411, R443). -/

namespace Sys2Proof.Machine

/-- A caller that is not in a call gets nothing (R224). -/
theorem State.call_none {s : State} {c : Caller} (h : s.callerJob c = none) (k : Job → State → State) : s.call c k = s := by
  unfold State.call
  rw [h]

/-- A call in progress is served for its caller's job (R224). -/
theorem State.call_job {s : State} {c : Caller} {j : Job} (h : s.callerJob c = some j) (k : Job → State → State) :
    s.call c k = k j s := by
  unfold State.call
  rw [h]

/-- Every system call leaves a caller that is not in a call as it is. -/
theorem syscall_ignores (c : Caller) (s : State) (h : s.callerJob c = none) :
    ∀ row ∈ [Instr.syscallVersion, .syscallLaunch, .syscallWait, .syscallCancel, .syscallTranslate, .openQueue, .closeQueue,
      .openGroup, .openWindow, .exposeRegion, .syscallExit], exec (row c) s = .next s := by
  have served : ∀ k, (.next (s.call c k) : Host.Outcome State Fault Refusal) = .next s :=
    fun k => congrArg _ (State.call_none h k)
  simp only [List.forall_mem_cons, List.not_mem_nil, false_implies, implies_true, and_true]
  exact ⟨served _, served _, served _, served _, served _, served _, served _, served _, served _, served _, served _⟩

/-- The status of a wait whose counter runs no longer is 11 for a cancelled one (R410). -/
theorem waitStatus_eq (k : CStatus) : waitStatus k = if k = .cancelled then 11 else 0 := by
  unfold waitStatus
  cases k <;> rfl

/-- A level that runs is cancelled with result 0 (R40). -/
theorem State.cancelLevel_running {s : State} {h : Word} {k : Counter} (hk : s.counter h = some k)
    (hrun : k.status = .running) : (s.cancelLevel h).1 = 0 := by
  unfold State.cancelLevel
  simp only [hk, hrun]
  repeat' split
  all_goals rfl

/-- A level that runs no longer is left as it is, with a result other than 0 (R40). -/
theorem State.cancelLevel_ended {s : State} {h : Word} {k : Counter} (hk : s.counter h = some k)
    (hrun : k.status ≠ .running) : (s.cancelLevel h).1 ≠ 0 ∧ (s.cancelLevel h).2 = s := by
  unfold State.cancelLevel
  cases hst : k.status with
  | running => exact absurd hst hrun
  | complete => simp only [hk, hst]; exact ⟨Nat.one_ne_zero, trivial⟩
  | cancelled => simp only [hk, hst]; exact ⟨two_ne_zero, trivial⟩

/-- A job's counter is the counter of that handle. -/
theorem State.counter_of_jobCounter {s : State} {slot : Nat} {h : Word} {k : Counter} (hk : s.jobCounter slot h = some k) :
    s.counter h = some k := by
  unfold State.jobCounter at hk
  split at hk
  · exact hk
  · cases hk

/-- SYSCALL_LAUNCH (R409, R413, R414). -/
theorem syscallLaunch_spec {c : Caller} {s : State} {j : Job} (hj : s.callerJob c = some j) (a : Nat)
    (ha : a = (s.arg c 0).toNat) :
    (a % 64 ≠ 0 ∨ s.rangeOk j false a 128 = false → exec (.syscallLaunch c) s = .next (s.statusWith c 4 0)) ∧
    ∀ st h t, a % 64 = 0 → s.rangeOk j false a 128 = true → s.accept j ((s.jobRead j.id a 128).getD []) = (st, h, t) →
      exec (.syscallLaunch c) s = .next (t.statusWith c st h) := by
  have hexec : exec (.syscallLaunch c) s = execSyscallLaunch c s := rfl
  rw [hexec]
  unfold execSyscallLaunch
  rw [State.call_job hj, ← ha]
  refine ⟨fun hbad => congrArg _ (if_pos ?_), fun st h t hal hok hacc => ?_⟩
  · simpa only [Bool.or_eq_true, bne_iff_ne, Bool.not_eq_true'] using hbad
  · simp only [hal, hok, bne_self_eq_false, Bool.not_true, Bool.or_self, Bool.false_eq_true, if_false, hacc]

/-- SYSCALL_WAIT and SYSCALL_CANCEL (R39, R40, R409, R410). -/
theorem syscallWait_syscallCancel_spec {c : Caller} {s : State} {j : Job} (hj : s.callerJob c = some j) (h : Word)
    (hh : h = s.arg c 0) :
    (s.jobCounter (jobSlot j.id) h = none → exec (.syscallWait c) s = .next (s.status c 5) ∧
      exec (.syscallCancel c) s = .next (s.status c 5)) ∧
    ∀ k, s.jobCounter (jobSlot j.id) h = some k →
      (s.callerWithin c h = true → exec (.syscallWait c) s = .next (s.status c 5)) ∧
      (s.callerWithin c h = false → k.status = .running → exec (.syscallWait c) s = .next (s.callWaits c h)) ∧
      (s.callerWithin c h = false → k.status ≠ .running →
        exec (.syscallWait c) s = .next (s.status c (if k.status = .cancelled then 11 else 0))) ∧
      (k.status = .running → exec (.syscallCancel c) s = .next ((s.cancelLevel h).2.status c 0)) ∧
      (k.status ≠ .running → exec (.syscallCancel c) s = .next (s.status c 12)) := by
  have hwait : exec (.syscallWait c) s = execSyscallWait c s := rfl
  have hcancel : exec (.syscallCancel c) s = execSyscallCancel c s := rfl
  rw [hwait, hcancel]
  unfold execSyscallWait execSyscallCancel
  rw [State.call_job hj, State.call_job hj, ← hh]
  refine ⟨fun hnone => by simp only [hnone, and_self], fun k hk => ?_⟩
  have hcounter := State.counter_of_jobCounter hk
  simp only [hk]
  refine ⟨fun hin => congrArg _ (if_pos hin), fun hout hrun => ?_, fun hout hrun => ?_, fun hrun => ?_, fun hrun => ?_⟩
  · simp only [hout, hrun, Bool.false_eq_true, if_false, beq_self_eq_true, if_true]
  · simp only [hout, beq_eq_false_iff_ne.2 hrun, Bool.false_eq_true, if_false, waitStatus_eq]
  · simp only [State.cancelLevel_running hcounter hrun, if_true]
  · obtain ⟨hne, hsame⟩ := State.cancelLevel_ended hcounter hrun
    simp only [if_neg hne, hsame]

/-- SYSCALL_TRANSLATE (R386). -/
theorem syscallTranslate_spec {c : Caller} {s : State} {j : Job} (hj : s.callerJob c = some j) :
    (j.tableEntry (s.arg c 0).toNat = none → exec (.syscallTranslate c) s = .next (s.callCause c 0x21 (s.arg c 0))) ∧
    ∀ k t, j.tableEntry (s.arg c 0).toNat = some k →
      (∀ a, s.kernelEntry j.id k = (some a, t) → exec (.syscallTranslate c) s = .next (t.answerCall c 0 (some a))) ∧
      (s.kernelEntry j.id k = (none, t) → exec (.syscallTranslate c) s = .next (t.callCause c 0xE8 (s.arg c 0))) := by
  have hexec : exec (.syscallTranslate c) s = execSyscallTranslate c s := rfl
  rw [hexec]
  unfold execSyscallTranslate
  rw [State.call_job hj]
  exact ⟨fun hnone => by simp only [hnone],
    fun k t hk => ⟨fun a ha => by simp only [hk, ha], fun hcause => by simp only [hk, hcause]⟩⟩

/-- OPEN_QUEUE and CLOSE_QUEUE (R284, R409, R410). -/
theorem openQueue_closeQueue_spec {c : Caller} {s : State} {j : Job} (hj : s.callerJob c = some j) (q : Nat)
    (hq : q = (s.arg c 0).toNat) :
    (15 < q ∨ 7 < (s.arg c 1).toNat → exec (.openQueue c) s = .next (s.status c 4)) ∧
    (q ≤ 15 → (s.arg c 1).toNat ≤ 7 →
      ((afind? j.queues q).isSome = true → exec (.openQueue c) s = .next (s.status c 12)) ∧
      (afind? j.queues q = none → exec (.openQueue c) s = .next ((s.modJob j.id fun j =>
        { j with queues := aset j.queues q ⟨(s.arg c 1).toNat, s.arg c 2, [], false⟩ }).status c 0))) ∧
    (15 < q → exec (.closeQueue c) s = .next (s.status c 4)) ∧
    (q ≤ 15 → afind? j.queues q = none → exec (.closeQueue c) s = .next (s.status c 2)) ∧
    ∀ rq, q ≤ 15 → afind? j.queues q = some rq → exec (.closeQueue c) s =
      .next (((s.modJob j.id fun j => { j with queues := adel j.queues q }).emit
        (.queueClose rq.port rq.peer)).status c 0) := by
  have hopen : exec (.openQueue c) s = execOpenQueue c s := rfl
  have hclose : exec (.closeQueue c) s = execCloseQueue c s := rfl
  rw [hopen, hclose]
  unfold execOpenQueue execCloseQueue
  rw [State.call_job hj, State.call_job hj, ← hq]
  refine ⟨fun hbad => congrArg _ (if_pos ?_), fun hle hport => ?_, fun hbad => congrArg _ (if_pos hbad),
    fun hle hnone => ?_, fun rq hle hsome => ?_⟩
  · simpa only [Bool.or_eq_true, decide_eq_true_eq] using hbad
  · simp only [gt_iff_lt, decide_eq_false (Nat.not_lt.2 hle), decide_eq_false (Nat.not_lt.2 hport), Bool.or_self,
      Bool.false_eq_true, if_false]
    exact ⟨fun hsome => congrArg _ (if_pos hsome), fun hnone => by simp only [hnone, Option.isSome_none, Bool.false_eq_true,
      if_false]⟩
  · simp only [gt_iff_lt, if_neg (Nat.not_lt.2 hle), hnone]
  · simp only [gt_iff_lt, if_neg (Nat.not_lt.2 hle), hsome]

/-- OPEN_GROUP (R293). -/
theorem openGroup_spec {c : Caller} {s : State} {j : Job} (hj : s.callerJob c = some j) (g a n r : Nat)
    (hg : g = (s.arg c 0).toNat) (ha : a = (s.arg c 1).toNat) (hn : n = (s.arg c 2).toNat) (hr : r = (s.arg c 3).toNat) :
    (15 < g → exec (.openGroup c) s = .next (s.status c 4)) ∧
    (g ≤ 15 → n = 0 → exec (.openGroup c) s =
      .next ((s.modJob j.id fun j => { j with groups := adel j.groups g }).status c 0)) ∧
    (g ≤ 15 → n = 1 ∨ 16384 < n ∨ (n ≠ 0 ∧ n ≤ r) → exec (.openGroup c) s = .next (s.status c 4)) ∧
    ∀ ms m, g ≤ 15 → 2 ≤ n → n ≤ 16384 → r < n → s.rangeOk j false a (16 * n) = true →
      (records ((s.jobRead j.id a (16 * n)).getD []) 16 n).mapM memberRec = some ms → ms[r]? = some m →
      (m.1 ≠ 0 ∨ m.2.1.toNat ≠ s.dev → exec (.openGroup c) s = .next (s.status c 4)) ∧
      (m.1 = 0 → m.2.1.toNat = s.dev → (afind? j.groups g).isSome = true →
        exec (.openGroup c) s = .next (s.status c 12)) ∧
      (m.1 = 0 → m.2.1.toNat = s.dev → afind? j.groups g = none → exec (.openGroup c) s =
        .next ((s.modJob j.id fun j => { j with groups := aset j.groups g ⟨r, 0, ms⟩ }).status c 0)) := by
  have hexec : exec (.openGroup c) s = execOpenGroup c s := rfl
  rw [hexec]
  unfold execOpenGroup
  rw [State.call_job hj, ← hg, ← ha, ← hn, ← hr]
  simp only [gt_iff_lt, ge_iff_le]
  refine ⟨fun hbad => by rw [if_pos hbad], fun hle hzero => by rw [if_neg (Nat.not_lt.2 hle), if_pos hzero],
    fun hle hbad => ?_, fun ms m hle h2 hmax hrank hrange hms hm => ?_⟩
  · have hcond : (decide (n = 1) || decide (16384 < n) || decide (n ≤ r) || !s.rangeOk j false a (16 * n)) = true := by
      simp only [Bool.or_eq_true, decide_eq_true_eq]
      exact .inl (or_assoc.2 (hbad.imp_right (Or.imp_right And.right)))
    rw [if_neg (Nat.not_lt.2 hle), if_neg (by omega), if_pos hcond]
  · have hcond : (decide (n = 1) || decide (16384 < n) || decide (n ≤ r) || !s.rangeOk j false a (16 * n)) = false := by
      simp only [hrange, Bool.or_eq_false_iff, decide_eq_false_iff_not, Bool.not_true, and_true]
      omega
    rw [if_neg (Nat.not_lt.2 hle), if_neg (by omega), hcond]
    simp only [Bool.false_eq_true, if_false, hms, hm, Option.any_some]
    refine ⟨fun hother => congrArg _ (if_pos ?_), fun h0 hdev hopen => ?_, fun h0 hdev hopen => ?_⟩
    · simp only [Bool.not_eq_true', Bool.and_eq_false_iff, beq_eq_false_iff_ne]
      exact hother
    · simp only [h0, hdev, beq_self_eq_true, Bool.and_self, Bool.not_true, Bool.false_eq_true, if_false, hopen, if_true]
    · simp only [h0, hdev, beq_self_eq_true, Bool.and_self, Bool.not_true, Bool.false_eq_true, if_false, hopen,
        Option.isSome_none]

/-- OPEN_WINDOW (R443). -/
theorem openWindow_spec {c : Caller} {s : State} {j : Job} (hj : s.callerJob c = some j) (w a : Nat) (b : List Byte) (len : Nat)
    (hw : w = (s.arg c 0).toNat) (ha : a = (s.arg c 1).toNat) :
    (255 < w ∨ s.rangeOk j false a 40 = false → exec (.openWindow c) s = .next (s.status c 4)) ∧
    (w ≤ 255 → s.rangeOk j false a 40 = true → b = (s.jobRead j.id a 40).getD [] → len = natAt b 32 8 →
      (7 < natAt b 0 1 ∨ natAt b 1 7 ≠ 0 ∨ natAt b 24 8 % 128 ≠ 0 ∨ len % 128 ≠ 0 ∨ 2 ^ 47 < len →
        exec (.openWindow c) s = .next (s.status c 4)) ∧
      (natAt b 0 1 ≤ 7 → natAt b 1 7 = 0 → natAt b 24 8 % 128 = 0 → len % 128 = 0 → len ≤ 2 ^ 47 →
        exec (.openWindow c) s = .next (((s.modJob j.id fun j =>
          { j with windows := aset j.windows w ⟨natAt b 0 1, w64 (natAt b 8 8), w64 (natAt b 16 8), natAt b 24 8, len⟩ }).mapWindow
            j.root w ((len + 65535) / 65536)).status c 0))) := by
  have hexec : exec (.openWindow c) s = execOpenWindow c s := rfl
  rw [hexec]
  unfold execOpenWindow
  rw [State.call_job hj, ← hw, ← ha]
  refine ⟨fun hbad => congrArg _ (if_pos ?_), fun hle hrange hb hlen => ?_⟩
  · simpa only [Bool.or_eq_true, decide_eq_true_eq, Bool.not_eq_true'] using hbad
  · simp only [gt_iff_lt, decide_eq_false (Nat.not_lt.2 hle), hrange, Bool.not_true, Bool.or_self, Bool.false_eq_true, if_false,
      ← hb, ← hlen]
    refine ⟨fun hbad => congrArg _ (if_pos ?_), fun hkind hzero hoff hmul hmax => congrArg _ (if_neg ?_)⟩
    · simpa only [Bool.or_eq_true, decide_eq_true_eq, bne_iff_ne, or_assoc] using hbad
    · simp only [Bool.or_eq_true, decide_eq_true_eq, bne_iff_ne]
      omega

/-- EXPOSE_REGION (R443). -/
theorem exposeRegion_spec {c : Caller} {s : State} {j : Job} (hj : s.callerJob c = some j) (a n m : Nat)
    (ha : a = (s.arg c 0).toNat) (hn : n = (s.arg c 1).toNat) (hm : m = (s.arg c 2).toNat) :
    (a % 128 ≠ 0 ∨ n % 128 ≠ 0 ∨ 255 < m ∨ s.rangeOk j false a n = false →
      exec (.exposeRegion c) s = .next (s.statusWith c 4 0)) ∧
    ∀ key, a % 128 = 0 → n % 128 = 0 → m ≤ 255 → s.rangeOk j false a n = true →
      key = Config.remoteKey j.id.toNat + w64 j.exposed.length →
      exec (.exposeRegion c) s = .next ((s.modJob j.id fun j =>
        { j with exposed := j.exposed ++ [⟨key, a, n, m⟩] }).answerCall c 0 (some key)) := by
  have hexec : exec (.exposeRegion c) s = execExposeRegion c s := rfl
  rw [hexec]
  unfold execExposeRegion
  rw [State.call_job hj, ← ha, ← hn, ← hm]
  refine ⟨fun hbad => congrArg _ (if_pos ?_), fun key hal hmul hports hrange hkey => congrArg _ ?_⟩
  · simpa only [Bool.or_eq_true, decide_eq_true_eq, bne_iff_ne, Bool.not_eq_true', or_assoc] using hbad
  · simp only [gt_iff_lt, hal, hmul, hrange, decide_eq_false (Nat.not_lt.2 hports), bne_self_eq_false, Bool.not_true,
      Bool.or_self, Bool.false_eq_true, if_false, ← hkey]
    exact if_pos rfl

/-- Settles O51: each call is served for the job of its caller, and answers along the branches of its service. -/
theorem systemCallsAnswer : Obligations.SystemCallsAnswer := by
  unfold Obligations.SystemCallsAnswer
  refine ⟨fun row hrow c s h => syscall_ignores c s h row hrow, fun c s j hj => ?_⟩
  exact ⟨congrArg _ (State.call_job hj _), congrArg _ (State.call_job hj _), syscallLaunch_spec hj,
    syscallWait_syscallCancel_spec hj, syscallTranslate_spec hj, openQueue_closeQueue_spec hj, openGroup_spec hj,
    fun w a b len hw ha => openWindow_spec hj w a b len hw ha, exposeRegion_spec hj⟩

end Sys2Proof.Machine
end

section
/-! The statement about control programs (R381, R382, R434). -/

namespace Sys2Proof.Machine

/-- x0 reads as 0, a write of it is discarded, and any other register reads as what was written (R381). -/
theorem ControlProgram.rx_setX (p : ControlProgram) (r k : Nat) (v : Word) (hr : 0 < r) (hlt : r < 32) :
    (p.setX r v).rx k = if k = r then v else p.rx k := by
  unfold ControlProgram.setX ControlProgram.rx
  rw [if_neg (Nat.ne_of_gt hr)]
  by_cases hk : k = r
  · subst hk
    simp only [if_neg (Nat.ne_of_gt hr), if_true, Vector.getElem?_setIfInBounds_self_of_lt hlt, Option.getD_some]
  · simp only [if_neg hk, Vector.getElem?_setIfInBounds_ne (Ne.symm hk)]

/-- A control program that cannot move does nothing (R382). -/
theorem controlProgram_idle {n : Nat} {s : State} (h : s.controlReady n = none) (e : CpException) (v : Word) :
    exec (.controlProgramInstruction n) s = .next s ∧ exec (.ecall n) s = .next s ∧ exec (.ebreak n) s = .next s ∧
    exec (.controlProgramException n e v) s = .next s := by
  have hone : exec (.controlProgramInstruction n) s = execControlProgramInstruction n s := rfl
  have hecall : exec (.ecall n) s = execEcall n s := rfl
  have hebreak : exec (.ebreak n) s = execEbreak n s := rfl
  have hexception : exec (.controlProgramException n e v) s = execControlProgramException n e v s := rfl
  rw [hone, hecall, hebreak, hexception]
  unfold execControlProgramInstruction execEcall execEbreak execControlProgramException
  simp only [h, and_self]

/-- The control program that can move is that of the live job of its slot. -/
theorem State.jobAt_of_controlReady {n : Nat} {s : State} {j : Job} {p : ControlProgram}
    (h : s.controlReady n = some (j, p)) : s.jobAt n = some j := by
  obtain ⟨j', hj', hbind⟩ := Option.bind_eq_some_iff.1 h
  obtain ⟨p', -, hif⟩ := Option.bind_eq_some_iff.1 hbind
  split at hif
  · cases hif
    exact hj'
  · cases hif

/-- Only a breakpoint becomes cause 0xC1 (R434). -/
theorem causeOf_eq_break (e : CpException) : (causeOf e == 0xC1) = true ↔ e = .breakpoint := by
  cases e <;> decide

/-- `ecall` (R381, R382, R409). -/
theorem ecall_spec {n : Nat} {s : State} {j : Job} {p : ControlProgram} (h : s.controlReady n = some (j, p)) :
    (∀ e, serviceOf (p.rx 17).toNat (.control n) = some e →
      exec (.ecall n) s = .next ((s.modControl n ControlProgram.enter).later e)) ∧
    (serviceOf (p.rx 17).toNat (.control n) = none →
      exec (.ecall n) s = .next ((s.modControl n ControlProgram.enter).answerCall (.control n) (BitVec.allOnes 64) none)) := by
  have hexec : exec (.ecall n) s = execEcall n s := rfl
  rw [hexec]
  unfold execEcall State.callConcierge
  exact ⟨fun e he => by simp only [h, he], fun hnone => by simp only [h, hnone]⟩

/-- `ebreak` and the exceptions (R434): a breakpoint holds the control program at a record, any other ends its job. -/
theorem ebreak_exception_spec {n : Nat} {s : State} {j : Job} {p : ControlProgram} (h : s.controlReady n = some (j, p)) :
    exec (.ebreak n) s = .next (s.holdControl j p 0 (p.pc + w64 (s.rvSize j p.pc))) ∧
    (∀ v, exec (.controlProgramException n .breakpoint v) s = .next (s.holdControl j p v (p.pc + w64 (s.rvSize j p.pc)))) ∧
    ∀ e v, e ≠ .breakpoint → exec (.controlProgramException n e v) s =
      .next (s.endJob j (some (w64 (2 ^ 32 + (causeOf e).toNat)))) := by
  have hebreak : exec (.ebreak n) s = execEbreak n s := rfl
  have hexception : ∀ e v, exec (.controlProgramException n e v) s = execControlProgramException n e v s := fun _ _ => rfl
  rw [hebreak]
  simp only [hexception]
  unfold execEbreak execControlProgramException State.breakControl
  simp only [h]
  refine ⟨trivial, fun v => ?_, fun e v he => ?_⟩
  · exact if_pos ((causeOf_eq_break .breakpoint).2 rfl)
  · rw [if_neg (mt (causeOf_eq_break e).1 he)]
    unfold State.controlCause
    simp only [State.jobAt_of_controlReady h]

/-- What the device does after one instruction of a control program. -/
def State.controlAfter (n : Nat) : R PUnit → Host.Outcome State Fault Refusal
  | .ok _ s => .next (s.usedUp n)
  | .trap c _ s => .next (s.controlCause n c)
  | .stall _ s => .next s

/-- One instruction of a control program that can move is `controlOne`, asked for under a number of its own (R382). -/
theorem controlProgramInstruction_eq {n : Nat} {s : State} {j : Job} {p : ControlProgram}
    (h : s.controlReady n = some (j, p)) : exec (.controlProgramInstruction n) s =
      State.controlAfter n (s.asParty (engineParty (controlUnit n)) fun s => s.controlOne n j p) := by
  have hexec : exec (.controlProgramInstruction n) s = execControlProgramInstruction n s := rfl
  rw [hexec]
  unfold execControlProgramInstruction
  simp only [h]
  cases s.asParty (engineParty (controlUnit n)) fun s => s.controlOne n j p <;> rfl

/-- What an instruction of a control program does, from what it does under the control program's own number: after it the
device is the party it was before. -/
theorem controlProgramInstruction_of {n : Nat} {s v : State} {j : Job} {p : ControlProgram}
    (h : s.controlReady n = some (j, p)) (hv : v = { s with cur := engineParty (controlUnit n) }) (f : State → State)
    (hf : ∀ x, f x = { x with cur := s.cur }) :
    (∀ u, v.controlOne n j p = R.done u → exec (.controlProgramInstruction n) s = .next ((f u).usedUp n)) ∧
    (∀ c a u, v.controlOne n j p = .trap c a u → exec (.controlProgramInstruction n) s = .next ((f u).controlCause n c)) ∧
    ∀ w u, v.controlOne n j p = .stall w u → exec (.controlProgramInstruction n) s = .next (f u) := by
  rw [controlProgramInstruction_eq h]
  unfold State.asParty
  simp only [← hv, hf]
  exact ⟨fun u hu => by simp only [hu, R.done, State.controlAfter], fun c a u hu => by simp only [hu, State.controlAfter],
    fun w u hu => by simp only [hu, State.controlAfter]⟩

/-- The instruction at the address of a control program, when it cannot be read or is none (R381, R434). -/
theorem State.controlOne_unfetched (n : Nat) (v : State) (j : Job) (p : ControlProgram) :
    (∀ c a u, v.rvFetch j p.pc = .trap c a u → v.controlOne n j p = .trap c a u) ∧
    (∀ w u, v.rvFetch j p.pc = .stall w u → v.controlOne n j p = .stall w u) ∧
    ∀ size u, v.rvFetch j p.pc = .ok (none, size) u → v.controlOne n j p = .trap 0x01 0 u := by
  unfold State.controlOne
  exact ⟨fun c a u h => by rw [h, R.bind_trap], fun w u h => by rw [h, R.bind_stall],
    fun size u h => by rw [h, R.bind_ok]; rfl⟩

/-- `ecall`, `ebreak` and every other instruction at the address of a control program (R381). -/
theorem State.controlOne_fetched (n : Nat) (v : State) (j : Job) (p : ControlProgram) (size : Nat) (u : State) :
    (v.rvFetch j p.pc = .ok (some 0x73, size) u → v.controlOne n j p = R.done (u.callConcierge n p)) ∧
    (v.rvFetch j p.pc = .ok (some 0x100073, size) u →
      v.controlOne n j p = R.done (u.holdControl j p 0 (p.pc + w64 size))) ∧
    ∀ i, v.rvFetch j p.pc = .ok (some i, size) u → i ≠ 0x73 → i ≠ 0x100073 →
      v.controlOne n j p = (rvRun i size j p u).bind fun q s => R.done (s.modControl n fun _ => q) := by
  unfold State.controlOne
  refine ⟨fun h => by rw [h, R.bind_ok]; rfl, fun h => by rw [h, R.bind_ok]; rfl, fun i h hcall hbreak => ?_⟩
  rw [h, R.bind_ok]
  dsimp only
  split
  next heq => cases heq
  next heq => exact absurd (Option.some.inj heq) hcall
  next heq => exact absurd (Option.some.inj heq) hbreak
  next heq => cases heq; rfl

/-- One instruction of a control program that can move (R381, R382, R434). -/
theorem controlProgramInstruction_spec {n : Nat} {s v : State} {j : Job} {p : ControlProgram}
    (h : s.controlReady n = some (j, p)) (hv : v = { s with cur := engineParty (controlUnit n) }) (f : State → State)
    (hf : ∀ x, f x = { x with cur := s.cur }) :
    (∀ c a u, v.rvFetch j p.pc = .trap c a u → exec (.controlProgramInstruction n) s = .next ((f u).controlCause n c)) ∧
    (∀ w u, v.rvFetch j p.pc = .stall w u → exec (.controlProgramInstruction n) s = .next (f u)) ∧
    (∀ size u, v.rvFetch j p.pc = .ok (none, size) u →
      exec (.controlProgramInstruction n) s = .next ((f u).controlCause n 0x01)) ∧
    (∀ size u, v.rvFetch j p.pc = .ok (some 0x73, size) u →
      exec (.controlProgramInstruction n) s = .next ((f (u.callConcierge n p)).usedUp n)) ∧
    (∀ size u, v.rvFetch j p.pc = .ok (some 0x100073, size) u →
      exec (.controlProgramInstruction n) s = .next ((f (u.holdControl j p 0 (p.pc + w64 size))).usedUp n)) ∧
    ∀ i size u, v.rvFetch j p.pc = .ok (some i, size) u → i ≠ 0x73 → i ≠ 0x100073 →
      (∀ q w, rvRun i size j p u = .ok q w →
        exec (.controlProgramInstruction n) s = .next ((f (w.modControl n fun _ => q)).usedUp n)) ∧
      (∀ c a w, rvRun i size j p u = .trap c a w →
        exec (.controlProgramInstruction n) s = .next ((f w).controlCause n c)) ∧
      ∀ c w, rvRun i size j p u = .stall c w → exec (.controlProgramInstruction n) s = .next (f w) := by
  obtain ⟨hdone, htrap, hstall⟩ := controlProgramInstruction_of h hv f hf
  obtain ⟨hfetchTrap, hfetchStall, hfetchNone⟩ := State.controlOne_unfetched n v j p
  have hfetched := State.controlOne_fetched n v j p
  refine ⟨fun c a u hu => htrap c a u (hfetchTrap c a u hu), fun w u hu => hstall w u (hfetchStall w u hu),
    fun size u hu => htrap 0x01 0 u (hfetchNone size u hu), fun size u hu => hdone _ ((hfetched size u).1 hu),
    fun size u hu => hdone _ ((hfetched size u).2.1 hu), fun i size u hu hcall hbreak => ?_⟩
  have hrun := (hfetched size u).2.2 i hu hcall hbreak
  exact ⟨fun q w hq => hdone _ (by rw [hrun, hq, R.bind_ok]), fun c a w hw => htrap c a w (by rw [hrun, hw, R.bind_trap]),
    fun c w hw => hstall c w (by rw [hrun, hw, R.bind_stall])⟩

/-- Settles O52: one instruction is `controlOne` under the number of the control program, and each of its results is one of the
fetch, the system call, the breakpoint or `rvRun`. -/
theorem controlProgramsRun : Obligations.ControlProgramsRun := by
  unfold Obligations.ControlProgramsRun
  refine ⟨fun n e v s h => controlProgram_idle h e v, fun n s t j p h ht => ?_,
    fun p r k v => ⟨rfl, rfl, ControlProgram.rx_setX p r k v⟩⟩
  obtain ⟨hservice, hnoService⟩ := ecall_spec h
  obtain ⟨hebreak, hbreakpoint, hexception⟩ := ebreak_exception_spec h
  subst ht
  exact ⟨hservice, hnoService, hebreak, hbreakpoint, hexception, fun v hv f hf => controlProgramInstruction_spec h hv f hf⟩

end Sys2Proof.Machine
end

section
/-! The statement about jobs, images and launches (R379, R388, R406, R407, R411, R413 to R416, R456). -/

namespace Sys2Proof.Machine

/-- A code heap of no bytes has no free run (R388). -/
theorem Job.freeRun_empty {j : Job} {n : Nat} (hn : 0 < n) (hheap : j.heapBytes = 0) (htrans : j.translations = []) :
    j.freeRun n = none := by
  unfold Job.freeRun
  rw [hheap, htrans]
  exact if_neg (by omega)

/-- Lowered code takes at least a granule (R369, R386). -/
theorem loweredLen_pos (ws : List Nat) : 0 < loweredLen ws := by
  unfold loweredLen roundUp
  omega

/-- The contexts of a job that run, stopped (R390). -/
def State.stopped (s : State) (j : Job) : State := (s.runningOf j.id).foldl State.preempt s

/-- A reclaim of a job without translations evicts none: it stops the contexts of the job and asks for their resumption
(R390). -/
theorem State.reclaim_none {s : State} {j : Job} (g : Image) (n : Nat) (htrans : j.translations = []) :
    s.reclaim j g n = (s.runningOf j.id).foldl (fun s c => s.later (.go c)) (s.stopped j) := by
  unfold State.reclaim
  rw [htrans]
  rfl

/-- Asking for the resumption of contexts changes neither the jobs nor the keys. -/
theorem State.foldl_later_go (cs : List Nat) (s : State) :
    (cs.foldl (fun s c => s.later (.go c)) s).jobs = s.jobs ∧ (cs.foldl (fun s c => s.later (.go c)) s).keys = s.keys := by
  induction cs generalizing s with
  | nil => exact ⟨rfl, rfl⟩
  | cons c cs ih => exact ih (s.later (.go c))

/-- A translation for which the code heap has no room stops the contexts of the job all the same (R390). -/
theorem State.kernelEntry_noRoom {s : State} {j : Job} {g : Image} {q : Kernel} {k : Nat} (hj : s.jobById j.id = some j)
    (hheap : j.heapBytes = 0) (htrans : j.translations = []) (himage : j.image = some g) (hq : g.kernels[k]? = some q)
    (hnative : q.native = false) (hjobs : (s.stopped j).jobs = s.jobs) :
    ∃ t : State, s.kernelEntry j.id k = (none, t) ∧ t.keys = (s.stopped j).keys := by
  have hfull : ∀ ws, j.freeRun (loweredLen ws) = none := fun ws => Job.freeRun_empty (loweredLen_pos ws) hheap htrans
  obtain ⟨hlater, hkeys⟩ := State.foldl_later_go (s.runningOf j.id) (s.stopped j)
  refine ⟨_, ?_, hkeys⟩
  have hsame : ∀ t : State, t.jobs = s.jobs → t.jobById j.id = some j := fun t ht => by
    unfold State.jobById
    rw [ht]
    exact hj
  have htranslate : s.translate j.id k = (none, (s.runningOf j.id).foldl (fun s c => s.later (.go c)) (s.stopped j)) := by
    unfold State.translate
    simp only [hj, htrans, List.find?_nil, himage, hq, hfull, Option.isSome_none, Bool.false_eq_true, if_false,
      State.reclaim_none g _ htrans, hsame _ (hlater.trans hjobs), Option.bind_some]
  unfold State.kernelEntry
  simp only [hj, himage, hq, Option.bind_some, Option.map_some, hnative, Bool.false_eq_true, if_false, htranslate,
    Option.map_none]

/-- An image with one kernel, which has no native code. -/
def oneKernel : Image := ⟨[], [⟨0, 0, 0, 0, 0, [], false⟩], [], 0, 0, [], []⟩

/-- A job with that image whose code heap has no bytes. -/
def heaplessJob : Job := { Job.fresh 1 0 0 0 with image := some oneKernel }

/-- That job's one page is at 2 MiB; its context 0 runs, and holds key 0. -/
def keyHolding : State :=
  { State.reset with
    mem := Memory.writeN (Memory.writeN [] (State.reset.phys 0) 8 (2 ^ 63)) (State.reset.phys 8) 8 (leafOf (2 ^ 21) attrW)
    jobs := [heaplessJob]
    bind := [(0, 1#512 <<< 128 ||| 2#512)]
    keys := [(0, { Key.zero with valid := true, held := true, job := 1 })]
    channels := [(0, ⟨some (1, 0), []⟩)] }

/-- A launch of one unit of kernel 0, its arguments at 2 MiB. -/
def oneUnit : List Byte := leBytes 128 (2 ^ 48 + 2 ^ 21 * 2 ^ 192)

/-- The request for it. -/
def launching : Req := ⟨0, 0x4351, 1, 0, 0x20, 0, 0, 1, 128, 0, oneUnit⟩

/-- The launch is not accepted, for want of room (R388), and its acceptance has stopped the contexts of the job. -/
theorem accept_keyHolding : ∃ t : State, keyHolding.accept heaplessJob oneUnit = (10, 0, t) ∧
    t.keys = (keyHolding.stopped heaplessJob).keys := by
  obtain ⟨t, hentry, hkeys⟩ := State.kernelEntry_noRoom (s := keyHolding) (j := heaplessJob) (g := oneKernel) (k := 0)
    (by decide +kernel) rfl rfl rfl rfl rfl (by decide +kernel)
  refine ⟨t, ?_, hkeys⟩
  have hkidx : (launchRec oneUnit).kidx = 0 := by decide +kernel
  have hedges : (launchRec oneUnit).nedge = 0 := by decide +kernel
  have hkeyCount : (launchRec oneUnit).nkey = 0 := by decide +kernel
  have hgraph : (launchRec oneUnit).graph = 0 := by decide +kernel
  have hphase : bit (launchRec oneUnit).flags 1 = false := by decide +kernel
  have hreadable : (oneUnit.length != 128 || !(launchRec oneUnit).ok oneKernel.kernels.length ||
      !(keyHolding.rangeOk heaplessJob false (launchRec oneUnit).args (64 * (launchRec oneUnit).nunits) &&
        keyHolding.rangeOk heaplessJob false (launchRec oneUnit).edges (32 * (launchRec oneUnit).nedge) &&
        keyHolding.rangeOk heaplessJob false (launchRec oneUnit).ctrs (8 * (launchRec oneUnit).nctr) &&
        keyHolding.rangeOk heaplessJob false (launchRec oneUnit).keys (16 * (launchRec oneUnit).nkey))) = false := by
    decide +kernel
  unfold State.accept
  rw [show heaplessJob.image = some oneKernel from rfl]
  dsimp only
  rw [hreadable, if_neg Bool.false_ne_true]
  have hnone : ∀ (bs : List Byte) (size : Nat), records bs size 0 = [] := fun _ _ => rfl
  have hkernel : oneKernel.kernels[0]? = some ⟨0, 0, 0, 0, 0, [], false⟩ := rfl
  simp only [hkidx, hedges, hkeyCount, hgraph, hphase, hnone, List.mapM_nil, hkernel]
  dsimp only [pure]
  rw [if_neg (by decide +kernel), if_neg (by decide +kernel), if_neg (by decide +kernel), if_neg (by decide +kernel),
    if_neg (by decide +kernel), hentry]

/-- Refutes O49: an acceptance that fails for want of room has stopped the contexts of the job (R390), and with the context its
key moves to the saved one. In `keyHolding` the launch answers 10, and key 0 has another holder than before. -/
theorem not_jobsAreMadeLaunchedAndEnded : ¬ Obligations.JobsAreMadeLaunchedAndEnded := by
  unfold Obligations.JobsAreMadeLaunchedAndEnded
  rintro ⟨-, -, -, -, -, hlaunch, -⟩
  obtain ⟨t, haccept, hkeys⟩ := accept_keyHolding
  have hserved : ServedOn launching 0x20 heaplessJob keyHolding :=
    ⟨⟨by decide +kernel, by decide +kernel, rfl⟩, by decide +kernel, rfl⟩
  obtain ⟨-, hfailed, -⟩ := hlaunch launching keyHolding t heaplessJob 10 0 hserved (by decide +kernel) haccept
  obtain ⟨-, -, hsame⟩ := hfailed (by decide)
  exact absurd (hkeys.symm.trans hsame) (by decide +kernel)

end Sys2Proof.Machine
end

section
/-! The statement about the services of the Concierge: memory, breaks, checkpoints, telemetry, attestation and configuration
(R395, R412, R431, R434, R453, R457, R463, R464, R468, R471). -/

namespace Sys2Proof.Machine

/-- A request on a job that passes the checks of R404 to R406 is served for it. -/
theorem State.serve_servedOn {s : State} {r : Req} {op : BitVec 16} {j : Job} (h : ServedOn r op j s) (n : Nat)
    (hn : r.payload.length = n) (e : Event) (k : Job → State → State) :
    (s.serve r op fun s => if r.payload.length != n then s.respond r 4 [] else s.onJob r e k) = k j s := by
  obtain ⟨hserved, hjob, hckpt⟩ := h
  rw [State.serve_served hserved, hn, bne_self_eq_false, if_neg Bool.false_ne_true, State.onJob_live hjob hckpt]

/-! Memory (R471). -/

/-- MEM_READ (R406, R461, R471). -/
theorem memRead_spec {r : Req} {s : State} {j : Job} (h : ServedOn r 0x30 j s) (hlen : r.payload.length = 16) :
    (r.nat 8 8 = 0 ∨ 65536 < r.nat 8 8 ∨ s.rangeOk j false (r.nat 0 8) (r.nat 8 8) = false →
      exec (.memRead r) s = .next (s.respond r 4 [])) ∧
    (r.nat 8 8 ≠ 0 → r.nat 8 8 ≤ 65536 → s.rangeOk j false (r.nat 0 8) (r.nat 8 8) = true →
      exec (.memRead r) s = .next ((s.egress j (r.nat 0 8) (r.nat 8 8)).respond r 0
        ((s.jobRead j.id (r.nat 0 8) (r.nat 8 8)).getD []))) := by
  have hexec : exec (.memRead r) s = execMemRead r s := rfl
  rw [hexec]
  unfold execMemRead
  rw [State.serve_servedOn h 16 hlen]
  refine ⟨fun hbad => congrArg _ (if_pos ?_), fun hne hle hrange => congrArg _ (if_neg ?_)⟩
  · simpa only [Bool.or_eq_true, decide_eq_true_eq, Bool.not_eq_true', gt_iff_lt, or_assoc] using hbad
  · simp only [hrange, Bool.or_eq_true, decide_eq_true_eq, Bool.not_true, Bool.false_eq_true, or_false]
    omega

/-- MEM_WRITE (R406, R431, R434, R447, R471). -/
theorem memWrite_spec {r : Req} {s : State} {j : Job} (h : ServedOn r 0x31 j s) (hmin : 8 < r.payload.length)
    (hmax : r.payload.length ≤ 65536) (va : Nat) (bs : List Byte) (hva : va = r.nat 0 8) (hbs : bs = r.payload.drop 8) :
    (s.rangeOk j true va bs.length = false → exec (.memWrite r) s = .next (s.respond r 4 [])) ∧
    (s.rangeOk j true va bs.length = true → exec (.memWrite r) s = .next ((((s.jobWrite j.id va bs).released j va
      (va + bs.length)).releasedControl j va (va + bs.length)).respond r 0 [])) := by
  obtain ⟨hserved, hjob, hckpt⟩ := h
  have hexec : exec (.memWrite r) s = execMemWrite r s := rfl
  have hsize : (decide (r.payload.length ≤ 8) || decide (r.payload.length > 65536)) = false := by
    simp only [Bool.or_eq_false_iff, decide_eq_false_iff_not]
    omega
  rw [hexec]
  unfold execMemWrite
  rw [State.serve_served hserved, hsize, if_neg Bool.false_ne_true, State.onJob_live hjob hckpt]
  dsimp only
  rw [← hva, ← hbs]
  exact ⟨fun hbad => by rw [hbad]; rfl, fun hok => by rw [hok]; rfl⟩

/-! Breaks (R412). -/

/-- A copied page leaves the contexts where they are. -/
theorem State.ownerNo_copyPage (s : State) (va e lo c : Nat) : (s.copyPage va e lo).2.ownerNo c = s.ownerNo c := rfl

/-- BREAK_COPY (R228, R412, R442). -/
theorem breakCopy_spec {r : Req} {s : State} {j : Job} (h : ServedOn r 0x40 j s) (hlen : r.payload.length = 16)
    (c va e lo : Nat) (x : Ctx) (hc : c = r.nat 0 8) (hva : va = r.nat 8 8) (hctx : c < Config.ctxCount)
    (hwindow : va < Config.spWindow) (hbound : s.boundTo c j = true) (hheap : j.inHeap va = false)
    (hx : x = s.owner (s.ownerNo c)) (hwalk : walkFrom s va j.root walkLevels = .leaf e lo) :
    (bit e 5 = false → exec (.breakCopy r) s = .next (s.respond r 4 [])) ∧
    (bit e 5 = true → (x.slotAt va).isSome = true → exec (.breakCopy r) s = .next (s.respond r 12 [])) ∧
    (bit e 5 = true → x.slotAt va = none → 8 ≤ x.slots.length ∨ s.room < 2 ^ (lo + 1) →
      exec (.breakCopy r) s = .next (s.respond r 9 [])) ∧
    (bit e 5 = true → x.slotAt va = none → x.slots.length < 8 → 2 ^ (lo + 1) ≤ s.room → exec (.breakCopy r) s =
      .next (((s.copyPage va e lo).2.modOwner (s.ownerNo c) fun x =>
        { x with slots := x.slots ++ [(s.copyPage va e lo).1] }).respond r 0 [])) := by
  have hexec : exec (.breakCopy r) s = execBreakCopy r s := rfl
  rw [hexec]
  unfold execBreakCopy
  rw [State.serve_servedOn h 16 hlen]
  dsimp only
  rw [← hc, ← hva, ← hx]
  simp only [ge_iff_le, decide_eq_false (Nat.not_le.2 hctx), decide_eq_false (Nat.not_le.2 hwindow), hbound, hheap,
    Bool.not_true, Bool.or_self, Bool.false_eq_true, if_false, hwalk]
  refine ⟨fun hexe => by rw [hexe]; rfl, fun hexe hslot => ?_, fun hexe hslot hfull => ?_, fun hexe hslot hslots hroom => ?_⟩
  · simp only [hexe, hslot, Bool.not_true, Bool.false_eq_true, if_false, if_true]
  · have hcond : (decide (8 ≤ x.slots.length) || decide (s.room < 2 ^ (lo + 1))) = true := by
      simpa only [Bool.or_eq_true, decide_eq_true_eq] using hfull
    simp only [hexe, hslot, hcond, Option.isSome_none, Bool.not_true, Bool.false_eq_true, if_false, if_true]
  · have hcond : (decide (8 ≤ x.slots.length) || decide (s.room < 2 ^ (lo + 1))) = false := by
      simp only [Bool.or_eq_false_iff, decide_eq_false_iff_not]
      omega
    simp only [hexe, hslot, hcond, Option.isSome_none, Bool.not_true, Bool.false_eq_true, if_false, State.ownerNo_copyPage]

/-- BREAK_END (R412). -/
theorem breakEnd_spec {r : Req} {s : State} {j : Job} (h : ServedOn r 0x41 j s) (hlen : r.payload.length = 16)
    (c va : Nat) (hc : c = r.nat 0 8) (hva : va = r.nat 8 8) (hctx : c < Config.ctxCount) (hbound : s.boundTo c j = true) :
    ((s.owner (s.ownerNo c)).slotAt va = none → exec (.breakEnd r) s = .next (s.respond r 4 [])) ∧
    ∀ p, (s.owner (s.ownerNo c)).slotAt va = some p → exec (.breakEnd r) s =
      .next ((s.modOwner (s.ownerNo c) fun x => { x with slots := x.slots.filter (· != p) }).respond r 0 []) := by
  have hexec : exec (.breakEnd r) s = execBreakEnd r s := rfl
  rw [hexec]
  unfold execBreakEnd
  rw [State.serve_servedOn h 16 hlen]
  dsimp only
  rw [← hc, ← hva]
  simp only [ge_iff_le, decide_eq_false (Nat.not_le.2 hctx), hbound, Bool.not_true, Bool.or_self, Bool.false_eq_true, if_false]
  exact ⟨fun hnone => by simp only [hnone], fun p hp => by simp only [hp]⟩

/-! Checkpoints (R463, R464). -/

/-- CHECKPOINT of a job, for a save that begins and for a restore (R463). -/
theorem checkpoint_spec {r : Req} {s : State} {j : Job} (h : ServedOn r 0x50 j s) (hlen : r.payload.length = 16)
    (stream : List Byte) (t : State) :
    (r.nat 15 1 = 0 → s.jobCancelled j = true → s.heldBack.contains (.checkpointSave r) = false →
      exec (.checkpointSave r) s = .next (s.respond r 2 [])) ∧
    (r.nat 15 1 = 0 → s.jobCancelled j = false → s.heldBack.contains (.checkpointSave r) = false →
      t = (s.running.filter fun c => slotJob (s.slot c) == j.id).foldl State.switchOut
        (s.modJob j.id fun j => { j with ckpt := some r }) →
      exec (.checkpointSave r) s = .next { t with heldBack := t.heldBack ++ [.checkpointSave r] }) ∧
    (r.nat 15 1 = 1 → exec (.checkpointRestore r stream) s = .next (s.restore r stream j)) := by
  obtain ⟨hserved, hjob, hckpt⟩ := h
  have hsave : exec (.checkpointSave r) s = execCheckpointSave r s := rfl
  have hrestore : exec (.checkpointRestore r stream) s = execCheckpointRestore r stream s := rfl
  rw [hsave, hrestore]
  unfold execCheckpointSave execCheckpointRestore
  rw [State.serve_served hserved, State.serve_served hserved]
  unfold State.checkpoint
  simp only [State.onJob_live hjob hckpt]
  refine ⟨fun hdir hcancelled hheld => ?_, fun hdir hcancelled hheld ht => ?_, fun hdir => ?_⟩
  · simp only [hlen, hdir, hheld, hcancelled, bne_self_eq_false, gt_iff_lt, Nat.not_lt_zero, decide_false, Bool.or_self,
      Bool.false_eq_true, if_false, show ((0 : Nat) == 1) = false from rfl, if_true]
  · simp only [hlen, hdir, hheld, hcancelled, bne_self_eq_false, gt_iff_lt, Nat.not_lt_zero, decide_false, Bool.or_self,
      Bool.false_eq_true, if_false, show ((0 : Nat) == 1) = false from rfl, ← ht]
  · simp only [hlen, hdir, bne_self_eq_false, gt_iff_lt, Nat.lt_irrefl, decide_false, Bool.or_self, Bool.false_eq_true,
      if_false, beq_self_eq_true, if_true]

/-- A save that has waited writes its stream (R463, R464). -/
theorem checkpointSave_held {r : Req} {s t : State} {j : Job} (h : Served r 0x50 s) (hlen : r.payload.length = 16)
    (hdir : r.nat 15 1 = 0) (hheld : s.heldBack.contains (.checkpointSave r) = true) (hjob : s.jobById r.jobId = some j)
    (ht : t = { s with heldBack := s.heldBack.filter (· != .checkpointSave r) }) :
    exec (.checkpointSave r) s = .next (t.emit (.checkpoint (w64 (r.nat 0 8)) (r.nat 8 7) (t.stream j))) := by
  have hsave : exec (.checkpointSave r) s = execCheckpointSave r s := rfl
  have hsame : t.jobById r.jobId = some j := by rw [ht]; exact hjob
  rw [hsave]
  unfold execCheckpointSave
  rw [State.serve_served h]
  unfold State.checkpoint
  simp only [hlen, hdir, hheld, bne_self_eq_false, gt_iff_lt, Nat.not_lt_zero, decide_false, Bool.or_self, Bool.false_eq_true,
    if_false, show ((0 : Nat) == 1) = false from rfl, if_true, ← ht, hsame]

/-- CHECKPOINT_TIER_ACK (R463). -/
theorem checkpointTierAck_spec {job : Nat} {s t u : State} {j : Job} {r : Req} (hj : s.jobAt job = some j)
    (hr : j.ckpt = some r) (hheld : s.heldBack.contains (.checkpointSave r) = false)
    (ht : t = ((s.modTele fun t => { t with ckpt := t.ckpt + 1 }).respond r 0 []).modJob j.id
      (fun j => { j with ckpt := none, deferred := [] })) (hu : u = { t with agenda := t.agenda ++ j.deferred }) :
    exec (.checkpointTierAck job) s =
      .next ((List.range Config.dies).foldl (fun s d => s.later (.stewardBind d)) u) := by
  have hexec : exec (.checkpointTierAck job) s = execCheckpointTierAck job s := rfl
  rw [hexec]
  unfold execCheckpointTierAck
  simp only [hj, hr, hheld, Bool.false_eq_true, if_false, ← ht, ← hu]

/-! Telemetry (R468). -/

/-- The first of packed fields, of any number, reads as what its bytes hold (R7). -/
theorem natAt_packed_head_mod (n x : Nat) (fs : List (Nat × Nat)) : natAt (packed ((n, x) :: fs)) 0 n = x % 256 ^ n := by
  have hlow : ∀ n x, leBytes n (x % 256 ^ n) = leBytes n x := by
    intro n
    induction n with
    | zero => intro x; rfl
    | succ n ih =>
      intro x
      have hdiv : x % 256 ^ (n + 1) / 256 = x / 256 % 256 ^ n := by
        rw [pow_succ', Nat.mod_mul_right_div_self]
      have hmod : BitVec.ofNat 8 (x % 256 ^ (n + 1)) = BitVec.ofNat 8 x := by
        apply BitVec.eq_of_toNat_eq
        rw [BitVec.toNat_ofNat, BitVec.toNat_ofNat, pow_succ', show (2 : Nat) ^ 8 = 256 from rfl, Nat.mod_mul_right_mod]
      rw [leBytes, leBytes, hmod, hdiv, ih]
  have hfields : packed ((n, x) :: fs) = packed ((n, x % 256 ^ n) :: fs) := by
    simp only [packed, List.flatMap_cons, hlow]
  rw [hfields, natAt_packed_head fs (Nat.mod_lt _ (Nat.pow_pos (by decide)))]

/-- The bits below n at which p holds. -/
def maskBelow (p : Nat → Bool) (n : Nat) : Nat := (List.range n).foldl (fun a k => if p k then a + 2 ^ k else a) 0

/-- A mask with one more bit. -/
theorem maskBelow_succ (p : Nat → Bool) (n : Nat) :
    maskBelow p (n + 1) = if p n then maskBelow p n + 2 ^ n else maskBelow p n := by
  simp only [maskBelow, List.range_succ, List.foldl_append, List.foldl_cons, List.foldl_nil]

/-- A mask of n bits is below 2^n. -/
theorem maskBelow_lt (p : Nat → Bool) (n : Nat) : maskBelow p n < 2 ^ n := by
  induction n with
  | zero => exact Nat.one_pos
  | succ n ih =>
    rw [maskBelow_succ, Nat.pow_succ]
    split <;> omega

/-- Bit k of a mask is p of k. -/
theorem bit_maskBelow (p : Nat → Bool) {n k : Nat} (h : k < n) : bit (maskBelow p n) k = p k := by
  have hbit : ∀ x, bit x k = x.testBit k := fun x => by rw [Nat.testBit_eq_decide_div_mod_eq]; rfl
  rw [hbit]
  induction n with
  | zero => exact absurd h (Nat.not_lt_zero k)
  | succ n ih =>
    have hlt := maskBelow_lt p n
    rw [maskBelow_succ]
    rcases Nat.lt_succ_iff_lt_or_eq.1 h with hk | rfl
    · split
      · rw [Nat.add_comm, Nat.testBit_two_pow_add_gt hk, ih hk]
      · exact ih hk
    · split
      next hp => rw [Nat.add_comm, Nat.testBit_two_pow_add_eq, Nat.testBit_lt_two_pow hlt, hp]; rfl
      next hp => rw [Nat.testBit_lt_two_pow hlt, Bool.eq_false_of_not_eq_true hp]

/-- Zero bytes are those of the number 0. -/
theorem zeros_eq_leBytes (n : Nat) : zeros n = leBytes n 0 := by
  induction n with
  | zero => rfl
  | succ n ih => rw [zeros, List.replicate_succ, leBytes, Nat.zero_div, ← ih]; rfl

/-- A byte is those of its number. -/
theorem leBytes_one (b : Byte) : leBytes 1 b.toNat = [b] := by
  rw [leBytes, leBytes, BitVec.ofNat_toNat, BitVec.setWidth_eq]

/-- The fields of the telemetry record in the order of R468, its last 168 bytes as one field that is zero. -/
def State.teleFields (s : State) : List (Nat × Nat) :=
  let t := s.chip.tele
  let free := fun (i : Nat) => (Config.freeDouble (s.fresh + i)).toNat
  [(1, s.chip.boot.toNat), (1, s.chip.ports.toNat), (2, maskBelow (fun k => (s.link k).phase == .up) 16), (2, free 0),
    (2, free 1), (8, t.ce), (8, t.ue), (8, t.pcons), (8, t.crcmm), (8, t.evdrop), (8, t.goign), (8, t.uuddrop), (8, t.ckpt),
    (8, free 2), (8, t.hfault), (168, 0)]

/-- TELEMETRY sends those fields (R406, R468). -/
theorem telemetry_eq {r : Req} {s : State} (h : Served r 0x60 s) (hlen : r.payload = []) :
    exec (.telemetry r) s = .next (State.respond { s with fresh := s.fresh + 3 } r 0 (packed s.teleFields)) := by
  have hexec : exec (.telemetry r) s = execTelemetry r s := rfl
  rw [hexec]
  unfold execTelemetry
  rw [State.serve_served h, hlen]
  simp only [List.length_nil, bne_self_eq_false, Bool.false_eq_true, if_false]
  congr 2
  simp only [packed, State.teleFields, maskBelow, List.flatMap_cons, List.flatMap_nil, leBytes_one, zeros_eq_leBytes,
    List.append_nil, List.append_assoc, List.cons_append, List.nil_append]

/-- The telemetry record is 256 bytes, with its fields at their offsets (R468). -/
theorem natAt_teleFields (s : State) :
    (packed s.teleFields).length = 256 ∧
      natAt (packed s.teleFields) 0 1 = s.chip.boot.toNat ∧ natAt (packed s.teleFields) 1 1 = s.chip.ports.toNat ∧
      (∀ k < 16, bit (natAt (packed s.teleFields) 2 2) k = ((s.link k).phase == .up)) ∧
      natAt (packed s.teleFields) 8 8 = s.chip.tele.ce % 2 ^ 64 ∧ natAt (packed s.teleFields) 16 8 = s.chip.tele.ue % 2 ^ 64 ∧
      natAt (packed s.teleFields) 24 8 = s.chip.tele.pcons % 2 ^ 64 ∧
      natAt (packed s.teleFields) 32 8 = s.chip.tele.crcmm % 2 ^ 64 ∧
      natAt (packed s.teleFields) 40 8 = s.chip.tele.evdrop % 2 ^ 64 ∧
      natAt (packed s.teleFields) 48 8 = s.chip.tele.goign % 2 ^ 64 ∧
      natAt (packed s.teleFields) 56 8 = s.chip.tele.uuddrop % 2 ^ 64 ∧
      natAt (packed s.teleFields) 64 8 = s.chip.tele.ckpt % 2 ^ 64 ∧
      natAt (packed s.teleFields) 80 8 = s.chip.tele.hfault % 2 ^ 64 := by
  have hlinks : natAt (packed s.teleFields) 2 2 = maskBelow (fun k => (s.link k).phase == .up) 16 := by
    have hlt := maskBelow_lt (fun k => (s.link k).phase == .up) 16
    unfold State.teleFields
    rw [natAt_packed_tail _ _ _ (by decide), natAt_packed_tail _ _ _ (by decide)]
    exact natAt_packed_head _ hlt
  refine ⟨by simp [packed, State.teleFields], natAt_packed_head _ s.chip.boot.isLt, ?_, fun k hk => ?_, ?_⟩
  · unfold State.teleFields
    rw [natAt_packed_tail _ _ _ (by decide)]
    exact natAt_packed_head _ s.chip.ports.isLt
  · rw [hlinks, bit_maskBelow _ hk]
  · unfold State.teleFields
    simp only [natAt_packed_tail, natAt_packed_head_mod, Nat.reduceLeDiff, Nat.reduceSub, Nat.reducePow, and_self]

/-! Attestation (R453, R457). -/

/-- ATTEST (R406, R457). -/
theorem attest_spec {r : Req} {s : State} (h : Served r 0x70 s) (hlen : r.payload.length = 32) :
    (r.job = 0 → exec (.attest r) s = .next (s.attest r none)) ∧
    (∀ j, r.job ≠ 0 → s.jobById r.jobId = some j → j.ckpt = none → exec (.attest r) s = .next (s.attest r j.image)) ∧
    ∀ g, (s.attest r g).chip.attests = s.chip.attests + 1 := by
  have hexec : exec (.attest r) s = execAttest r s := rfl
  rw [hexec]
  unfold execAttest
  rw [State.serve_served h, hlen, bne_self_eq_false, if_neg Bool.false_ne_true]
  refine ⟨fun hjob => by rw [hjob]; rfl, fun j hjob hj hckpt => ?_, fun g => rfl⟩
  rw [if_neg (by rwa [beq_iff_eq]), State.onJob_live hj hckpt]

/-- IDCERT (R406, R453). -/
theorem idcert_spec {r : Req} {s : State} (h : Served r 0x71 s) (hlen : r.payload = []) :
    exec (.idcert r) s = .next (s.respond r 0 (fit 184 s.chip.flash.idcert)) := by
  have hexec : exec (.idcert r) s = execIdcert r s := rfl
  rw [hexec]
  unfold execIdcert
  rw [State.serve_served h, hlen]
  rfl

/-! Configuration (R395). -/

/-- Bit k of 1 shifted by p is whether k is p. -/
theorem getLsbD_one_shiftLeft {p k : Nat} (hp : p < 8) : ((1#8) <<< p).getLsbD k = decide (k = p) := by
  rw [BitVec.getLsbD_shiftLeft, BitVec.getLsbD_one]
  by_cases hk : k = p
  · subst hk
    simp [hp]
  · simp only [hk, decide_false, Bool.and_eq_false_iff, Bool.not_eq_false', decide_eq_true_eq, decide_eq_false_iff_not]
    omega

/-- CONFIG (R395, R406): the credit bit of a port is set or cleared, and no other. -/
theorem config_spec {r : Req} {s : State} (h : Served r 0x80 s) (hlen : r.payload.length = 8) (hport : r.nat 0 1 ≤ 7)
    (hvalue : r.nat 1 7 ≤ 1) :
    ∃ t : State, exec (.config r) s = .next (t.respond r 0 []) ∧
      t.chip.portCredits.getLsbD (r.nat 0 1) = (r.nat 1 7 == 1) ∧
      (∀ k, k ≠ r.nat 0 1 → t.chip.portCredits.getLsbD k = s.chip.portCredits.getLsbD k) ∧ t.mem = s.mem ∧
      t.jobs = s.jobs := by
  have hexec : exec (.config r) s = execConfig r s := rfl
  have hcond : (r.payload.length != 8 || decide (r.nat 0 1 > 7) || decide (r.nat 1 7 > 1)) = false := by
    simp only [hlen, bne_self_eq_false, gt_iff_lt, decide_eq_false (Nat.not_lt.2 hport), decide_eq_false (Nat.not_lt.2 hvalue),
      Bool.or_self]
  have hmask : ∀ k, ((1#8) <<< r.nat 0 1).getLsbD k = decide (k = r.nat 0 1) :=
    fun k => getLsbD_one_shiftLeft (Nat.lt_succ_of_le hport)
  rw [hexec]
  unfold execConfig
  rw [State.serve_served h]
  refine ⟨_, congrArg _ (if_neg (by rw [hcond]; exact Bool.false_ne_true)), ?_, fun k hk => ?_, rfl, rfl⟩
  · show (if r.nat 1 7 = 1 then s.chip.portCredits ||| 1#8 <<< r.nat 0 1
      else s.chip.portCredits &&& ~~~ (1#8 <<< r.nat 0 1)).getLsbD (r.nat 0 1) = _
    split
    next hon => rw [BitVec.getLsbD_or, hmask, hon]; simp
    next hoff =>
      rw [BitVec.getLsbD_and, BitVec.getLsbD_not, hmask, beq_eq_false_iff_ne.2 hoff]
      simp
  · show (if r.nat 1 7 = 1 then s.chip.portCredits ||| 1#8 <<< r.nat 0 1
      else s.chip.portCredits &&& ~~~ (1#8 <<< r.nat 0 1)).getLsbD k = _
    split
    · rw [BitVec.getLsbD_or, hmask, decide_eq_false hk, Bool.or_false]
    · rw [BitVec.getLsbD_and, BitVec.getLsbD_not, hmask, decide_eq_false hk]
      by_cases hlt : k < 8
      · simp [hlt]
      · rw [BitVec.getLsbD_of_ge _ _ (Nat.not_lt.1 hlt), Bool.false_and]

/-- Settles O50: each service by the branches of its request. -/
theorem servicesAnswer : Obligations.ServicesAnswer := by
  unfold Obligations.ServicesAnswer
  exact ⟨fun r s j h hlen => memRead_spec h hlen, fun r s j va bs h hmin hmax hva hbs => memWrite_spec h hmin hmax va bs hva hbs,
    fun r s j c va e lo x h hlen hc hva hctx hwindow hbound hheap hx hwalk =>
      breakCopy_spec h hlen c va e lo x hc hva hctx hwindow hbound hheap hx hwalk,
    fun r s j c va h hlen hc hva hctx hbound => breakEnd_spec h hlen c va hc hva hctx hbound,
    fun r s t j stream h hlen => checkpoint_spec h hlen stream t,
    fun r s t j h hlen hdir hheld hjob ht => checkpointSave_held h hlen hdir hheld hjob ht,
    fun job s t u j r hj hr hheld ht hu => checkpointTierAck_spec hj hr hheld ht hu,
    fun r s h hlen => ⟨_, telemetry_eq h hlen, natAt_teleFields s⟩, fun r s h hlen => idcert_spec h hlen,
    fun r s h hlen => attest_spec h hlen, fun r s h hlen hport hvalue => config_spec h hlen hport hvalue⟩

end Sys2Proof.Machine
end

section
/-! The statement about Lortar, its scalar words (R357, R359, R364, R365, R368). -/

namespace Sys2Proof.Machine

/-! How a word begins and what its native code leaves (R365, R368, R369). -/

/-- A word whose waits are over begins, unless what it signals has no number left (R65, R365). -/
theorem State.lbegin_spec {b : LBar} {async : Bool} {s s1 : State} (h : s.lwaits b.wait = .ok ⟨⟩ s1) :
    (∀ tl, barTl b async = some tl → 2 ^ 64 ≤ (s1.myCtx.timeline tl).p + 1 → s.lbegin b async = .trap 0x85 0 s1) ∧
    ((∀ tl, barTl b async = some tl → (s1.myCtx.timeline tl).p + 1 < 2 ^ 64) → s.lbegin b async = .ok ⟨⟩ s1.scratched) := by
  unfold State.lbegin
  rw [h, R.andThen_ok]
  refine ⟨fun tl htl hfull => ?_, fun hroom => ?_⟩
  · rw [htl]
    exact if_pos hfull
  · cases htl : barTl b async with
    | none => rfl
    | some tl => exact if_neg (Nat.not_le.2 (hroom tl htl))

/-- Registers written one after another leave a register that is none of them. -/
theorem Ctx.sreg_foldl_setSreg (f : Nat → Word) (q : SReg) (ks : List Nat) (x : Ctx) (h : ∀ k ∈ ks, BitVec.ofNat 6 k ≠ q) :
    (ks.foldl (fun (x : Ctx) k => x.setSreg (BitVec.ofNat 6 k) (f k)) x).sreg q = x.sreg q := by
  induction ks generalizing x with
  | nil => rfl
  | cons k ks ih =>
    rw [List.foldl_cons, ih _ fun j hj => h j (List.mem_cons_of_mem k hj)]
    by_cases hk : BitVec.ofNat 6 k = 0
    · rw [hk, Ctx.setSreg_zero]
    · rw [Ctx.sreg_setSreg x _ _ _ hk, if_neg (Ne.symm (h k List.mem_cons_self))]

/-- The translator's scratch registers (R368). -/
def scratchRegs : List Nat := ((List.range 7).map fun i => 13 + i) ++ (List.range 9).map fun i => 55 + i

/-- The scalar registers after native code: free values in the scratch registers. -/
theorem Ctx.scratched_s (n : Nat) (x : Ctx) : (Ctx.scratched n x).s =
    (scratchRegs.foldl (fun (x : Ctx) k => x.setSreg (BitVec.ofNat 6 k) (Config.freeDouble (n + k))) x).s := rfl

/-- The scratch registers are none of a Lortar scalar (R368). -/
theorem kReg_ne_scratch (k : BitVec 5) : ∀ n ∈ scratchRegs, BitVec.ofNat 6 n ≠ kReg k := by
  revert k
  decide

/-- The native code of a word leaves memory, the latch and the Lortar scalars (R368). -/
theorem State.scratched_spec (s : State) (k : BitVec 5) : s.scratched.mem = s.mem ∧ s.scratched.cur = s.cur ∧
    s.scratched.myCtx.sreg (kReg k) = s.myCtx.sreg (kReg k) := by
  refine ⟨rfl, rfl, ?_⟩
  have hctx : s.scratched.myCtx = Ctx.scratched s.fresh s.myCtx :=
    (State.ctx_modCtx_same s s.me (Ctx.scratched s.fresh) :)
  rw [hctx, Ctx.sreg_congr (Ctx.scratched_s s.fresh s.myCtx),
    Ctx.sreg_foldl_setSreg (fun k => Config.freeDouble (s.fresh + k)) (kReg k) scratchRegs s.myCtx (kReg_ne_scratch k)]

/-! Scalar words (R357, R359, R364). -/

/-- A synchronous word whose body is done signals its slot and is finished (R355, R365). -/
theorem lsync_ok {i : Instr} {b : LBar} {s s1 s2 s3 t : State} {body : State → R PUnit} (hr : Ready i s s1)
    (hb : s1.lbegin b false = .ok ⟨⟩ s2) (hbody : body s2 = .ok ⟨⟩ s3) (hsig : s3.lsignal b = .ok ⟨⟩ t) :
    lsync i b s body = .next (finished i s1 t) := by
  unfold lsync
  exact issue_ok hr (by rw [hb, R.andThen_ok, hbody, R.andThen_ok, hsig])

/-- The word of a row of R359 writes r of its two scalars. -/
def WordWrites (mk : LFormS → Instr) (r : Word → Word → Word) : Prop :=
  ∀ (o : LFormS) (s s1 s2 s3 s4 s5 t : State) (a b : Word), Ready (mk o) s s1 → s1.lbegin o.bar false = .ok ⟨⟩ s2 →
    s2.rdS (kReg o.ka) = .ok a s3 → s3.rdS (kReg o.kb) = .ok b s4 → s4.dstReady (kReg o.kd) = .ok ⟨⟩ s5 →
    (s5.setS (kReg o.kd) (r a b)).lsignal o.bar = .ok ⟨⟩ t → exec (mk o) s = .next (finished (mk o) s1 t)

/-- A word whose meaning is `lbin` with f writes whatever result f is equal to. -/
theorem wordWrites_of_lbin {mk : LFormS → Instr} {f r : Word → Word → Word}
    (hx : ∀ o s, exec (mk o) s = lsync (mk o) o.bar s fun s => s.lbin o f) (hf : ∀ a b, f a b = r a b) : WordWrites mk r := by
  intro o s s1 s2 s3 s4 s5 t a b hr hb ha hb' hd hsig
  rw [hx]
  exact lsync_ok hr hb (State.binS_ok f ha hb' hd) (by rw [hf]; exact hsig)

/-- The branch of a row of R359 goes to its target where p holds of its two scalars, and on otherwise. -/
def WordBranches (mk : LFormS → Instr) (p : Word → Word → Prop) : Prop :=
  ∀ (o : LFormS) (s s1 s2 s3 s4 : State) (a b : Word), Ready (mk o) s s1 → s1.lbegin o.bar false = .ok ⟨⟩ s2 →
    s2.rdS (kReg o.ka) = .ok a s3 → s3.rdS (kReg o.kb) = .ok b s4 →
    (∀ t, ¬ p a b → s4.lsignal o.bar = .ok ⟨⟩ t → exec (mk o) s = .next (finished (mk o) s1 t)) ∧
    ∀ s5 t, p a b → s4.lbranch o.imm = .ok ⟨⟩ s5 → s5.lsignal o.bar = .ok ⟨⟩ t →
      exec (mk o) s = .next (finished (mk o) s1 t)

/-- A word whose meaning is `lcond` with f branches where f gives true. -/
theorem wordBranches_of_lcond {mk : LFormS → Instr} {f : Word → Word → Bool} {p : Word → Word → Prop}
    (hx : ∀ o s, exec (mk o) s = lsync (mk o) o.bar s fun s => s.lcond o f) (hf : ∀ a b, f a b = true ↔ p a b) :
    WordBranches mk p := by
  intro o s s1 s2 s3 s4 a b hr hb ha hb'
  have hcond : s2.lcond o f = if f a b then s4.lbranch o.imm else R.done s4 := by
    unfold State.lcond
    rw [ha, R.bind_ok, hb', R.bind_ok]
  rw [hx]
  refine ⟨fun t hp hsig => lsync_ok hr hb ?_ hsig, fun s5 t hp hto hsig => lsync_ok hr hb ?_ hsig⟩
  · exact hcond.trans (if_neg (mt (hf a b).1 hp))
  · rw [hcond, if_pos ((hf a b).2 hp), hto]

/-- A taken branch goes to a word of its kernel, or raises 0x01 (R359). -/
theorem State.lbranch_spec {s : State} {imm : BitVec 30} {j : Job} {r : Translation} {g : Image} {k : Kernel} {dest : Int}
    (hrun : s.runAt s.me s.cur.pc.toNat = some (j, r)) (himage : j.image = some g) (hkernel : g.kernels[r.kidx]? = some k)
    (hdest : dest = ((s.cur.pc.toNat - r.base) / 64 : Nat) - 1 + imm.toInt) :
    (0 ≤ dest → dest < (g.words k : Int) →
      s.lbranch imm = .ok ⟨⟩ (s.withNext (BitVec.ofNat 64 (r.base + 64 * (dest.toNat + 1))))) ∧
    (dest < 0 ∨ (g.words k : Int) ≤ dest → s.lbranch imm = .trap 0x01 0 s) := by
  unfold State.lbranch
  simp only [hrun, himage, hkernel, Option.bind_some, Option.map_some, Option.getD_some, ← hdest]
  refine ⟨fun hlow hhigh => if_neg ?_, fun hout => if_pos ?_⟩
  · simp only [Bool.or_eq_true, decide_eq_true_eq]
    omega
  · simpa only [Bool.or_eq_true, decide_eq_true_eq] using hout

/-- `kaddi` and `kli` (R359). -/
theorem kaddi_kli_spec :
    (∀ (o : LFormS) (s s1 s2 s3 s4 t : State) (a : Word), Ready (.kaddi o) s s1 → s1.lbegin o.bar false = .ok ⟨⟩ s2 →
      s2.rdS (kReg o.ka) = .ok a s3 → s3.dstReady (kReg o.kd) = .ok ⟨⟩ s4 →
      (s4.setS (kReg o.kd) (a + o.imm.signExtend 64)).lsignal o.bar = .ok ⟨⟩ t →
      exec (.kaddi o) s = .next (finished (.kaddi o) s1 t)) ∧
    ∀ (o : LFormS) (s s1 s2 s3 t : State), Ready (.kli o) s s1 → s1.lbegin o.bar false = .ok ⟨⟩ s2 →
      s2.dstReady (kReg o.kd) = .ok ⟨⟩ s3 → (s3.setS (kReg o.kd) (o.imm.signExtend 64)).lsignal o.bar = .ok ⟨⟩ t →
      exec (.kli o) s = .next (finished (.kli o) s1 t) := by
  refine ⟨fun o s s1 s2 s3 s4 t a hr hb ha hd hsig => ?_, fun o s s1 s2 s3 t hr hb hd hsig => ?_⟩
  · have hexec : exec (.kaddi o) s = execKaddi o s := rfl
    rw [hexec]
    refine lsync_ok hr hb ?_ hsig
    rw [State.unS, ha, R.bind_ok, State.wrS_ok _ hd]
  · have hexec : exec (.kli o) s = execKli o s := rfl
    rw [hexec]
    exact lsync_ok hr hb (State.wrS_ok _ hd) hsig

/-- `lshape` grants MT and NT, both 0 where it is asked for 0 (R357). -/
theorem lshape_spec (o : LFormS) (s s1 s2 s3 s4 s5 s6 t : State) (m n : Word) (mt nt : Nat) (hr : Ready (.lshape o) s s1)
    (hb : s1.lbegin o.bar false = .ok ⟨⟩ s2) (hm : s2.rdS (kReg o.ka) = .ok m s3) (hn : s3.rdS (kReg o.kb) = .ok n s4)
    (hmt : mt = (if m = 0 ∨ n = 0 then 0 else min m.toNat 64))
    (hnt : nt = (if m = 0 ∨ n = 0 then 0 else min n.toNat (1024 / fmtBits (o.imm.toNat % 32))))
    (hd : (s4.modCtx s4.me fun x => (x.setSreg 20 (BitVec.ofNat 64 mt)).setSreg 21 (BitVec.ofNat 64 nt)).dstReady (kReg o.kd) =
      .ok ⟨⟩ s5)
    (hd' : (s5.setS (kReg o.kd) (BitVec.ofNat 64 mt)).dstReady (kReg (o.imm.extractLsb' 5 5)) = .ok ⟨⟩ s6)
    (hsig : (s6.setS (kReg (o.imm.extractLsb' 5 5)) (BitVec.ofNat 64 nt)).lsignal o.bar = .ok ⟨⟩ t) :
    exec (.lshape o) s = .next (finished (.lshape o) s1 t) := by
  have hexec : exec (.lshape o) s = execLshape o s := rfl
  have hfmt : (o.imm.extractLsb' 0 5).toNat = o.imm.toNat % 32 := by rw [BitVec.extractLsb'_toNat, Nat.shiftRight_zero]
  rw [hexec]
  refine lsync_ok hr hb ?_ hsig
  simp only [hm, R.bind_ok, hn, Bool.or_eq_true, decide_eq_true_eq, colsOf, hfmt, w64, ← hmt, ← hnt]
  rw [State.wrS_ok _ hd, R.andThen_ok, State.wrS_ok _ hd']

/-- `lwait` and `kjmp` (R359, R364). -/
theorem lwait_kjmp_spec :
    (∀ (o : LFormS) (s s1 s2 t : State), Ready (.lwait o) s s1 → s1.lbegin o.bar false = .ok ⟨⟩ s2 →
      s2.lsignal o.bar = .ok ⟨⟩ t → exec (.lwait o) s = .next (finished (.lwait o) s1 t)) ∧
    ∀ (o : LFormS) (s s1 s2 s3 t : State), Ready (.kjmp o) s s1 → s1.lbegin o.bar false = .ok ⟨⟩ s2 →
      s2.lbranch o.imm = .ok ⟨⟩ s3 → s3.lsignal o.bar = .ok ⟨⟩ t → exec (.kjmp o) s = .next (finished (.kjmp o) s1 t) := by
  refine ⟨fun o s s1 s2 t hr hb hsig => ?_, fun o s s1 s2 s3 t hr hb hto hsig => ?_⟩
  · have hexec : exec (.lwait o) s = execLwait o s := rfl
    rw [hexec]
    exact lsync_ok hr hb rfl hsig
  · have hexec : exec (.kjmp o) s = execKjmp o s := rfl
    rw [hexec]
    exact lsync_ok hr hb hto hsig

/-- `lfence` waits for everything and fences far (R364, R369). -/
theorem lfence_spec (o : LFormX) (s s1 s2 s3 s4 t : State) (hr : Ready (.lfence o) s s1)
    (hb : s1.lbegin o.bar false = .ok ⟨⟩ s2) (hall : s2.waitAll = .ok ⟨⟩ s3) (hblocks : s3.vsyncs = .ok ⟨⟩ s4)
    (himp : s4.myCtx.imprecise = [])
    (hsig : ((scopeCores (coreOf s4.me) o.scp.toNat).foldl State.serialise (s4.acquire (coreOf s4.me) o.scp.toNat)).lsignal
      o.bar = .ok ⟨⟩ t) : exec (.lfence o) s = .next (finished (.lfence o) s1 t) := by
  have hexec : exec (.lfence o) s = execLfence o s := rfl
  rw [hexec]
  refine lsync_ok hr hb ?_ hsig
  rw [hall, R.andThen_ok, hblocks, R.andThen_ok, State.syncPoint_none s4 himp, R.andThen_ok]
  have hme : (s4.acquire (coreOf s4.me) o.scp.toNat).me = s4.me := State.acquire_me _ _ _
  dsimp only
  rw [hme]

end Sys2Proof.Machine
end

section
/-! The statement about Lortar, its tensor words and asynchronous operations (R351, R358, R360 to R367, R369, R380). -/

namespace Sys2Proof.Machine

/-! Elements in order (R358, R380). -/

/-- An elementwise word writes each active element in order (R358, R361). -/
theorem State.lmap_eq (s : State) (o : LFormX) (f : Nat → Nat → State → R (Nat × Flags)) : s.lmap o f =
    (lsteps (fun (e : Nat × Nat) s => (f e.1 e.2 s).bind fun v s =>
      (s.xWrite o.xd (fmtBits o.fmt.toNat / 8) e.1 e.2 v.1).andThen fun s => R.done (s.addFlags v.2))
      ((List.range s.mtOf).flatMap fun i => (List.range (min s.ntOf (1024 / fmtBits o.fmt.toNat))).map fun j => (i, j))
      0 s).andThen fun s => R.done s.ldone := rfl

/-- A step that is done already is passed over; another one is made, and counted when it is done (R380). -/
theorem lsteps_cons (f : Nat × Nat → State → R PUnit) (e : Nat × Nat) (r : List (Nat × Nat)) (n : Nat) (s t : State) :
    (n < s.myCtx.lrow → lsteps f (e :: r) n s = lsteps f r (n + 1) s) ∧
    (s.myCtx.lrow ≤ n → f e s = .ok ⟨⟩ t →
      lsteps f (e :: r) n s = lsteps f r (n + 1) (t.modCtx t.me fun x => { x with lrow := n + 1 })) ∧
    ∀ c v, s.myCtx.lrow ≤ n → f e s = .trap c v t → lsteps f (e :: r) n s = .trap c v t := by
  refine ⟨fun hdone => ?_, fun hto hf => ?_, fun c v hto hf => ?_⟩
  · rw [lsteps, if_pos hdone]
  · rw [lsteps, if_neg (Nat.not_lt.2 hto), hf, R.andThen_ok]
  · rw [lsteps, if_neg (Nat.not_lt.2 hto), hf, R.andThen_trap]

/-! Tensor words (R351, R358, R361, R362). -/

/-- `xbcast` (R361). -/
theorem xbcast_spec (o : LFormX) (s s1 s2 s3 s4 t : State) (a : Word) (hr : Ready (.xbcast o) s s1)
    (hb : s1.lbegin o.bar false = .ok ⟨⟩ s2) (ha : s2.rdS (kReg o.ka) = .ok a s3)
    (hmap : s3.lmap o (fun _ _ s => .ok (a.toNat % 2 ^ fmtBits o.fmt.toNat, 0) s) = .ok ⟨⟩ s4)
    (hsig : s4.lsignal o.bar = .ok ⟨⟩ t) : exec (.xbcast o) s = .next (finished (.xbcast o) s1 t) := by
  have hexec : exec (.xbcast o) s = execXbcast o s := rfl
  rw [hexec]
  exact lsync_ok hr hb (by rw [ha, R.bind_ok, hmap]) hsig

/-- The word of a row of R361 writes, for each active element, the integer or the floating result on its sources. -/
def Elementwise (mk : LFormX → Instr) (int : Bool → Bool → Nat → Nat → Nat → Nat)
    (flt : Nat → RMode → Bool → Nat → Nat → Nat → Nat × Flags) : Prop :=
  ∀ (o : LFormX) (s s1 s2 s3 t : State) (w : Nat), Ready (mk o) s s1 → s1.lbegin o.bar false = .ok ⟨⟩ s2 →
    w = fmtBits o.fmt.toNat / 8 →
    s2.lmap o (fun i j s => (s.xRead o.xa w i j).bind fun a s => (s.xRead o.xb w i j).bind fun b s =>
      if isIntFmt o.fmt.toNat then .ok (int (o.satm == 1) (isSignedFmt o.fmt.toNat) (8 * w) a b, 0) s
      else (s.xRead o.xd w i j).bind fun d s => .ok (flt o.fmt.toNat (rmOf o.rnd.toNat) false a b d) s) = .ok ⟨⟩ s3 →
    s3.lsignal o.bar = .ok ⟨⟩ t → exec (mk o) s = .next (finished (mk o) s1 t)

/-- A word whose meaning is `lelem` with these results is elementwise. -/
theorem elementwise_of_lelem {mk : LFormX → Instr} {int : Bool → Bool → Nat → Nat → Nat → Nat}
    {flt : Nat → RMode → Bool → Nat → Nat → Nat → Nat × Flags}
    (hx : ∀ o s, exec (mk o) s = lsync (mk o) o.bar s fun s => s.lelem o (int (o.satm == 1)) flt) : Elementwise mk int flt := by
  intro o s s1 s2 s3 t w hr hb hw hmap hsig
  subst hw
  rw [hx]
  exact lsync_ok hr hb hmap hsig

/-- `xadd`, saturating or not by whether its bit is 1 (R361). -/
theorem execXadd_eq (o : LFormX) (s : State) : exec (.xadd o) s = lsync (.xadd o) o.bar s fun s =>
    s.lelem o (if (o.satm == 1) = true then ivSadd else ivAdd) fun f m z a b _ => farith .add f m z a b 0 := by
  simp only [beq_iff_eq]
  rfl

/-- `xsub`, saturating or not by whether its bit is 1 (R361). -/
theorem execXsub_eq (o : LFormX) (s : State) : exec (.xsub o) s = lsync (.xsub o) o.bar s fun s =>
    s.lelem o (if (o.satm == 1) = true then ivSsub else ivSub) fun f m z a b _ => farith .sub f m z a b 0 := by
  simp only [beq_iff_eq]
  rfl

/-- `xcvt` reads each row whole and writes its converted codes (R358, R362, R369). -/
theorem xcvt_spec (o : LFormX) (s s1 s2 : State) (hr : Ready (.xcvt o) s s1) (hb : s1.lbegin o.bar false = .ok ⟨⟩ s2)
    (hconv : convertible o.fmt.toNat o.ka.toNat = true) (s3 t : State) (cols : Nat)
    (hcols : cols = min s2.ntOf (min (1024 / fmtBits o.ka.toNat) (1024 / fmtBits o.fmt.toNat)))
    (hsteps : lsteps (fun (i : Nat) (s : State) =>
      (R.gather (List.range cols) s fun j s => s.xRead o.xa (fmtBits o.fmt.toNat / 8) i j).bind
        fun vs s => R.each ((List.range cols).zip vs) s fun p s =>
          (s.xWrite o.xd (fmtBits o.ka.toNat / 8) i p.1 (convert o.fmt.toNat none o.ka.toNat none (rmOf o.rnd.toNat) 0
            (o.satm == 1) false p.2).1).andThen fun s => R.done (s.addFlags (convert o.fmt.toNat none o.ka.toNat none
              (rmOf o.rnd.toNat) 0 (o.satm == 1) false p.2).2)) (List.range s2.mtOf) 0 s2 = .ok ⟨⟩ s3)
    (hsig : s3.ldone.lsignal o.bar = .ok ⟨⟩ t) : exec (.xcvt o) s = .next (finished (.xcvt o) s1 t) := by
  have hexec : exec (.xcvt o) s = execXcvt o s := rfl
  subst hcols
  rw [hexec]
  refine lsync_ok hr hb ?_ hsig
  simp only [hconv, Bool.not_true, Bool.false_eq_true, if_false]
  exact congrArg (R.andThen · fun s => R.done s.ldone) hsteps

/-! Asynchronous operations (R360, R363, R365 to R367). -/

/-- The word of a row of R360 begins, reads its base and stride, waits by its order, and issues its operation. -/
def Issues (mk : LFormX → Instr) (kind : Nat) : Prop :=
  ∀ (o : LFormX) (s s1 s2 s3 s4 s5 t : State) (a b : Word), Ready (mk o) s s1 → s1.lbegin o.bar true = .ok ⟨⟩ s2 →
    s2.rdS (kReg o.ka) = .ok a s3 → s3.rdS (kReg o.kb) = .ok b s4 → s4.ordBefore o.ord = .ok ⟨⟩ s5 →
    s5.lasync kind o a b = .ok ⟨⟩ t → exec (mk o) s = .next (finished (mk o) s1 t)

/-- A word with the meaning of a row of R360. -/
theorem issues_of_meaning {mk : LFormX → Instr} {kind : Nat}
    (hx : ∀ o s, exec (mk o) s = issue (mk o) s fun s => (s.lbegin o.bar true).andThen fun s =>
      (s.rdS (kReg o.ka)).bind fun a s => (s.rdS (kReg o.kb)).bind fun b s =>
        (s.ordBefore o.ord).andThen fun s => s.lasync kind o a b) : Issues mk kind := by
  intro o s s1 s2 s3 s4 s5 t a b hr hb ha hb' hord hgo
  rw [hx]
  exact issue_ok hr (by rw [hb, R.andThen_ok, ha, R.bind_ok, hb', R.bind_ok, hord, R.andThen_ok, hgo])

/-- `xmma` needs the claim of its kernel (R317, R322, R363, R369). -/
theorem xmma_spec (o : LFormX) (s s1 s2 s3 : State) (k : Word) (hr : Ready (.xmma o) s s1)
    (hb : s1.lbegin o.bar true = .ok ⟨⟩ s2) (hk : s2.tileScratched.rdS (kReg o.ka) = .ok k s3) :
    (s3.myCtx.revoked = true → exec (.xmma o) s = .next (s3.dropAnswers.takeCause 0x66 0)) ∧
    (s3.myCtx.revoked = false → s3.myCtx.rowsGranted = 0 → exec (.xmma o) s = .next (s3.dropAnswers.takeCause 0x65 0)) ∧
    ∀ t, s3.myCtx.revoked = false → s3.myCtx.rowsGranted ≠ 0 →
      s3.lasync 2 o 0 (BitVec.ofNat 64 (min k.toNat (1024 / fmtBits o.fmt.toNat))) = .ok ⟨⟩ t →
      exec (.xmma o) s = .next (finished (.xmma o) s1 t) := by
  have hexec : exec (.xmma o) s = execXmma o s := rfl
  rw [hexec]
  unfold execXmma
  refine ⟨fun hrev => issue_trap hr ?_, fun hrev hrows => issue_trap hr ?_, fun t hrev hrows hgo => issue_ok hr ?_⟩
  · simp only [hb, R.andThen_ok, hk, R.bind_ok, hrev, if_true]
  · simp only [hb, R.andThen_ok, hk, R.bind_ok, hrev, Bool.false_eq_true, if_false, hrows, if_true]
  · simp only [hb, R.andThen_ok, hk, R.bind_ok, hrev, Bool.false_eq_true, if_false, hrows]
    exact hgo

/-- An operation that has issued takes its place in its slot (R365 to R367). -/
theorem State.lasync_ok {s s1 s2 s3 : State} {kind n : Nat} {o : LFormX} {base stride : Word} {q q' : LOp}
    (hat : s.lopAt kind o base stride = (q, s1)) (hissue : State.lopIssue q.rest q s1 = .ok q' s2)
    (hcount : s2.countOp q'.slot = .ok n s3) :
    s.lasync kind o base stride = .ok ⟨⟩ ((if o.ord = 1 then s3.acquire (coreOf s3.me) o.scp.toNat else s3).keepLop
      { q' with num := n }) := by
  unfold State.lasync
  rw [hat]
  dsimp only
  rw [hissue, R.bind_ok, hcount, R.bind_ok]

/-- The issue of one element of an operation: made now, or checked and left for later; at a cause the elements below are done
first (R277, R360, R366). -/
theorem State.lopIssue_cons {q p : LOp} {s t : State} {e : Nat × Nat} {r : List (Nat × Nat)} (hp : p = { q with rest := e :: r }) :
    (p.early e = true → s.lopOne p e = .ok ⟨⟩ t → State.lopIssue (e :: r) q s = State.lopIssue r p t) ∧
    (p.early e = false → s.lopCheck p e = .ok ⟨⟩ t →
      State.lopIssue (e :: r) q s = State.lopIssue r { p with todo := p.todo ++ [e] } t) ∧
    ∀ c v u, (if p.early e then s.lopOne p e else s.lopCheck p e) = .trap c v t → State.lopRun p p.todo t = .ok ⟨⟩ u →
      State.lopIssue (e :: r) q s = .trap c v (u.keepLop { p with todo := [] }) := by
  subst hp
  rw [State.lopIssue]
  refine ⟨fun hnow hone => ?_, fun hlater hcheck => ?_, fun c v u hcause hrun => ?_⟩
  · simp only [hnow, if_true, hone]
  · simp only [hlater, Bool.false_eq_true, if_false, hcheck]
  · dsimp only at hrun ⊢
    rw [hcause]
    dsimp only
    rw [hrun, R.bind_ok]

/-- An operation may complete once it has issued, a releasing store once those before it have (R365, R367). -/
theorem Ctx.lopReady_of {x : Ctx} {q : LOp} (hnum : q.num ≠ 0) (hord : q.form.ord ≠ 2 ∨ ∀ p ∈ x.lops, q.id ≤ p.id) :
    x.lopReady q = true := by
  unfold Ctx.lopReady
  simp only [Bool.and_eq_true, Bool.or_eq_true, bne_iff_ne, List.all_eq_true, decide_eq_true_eq]
  exact ⟨hnum, hord⟩

/-- LORTAR_ASYNC_COMPLETE (R365, R380). -/
theorem lortarAsyncComplete_spec {c id : Nat} {s : State} {q : LOp} (hq : (s.ctx c).lops.find? (·.id == id) = some q)
    (hstate : slotState (s.slot c) = 1) (hnum : q.num ≠ 0) (hord : q.form.ord ≠ 2 ∨ ∀ p ∈ (s.ctx c).lops, q.id ≤ p.id) :
    (∀ t, State.lopRun q q.todo { s with cur := q.latch c } = .ok ⟨⟩ t →
      exec (.lortarAsyncComplete c id) s = .next ((t.dropAnswers.modCtx c fun x =>
        { x with lops := x.lops.filter (·.id != id) }).complete c (some ⟨q.slot, q.num, 0⟩))) ∧
    ∀ k v t, State.lopRun q q.todo { s with cur := q.latch c } = .trap k v t →
      exec (.lortarAsyncComplete c id) s = .next (t.dropAnswers.later (.trapDelivery ⟨c, .ctl⟩ k v false)) := by
  have hexec : exec (.lortarAsyncComplete c id) s = execLortarAsyncComplete c id s := rfl
  rw [hexec]
  unfold execLortarAsyncComplete
  simp only [hq, hstate, Ctx.lopReady_of hnum hord, bne_self_eq_false, Bool.not_true, Bool.or_self, Bool.false_eq_true, if_false]
  refine ⟨fun t hrun => ?_, fun k v t hrun => ?_⟩
  · simp only [hrun]
    rfl
  · simp only [hrun]

/-- `kend` waits for everything and leaves the kernel (R364, R369, R380). -/
theorem kend_spec (o : LFormS) (s s1 s2 s3 s4 t : State) (hr : Ready (.kend o) s s1) (hb : s1.lbegin o.bar false = .ok ⟨⟩ s2)
    (hall : s2.waitAll = .ok ⟨⟩ s3) (hblocks : s3.vsyncs = .ok ⟨⟩ s4) (hexit : s4.lortarExit = .ok ⟨⟩ t) :
    exec (.kend o) s = .next ((finished (.kend o) s1 t).settleHalt s.me) := by
  have hexec : exec (.kend o) s = execKend o s := rfl
  have hissue : issue (.kend o) s (fun s => (s.lbegin o.bar false).andThen fun s => s.waitAll.andThen fun s =>
      s.vsyncs.andThen State.lortarExit) = .next (finished (.kend o) s1 t) :=
    issue_ok hr (by rw [hb, R.andThen_ok, hall, R.andThen_ok, hblocks, R.andThen_ok, hexit])
  rw [hexec]
  unfold execKend
  exact congrArg (fun x => Host.Outcome.next (State.settleHalt x s.me)) (Host.Outcome.next.inj hissue)

/-- Settles O44: scalar words by their row, tensor words by their elements in order, asynchronous operations by their issue and
their completion. -/
theorem lortarWordsRun : Obligations.LortarWordsRun := by
  unfold Obligations.LortarWordsRun
  refine ⟨⟨fun b async s s1 h => State.lbegin_spec h, State.scratched_spec, fun k => rfl, ?_, kaddi_kli_spec.1, kaddi_kli_spec.2,
      ?_, lwait_kjmp_spec.2, fun s imm j r g k dest hrun himage hkernel hdest => State.lbranch_spec hrun himage hkernel hdest,
      lshape_spec, lwait_kjmp_spec.1, lfence_spec⟩,
    State.lmap_eq, lsteps_cons, xbcast_spec, ?_, xcvt_spec, ?_, xmma_spec,
    fun s s1 s2 s3 kind n o base stride q q' hat hissue hcount => State.lasync_ok hat hissue hcount,
    fun q p s t e r hp => State.lopIssue_cons hp,
    fun c id s q hq hstate hnum hord => lortarAsyncComplete_spec hq hstate hnum hord, kend_spec⟩
  · show ∀ row ∈ (_ : List ((LFormS → Instr) × (Word → Word → Word))), WordWrites row.1 row.2
    simp only [List.forall_mem_cons, List.not_mem_nil, false_implies, implies_true, and_true]
    exact ⟨wordWrites_of_lbin (fun _ _ => rfl) BitVec.add_def, wordWrites_of_lbin (fun _ _ => rfl) sub_eq_ofInt,
      wordWrites_of_lbin (fun _ _ => rfl) mul_eq_ofNat, wordWrites_of_lbin (fun _ _ => rfl) fun _ _ => rfl,
      wordWrites_of_lbin (fun _ _ => rfl) fun _ _ => rfl, wordWrites_of_lbin (fun _ _ => rfl) fun _ _ => rfl,
      wordWrites_of_lbin (fun _ _ => rfl) sllW_eq_ofNat, wordWrites_of_lbin (fun _ _ => rfl) srlW_eq_ofNat,
      wordWrites_of_lbin (fun _ _ => rfl) sraW_eq_ofInt, wordWrites_of_lbin (fun _ _ => rfl) boolWord_slt⟩
  · show ∀ row ∈ (_ : List ((LFormS → Instr) × (Word → Word → Prop))), WordBranches row.1 row.2
    simp only [List.forall_mem_cons, List.not_mem_nil, false_implies, implies_true, and_true]
    exact ⟨wordBranches_of_lcond (fun _ _ => rfl) fun _ _ => beq_iff_eq,
      wordBranches_of_lcond (fun _ _ => rfl) fun _ _ => bne_iff_ne,
      wordBranches_of_lcond (fun _ _ => rfl) fun _ _ => by simp [BitVec.slt],
      wordBranches_of_lcond (fun _ _ => rfl) fun _ _ => by simp [BitVec.slt]⟩
  · show ∀ row ∈ (_ : List ((LFormX → Instr) × (Bool → Bool → Nat → Nat → Nat → Nat) ×
      (Nat → RMode → Bool → Nat → Nat → Nat → Nat × Flags))), Elementwise row.1 row.2.1 row.2.2
    simp only [List.forall_mem_cons, List.not_mem_nil, false_implies, implies_true, and_true]
    exact ⟨elementwise_of_lelem execXadd_eq, elementwise_of_lelem execXsub_eq,
      elementwise_of_lelem fun _ _ => rfl, elementwise_of_lelem fun _ _ => rfl, elementwise_of_lelem fun _ _ => rfl,
      elementwise_of_lelem fun _ _ => rfl⟩
  · show ∀ row ∈ (_ : List ((LFormX → Instr) × Nat)), Issues row.1 row.2
    simp only [List.forall_mem_cons, List.not_mem_nil, false_implies, implies_true, and_true]
    exact ⟨issues_of_meaning fun _ _ => rfl, issues_of_meaning fun _ _ => rfl⟩

end Sys2Proof.Machine
end
